-- ==== Sys2Proof/Word.lean ====
section
/-! DEFINITION. The words of the Shohorn W1 and their plainest arithmetic (00_scope R5, R9). -/

namespace Sys2Proof

/-- A byte of SRAM or module memory (R5). -/
abbrev Byte := BitVec 8
/-- A general register, address or counter (R28). -/
abbrev Word := BitVec 64
/-- The 512 element bits of a vector register (R28, R34). -/
abbrev VWord := BitVec 512
/-- A 64-byte code line (R129). -/
abbrev Line := BitVec 512
/-- The index y × 1152 + x of a core in the logical grid (R13, R354). -/
abbrev CoreId := Nat

end Sys2Proof
end

