-- ==== Sys2Proof/Config.lean ====
section
/-! DEFINITION. The free values of the model: values the spec leaves open (which of the concurrent events comes
next, how much time passes between two readings of a clock, bytes in a layout the spec keeps to itself). They have no
body, so no proof can rest on a value of them (entries 4 to 7 and 9 of the assumption log). -/

namespace Sys2Proof.Config

/-- Which of several enabled events is next, when the agenda says nothing (R65, R126, R278): the index, taken
modulo the number of candidates, by a counter of State. -/
opaque choose : Nat → Nat

/-- How many counts of the 1 GHz field counter pass before a reading of it (R185), by a counter of State. -/
opaque ticks : Nat → BitVec 64

/-- Which corner among those the rules leave open, and any other word the spec leaves open, by a counter of State. -/
opaque word : Nat → BitVec 64

/-- Memory of another module (R401) as a read through the remote window finds it, by a counter of State and the address. -/
opaque remote : Nat → Nat → BitVec 64

/-- Words 1 and 2 of an order log record (R389), by KIND, word and what they name: the spec gives their contents and not
their bits. -/
opaque logWord : Nat → Nat → Nat → BitVec 64

/-- The signature octets of an attestation quote (R377), by the words of the public key, the leaf, the quote and the octet: RFC
8554 fixes them from a private seed that never leaves the module (R376), so nothing constrains them here. -/
opaque signature : List (BitVec 64) → Nat → List (BitVec 8) → Nat → BitVec 8

/-- The octets of the SHA-256 of the fused repair maps (R377), by the repair words of every row in order of fields: the spec gives
no layout for what is hashed. -/
opaque repairDigest : List (BitVec 64) → Nat → BitVec 8

/-- How many messages an arrival queue holds before it is full (R306), which the spec does not say. -/
opaque arrivalDepth : Nat

end Sys2Proof.Config
end

