-- ==== Sys2Proof/Syntax.lean ====
section
/-! DEFINITION. The steps of the W1 as syntax: one constructor of `Instr` for each row of spec/opcode_table.json, the
encoded instructions (05 to 09, 13) and the events (95). Register numbers and codes are constructors here; raw bits
are met in Decode only. -/

namespace Sys2Proof

/-- Integer type codes 0 to 7 (R142). -/
inductive IntTy where | i64 | i32 | i16 | i8 | n64 | n32 | n16 | n8
  deriving DecidableEq, Repr

/-- Floating formats of the vector unit (R142, class VEC). -/
inductive FpTy where | f32 | f64 | f16 | bf16
  deriving DecidableEq, Repr

/-- Rounding suffixes (R49). -/
inductive Rnd where | rne | rtz | rup | rdn | rna
  deriving DecidableEq, Repr

/-- Block formats (R142, class BLK). -/
inductive BlkTy where | pb8 | pb4
  deriving DecidableEq, Repr

/-- Full type codes 0 to 21 (R143). -/
inductive FullTy where
  | i64 | i32 | i16 | i8 | n64 | n32 | n16 | n8 | f32 | f64 | f16 | bf16 | e4 | e5 | pb8 | pb4
  | mx8e4 | mx8e5 | mx4 | mxi8 | mx6e2 | mx6e3
  deriving DecidableEq, Repr

/-- Lane type without a rounding (R142, class VNR). -/
inductive VTy where | fp (f : FpTy) | int (t : IntTy)
  deriving DecidableEq, Repr

/-- Lane type with its rounding (R142, class VEC). -/
inductive VMod where | fp (f : FpTy) (r : Rnd) | int (t : IntTy)
  deriving DecidableEq, Repr

/-- Conditions of CMP and BCMP (R140). -/
inductive Cond where | eq | ne | lt | le | gt | ge
  deriving DecidableEq, Repr

/-- Conditions of VCMP (R140). -/
inductive VCond where | eq | ne | lt | le | gt | ge | un | ord
  deriving DecidableEq, Repr

/-- Ordering scopes (R124). -/
inductive Scope where | core | field | dev | sys
  deriving DecidableEq, Repr

/-- Ordering kinds (R142). -/
inductive Kind where | none | acq | rel | full
  deriving DecidableEq, Repr

/-- Message classes that a SEND may name (R142, class MSG). -/
inductive MsgCls where | req | rsp | sys
  deriving DecidableEq, Repr

/-- Operations of AMO and AMOG (R140). -/
inductive AmoOp where | add | swap | cas | and | or | xor | min | max
  deriving DecidableEq, Repr

/-- Width types of AMO and AMOG (R142). -/
inductive AmoTy where | i64 | i32 | n64 | n32
  deriving DecidableEq, Repr

/-- Windows as APTEST names them (R140). -/
inductive Window where | glob | loc | berth
  deriving DecidableEq, Repr

/-- Conversions of APCVT (R140). -/
inductive ApKind where | ofs | loc | brt
  deriving DecidableEq, Repr

/-- Bitwise operations of VLOG (R140). -/
inductive VLogOp where | and | or | xor | andn | not
  deriving DecidableEq, Repr

/-- Shifts of VSH (R140). -/
inductive VShOp where | shl | shr | sar | rot
  deriving DecidableEq, Repr

/-- Functions of VFN (R140). -/
inductive VFun where | exp | exp2 | log | log2 | sin | cos | tanh | rsqrt | recip | erf | sigmoid
  deriving DecidableEq, Repr

/-- Reductions of VRED (R140). -/
inductive VRedOp where | sum | min | max | and | or
  deriving DecidableEq, Repr

/-- Forms of SCAN (R142, class SCN). -/
inductive ScanForm where | byRule | chk | stp
  deriving DecidableEq, Repr

/-- A G-class operand: a general or a channel register (R137). -/
inductive GOp where | g (n : Fin 32) | c (n : Fin 8)
  deriving DecidableEq, Repr

/-- A guard: a predicate and its negation (R135). -/
structure Guard where
  p : Fin 8
  neg : Bool
  deriving DecidableEq, Repr

/-- The guard that always holds: G = 0, N = 0. -/
def Guard.always : Guard := ⟨0, false⟩

/-- An immediate of a T48 or a T64 tail (R134). -/
inductive Imm where | i16 (v : BitVec 16) | i32 (v : BitVec 32)
  deriving DecidableEq, Repr

/-- A second source: a register (TL 1, 2) or an immediate (TL 3, 4). -/
inductive Src where | reg (r : GOp) | imm (v : Imm)
  deriving DecidableEq, Repr

/-- A source that is a register in TL 2 and imm16 in TL 3. -/
inductive R16 where | reg (r : GOp) | imm (v : BitVec 16)
  deriving DecidableEq, Repr

/-- Sync word of an asynchronous command (R136). -/
structure Sync where
  inc : BitVec 8
  ssem : BitVec 8
  thr : BitVec 8
  wsem : BitVec 8
  deriving DecidableEq, Repr

/-- Counter word of a T128 command (R224). -/
structure Ctr where
  creg : BitVec 6
  cinc : BitVec 26
  deriving DecidableEq, Repr

/-- Two-source integer forms (R158). -/
structure Alu2 where
  q : Guard
  t : IntTy
  d : GOp
  a : GOp
  b : Src
  deriving DecidableEq, Repr

/-- One-source integer forms (R160). -/
structure Alu1 where
  q : Guard
  t : IntTy
  d : GOp
  a : GOp
  deriving DecidableEq, Repr

structure CmpF where
  q : Guard
  cond : Cond
  t : IntTy
  d : Fin 8
  a : GOp
  b : Src
  deriving DecidableEq, Repr

structure SelF where
  q : Guard
  d : GOp
  a : GOp
  b : GOp
  c : Fin 8
  deriving DecidableEq, Repr

structure MoviF where
  q : Guard
  t : IntTy
  d : GOp
  v : Imm
  deriving DecidableEq, Repr

structure MovhiF where
  q : Guard
  d : GOp
  v : BitVec 32
  deriving DecidableEq, Repr

/-- BFX and BFI: `signed` is `.i64`, otherwise `.n64` (R166). -/
structure BitF where
  q : Guard
  signed : Bool
  d : GOp
  a : GOp
  lo : BitVec 6
  len : BitVec 7
  deriving DecidableEq, Repr

/-- Shift and displacement of LEA (R167). -/
inductive LeaSD where
  | plain
  | s16 (s : BitVec 4) (d : BitVec 12)
  | s32 (s : BitVec 4) (d : BitVec 28)
  deriving DecidableEq, Repr

structure LeaF where
  q : Guard
  d : GOp
  a : GOp
  b : GOp
  sd : LeaSD
  deriving DecidableEq, Repr

structure MadrF where
  q : Guard
  t : IntTy
  d : GOp
  a : GOp
  b : GOp
  c : GOp
  deriving DecidableEq, Repr

/-- A guarded form with a G destination and a G source. -/
structure GG where
  q : Guard
  d : GOp
  a : GOp
  deriving DecidableEq, Repr

structure PPP where
  q : Guard
  d : Fin 8
  a : Fin 8
  b : Fin 8
  deriving DecidableEq, Repr

structure PP where
  q : Guard
  d : Fin 8
  a : Fin 8
  deriving DecidableEq, Repr

structure PmovF where
  q : Guard
  d : Fin 8
  a : GOp
  deriving DecidableEq, Repr

structure PanyF where
  q : Guard
  d : GOp
  a : Fin 8
  deriving DecidableEq, Repr

structure BcmpF where
  q : Guard
  cond : Cond
  t : IntTy
  d : GOp
  a : GOp
  off : BitVec 32
  deriving DecidableEq, Repr

/-- A guarded form with one G field. -/
structure G1 where
  q : Guard
  a : GOp
  deriving DecidableEq, Repr

/-- A guarded form with two G sources. -/
structure G2 where
  q : Guard
  a : GOp
  b : GOp
  deriving DecidableEq, Repr

structure AptestF where
  q : Guard
  w : Window
  d : Fin 8
  a : GOp
  deriving DecidableEq, Repr

structure ApcvtF where
  q : Guard
  k : ApKind
  d : GOp
  a : GOp
  deriving DecidableEq, Repr

structure V3 where
  q : Guard
  m : VMod
  d : Fin 16
  a : Fin 16
  b : Fin 16
  deriving DecidableEq, Repr

structure V4 where
  q : Guard
  m : VMod
  d : Fin 16
  a : Fin 16
  b : Fin 16
  c : Fin 16
  deriving DecidableEq, Repr

structure V2 where
  q : Guard
  m : VMod
  d : Fin 16
  a : Fin 16
  deriving DecidableEq, Repr

structure VF3 where
  q : Guard
  f : FpTy
  r : Rnd
  d : Fin 16
  a : Fin 16
  b : Fin 16
  deriving DecidableEq, Repr

structure VF2 where
  q : Guard
  f : FpTy
  r : Rnd
  d : Fin 16
  a : Fin 16
  deriving DecidableEq, Repr

structure VN3 where
  q : Guard
  t : VTy
  d : Fin 16
  a : Fin 16
  b : Fin 16
  deriving DecidableEq, Repr

structure VN2 where
  q : Guard
  t : VTy
  d : Fin 16
  a : Fin 16
  deriving DecidableEq, Repr

structure VcmpF where
  q : Guard
  cond : VCond
  t : VTy
  tot : Bool
  d : Fin 8
  a : Fin 16
  b : Fin 16
  deriving DecidableEq, Repr

structure VselF where
  q : Guard
  t : VTy
  d : Fin 16
  a : Fin 16
  b : Fin 16
  c : Fin 8
  deriving DecidableEq, Repr

structure VlogF where
  q : Guard
  op : VLogOp
  t : IntTy
  d : Fin 16
  a : Fin 16
  b : Fin 16
  deriving DecidableEq, Repr

structure VshF where
  q : Guard
  op : VShOp
  t : IntTy
  d : Fin 16
  a : Fin 16
  b : Fin 16
  deriving DecidableEq, Repr

/-- B field of VCVT, by the widths of the conversion (R200). -/
inductive CvtB where | none | v (n : Fin 16) | g (r : GOp)
  deriving DecidableEq, Repr

structure VcvtF where
  q : Guard
  dst : FullTy
  src : FullTy
  r : Rnd
  d : Fin 16
  a : Fin 16
  b : CvtB
  deriving DecidableEq, Repr

structure VfnF where
  q : Guard
  fn : VFun
  f : FpTy
  r : Rnd
  d : Fin 16
  a : Fin 16
  deriving DecidableEq, Repr

structure VredF where
  q : Guard
  op : VRedOp
  m : VMod
  d : Fin 16
  a : Fin 16
  deriving DecidableEq, Repr

structure VbcastF where
  q : Guard
  t : VTy
  d : Fin 16
  b : Src
  deriving DecidableEq, Repr

structure VextF where
  q : Guard
  t : VTy
  d : GOp
  a : Fin 16
  b : GOp
  deriving DecidableEq, Repr

structure VinsF where
  q : Guard
  t : VTy
  d : Fin 16
  a : GOp
  b : GOp
  deriving DecidableEq, Repr

structure VclassF where
  q : Guard
  f : FpTy
  d : Fin 16
  a : Fin 16
  deriving DecidableEq, Repr

structure B3 where
  q : Guard
  k : BlkTy
  d : Fin 16
  a : Fin 16
  b : Fin 16
  deriving DecidableEq, Repr

structure B4 where
  q : Guard
  k : BlkTy
  d : Fin 16
  a : Fin 16
  b : Fin 16
  c : Fin 16
  deriving DecidableEq, Repr

structure B2 where
  q : Guard
  k : BlkTy
  d : Fin 16
  a : Fin 16
  deriving DecidableEq, Repr

structure BrenormF where
  q : Guard
  k : BlkTy
  d : Fin 16
  a : Fin 16
  b : GOp
  deriving DecidableEq, Repr

structure BquantF where
  q : Guard
  k : BlkTy
  f : FpTy
  d : Fin 16
  a : Fin 16
  b : Fin 16
  c : GOp
  deriving DecidableEq, Repr

/-- BDEQ and the TL 2 form of BSCALE. -/
structure BfgF where
  q : Guard
  k : BlkTy
  f : FpTy
  d : Fin 16
  a : Fin 16
  b : GOp
  deriving DecidableEq, Repr

structure BscaleKF where
  q : Guard
  k : BlkTy
  d : Fin 16
  a : Fin 16
  e : BitVec 16
  deriving DecidableEq, Repr

structure McfgF where
  q : Guard
  t : FullTy
  d : Fin 4
  flags : BitVec 16
  deriving DecidableEq, Repr

structure MrunF where
  q : Guard
  d : Fin 4
  imm : BitVec 32
  sync : Sync
  ctr : Option Ctr
  deriving DecidableEq, Repr

structure MfeedF where
  q : Guard
  d : GOp
  a : GOp
  b : Fin 4
  imm : BitVec 32
  sync : Sync
  ctr : Option Ctr
  deriving DecidableEq, Repr

structure MzeroF where
  q : Guard
  d : Fin 4
  deriving DecidableEq, Repr

structure MloadF where
  q : Guard
  d : Fin 4
  a : GOp
  b : GOp
  deriving DecidableEq, Repr

structure MdrainVF where
  q : Guard
  d : Fin 16
  a : Fin 4
  b : GOp
  deriving DecidableEq, Repr

structure MdrainSF where
  q : Guard
  a : Fin 4
  b : GOp
  c : GOp
  deriving DecidableEq, Repr

structure MstatF where
  q : Guard
  d : GOp
  a : Fin 4
  deriving DecidableEq, Repr

structure ScancfgF where
  q : Guard
  src : R16
  deriving DecidableEq, Repr

structure ScanF where
  q : Guard
  form : ScanForm
  d : Fin 8
  a : Fin 8
  b : Fin 8
  c : Fin 8
  len : BitVec 32
  sync : Sync
  ctr : Option Ctr
  deriving DecidableEq, Repr

structure LdF where
  q : Guard
  t : IntTy
  d : GOp
  a : GOp
  o : Src
  deriving DecidableEq, Repr

structure LdsF where
  q : Guard
  t : IntTy
  clr : Bool
  d : GOp
  a : GOp
  o : Src
  deriving DecidableEq, Repr

structure FesetF where
  q : Guard
  a : GOp
  n : R16
  deriving DecidableEq, Repr

structure FetestF where
  q : Guard
  d : GOp
  a : GOp
  n : R16
  deriving DecidableEq, Repr

structure LdvF where
  q : Guard
  d : Fin 16
  a : GOp
  o : Src
  deriving DecidableEq, Repr

structure LdbF where
  q : Guard
  k : BlkTy
  d : Fin 16
  a : GOp
  b : GOp
  off : Option Imm
  deriving DecidableEq, Repr

/-- LDG and STG; `ord` is the scope of `.acq` or `.rel`. -/
structure LdgF where
  q : Guard
  t : IntTy
  ord : Option Scope
  d : GOp
  a : GOp
  o : Src
  deriving DecidableEq, Repr

structure LdgvF where
  q : Guard
  ord : Option Scope
  d : Fin 16
  a : GOp
  o : Src
  deriving DecidableEq, Repr

structure AmoF where
  q : Guard
  op : AmoOp
  t : AmoTy
  d : GOp
  a : GOp
  b : GOp
  c : GOp
  off : Option (BitVec 16)
  deriving DecidableEq, Repr

structure AmogF where
  q : Guard
  op : AmoOp
  t : AmoTy
  kind : Kind
  scope : Scope
  d : GOp
  a : GOp
  b : GOp
  c : GOp
  off : Option (BitVec 16)
  deriving DecidableEq, Repr

structure FenceF where
  q : Guard
  kind : Kind
  scope : Scope
  deriving DecidableEq, Repr

structure MonF where
  q : Guard
  a : GOp
  o : R16
  deriving DecidableEq, Repr

structure MwaitF where
  q : Guard
  d : GOp
  t : R16
  deriving DecidableEq, Repr

structure SendF where
  q : Guard
  cls : MsgCls
  d : GOp
  a : GOp
  b : GOp
  c : GOp
  tag : Option (BitVec 16)
  deriving DecidableEq, Repr

structure SendvF where
  q : Guard
  cls : MsgCls
  d : GOp
  a : GOp
  tag : Option (BitVec 16)
  deriving DecidableEq, Repr

structure SendbF where
  q : Guard
  lock : Bool
  k : BlkTy
  cls : MsgCls
  d : GOp
  a : Fin 16
  tag : Option (BitVec 16)
  deriving DecidableEq, Repr

structure TagsetF where
  q : Guard
  t : R16
  a : GOp
  deriving DecidableEq, Repr

structure TaggetF where
  q : Guard
  d : GOp
  t : R16
  deriving DecidableEq, Repr

inductive ChkSrc where | chan (n : Fin 8) | mask (m : BitVec 16)
  deriving DecidableEq, Repr

structure ChkF where
  q : Guard
  d : GOp
  s : ChkSrc
  deriving DecidableEq, Repr

/-- Increment or threshold of SEMSIG and SEMWAIT (R261). -/
inductive SemArg where | imm (v : BitVec 8) | reg (r : GOp)
  deriving DecidableEq, Repr

structure SemsigF where
  q : Guard
  n : BitVec 8
  i : SemArg
  deriving DecidableEq, Repr

structure SemwaitF where
  q : Guard
  d : GOp
  n : BitVec 8
  i : SemArg
  deriving DecidableEq, Repr

structure SemgetF where
  q : Guard
  d : GOp
  n : BitVec 8
  deriving DecidableEq, Repr

structure SemsetF where
  q : Guard
  n : BitVec 8
  a : GOp
  deriving DecidableEq, Repr

structure ShapeF where
  q : Guard
  d : Fin 8
  a : GOp
  deriving DecidableEq, Repr

structure CopyF where
  q : Guard
  fb : Bool
  a : Fin 8
  b : Fin 8
  c : GOp
  d : GOp
  cmd : Option (Sync × Option Ctr)
  deriving DecidableEq, Repr

structure CopyRingF where
  q : Guard
  d : GOp
  a : Fin 8
  b : Fin 8
  cmd : Option (Sync × Option Ctr)
  deriving DecidableEq, Repr

structure SpaceF where
  q : Guard
  a : GOp
  n : R16
  deriving DecidableEq, Repr

structure BerthF where
  q : Guard
  a : GOp
  b : GOp
  pb : BitVec 16
  deriving DecidableEq, Repr

/-- An operand of class G or class V, decided at issue by the group's SHAPE (R267, R268). -/
structure TideF where
  q : Guard
  gm : Fin 4
  a : GOp
  fl : R16
  deriving DecidableEq, Repr

structure TidewaitF where
  q : Guard
  gm : Fin 4
  d : GOp
  a : GOp
  nb : Option Bool
  deriving DecidableEq, Repr

structure TideqF where
  q : Guard
  gm : Fin 4
  d : GOp
  sel : R16
  deriving DecidableEq, Repr

structure ChunkinitF where
  q : Guard
  gm : Fin 4
  a : GOp
  sz : R16
  deriving DecidableEq, Repr

structure GetchunkF where
  q : Guard
  gm : Fin 4
  d : GOp
  cap : Option (BitVec 16)
  deriving DecidableEq, Repr

structure LaceF where
  q : Guard
  d : GOp
  imm : BitVec 32
  deriving DecidableEq, Repr

/-- A guarded form with one G destination. -/
structure GD where
  q : Guard
  d : GOp
  deriving DecidableEq, Repr

structure MigrateF where
  q : Guard
  d : GOp
  a : GOp
  b : GOp
  deriving DecidableEq, Repr

structure TaskidF where
  q : Guard
  d : GOp
  sel : R16
  deriving DecidableEq, Repr

structure MfsF where
  q : Guard
  d : GOp
  sr : R16
  deriving DecidableEq, Repr

structure MtsF where
  q : Guard
  sr : R16
  a : GOp
  deriving DecidableEq, Repr

structure FrmldF where
  q : Guard
  a : GOp
  n : R16
  deriving DecidableEq, Repr

structure FrminvF where
  q : Guard
  n : R16
  deriving DecidableEq, Repr

/-- GRPSET and RANKSET. -/
structure GrpF where
  q : Guard
  d : GOp
  a : GOp
  n : R16
  deriving DecidableEq, Repr

/-- Feed edges of the matrix rectangle (R229). -/
inductive Edge where | west | north
  deriving DecidableEq, Repr

/-- What a network request asks for (R400, R401, R402). -/
inductive NetOp where
  | read (off : Nat) (len : Nat)
  | write (off : Nat) (bytes : List Byte)
  | amo (off : Nat) (op : AmoOp) (t : AmoTy) (b c : BitVec 64)
  | launch (bytes : List Byte)
  | message (words : List (BitVec 64))
  deriving DecidableEq, Repr

/-- What happens on the way to the bits of data that travels in lines (R368), at its first sending and at its second. -/
structure LineErr where
  first : Nat
  second : Nat
  deriving DecidableEq, Repr

/-- A frame between two network quays (R403): the peer's IPv6 address, and its number in the sequence space of the pair. -/
structure NetId where
  peer : Nat
  seq : Nat
  deriving DecidableEq, Repr

/-- An arriving request frame (R400): the network quay, its sequence number, the peer's IPv6 address, the sending VF,
the target VF, the request, and what happens to its payload between its quays (R368). -/
structure NetFrame where
  quay : Nat
  seq : Nat
  peer : BitVec 128
  pvf : Nat
  lvf : Nat
  op : NetOp
  err : LineErr := ⟨0, 0⟩
  deriving DecidableEq, Repr

/-- What the host accesses (R393 to R396): it writes module memory by CXL.mem, a VF's BAR2 window at a VA, the management region
of PF0, or memory of its own behind host quay h; or it reads `n` bytes of the management region or of a VF's BAR0, answered
under a number. -/
inductive HostDest where
  | mem (dpa : Nat)
  | bar2 (vf : Nat) (va : Nat)
  | pf0 (off : Nat)
  | own (h : Nat) (addr : Nat)
  | readPf0 (off : Nat) (n : Nat) (id : Nat)
  | readBar0 (vf : Nat) (off : Nat) (n : Nat) (id : Nat)
  deriving DecidableEq, Repr

/-- A CXL host configuration request (R378). -/
structure CfgReq where
  quay : Nat
  id : Nat
  deriving DecidableEq, Repr

/-- A link at which a flit arrives (R17, R369): link n (N, E, S, W) of the core, or of the hub of its field. -/
inductive FlitLink where
  | core (l : Fin 4)
  | hub (l : Fin 4)
  deriving DecidableEq, Repr

/-- A firmware image as it is checked (R375): SHA-256 of the public key that comes with it, whether its LMS signature holds under
that key, its security version, and its SHA-256. -/
structure FwImage where
  key : BitVec 256
  sig : Bool
  ver : BitVec 32
  hash : List Word
  deriving DecidableEq, Repr

/-- What link training finds of a quay (R367, R394): lanes in use, the bandwidth in units of 0.125 GB/s, and spare lanes left. -/
structure QuayLink where
  quay : Nat
  lanes : Nat
  full : Nat
  spares : Nat
  deriving DecidableEq, Repr

/-- What the training of the quays finds (R378): which host quays have a PCIe partner, and the links. -/
structure QuayStart where
  pcie : BitVec 2
  links : List QuayLink
  deriving DecidableEq, Repr

/-- What waits at a quay as a window begins (R341): the direction, and the bytes waiting by partition. -/
structure QuayDemand where
  dir : Fin 2
  parts : List (Nat × Nat)
  deriving DecidableEq, Repr

/-- Data that enters at a quay, and what happens to it on the way (R368). -/
structure LineData where
  bytes : List Byte
  err : LineErr
  deriving DecidableEq, Repr

/-- The 270 steps of spec/opcode_table.json. Encoded instructions act for the issuing slot of `State.cur`; an event
names where it happens and what the outside or the schedule chooses. -/
inductive Instr where
  -- 0x00 to 0x2F: integer, predicate and control (06)
  | nop
  | nopTail (tl : Fin 4) (bits : BitVec 64)
  | halt | yield
  | bkpt (code : BitVec 6)
  | add (x : Alu2) | sub (x : Alu2) | mul (x : Alu2) | mulh (x : Alu2) | div (x : Alu2) | rem (x : Alu2)
  | and (x : Alu2) | or (x : Alu2) | xor (x : Alu2) | andn (x : Alu2)
  | shl (x : Alu2) | shr (x : Alu2) | sar (x : Alu2) | rot (x : Alu2)
  | clz (x : Alu1) | ctz (x : Alu1) | popc (x : Alu1)
  | min (x : Alu2) | max (x : Alu2)
  | abs (x : Alu1) | neg (x : Alu1)
  | cmp (x : CmpF) | sel (x : SelF) | movi (x : MoviF) | movhi (x : MovhiF) | ext (x : Alu1)
  | bfx (x : BitF) | bfi (x : BitF) | lea (x : LeaF) | madr (x : MadrF) | mov (x : GG)
  | pand (x : PPP) | por (x : PPP) | pxor (x : PPP) | pnot (x : PP) | pmov (x : PmovF) | pany (x : PanyF)
  | br (off : BitVec 32) | brp (q : Guard) (off : BitVec 32) | bcmp (x : BcmpF)
  | call (off : BitVec 32) | calli (x : G1) | ret | retReg (x : G1) | jmpi (x : G1)
  | loop (ctr : Fin 2) (d : GOp) (off : BitVec 32)
  | waitev | waitevGuarded (q : Guard)
  | eventWake (k : CoreId) (sl : Fin 4)
  | trap (code : BitVec 6) | eret
  | aptest (x : AptestF) | apcvt (x : ApcvtF) | time (x : GD) | meter (x : GD)
  | deferredCauseTake (k : CoreId) (sl : Fin 4)
  -- 0x58 to 0x6C: vectors (07)
  | vadd (x : V3) | vsub (x : V3) | vmul (x : V3) | vfma (x : V4) | vdiv (x : VF3) | vsqrt (x : VF2)
  | vmin (x : VN3) | vmax (x : VN3) | vabs (x : VN2) | vneg (x : VN2) | vcmp (x : VcmpF) | vsel (x : VselF)
  | vlog (x : VlogF) | vsh (x : VshF) | vcvt (x : VcvtF) | vfn (x : VfnF) | vred (x : VredF) | vscan (x : V2)
  | vperm (x : VN3) | vbcast (x : VbcastF) | vext (x : VextF) | vins (x : VinsF) | vmov (x : VN2)
  | vclass (x : VclassF) | flg (d : GOp) | flgMasked (x : GG)
  -- 0x70 to 0x77: blocks (07)
  | badd (x : B3) | bmul (x : B3) | bfma (x : B4) | bnorm (x : B2) | brenorm (x : BrenormF) | bquant (x : BquantF)
  | bdeq (x : BfgF) | bscale (x : BfgF) | bscalePow2 (x : BscaleKF) | bdot (x : B3)
  | vectorComplete (k : CoreId) (i : Nat)
  -- 0x78 to 0x7D: matrix and scan (08)
  | mcfg (x : McfgF) | mrun (x : MrunF) | mfeed (x : MfeedF) | mzero (x : MzeroF) | mload (x : MloadF)
  | mdrainVector (x : MdrainVF) | mdrainSram (x : MdrainSF) | mstat (x : MstatF)
  | scancfg (x : ScancfgF) | scan (x : ScanF) | scanstSave (x : G1) | scanstLoad (x : G1)
  | operandPairTake (k : CoreId) | scaleTokenTake (k : CoreId) (e : Edge)
  | mrunComplete (k : CoreId) | mfeedComplete (k : CoreId) (e : Edge)
  | scanChunk (k : CoreId) | scanStep (k : CoreId) | scanComplete (k : CoreId)
  -- 0x30 to 0x3F: memory (09)
  | ld (x : LdF) | st (x : LdF) | lds (x : LdsF) | stf (x : LdF)
  | fesetFull (x : FesetF) | fesetEmpty (x : FesetF) | fetest (x : FetestF)
  | ldv (x : LdvF) | stv (x : LdvF) | ldb (x : LdbF) | stb (x : LdbF)
  | ldg (x : LdgF) | stg (x : LdgF) | ldgv (x : LdgvF) | stgv (x : LdgvF)
  | amo (x : AmoF) | amog (x : AmogF) | fence (x : FenceF) | mon (x : MonF) | mwait (x : MwaitF)
  | mwaitTimeout (k : CoreId) (sl : Fin 4)
  | globalLoadReturn (k : CoreId) (i : Nat) (bad : Bool)
  | globalAccessPerform (k : CoreId) (i : Nat) (bad : Bool)
  -- 0x40 to 0x4C: messages, semaphores, streams (09)
  | send (x : SendF) | sendv (x : SendvF) | sendb (x : SendbF)
  | messageInject (k : CoreId) (i : Nat)
  | tagset (x : TagsetF) | tagget (x : TaggetF) | chk (x : ChkF)
  | semsig (x : SemsigF) | semwait (x : SemwaitF) | semget (x : SemgetF) | semset (x : SemsetF)
  | shape (x : ShapeF) | copy (x : CopyF) | copyRing (x : CopyRingF)
  | copyTileComplete (k : CoreId) (n : Fin 8) (bad : Bool) | copyComplete (k : CoreId) (n : Fin 8)
  | space (x : SpaceF) | freeSpaceNotice (k : CoreId) (i : Nat)
  | cntwait (x : G2) | berthOut (x : BerthF) | berthIn (x : BerthF) | berthClose (x : G1)
  | berthDataArrival (k : CoreId) (i : Nat)
  -- 0x50 to 0x57: tides, chunks, laces, tasks (09)
  | tide (x : TideF) | tidewait (x : TidewaitF) | tideq (x : TideqF)
  | chunkinit (x : ChunkinitF) | getchunk (x : GetchunkF)
  | tideContributionArrival (p : Nat) (i : Nat) | tideWithdrawal (p : Nat) (i : Nat)
  | homeQueryRequest (p : Nat) (i : Nat) | chunkRequest (p : Nat) (i : Nat) | tideAnswerArrival (p : Nat) (i : Nat)
  | lace (x : LaceF) | unlace | unlaceStatus (x : GD) | relace (x : GD) | laceq (x : GD)
  | laceForwardHead (i : Nat) | laceTimeout (k : CoreId) (sl : Fin 4)
  | spawn (x : GG) | migrate (x : MigrateF) | taskid (x : TaskidF)
  -- arriving messages (03, 09, 13)
  | messageArrival (i : Nat) (err : Nat)
  | deliver (k : CoreId) (i : Nat) | deposit (k : CoreId) (i : Nat) | addblock (k : CoreId) (i : Nat)
  | inline (k : CoreId) (i : Nat) | wake (k : CoreId) (i : Nat) | tideAction (k : CoreId) (i : Nat)
  | lockedContribution (k : CoreId) (i : Nat) | renorm (k : CoreId) (i : Nat)
  | newExponentNotice (k : CoreId) (i : Nat) | sysmsg (k : CoreId) (i : Nat)
  -- 0x7E: SYS (13, 14, 16)
  | mfs (x : MfsF) | mts (x : MtsF)
  | invalS1Page (x : G2) | invalS1All (x : G2) | invalS2Page (x : G2) | invalS2All (x : G2)
  | ctxsv (x : G1) | ctxld (x : G1) | sramclr (x : G2) | frmld (x : FrmldF) | frminv (x : FrminvF)
  | grpset (x : GrpF) | rankset (x : GrpF)
  | rankTableUpdateAck (p : Nat) (i : Nat)
  | streamRestart (k : CoreId) (n : Fin 8) | streamEnd (k : CoreId) (n : Fin 8)
  | migtRequestAct (k : CoreId) (n : Fin 4) | watchdog (k : CoreId) (sl : Fin 4)
  -- launches (15)
  | launchPacket (p : Nat) | dependenceSatisfied (p : Nat) (i : Nat)
  | launchPlace (p : Nat) | launchStart (p : Nat) (i : Nat) | launchComplete (p : Nat) (i : Nat)
  -- pre-emption, moves, translation (13, 14, 16), and what happens at the module's own pace
  | preemptPhase1 (p : Nat) | preemptPhase2 (p : Nat) | preemptPhase3 (p : Nat) | preemptResume (p : Nat) (vf : Nat)
  | moveFlushMarker (k : CoreId) | moveCopy (k : CoreId)
  | translationRequest (k : CoreId) (i : Nat) | walkComplete (f : Nat) (i : Nat) (bad : Nat) | invalDrop (i : Nat)
  | balanceAddReturn (i : Nat) | railVoteUpdate (r : Nat) | tokenRefill (r : Nat) | sramScrub (k : CoreId)
  | sampleLogWrite (i : Nat) | orderLogStop (p : Nat) (reason : Fin 4) (pos : BitVec 21) (seq : BitVec 32)
  | berthCredit (i : Nat) | berthJoin (i : Nat) | sysRemoteAccess (i : Nat)
  -- register writes and reads that are steps of their own (13, 15 to 18)
  | lcWrite (k : CoreId) (sl : Fin 4) (ctr : Fin 2) (v : Word)
  | stackRegWrite (k : CoreId) (sl : Fin 4) (lim : Bool) (v : Word)
  | tstWrite (k : CoreId) (sl : Fin 4) (lvl : Fin 4) (v : Word)
  | wdogWrite (k : CoreId) (v : Word)
  | partdefWrite (f : Nat) (v : Word) | rvoteWrite (p : Nat) (v : Word)
  | migtWrite (k : CoreId) (n : Fin 4) (v : Word)
  | lcstateWrite (v : Word) | reprowWrite (f : Nat) (v : Word)
  | stopEntryWrite (p : Nat) (r : Fin 17) (v : Word)
  | ownerWrite (k : CoreId) (samp : Bool) (lvl : Fin 4) (v : Word)
  | ologctlWrite (p : Nat) (v : Word) | eccstatRead (k : CoreId)
  -- what the outside decides (15 to 17, 19)
  | launchApertureWrite (vf : Nat) (part : Nat) (off : Nat) (bytes : List Byte)
  | meteringBoundary (f : Nat) (energy : List Nat)
  | quayGrantWindow (q : Nat) (demand : QuayDemand)
  | memoryThrottleReport (q : Nat) (b : Option Nat)
  | devloadResponse (q : Nat) (severe : Bool) | devloadRestore (q : Nat)
  | sensorRead (sn : Nat) (t : Nat) | railRepower (r : Nat)
  | flitCheckFail (k : CoreId) (link : FlitLink) (replays : Nat) | parityError (k : CoreId) (sl : Option (Fin 4))
  | powerOn (fuseOk : Bool) (root dm : FwImage) (raise : BitVec 32) (untrained : List Nat) (quays : QuayStart)
  | railRegulationTimeout (r : Nat) | skewMeasure (f : Nat) (ofs : BitVec 32) (err : BitVec 16)
  | hostWrite (x : HostDest) (data : LineData) | cxlSnoop (h : Nat) (line : Nat)
  | netRequestFrame (x : NetFrame) | netAckFrame (q : Nat) (id : NetId) (data : Option (List Byte))
  | netRetransmitTimeout (q : Nat) (id : NetId)
  | attestationRequest (nonce : List Byte)
  | quayLaneFailure (q : Nat) | ageingMonitorMeasure (k : CoreId) (link : Fin 4) (wire : Nat)
  | configurationRequest (x : CfgReq)
  deriving DecidableEq, Repr

end Sys2Proof
end

