-- ==== Sys2Proof/WellFormed.lean ====
section
/-! DEFINITION. What a well-formed encoded instruction is: the field values that R137 to R143 and the instruction
chapters admit. An event is not encoded; `Instr.wf` says nothing against it. -/

namespace Sys2Proof

/-- G = 0 with N = 1 is reserved (R135). -/
def Guard.wf (q : Guard) : Bool := !(q.p == 0 && q.neg)

def GOp.isChan : GOp → Bool
  | .g _ => false
  | .c _ => true

def GOp.isZero : GOp → Bool
  | .g n => n == 0
  | .c _ => false

/-- The field spec of BFX and BFI (R166). -/
def BitF.wf (x : BitF) : Bool :=
  x.q.wf && x.len != 0 && x.len.toNat ≤ 64 && x.lo.toNat + x.len.toNat ≤ 64

/-- A LEA shift of 9 to 15 is reserved (R167). -/
def LeaSD.wf : LeaSD → Bool
  | .plain => true
  | .s16 s _ => s.toNat ≤ 8
  | .s32 s _ => s.toNat ≤ 8

/-- Branch offset slot 31 is reserved (R132, R169). -/
def offWf (off : BitVec 32) : Bool := off.extractLsb' 0 5 != 31#5

/-- The counter word of R224. -/
def Ctr.wf (c : Ctr) : Bool := c.creg != 0 && c.creg.toNat ≤ 31 && c.cinc != 0

def optCtrWf : Option Ctr → Bool
  | none => true
  | some c => c.wf

def optCmdWf : Option (Sync × Option Ctr) → Bool
  | none => true
  | some (_, c) => optCtrWf c

def VMod.isFp : VMod → Bool
  | .fp _ _ => true
  | .int _ => false

def VTy.isFp : VTy → Bool
  | .fp _ => true
  | .int _ => false

/-- The forms of VCMP (R191, R196). -/
def VcmpF.wf (x : VcmpF) : Bool :=
  x.q.wf && (x.t.isFp || (!x.tot && x.cond != .un && x.cond != .ord)) &&
  (!x.tot || (x.cond != .un && x.cond != .ord))

/-- VRED: `.and` and `.or` take integer types; only `.sum` takes a rounding (R191). -/
def VredF.wf (x : VredF) : Bool :=
  x.q.wf &&
  match x.m with
  | .fp _ r => match x.op with
    | .sum => true
    | .min => r == .rne
    | .max => r == .rne
    | _ => false
  | .int _ => true

/-- Element width of a full type, as R189 and R200 take it. -/
def FullTy.width : FullTy → Nat
  | .i64 => 64 | .n64 => 64 | .f64 => 64
  | .i32 => 32 | .n32 => 32 | .f32 => 32
  | .i16 => 16 | .n16 => 16 | .f16 => 16 | .bf16 => 16
  | .i8 => 8 | .n8 => 8 | .e4 => 8 | .e5 => 8 | .pb8 => 8 | .mx8e4 => 8 | .mx8e5 => 8 | .mxi8 => 8
  | .pb4 => 4 | .mx4 => 4
  | .mx6e2 => 6 | .mx6e3 => 6

/-- Lane count L(t) of R200: 64 for the MXFP6 types. -/
def FullTy.lanes (t : FullTy) : Nat :=
  match t with
  | .mx6e2 => 64
  | .mx6e3 => 64
  | t => 512 / t.width

def FullTy.isMx : FullTy → Bool
  | .mx8e4 => true | .mx8e5 => true | .mx4 => true | .mxi8 => true | .mx6e2 => true | .mx6e3 => true
  | _ => false

def FullTy.isInt : FullTy → Bool
  | .i64 => true | .i32 => true | .i16 => true | .i8 => true | .n64 => true | .n32 => true | .n16 => true | .n8 => true
  | _ => false

def FullTy.isIeee : FullTy → Bool
  | .f32 => true | .f64 => true | .f16 => true | .bf16 => true
  | _ => false

def FullTy.isFp8 : FullTy → Bool
  | .e4 => true | .e5 => true
  | _ => false

/-- The pairs of R201, source first, with the rounding codes each accepts. -/
def cvtPair (s d : FullTy) (r : Rnd) : Bool :=
  match s with
  | .f64 => d == .f32 || d == .f16 || d == .bf16 || d.isFp8 || d.isInt
  | .f32 => d == .f16 || d == .bf16 || d == .f64 || d.isFp8 || d.isInt || (d.isMx && r == .rne)
  | .f16 => d == .f32 || d == .f64 || d.isFp8 || d.isInt || (d.isMx && r == .rne)
  | .bf16 => d == .f32 || d == .f64 || d.isFp8 || d.isInt || (d.isMx && r == .rne)
  | s => if s.isFp8 || s.isMx then d == .f32 || d == .f64 else s.isInt && d.isIeee

/-- The number of elements VCVT converts (R200). -/
def cvtE (s d : FullTy) : Nat :=
  if d.width < s.width then Nat.min d.lanes (2 * s.lanes) else d.lanes

/-- VCVT (R200, R201): the pair, the class of the B field, and the rules of an MX destination. -/
def VcvtF.wf (x : VcvtF) : Bool :=
  x.q.wf && cvtPair x.src x.dst x.r &&
  (match x.b with
   | .none => x.dst.width == x.src.width
   | .v _ => x.dst.width < x.src.width
   | .g _ => x.dst.width > x.src.width) &&
  (!x.dst.isMx || (cvtE x.src x.dst % 32 == 0 && x.q == Guard.always))

/-- VBCAST: a 32-bit immediate is no 16-bit float (R206). -/
def VbcastF.wf (x : VbcastF) : Bool :=
  x.q.wf &&
  match x.t, x.b with
  | .fp .f16, .imm (.i32 _) => false
  | .fp .bf16, .imm (.i32 _) => false
  | _, _ => true

/-- MCFG takes types 10 to 19 and the flags of R225. -/
def McfgF.wf (x : McfgF) : Bool :=
  x.q.wf &&
  (match x.t with
   | .f16 => true | .bf16 => true | .e4 => true | .e5 => true | .pb8 => true | .pb4 => true
   | .mx8e4 => true | .mx8e5 => true | .mx4 => true | .mxi8 => true
   | _ => false) &&
  x.flags.extractLsb' 5 11 == 0#11 && (!x.flags.getLsbD 4 || x.flags.extractLsb' 0 4 == 0#4)

/-- MRUN: a count, its unit and no reserved bit (R230); the multiple depends on the tile's type and is checked at
execution. -/
def MrunF.wf (x : MrunF) : Bool :=
  x.q.wf && x.imm.extractLsb' 25 7 == 0#7 && x.imm.extractLsb' 0 24 != 0#24 && optCtrWf x.ctr

def MfeedF.wf (x : MfeedF) : Bool :=
  x.q.wf && x.imm.extractLsb' 25 7 == 0#7 && x.imm.extractLsb' 0 24 != 0#24 && optCtrWf x.ctr

/-- A SCANCFG configuration (R233). -/
def scanCfgWf (v : BitVec 16) : Bool :=
  v.extractLsb' 12 3 == 0#3 &&
  (if v.getLsbD 15 then v.extractLsb' 0 15 == 0#15
   else v.extractLsb' 0 7 != 0#7 && (v.extractLsb' 0 7).toNat ≤ 64)

def ScancfgF.wf (x : ScancfgF) : Bool :=
  x.q.wf && match x.src with
    | .reg _ => true
    | .imm v => scanCfgWf v

def ScanF.wf (x : ScanF) : Bool :=
  x.q.wf && x.len != 0 && x.len.toNat ≤ 2 ^ 20 && optCtrWf x.ctr

def r16In (lo hi : Nat) : R16 → Bool
  | .reg _ => true
  | .imm v => lo ≤ v.toNat && v.toNat ≤ hi

def AmoOp.usesC : AmoOp → Bool
  | .cas => true
  | _ => false

def AmoF.wf (x : AmoF) : Bool := x.q.wf && (x.op.usesC || x.c == .g 0)

def AmogF.wf (x : AmogF) : Bool :=
  x.q.wf && (x.op.usesC || x.c == .g 0) && (x.kind != .none || x.scope == .core)

/-- SEND in TL 3: at most three words, unused fields zero, reserved bits zero (R253, R254). -/
def SendF.wf (x : SendF) : Bool :=
  x.q.wf && match x.tag with
    | none => true
    | some v =>
      let l := (v.extractLsb' 6 4).toNat
      v.extractLsb' 10 6 == 0#6 && l ≤ 3 && (3 ≤ l || x.c == .g 0) && (2 ≤ l || x.b == .g 0) && (1 ≤ l || x.a == .g 0)

def SendvF.wf (x : SendvF) : Bool :=
  x.q.wf && match x.tag with
    | none => true
    | some v =>
      let l := (v.extractLsb' 6 4).toNat
      v.extractLsb' 10 6 == 0#6 && 1 ≤ l && l ≤ 9

/-- The block counts of R256. -/
def sendbMax (lock : Bool) : BlkTy → Nat
  | .pb8 => if lock then 3 else 4
  | .pb4 => if lock then 6 else 7

def SendbF.wf (x : SendbF) : Bool :=
  x.q.wf && match x.tag with
    | none => true
    | some v =>
      let l := (v.extractLsb' 6 4).toNat
      v.extractLsb' 10 6 == 0#6 && 1 ≤ l && l ≤ sendbMax x.lock x.k

def SemArg.wf : SemArg → Bool
  | .imm v => v != 0
  | .reg r => !r.isZero

/-- A COPY's `.fb` and `.ring` do not meet in this syntax; a TL 2 COPY has no counter (R263). -/
def CopyF.wf (x : CopyF) : Bool := x.q.wf && optCmdWf x.cmd

def LaceF.wf (x : LaceF) : Bool := x.q.wf && x.imm.extractLsb' 23 9 == 0#9

/-- Ranges of assigned system-register numbers (R291, R292, R313, R329, R350, R366, R380). -/
def srRanges : List (Nat × Nat) :=
  [(0x000, 0x016), (0x020, 0x022), (0x027, 0x02F), (0x040, 0x043), (0x048, 0x04F), (0x080, 0x083), (0x090, 0x09F),
   (0x0A0, 0x0A8), (0x0B0, 0x0B2), (0x0C0, 0x0C6), (0x0C8, 0x0CC), (0x100, 0x107), (0x110, 0x116), (0x118, 0x11F),
   (0x140, 0x152), (0x154, 0x15B), (0x160, 0x162), (0x168, 0x169), (0x170, 0x173)]

/-- A number that is not reserved (R291). -/
def srAssigned (n : Nat) : Bool := srRanges.any fun r => r.1 ≤ n && n ≤ r.2

/-- MFS and MTS: bits 14:12 of the immediate are not used (R302), and its number is not reserved (R291, R138). -/
def srWf : R16 → Bool
  | .reg _ => true
  | .imm v => v.extractLsb' 12 3 == 0#3 && srAssigned (v.extractLsb' 0 12).toNat

/-- Whether an encoded instruction's fields hold values its instruction admits (R137 to R143). -/
def Instr.wf : Instr → Bool
  | .add x => x.q.wf | .sub x => x.q.wf | .mul x => x.q.wf | .mulh x => x.q.wf | .div x => x.q.wf | .rem x => x.q.wf
  | .and x => x.q.wf | .or x => x.q.wf | .xor x => x.q.wf | .andn x => x.q.wf
  | .shl x => x.q.wf | .shr x => x.q.wf | .sar x => x.q.wf | .rot x => x.q.wf
  | .clz x => x.q.wf | .ctz x => x.q.wf | .popc x => x.q.wf | .min x => x.q.wf | .max x => x.q.wf
  | .abs x => x.q.wf | .neg x => x.q.wf | .ext x => x.q.wf
  | .cmp x => x.q.wf | .sel x => x.q.wf | .movi x => x.q.wf
  | .movhi x => x.q.wf && !x.d.isChan
  | .bfx x => x.wf
  | .bfi x => x.wf && !x.d.isChan
  | .lea x => x.q.wf && x.sd.wf
  | .madr x => x.q.wf | .mov x => x.q.wf
  | .pand x => x.q.wf | .por x => x.q.wf | .pxor x => x.q.wf | .pnot x => x.q.wf | .pmov x => x.q.wf | .pany x => x.q.wf
  | .br off => offWf off
  | .brp q off => q.wf && offWf off
  | .bcmp x => x.q.wf && offWf x.off
  | .call off => offWf off
  | .calli x => x.q.wf | .retReg x => x.q.wf | .jmpi x => x.q.wf
  | .loop _ _ off => offWf off
  | .waitevGuarded q => q.wf
  | .nopTail tl bits => bits.toNat < 2 ^ (16 * (tl.val + 1))
  | .aptest x => x.q.wf | .apcvt x => x.q.wf | .time x => x.q.wf | .meter x => x.q.wf
  | .vadd x => x.q.wf | .vsub x => x.q.wf | .vmul x => x.q.wf | .vfma x => x.q.wf | .vdiv x => x.q.wf | .vsqrt x => x.q.wf
  | .vmin x => x.q.wf | .vmax x => x.q.wf | .vabs x => x.q.wf | .vneg x => x.q.wf
  | .vcmp x => x.wf | .vsel x => x.q.wf
  | .vlog x => x.q.wf && (x.op != .not || x.b == 0)
  | .vsh x => x.q.wf | .vcvt x => x.wf | .vfn x => x.q.wf | .vred x => x.wf | .vscan x => x.q.wf | .vperm x => x.q.wf
  | .vbcast x => x.wf | .vext x => x.q.wf | .vins x => x.q.wf | .vmov x => x.q.wf | .vclass x => x.q.wf
  | .flgMasked x => x.q.wf
  | .badd x => x.q.wf | .bmul x => x.q.wf | .bfma x => x.q.wf | .bnorm x => x.q.wf | .brenorm x => x.q.wf
  | .bquant x => x.q.wf && (x.f == .f64 || x.b == 0)
  | .bdeq x => x.q.wf | .bscale x => x.q.wf | .bscalePow2 x => x.q.wf | .bdot x => x.q.wf
  | .mcfg x => x.wf | .mrun x => x.wf | .mfeed x => x.wf
  | .mzero x => x.q.wf | .mload x => x.q.wf | .mdrainVector x => x.q.wf
  | .mdrainSram x => x.q.wf && !x.c.isZero
  | .mstat x => x.q.wf | .scancfg x => x.wf | .scan x => x.wf
  | .scanstSave x => x.q.wf | .scanstLoad x => x.q.wf
  | .ld x => x.q.wf | .st x => x.q.wf | .lds x => x.q.wf | .stf x => x.q.wf
  | .fesetFull x => x.q.wf && r16In 1 4096 x.n
  | .fesetEmpty x => x.q.wf && r16In 1 4096 x.n
  | .fetest x => x.q.wf && r16In 1 64 x.n
  | .ldv x => x.q.wf | .stv x => x.q.wf | .ldb x => x.q.wf | .stb x => x.q.wf
  | .ldg x => x.q.wf | .stg x => x.q.wf | .ldgv x => x.q.wf | .stgv x => x.q.wf
  | .amo x => x.wf | .amog x => x.wf
  | .fence x => x.q.wf && x.kind != .none
  | .mon x => x.q.wf | .mwait x => x.q.wf
  | .send x => x.wf | .sendv x => x.wf | .sendb x => x.wf
  | .tagset x => x.q.wf && r16In 0 63 x.t
  | .tagget x => x.q.wf && r16In 0 63 x.t
  | .chk x => x.q.wf && (match x.s with | .chan _ => true | .mask m => m.toNat < 256)
  | .semsig x => x.q.wf && x.i.wf
  | .semwait x => x.q.wf && x.i.wf
  | .semget x => x.q.wf
  | .semset x => x.q.wf
  | .shape x => x.q.wf
  | .copy x => x.wf
  | .copyRing x => x.q.wf && optCmdWf x.cmd
  | .space x => x.q.wf && r16In 1 4095 x.n
  | .cntwait x => x.q.wf
  | .berthOut x => x.q.wf && x.pb.toNat < 4
  | .berthIn x => x.q.wf && x.pb.toNat < 4
  | .berthClose x => x.q.wf
  | .tide x => x.q.wf
  | .tidewait x => x.q.wf
  | .tideq x => x.q.wf && r16In 0 4 x.sel
  | .chunkinit x => x.q.wf
  | .getchunk x => x.q.wf
  | .lace x => x.wf
  | .unlaceStatus x => x.q.wf | .relace x => x.q.wf | .laceq x => x.q.wf
  | .spawn x => x.q.wf | .migrate x => x.q.wf
  | .taskid x => x.q.wf && r16In 0 3 x.sel
  | .mfs x => x.q.wf && srWf x.sr
  | .mts x => x.q.wf && srWf x.sr
  | .invalS1Page x => x.q.wf | .invalS1All x => x.q.wf | .invalS2Page x => x.q.wf | .invalS2All x => x.q.wf
  | .ctxsv x => x.q.wf | .ctxld x => x.q.wf | .sramclr x => x.q.wf
  | .frmld x => x.q.wf && r16In 0 15 x.n
  | .frminv x => x.q.wf && r16In 0 15 x.n
  | .grpset x => x.q.wf && r16In 0 255 x.n
  | .rankset x => x.q.wf && r16In 0 63 x.n
  | _ => true

end Sys2Proof
end

