-- ==== Sys2Proof/Decode.lean ====
section
/-! DEFINITION. Lines, heads and tails (05 R129 to R143): the decoder, total on any bits and rejecting by name, and
after it the encoder, both from the spec's field tables (R155, R191, R223, R241, R302). -/

namespace Sys2Proof

/-- Why a head is refused at decode, in the order of R138. -/
inductive DecErr where
  /-- OP reserved or 0x7F, or F not assigned for OP. -/
  | illegalOp
  /-- TL, operand, unused field, M value, guard or immediate not admitted. -/
  | illegalForm
  deriving DecidableEq, Repr

/-- The fields of a head and its tail (R133, R134), absent ones zero. -/
structure Raw where
  op : BitVec 7
  tl : BitVec 3
  d : BitVec 6
  a : BitVec 6 := 0
  b : BitVec 6 := 0
  c : BitVec 6 := 0
  g : BitVec 3 := 0
  n : Bool := false
  f : BitVec 4 := 0
  m : BitVec 6 := 0
  imm : BitVec 32 := 0
  sync : BitVec 32 := 0
  imm2 : BitVec 32 := 0
  deriving DecidableEq, Repr

/-- Tail length in bits of a TL code (R133); 7 is reserved. -/
def tailLen (tl : BitVec 3) : Nat :=
  match tl.toNat with
  | 0 => 0
  | 1 => 16
  | 2 => 32
  | 3 => 48
  | 4 => 64
  | 5 => 96
  | 6 => 128
  | _ => 0

/-- The fields of a head and its tail under R133 and R134. -/
def rawOf (h : BitVec 16) (t : BitVec 128) : Raw :=
  let op := h.extractLsb' 9 7
  let tl := h.extractLsb' 6 3
  let d := h.extractLsb' 0 6
  match tl.toNat with
  | 0 => { op := op, tl := tl, d := d }
  | 1 => { op := op, tl := tl, d := d, a := t.extractLsb' 0 6, b := t.extractLsb' 6 6, f := t.extractLsb' 12 4 }
  | k =>
    { op := op, tl := tl, d := d, a := t.extractLsb' 0 6, b := t.extractLsb' 6 6, c := t.extractLsb' 12 6,
      g := t.extractLsb' 18 3, n := t.getLsbD 21, f := t.extractLsb' 22 4, m := t.extractLsb' 26 6,
      imm := if k = 2 then 0 else if k = 3 then (t.extractLsb' 32 16).setWidth 32 else t.extractLsb' 32 32,
      sync := if k ≤ 4 then 0 else t.extractLsb' 64 32,
      imm2 := if k ≤ 5 then 0 else t.extractLsb' 96 32 }

/-! ### Codes and operand classes -/

def decG (x : BitVec 6) : Option GOp :=
  if x.toNat < 32 then some (.g (Fin.ofNat 32 x.toNat))
  else if x.toNat < 40 then some (.c (Fin.ofNat 8 (x.toNat - 32)))
  else none

def decV (x : BitVec 6) : Option (Fin 16) := if x.toNat < 16 then some (Fin.ofNat 16 x.toNat) else none
def decP (x : BitVec 6) : Option (Fin 8) := if x.toNat < 8 then some (Fin.ofNat 8 x.toNat) else none
def decA (x : BitVec 6) : Option (Fin 4) := if x.toNat < 4 then some (Fin.ofNat 4 x.toNat) else none
def decZ (x : BitVec 6) : Option Unit := if x = 0 then some () else none
def ok? (b : Bool) : Option Unit := if b then some () else none

def decIntTy (x : BitVec 3) : IntTy :=
  match x.toNat with
  | 0 => .i64 | 1 => .i32 | 2 => .i16 | 3 => .i8 | 4 => .n64 | 5 => .n32 | 6 => .n16 | _ => .n8

def decFp (x : BitVec 2) : FpTy :=
  match x.toNat with
  | 0 => .f32 | 1 => .f64 | 2 => .f16 | _ => .bf16

def decRnd (x : BitVec 3) : Option Rnd :=
  match x.toNat with
  | 0 => some .rne | 1 => some .rtz | 2 => some .rup | 3 => some .rdn | 4 => some .rna | _ => none

def decFull (x : BitVec 5) : Option FullTy :=
  match x.toNat with
  | 0 => some .i64 | 1 => some .i32 | 2 => some .i16 | 3 => some .i8
  | 4 => some .n64 | 5 => some .n32 | 6 => some .n16 | 7 => some .n8
  | 8 => some .f32 | 9 => some .f64 | 10 => some .f16 | 11 => some .bf16
  | 12 => some .e4 | 13 => some .e5 | 14 => some .pb8 | 15 => some .pb4
  | 16 => some .mx8e4 | 17 => some .mx8e5 | 18 => some .mx4 | 19 => some .mxi8
  | 20 => some .mx6e2 | 21 => some .mx6e3
  | _ => none

def decScope (x : BitVec 2) : Scope :=
  match x.toNat with
  | 0 => .core | 1 => .field | 2 => .dev | _ => .sys

def decKind (x : BitVec 2) : Kind :=
  match x.toNat with
  | 0 => .none | 1 => .acq | 2 => .rel | _ => .full

def decCond (x : BitVec 4) : Cond :=
  match x.toNat with
  | 0 => .eq | 1 => .ne | 2 => .lt | 3 => .le | 4 => .gt | _ => .ge

def decVCond (x : BitVec 4) : VCond :=
  match x.toNat with
  | 0 => .eq | 1 => .ne | 2 => .lt | 3 => .le | 4 => .gt | 5 => .ge | 6 => .un | _ => .ord

def decAmoOp (x : BitVec 4) : AmoOp :=
  match x.toNat with
  | 0 => .add | 1 => .swap | 2 => .cas | 3 => .and | 4 => .or | 5 => .xor | 6 => .min | _ => .max

def decAmoTy (x : BitVec 2) : AmoTy :=
  match x.toNat with
  | 0 => .i64 | 1 => .i32 | 2 => .n64 | _ => .n32

def decFun (x : BitVec 4) : VFun :=
  match x.toNat with
  | 0 => .exp | 1 => .exp2 | 2 => .log | 3 => .log2 | 4 => .sin | 5 => .cos | 6 => .tanh | 7 => .rsqrt
  | 8 => .recip | 9 => .erf | _ => .sigmoid

def decSync (x : BitVec 32) : Sync :=
  ⟨x.extractLsb' 24 8, x.extractLsb' 16 8, x.extractLsb' 8 8, x.extractLsb' 0 8⟩

def decCtr (x : BitVec 32) : Ctr := ⟨x.extractLsb' 0 6, x.extractLsb' 6 26⟩

/-- Guard of a tail that carries one (R135); a T0 or T16 form has G = N = 0. -/
def decQ (r : Raw) : Option Guard :=
  if r.g = 0 ∧ r.n = true then none else some ⟨Fin.ofNat 8 r.g.toNat, r.n⟩

def decNoQ (r : Raw) : Option Unit := ok? (r.g == 0 && !r.n)

/-- Modifier class Z (R142). -/
def mZ (r : Raw) : Option Unit := decZ r.m

/-- Modifier class INT. -/
def mInt (r : Raw) : Option IntTy :=
  if r.m.extractLsb' 3 3 = 0 then some (decIntTy (r.m.extractLsb' 0 3)) else none

/-- Modifier class VEC. -/
def mVec (r : Raw) : Option VMod :=
  if r.m.getLsbD 5 then
    if r.m.extractLsb' 3 2 = 0 then some (.int (decIntTy (r.m.extractLsb' 0 3))) else none
  else (decRnd (r.m.extractLsb' 0 3)).map (.fp (decFp (r.m.extractLsb' 3 2)))

/-- Modifier class VEC restricted to the floating formats. -/
def mVecF (r : Raw) : Option (FpTy × Rnd) :=
  if r.m.getLsbD 5 then none else (decRnd (r.m.extractLsb' 0 3)).map fun x => (decFp (r.m.extractLsb' 3 2), x)

/-- Modifier class VNR. -/
def mVnr (r : Raw) : Option VTy :=
  if r.m.getLsbD 5 then
    if r.m.extractLsb' 3 2 = 0 then some (.int (decIntTy (r.m.extractLsb' 0 3))) else none
  else if r.m.extractLsb' 0 3 = 0 then some (.fp (decFp (r.m.extractLsb' 3 2))) else none

def mVnrInt (r : Raw) : Option IntTy :=
  match mVnr r with
  | some (.int t) => some t
  | _ => none

/-- Modifier class BLK with a float format, and without one. -/
def mBlkF (r : Raw) : Option (BlkTy × FpTy) :=
  if r.m.extractLsb' 3 3 = 0 then some (if r.m.getLsbD 0 then .pb4 else .pb8, decFp (r.m.extractLsb' 1 2)) else none

def mBlk (r : Raw) : Option BlkTy :=
  if r.m.extractLsb' 1 5 = 0 then some (if r.m.getLsbD 0 then .pb4 else .pb8) else none

/-- Modifier class LOC with `.c` accepted or not. -/
def mLoc (r : Raw) : Option (IntTy × Bool) :=
  if r.m.extractLsb' 4 2 = 0 then some (decIntTy (r.m.extractLsb' 0 3), r.m.getLsbD 3) else none

/-- Order of class GLB: bits 3 and 5:4. -/
def mOrd (r : Raw) : Option (Option Scope) :=
  if r.m.getLsbD 3 then some (some (decScope (r.m.extractLsb' 4 2)))
  else if r.m.extractLsb' 4 2 = 0 then some none else none

def mCls (x : BitVec 2) : Option MsgCls :=
  match x.toNat with
  | 0 => some .req | 1 => some .rsp | 3 => some .sys | _ => none

def mMsg (r : Raw) : Option MsgCls :=
  if r.m.extractLsb' 2 4 = 0 then mCls (r.m.extractLsb' 0 2) else none

def mMsgB (r : Raw) : Option (MsgCls × BlkTy) :=
  if r.m.extractLsb' 3 3 = 0 then
    (mCls (r.m.extractLsb' 0 2)).map fun c => (c, if r.m.getLsbD 2 then .pb4 else .pb8)
  else none

def mGmi (r : Raw) : Option (Fin 4) :=
  if r.m.extractLsb' 2 4 = 0 then some (Fin.ofNat 4 (r.m.extractLsb' 0 2).toNat) else none

def imm16 (r : Raw) : BitVec 16 := r.imm.extractLsb' 0 16

/-! ### Operand forms -/

/-- Register in TL 1 and 2, immediate in TL 3 and 4. -/
def fSrc (r : Raw) : Option Src :=
  match r.tl.toNat with
  | 1 => (decG r.b).map .reg
  | 2 => (decG r.b).map .reg
  | 3 => (decZ r.b).map fun _ => .imm (.i16 (imm16 r))
  | 4 => (decZ r.b).map fun _ => .imm (.i32 r.imm)
  | _ => none

/-- The same without a T16 form. -/
def fSrc2 (r : Raw) : Option Src := if r.tl = 1 then none else fSrc r

/-- Register field `x` in TL 2, imm16 with that field zero in TL 3. -/
def fR16 (r : Raw) (x : BitVec 6) : Option R16 :=
  match r.tl.toNat with
  | 2 => (decG x).map .reg
  | 3 => (decZ x).map fun _ => .imm (imm16 r)
  | _ => none

/-- As `fR16`, with TL 4 too, its imm32 bits 31:16 zero (R302). -/
def fR16s (r : Raw) (x : BitVec 6) : Option R16 :=
  if r.tl = 4 then
    if r.imm.extractLsb' 16 16 = 0 then (decZ x).map fun _ => .imm (imm16 r) else none
  else fR16 r x

def fTL (r : Raw) (l : List Nat) : Option Unit := ok? (l.contains r.tl.toNat)

def fOpt16 (r : Raw) : Option (Option (BitVec 16)) :=
  match r.tl.toNat with
  | 2 => some none
  | 3 => some (some (imm16 r))
  | _ => none

/-- The sync word and counter word of TL 5 and 6. -/
def fCmd (r : Raw) : Option (Sync × Option Ctr) :=
  match r.tl.toNat with
  | 5 => some (decSync r.sync, none)
  | 6 => some (decSync r.sync, some (decCtr r.imm2))
  | _ => none

def fAlu2 (r : Raw) (k : Alu2 → Instr) : Option Instr := do
  let q ← decQ r; let t ← mInt r; let d ← decG r.d; let a ← decG r.a; decZ r.c
  let b ← fSrc r
  pure (k ⟨q, t, d, a, b⟩)

def fAlu1 (r : Raw) (k : Alu1 → Instr) : Option Instr := do
  fTL r [1, 2]
  let q ← decQ r; let t ← mInt r; let d ← decG r.d; let a ← decG r.a; decZ r.b; decZ r.c
  pure (k ⟨q, t, d, a⟩)

def fGG (r : Raw) (tls : List Nat) (k : GG → Instr) : Option Instr := do
  fTL r tls; mZ r
  let q ← decQ r; let d ← decG r.d; let a ← decG r.a; decZ r.b; decZ r.c
  pure (k ⟨q, d, a⟩)

def fG1 (r : Raw) (tls : List Nat) (k : G1 → Instr) : Option Instr := do
  fTL r tls; mZ r; decZ r.d
  let q ← decQ r; let a ← decG r.a; decZ r.b; decZ r.c
  pure (k ⟨q, a⟩)

def fG2 (r : Raw) (tls : List Nat) (k : G2 → Instr) : Option Instr := do
  fTL r tls; mZ r; decZ r.d
  let q ← decQ r; let a ← decG r.a; let b ← decG r.b; decZ r.c
  pure (k ⟨q, a, b⟩)

def fGD (r : Raw) (tls : List Nat) (k : GD → Instr) : Option Instr := do
  fTL r tls; mZ r
  let q ← decQ r; let d ← decG r.d; decZ r.a; decZ r.b; decZ r.c
  ok? (r.tl.toNat != 3 || r.imm == 0)
  pure (k ⟨q, d⟩)

def fPPP (r : Raw) (k : PPP → Instr) : Option Instr := do
  fTL r [1, 2]; mZ r
  let q ← decQ r; let d ← decP r.d; let a ← decP r.a; let b ← decP r.b; decZ r.c
  pure (k ⟨q, d, a, b⟩)

/-- OP 0x00 to 0x0F. -/
def form0 (r : Raw) : Option Instr :=
  match r.op.toNat with
  | 0x01 => do fTL r [0]; decZ r.d; pure .halt
  | 0x02 => do fTL r [0]; decZ r.d; pure .yield
  | 0x03 => do fTL r [0]; pure (.bkpt r.d)
  | 0x04 => fAlu2 r .add
  | 0x05 => fAlu2 r .sub
  | 0x06 => fAlu2 r .mul
  | 0x07 => fAlu2 r .mulh
  | 0x08 => fAlu2 r .div
  | 0x09 => fAlu2 r .rem
  | 0x0A => fAlu2 r .and
  | 0x0B => fAlu2 r .or
  | 0x0C => fAlu2 r .xor
  | 0x0D => fAlu2 r .andn
  | 0x0E => fAlu2 r .shl
  | 0x0F => fAlu2 r .shr
  | _ => none

def fBit (r : Raw) (k : BitF → Instr) : Option Instr := do
  fTL r [3]
  let q ← decQ r; let t ← mInt r; let d ← decG r.d; let a ← decG r.a; decZ r.b; decZ r.c
  ok? (t == .i64 || t == .n64)
  let v := imm16 r
  ok? (v.extractLsb' 13 3 == 0#3)
  pure (k ⟨q, t == .i64, d, a, v.extractLsb' 0 6, v.extractLsb' 6 7⟩)

def fLea (r : Raw) : Option Instr := do
  mZ r
  let q ← decQ r; let d ← decG r.d; let a ← decG r.a; let b ← decG r.b; decZ r.c
  match r.tl.toNat with
  | 2 => pure (.lea ⟨q, d, a, b, .plain⟩)
  | 3 => pure (.lea ⟨q, d, a, b, .s16 (r.imm.extractLsb' 0 4) (r.imm.extractLsb' 4 12)⟩)
  | 4 => pure (.lea ⟨q, d, a, b, .s32 (r.imm.extractLsb' 0 4) (r.imm.extractLsb' 4 28)⟩)
  | _ => none

/-- OP 0x10 to 0x1F. -/
def form1 (r : Raw) : Option Instr :=
  match r.op.toNat with
  | 0x10 => fAlu2 r .sar
  | 0x11 => fAlu2 r .rot
  | 0x12 => fAlu1 r (match r.f.toNat with | 0 => .clz | 1 => .ctz | _ => .popc)
  | 0x13 => fAlu2 r (if r.f = 0 then .min else .max)
  | 0x14 => fAlu1 r (if r.f = 0 then .abs else .neg)
  | 0x15 => do
    let q ← decQ r; let t ← mInt r; let d ← decP r.d; let a ← decG r.a; decZ r.c
    let b ← fSrc2 r
    pure (.cmp ⟨q, decCond r.f, t, d, a, b⟩)
  | 0x16 => do
    fTL r [2]; mZ r
    let q ← decQ r; let d ← decG r.d; let a ← decG r.a; let b ← decG r.b; let c ← decP r.c
    pure (.sel ⟨q, d, a, b, c⟩)
  | 0x17 => do
    fTL r [3, 4]
    let q ← decQ r; let t ← mInt r; let d ← decG r.d; decZ r.a; decZ r.b; decZ r.c
    pure (.movi ⟨q, t, d, if r.tl = 3 then .i16 (imm16 r) else .i32 r.imm⟩)
  | 0x18 => do
    fTL r [4]; mZ r
    let q ← decQ r; let d ← decG r.d; decZ r.a; decZ r.b; decZ r.c
    pure (.movhi ⟨q, d, r.imm⟩)
  | 0x19 => fAlu1 r .ext
  | 0x1A => fBit r .bfx
  | 0x1B => fBit r .bfi
  | 0x1C => fLea r
  | 0x1D => do
    fTL r [2]
    let q ← decQ r; let t ← mInt r; let d ← decG r.d; let a ← decG r.a; let b ← decG r.b; let c ← decG r.c
    pure (.madr ⟨q, t, d, a, b, c⟩)
  | 0x1E => fGG r [1, 2] .mov
  | 0x1F =>
    match r.f.toNat with
    | 0 => fPPP r .pand
    | 1 => fPPP r .por
    | 2 => fPPP r .pxor
    | 3 => do
      fTL r [1, 2]; mZ r
      let q ← decQ r; let d ← decP r.d; let a ← decP r.a; decZ r.b; decZ r.c
      pure (.pnot ⟨q, d, a⟩)
    | 4 => do
      fTL r [1, 2]; mZ r
      let q ← decQ r; let d ← decP r.d; let a ← decG r.a; decZ r.b; decZ r.c
      pure (.pmov ⟨q, d, a⟩)
    | _ => do
      fTL r [1, 2]; mZ r
      let q ← decQ r; let d ← decG r.d; let a ← decP r.a; decZ r.b; decZ r.c
      pure (.pany ⟨q, d, a⟩)
  | _ => none

def fJump (r : Raw) (k : BitVec 32 → Instr) : Option Instr := do
  fTL r [4]; mZ r; decNoQ r; decZ r.d; decZ r.a; decZ r.b; decZ r.c
  pure (k r.imm)

/-- OP 0x20 to 0x2F. -/
def form2 (r : Raw) : Option Instr :=
  match r.op.toNat with
  | 0x20 => fJump r .br
  | 0x21 => do
    fTL r [4]; mZ r; decZ r.d; decZ r.a; decZ r.b; decZ r.c
    let q ← decQ r
    pure (.brp q r.imm)
  | 0x22 => do
    fTL r [4]
    let q ← decQ r; let t ← mInt r; let d ← decG r.d; let a ← decG r.a; decZ r.b; decZ r.c
    pure (.bcmp ⟨q, decCond r.f, t, d, a, r.imm⟩)
  | 0x23 => fJump r .call
  | 0x24 => fG1 r [1, 2] .calli
  | 0x25 => if r.tl = 0 then do decZ r.d; pure .ret else fG1 r [2] .retReg
  | 0x26 => fG1 r [1, 2] .jmpi
  | 0x27 => do
    fTL r [4]; mZ r; decNoQ r; decZ r.a; decZ r.b; decZ r.c
    let d ← decG r.d
    pure (.loop (if r.f = 0 then 0 else 1) d r.imm)
  | 0x28 =>
    if r.tl = 0 then do decZ r.d; pure .waitev
    else do
      fTL r [2]; mZ r; decZ r.d; decZ r.a; decZ r.b; decZ r.c
      let q ← decQ r
      pure (.waitevGuarded q)
  | 0x29 => do fTL r [0]; pure (.trap r.d)
  | 0x2A => do fTL r [0]; decZ r.d; pure .eret
  | 0x2C => do
    fTL r [2]; mZ r
    let q ← decQ r; let d ← decP r.d; let a ← decG r.a; decZ r.b; decZ r.c
    pure (.aptest ⟨q, match r.f.toNat with | 0 => .glob | 1 => .loc | _ => .berth, d, a⟩)
  | 0x2D => do
    fTL r [2]; mZ r
    let q ← decQ r; let d ← decG r.d; let a ← decG r.a; decZ r.b; decZ r.c
    pure (.apcvt ⟨q, match r.f.toNat with | 0 => .ofs | 1 => .loc | _ => .brt, d, a⟩)
  | 0x2E => fGD r [1, 2] .time
  | 0x2F => fGD r [1, 2] .meter
  | _ => none

def fLd (r : Raw) (k : LdF → Instr) : Option Instr := do
  let q ← decQ r; let (t, c) ← mLoc r; let d ← decG r.d; let a ← decG r.a; decZ r.c
  ok? (!c)
  let o ← fSrc2 r
  pure (k ⟨q, t, d, a, o⟩)

def fLdv (r : Raw) (k : LdvF → Instr) : Option Instr := do
  mZ r
  let q ← decQ r; let d ← decV r.d; let a ← decG r.a; decZ r.c
  let o ← fSrc2 r
  pure (k ⟨q, d, a, o⟩)

def fLdb (r : Raw) (k : LdbF → Instr) : Option Instr := do
  let q ← decQ r; let b ← mBlk r; let d ← decV r.d; let a ← decG r.a; let h ← decG r.b; decZ r.c
  match r.tl.toNat with
  | 2 => pure (k ⟨q, b, d, a, h, none⟩)
  | 3 => pure (k ⟨q, b, d, a, h, some (.i16 (imm16 r))⟩)
  | 4 => pure (k ⟨q, b, d, a, h, some (.i32 r.imm)⟩)
  | _ => none

def fLdg (r : Raw) (k : LdgF → Instr) : Option Instr := do
  let q ← decQ r; let s ← mOrd r; let d ← decG r.d; let a ← decG r.a; decZ r.c
  let o ← fSrc2 r
  pure (k ⟨q, decIntTy (r.m.extractLsb' 0 3), s, d, a, o⟩)

def fLdgv (r : Raw) (k : LdgvF → Instr) : Option Instr := do
  ok? (r.m.extractLsb' 0 3 == 0#3)
  let q ← decQ r; let s ← mOrd r; let d ← decV r.d; let a ← decG r.a; decZ r.c
  let o ← fSrc2 r
  pure (k ⟨q, s, d, a, o⟩)

/-- The C field of AMO and AMOG: class G for `.cas`, otherwise 0. -/
def fAmoC (r : Raw) : Option GOp := if decAmoOp r.f = .cas then decG r.c else (decZ r.c).map fun _ => .g 0

def fFeset (r : Raw) (k : FesetF → Instr) : Option Instr := do
  mZ r; decZ r.d; decZ r.c
  let q ← decQ r; let a ← decG r.a; let n ← fR16 r r.b
  pure (k ⟨q, a, n⟩)

/-- OP 0x30 to 0x3F. -/
def form3 (r : Raw) : Option Instr :=
  match r.op.toNat with
  | 0x30 => fLd r .ld
  | 0x31 => fLd r .st
  | 0x32 => do
    let q ← decQ r; let (t, c) ← mLoc r; let d ← decG r.d; let a ← decG r.a; decZ r.c
    let o ← fSrc2 r
    pure (.lds ⟨q, t, c, d, a, o⟩)
  | 0x33 => fLd r .stf
  | 0x34 =>
    match r.f.toNat with
    | 0 => fFeset r .fesetFull
    | 1 => fFeset r .fesetEmpty
    | _ => do
      mZ r; decZ r.c
      let q ← decQ r; let d ← decG r.d; let a ← decG r.a; let n ← fR16 r r.b
      pure (.fetest ⟨q, d, a, n⟩)
  | 0x35 => fLdv r .ldv
  | 0x36 => fLdv r .stv
  | 0x37 => fLdb r .ldb
  | 0x38 => fLdb r .stb
  | 0x39 => fLdg r .ldg
  | 0x3A => fLdg r .stg
  | 0x3B => fLdgv r (if r.f = 0 then .ldgv else .stgv)
  | 0x3C => do
    ok? (r.m.extractLsb' 2 4 == 0#4)
    let q ← decQ r; let d ← decG r.d; let a ← decG r.a; let b ← decG r.b; let c ← fAmoC r; let o ← fOpt16 r
    pure (.amo ⟨q, decAmoOp r.f, decAmoTy (r.m.extractLsb' 0 2), d, a, b, c, o⟩)
  | 0x3D => do
    let q ← decQ r; let d ← decG r.d; let a ← decG r.a; let b ← decG r.b; let c ← fAmoC r; let o ← fOpt16 r
    pure (.amog ⟨q, decAmoOp r.f, decAmoTy (r.m.extractLsb' 0 2), decKind (r.m.extractLsb' 2 2),
      decScope (r.m.extractLsb' 4 2), d, a, b, c, o⟩)
  | 0x3E => do
    fTL r [2]; ok? (r.m.extractLsb' 4 2 == 0#2); decZ r.d; decZ r.a; decZ r.b; decZ r.c
    let q ← decQ r
    pure (.fence ⟨q, decKind (r.m.extractLsb' 0 2), decScope (r.m.extractLsb' 2 2)⟩)
  | 0x3F =>
    if r.f = 0 then do
      mZ r; decZ r.d; decZ r.c
      let q ← decQ r; let a ← decG r.a; let o ← fR16 r r.b
      pure (.mon ⟨q, a, o⟩)
    else do
      mZ r; decZ r.b; decZ r.c
      let q ← decQ r; let d ← decG r.d; let t ← fR16 r r.a
      pure (.mwait ⟨q, d, t⟩)
  | _ => none

def fTag (r : Raw) : Option (Option (BitVec 16)) := fOpt16 r

/-- OP 0x40 to 0x4F. -/
def form4 (r : Raw) : Option Instr :=
  match r.op.toNat with
  | 0x40 => do
    let q ← decQ r; let s ← mMsg r; let d ← decG r.d; let a ← decG r.a; let b ← decG r.b; let c ← decG r.c
    let t ← fOpt16 r
    pure (.send ⟨q, s, d, a, b, c, t⟩)
  | 0x41 => do
    let q ← decQ r; let s ← mMsg r; let d ← decG r.d; let a ← decG r.a; decZ r.b; decZ r.c
    let t ← fOpt16 r
    pure (.sendv ⟨q, s, d, a, t⟩)
  | 0x42 => do
    let q ← decQ r; let (s, k) ← mMsgB r; let d ← decG r.d; let a ← decV r.a; decZ r.b; decZ r.c
    let t ← fOpt16 r
    pure (.sendb ⟨q, r.f = 1, k, s, d, a, t⟩)
  | 0x43 =>
    if r.f = 0 then do
      mZ r; decZ r.d; decZ r.c
      let q ← decQ r; let a ← decG r.a; let t ← fR16 r r.b
      pure (.tagset ⟨q, t, a⟩)
    else do
      mZ r; decZ r.a; decZ r.c
      let q ← decQ r; let d ← decG r.d; let t ← fR16 r r.b
      pure (.tagget ⟨q, d, t⟩)
  | 0x44 => do
    mZ r; decZ r.b; decZ r.c
    let q ← decQ r; let d ← decG r.d
    match r.tl.toNat with
    | 2 => do
      let a ← decG r.a
      match a with
      | .c n => pure (.chk ⟨q, d, .chan n⟩)
      | .g _ => none
    | 3 => do decZ r.a; pure (.chk ⟨q, d, .mask (imm16 r)⟩)
    | _ => none
  | 0x45 => do
    fTL r [3]; mZ r; decZ r.d; decZ r.b; decZ r.c
    let q ← decQ r; let a ← decG r.a
    let v := imm16 r
    if a = .g 0 then pure (.semsig ⟨q, v.extractLsb' 0 8, .imm (v.extractLsb' 8 8)⟩)
    else do ok? (v.extractLsb' 8 8 == 0#8); pure (.semsig ⟨q, v.extractLsb' 0 8, .reg a⟩)
  | 0x46 => do
    fTL r [3]; mZ r; decZ r.b; decZ r.c
    let q ← decQ r; let d ← decG r.d; let a ← decG r.a
    let v := imm16 r
    if a = .g 0 then pure (.semwait ⟨q, d, v.extractLsb' 0 8, .imm (v.extractLsb' 8 8)⟩)
    else do ok? (v.extractLsb' 8 8 == 0#8); pure (.semwait ⟨q, d, v.extractLsb' 0 8, .reg a⟩)
  | 0x47 => do
    fTL r [3]; mZ r; decZ r.b; decZ r.c
    let q ← decQ r
    let v := imm16 r
    ok? (v.extractLsb' 8 8 == 0#8)
    if r.f = 0 then do
      decZ r.a
      let d ← decG r.d
      pure (.semget ⟨q, d, v.extractLsb' 0 8⟩)
    else do
      decZ r.d
      let a ← decG r.a
      pure (.semset ⟨q, v.extractLsb' 0 8, a⟩)
  | 0x48 => do
    fTL r [2]; mZ r; decZ r.b; decZ r.c
    let q ← decQ r; let d ← decP r.d; let a ← decG r.a
    pure (.shape ⟨q, d, a⟩)
  | 0x49 => do
    ok? (r.m.extractLsb' 1 5 == 0#5)
    let q ← decQ r; let d ← decG r.d; let a ← decP r.a; let b ← decP r.b
    fTL r [2, 5, 6]; ok? (r.imm == 0)
    if r.f = 0 then do
      let c ← decG r.c
      pure (.copy ⟨q, r.m.getLsbD 0, a, b, c, d, fCmd r⟩)
    else do
      decZ r.c; decZ r.m
      pure (.copyRing ⟨q, d, a, b, fCmd r⟩)
  | 0x4A => do
    mZ r; decZ r.d; decZ r.c
    let q ← decQ r; let a ← decG r.a; let n ← fR16 r r.b
    pure (.space ⟨q, a, n⟩)
  | 0x4B => fG2 r [2] .cntwait
  | 0x4C =>
    if r.f = 2 then fG1 r [2] .berthClose
    else do
      fTL r [3]; mZ r; decZ r.d; decZ r.c
      let q ← decQ r; let a ← decG r.a; let b ← decG r.b
      pure ((if r.f = 0 then Instr.berthOut else Instr.berthIn) ⟨q, a, b, imm16 r⟩)
  | _ => none

/-- OP 0x50 to 0x57. -/
def form5a (r : Raw) : Option Instr :=
  match r.op.toNat with
  | 0x50 => do
    decZ r.d; decZ r.c
    let q ← decQ r; let n ← mGmi r; let a ← decG r.a; let fl ← fR16 r r.b
    pure (.tide ⟨q, n, a, fl⟩)
  | 0x51 => do
    decZ r.b; decZ r.c
    let q ← decQ r; let n ← mGmi r; let d ← decG r.d; let a ← decG r.a
    match r.tl.toNat with
    | 2 => pure (.tidewait ⟨q, n, d, a, none⟩)
    | 3 => do ok? ((imm16 r).extractLsb' 1 15 == 0#15); pure (.tidewait ⟨q, n, d, a, some ((imm16 r).getLsbD 0)⟩)
    | _ => none
  | 0x52 => do
    decZ r.b; decZ r.c
    let q ← decQ r; let n ← mGmi r; let d ← decG r.d; let s ← fR16 r r.a
    pure (.tideq ⟨q, n, d, s⟩)
  | 0x53 => do
    decZ r.c
    let q ← decQ r; let n ← mGmi r
    if r.f = 0 then do
      decZ r.d
      let a ← decG r.a; let s ← fR16 r r.b
      pure (.chunkinit ⟨q, n, a, s⟩)
    else do
      decZ r.a; decZ r.b
      let d ← decG r.d; let c ← fOpt16 r
      pure (.getchunk ⟨q, n, d, c⟩)
  | 0x54 => do
    fTL r [4]; mZ r; decZ r.a; decZ r.b; decZ r.c
    let q ← decQ r; let d ← decG r.d
    pure (.lace ⟨q, d, r.imm⟩)
  | 0x55 => if r.tl = 0 then do decZ r.d; pure .unlace else fGD r [2] .unlaceStatus
  | 0x56 => if r.f = 0 then fGD r [2, 3] .relace else fGD r [2, 3] .laceq
  | 0x57 =>
    match r.f.toNat with
    | 0 => do ok? (r.imm == 0); fGG r [2, 3] .spawn
    | 1 => do
      fTL r [2, 3]; mZ r; decZ r.c; ok? (r.imm == 0)
      let q ← decQ r; let d ← decG r.d; let a ← decG r.a; let b ← decG r.b
      pure (.migrate ⟨q, d, a, b⟩)
    | _ => do
      mZ r; decZ r.b; decZ r.c
      let q ← decQ r; let d ← decG r.d; let s ← fR16 r r.a
      pure (.taskid ⟨q, d, s⟩)
  | _ => none

def fV3 (r : Raw) (k : V3 → Instr) : Option Instr := do
  fTL r [2]
  let q ← decQ r; let m ← mVec r; let d ← decV r.d; let a ← decV r.a; let b ← decV r.b; decZ r.c
  pure (k ⟨q, m, d, a, b⟩)

def fV2 (r : Raw) (k : V2 → Instr) : Option Instr := do
  fTL r [2]
  let q ← decQ r; let m ← mVec r; let d ← decV r.d; let a ← decV r.a; decZ r.b; decZ r.c
  pure (k ⟨q, m, d, a⟩)

def fVN3 (r : Raw) (k : VN3 → Instr) : Option Instr := do
  fTL r [2]
  let q ← decQ r; let t ← mVnr r; let d ← decV r.d; let a ← decV r.a; let b ← decV r.b; decZ r.c
  pure (k ⟨q, t, d, a, b⟩)

def fVN2 (r : Raw) (k : VN2 → Instr) : Option Instr := do
  fTL r [2]
  let q ← decQ r; let t ← mVnr r; let d ← decV r.d; let a ← decV r.a; decZ r.b; decZ r.c
  pure (k ⟨q, t, d, a⟩)

/-- OP 0x58 to 0x5F. -/
def form5b (r : Raw) : Option Instr :=
  match r.op.toNat with
  | 0x58 => fV3 r .vadd
  | 0x59 => fV3 r .vsub
  | 0x5A => fV3 r .vmul
  | 0x5B => do
    fTL r [2]
    let q ← decQ r; let m ← mVec r; let d ← decV r.d; let a ← decV r.a; let b ← decV r.b; let c ← decV r.c
    pure (.vfma ⟨q, m, d, a, b, c⟩)
  | 0x5C => do
    fTL r [2]
    let q ← decQ r; let (f, x) ← mVecF r; let d ← decV r.d; let a ← decV r.a; decZ r.c
    if r.f = 0 then do let b ← decV r.b; pure (.vdiv ⟨q, f, x, d, a, b⟩)
    else do decZ r.b; pure (.vsqrt ⟨q, f, x, d, a⟩)
  | 0x5D => fVN3 r (if r.f = 0 then .vmin else .vmax)
  | 0x5E => fVN2 r (if r.f = 0 then .vabs else .vneg)
  | 0x5F => do
    fTL r [2]
    let q ← decQ r; let d ← decP r.d; let a ← decV r.a; let b ← decV r.b; decZ r.c
    if r.m.getLsbD 5 then do
      let t ← mVnrInt r
      pure (.vcmp ⟨q, decVCond r.f, .int t, false, d, a, b⟩)
    else do
      ok? (r.m.extractLsb' 1 2 == 0#2)
      pure (.vcmp ⟨q, decVCond r.f, .fp (decFp (r.m.extractLsb' 3 2)), r.m.getLsbD 0, d, a, b⟩)
  | _ => none

def decCvtB (s d : FullTy) (b : BitVec 6) : Option CvtB :=
  if d.width < s.width then (decV b).map .v
  else if d.width = s.width then (decZ b).map fun _ => .none
  else (decG b).map .g

/-- OP 0x60 to 0x6F. -/
def form6 (r : Raw) : Option Instr :=
  match r.op.toNat with
  | 0x60 => do
    fTL r [2]
    let q ← decQ r; let t ← mVnr r; let d ← decV r.d; let a ← decV r.a; let b ← decV r.b; let c ← decP r.c
    pure (.vsel ⟨q, t, d, a, b, c⟩)
  | 0x61 => do
    fTL r [2]
    let q ← decQ r; let t ← mVnrInt r; let d ← decV r.d; let a ← decV r.a; let b ← decV r.b; decZ r.c
    let op : VLogOp := match r.f.toNat with | 0 => .and | 1 => .or | 2 => .xor | 3 => .andn | _ => .not
    pure (.vlog ⟨q, op, t, d, a, b⟩)
  | 0x62 => do
    fTL r [2]
    let q ← decQ r; let t ← mVnrInt r; let d ← decV r.d; let a ← decV r.a; let b ← decV r.b; decZ r.c
    let op : VShOp := match r.f.toNat with | 0 => .shl | 1 => .shr | 2 => .sar | _ => .rot
    pure (.vsh ⟨q, op, t, d, a, b⟩)
  | 0x63 => do
    fTL r [3]; mZ r
    let q ← decQ r; let d ← decV r.d; let a ← decV r.a; decZ r.c
    let v := imm16 r
    ok? (v.extractLsb' 13 3 == 0#3)
    let dt ← decFull (v.extractLsb' 0 5); let s ← decFull (v.extractLsb' 5 5); let x ← decRnd (v.extractLsb' 10 3)
    let b ← decCvtB s dt r.b
    pure (.vcvt ⟨q, dt, s, x, d, a, b⟩)
  | 0x64 => do
    fTL r [2]
    let q ← decQ r; let (f, x) ← mVecF r; let d ← decV r.d; let a ← decV r.a; decZ r.b; decZ r.c
    pure (.vfn ⟨q, decFun r.f, f, x, d, a⟩)
  | 0x65 => do
    fTL r [2]
    let q ← decQ r; let m ← mVec r; let d ← decV r.d; let a ← decV r.a; decZ r.b; decZ r.c
    let op : VRedOp := match r.f.toNat with | 0 => .sum | 1 => .min | 2 => .max | 3 => .and | _ => .or
    pure (.vred ⟨q, op, m, d, a⟩)
  | 0x66 => fV2 r .vscan
  | 0x67 => fVN3 r .vperm
  | 0x68 => do
    let q ← decQ r; let t ← mVnr r; let d ← decV r.d; decZ r.b; decZ r.c
    match r.tl.toNat with
    | 2 => do let a ← decG r.a; pure (.vbcast ⟨q, t, d, .reg a⟩)
    | 3 => do decZ r.a; pure (.vbcast ⟨q, t, d, .imm (.i16 (imm16 r))⟩)
    | 4 => do decZ r.a; pure (.vbcast ⟨q, t, d, .imm (.i32 r.imm)⟩)
    | _ => none
  | 0x69 => do
    fTL r [2]
    let q ← decQ r; let t ← mVnr r; decZ r.c
    if r.f = 0 then do
      let d ← decG r.d; let a ← decV r.a; let b ← decG r.b
      pure (.vext ⟨q, t, d, a, b⟩)
    else do
      let d ← decV r.d; let a ← decG r.a; let b ← decG r.b
      pure (.vins ⟨q, t, d, a, b⟩)
  | 0x6A => fVN2 r .vmov
  | 0x6B => do
    fTL r [2]
    let q ← decQ r; let t ← mVnr r; let d ← decV r.d; let a ← decV r.a; decZ r.b; decZ r.c
    match t with
    | .fp f => pure (.vclass ⟨q, f, d, a⟩)
    | .int _ => none
  | 0x6C => if r.tl = 0 then do let d ← decG r.d; pure (.flg d) else fGG r [2] .flgMasked
  | _ => none

def fB3 (r : Raw) (k : B3 → Instr) : Option Instr := do
  fTL r [2]
  let q ← decQ r; let t ← mBlk r; let d ← decV r.d; let a ← decV r.a; let b ← decV r.b; decZ r.c
  pure (k ⟨q, t, d, a, b⟩)

/-- OP 0x70 to 0x7E. -/
def form7 (r : Raw) : Option Instr :=
  match r.op.toNat with
  | 0x70 => fB3 r .badd
  | 0x71 => fB3 r .bmul
  | 0x72 => do
    fTL r [2]
    let q ← decQ r; let t ← mBlk r; let d ← decV r.d; let a ← decV r.a; let b ← decV r.b; let c ← decV r.c
    pure (.bfma ⟨q, t, d, a, b, c⟩)
  | 0x73 => do
    fTL r [2]
    let q ← decQ r; let t ← mBlk r; let d ← decV r.d; let a ← decV r.a; decZ r.c
    if r.f = 0 then do decZ r.b; pure (.bnorm ⟨q, t, d, a⟩)
    else do let b ← decG r.b; pure (.brenorm ⟨q, t, d, a, b⟩)
  | 0x74 => do
    fTL r [2]
    let q ← decQ r; let (t, f) ← mBlkF r; let d ← decV r.d; let a ← decV r.a; let b ← decV r.b; let c ← decG r.c
    pure (.bquant ⟨q, t, f, d, a, b, c⟩)
  | 0x75 => do
    fTL r [2]
    let q ← decQ r; let (t, f) ← mBlkF r; let d ← decV r.d; let a ← decV r.a; let b ← decG r.b; decZ r.c
    pure (.bdeq ⟨q, t, f, d, a, b⟩)
  | 0x76 => do
    let q ← decQ r; let d ← decV r.d; let a ← decV r.a; decZ r.c
    match r.tl.toNat with
    | 2 => do
      let (t, f) ← mBlkF r; let b ← decG r.b
      pure (.bscale ⟨q, t, f, d, a, b⟩)
    | 3 => do
      let t ← mBlk r; decZ r.b
      pure (.bscalePow2 ⟨q, t, d, a, imm16 r⟩)
    | _ => none
  | 0x77 => fB3 r .bdot
  | 0x78 => do
    fTL r [3]; ok? (!r.m.getLsbD 5)
    let q ← decQ r; let t ← decFull (r.m.extractLsb' 0 5); let d ← decA r.d; decZ r.a; decZ r.b; decZ r.c
    pure (.mcfg ⟨q, t, d, imm16 r⟩)
  | 0x79 => do
    mZ r
    let q ← decQ r; let d ← decA r.d; decZ r.a; decZ r.b; decZ r.c
    let (s, c) ← fCmd r
    pure (.mrun ⟨q, d, r.imm, s, c⟩)
  | 0x7A => do
    mZ r
    let q ← decQ r; let d ← decG r.d; let a ← decG r.a; let b ← decA r.b; decZ r.c
    let (s, c) ← fCmd r
    pure (.mfeed ⟨q, d, a, b, r.imm, s, c⟩)
  | 0x7B => do
    fTL r [2]; mZ r
    let q ← decQ r
    match r.f.toNat with
    | 0 => do let d ← decA r.d; decZ r.a; decZ r.b; decZ r.c; pure (.mzero ⟨q, d⟩)
    | 1 => do let d ← decA r.d; let a ← decG r.a; let b ← decG r.b; decZ r.c; pure (.mload ⟨q, d, a, b⟩)
    | 2 =>
      if r.c = 0 then do
        let d ← decV r.d; let a ← decA r.a; let b ← decG r.b
        pure (.mdrainVector ⟨q, d, a, b⟩)
      else do
        decZ r.d
        let a ← decA r.a; let b ← decG r.b; let c ← decG r.c
        pure (.mdrainSram ⟨q, a, b, c⟩)
    | _ => do let d ← decG r.d; let a ← decA r.a; decZ r.b; decZ r.c; pure (.mstat ⟨q, d, a⟩)
  | 0x7C => do
    mZ r; decZ r.d; decZ r.b; decZ r.c
    let q ← decQ r; let s ← fR16 r r.a
    pure (.scancfg ⟨q, s⟩)
  | 0x7D =>
    if r.f = 0 then do
      ok? (r.m.extractLsb' 2 4 == 0#4)
      let form ← (match (r.m.extractLsb' 0 2).toNat with
        | 0 => some ScanForm.byRule | 1 => some ScanForm.chk | 2 => some ScanForm.stp | _ => none)
      let q ← decQ r; let d ← decP r.d; let a ← decP r.a; let b ← decP r.b; let c ← decP r.c
      let (s, ct) ← fCmd r
      pure (.scan ⟨q, form, d, a, b, c, r.imm, s, ct⟩)
    else fG1 r [2] (if r.f = 1 then .scanstSave else .scanstLoad)
  | 0x7E =>
    match r.f.toNat with
    | 0 => do
      mZ r; decZ r.b; decZ r.c
      let q ← decQ r; let d ← decG r.d; let s ← fR16s r r.a
      pure (.mfs ⟨q, d, s⟩)
    | 1 => do
      mZ r; decZ r.d; decZ r.c
      let q ← decQ r; let a ← decG r.a; let s ← fR16s r r.b
      pure (.mts ⟨q, s, a⟩)
    | 2 => do
      fTL r [3, 4]; mZ r; decZ r.d; decZ r.c
      ok? (r.imm.extractLsb' 2 30 == 0#30)
      let q ← decQ r; let a ← decG r.a; let b ← decG r.b
      match (r.imm.extractLsb' 0 2).toNat with
      | 0 => pure (.invalS1Page ⟨q, a, b⟩)
      | 1 => pure (.invalS1All ⟨q, a, b⟩)
      | 2 => pure (.invalS2Page ⟨q, a, b⟩)
      | _ => pure (.invalS2All ⟨q, a, b⟩)
    | 3 => fG1 r [2] .ctxsv
    | 4 => fG1 r [2] .ctxld
    | 5 => fG2 r [2] .sramclr
    | 6 => do
      mZ r; decZ r.d; decZ r.c
      let q ← decQ r; let a ← decG r.a; let n ← fR16s r r.b
      pure (.frmld ⟨q, a, n⟩)
    | 7 => do
      mZ r; decZ r.d; decZ r.a; decZ r.c
      let q ← decQ r; let n ← fR16s r r.b
      pure (.frminv ⟨q, n⟩)
    | k => do
      mZ r; decZ r.c
      let q ← decQ r; let d ← decG r.d; let a ← decG r.a; let n ← fR16s r r.b
      pure ((if k = 8 then Instr.grpset else Instr.rankset) ⟨q, d, a, n⟩)
  | _ => none

/-- How many F values an OP takes (R139, R140); none for a reserved OP and for 0x7F. -/
def opMinors (op : BitVec 7) : Option Nat :=
  match op.toNat with
  | 0x12 => some 3 | 0x13 => some 2 | 0x14 => some 2 | 0x15 => some 6 | 0x22 => some 6 | 0x1F => some 6
  | 0x27 => some 2 | 0x2B => none | 0x2C => some 3 | 0x2D => some 3 | 0x34 => some 3 | 0x3B => some 2
  | 0x3C => some 8 | 0x3D => some 8 | 0x3F => some 2 | 0x42 => some 2 | 0x43 => some 2 | 0x47 => some 2
  | 0x49 => some 2 | 0x4C => some 3 | 0x4D => none | 0x4E => none | 0x4F => none
  | 0x53 => some 2 | 0x56 => some 2 | 0x57 => some 3 | 0x5C => some 2 | 0x5D => some 2 | 0x5E => some 2
  | 0x5F => some 8 | 0x61 => some 5 | 0x62 => some 4 | 0x64 => some 11 | 0x65 => some 5 | 0x69 => some 2
  | 0x6D => none | 0x6E => none | 0x6F => none
  | 0x73 => some 2 | 0x7B => some 4 | 0x7D => some 3 | 0x7E => some 10 | 0x7F => none
  | _ => some 1

/-- The instruction of a head's fields, by the sixteenth of the opcode map. -/
def formOf (r : Raw) : Option Instr :=
  match (r.op.extractLsb' 4 3).toNat with
  | 0 => form0 r
  | 1 => form1 r
  | 2 => form2 r
  | 3 => form3 r
  | 4 => form4 r
  | 5 => if r.op.toNat < 0x58 then form5a r else form5b r
  | 6 => form6 r
  | _ => form7 r

/-- Decode checks 3 and 4 of R138 on the fields of a head other than NOP. -/
def decodeRaw (r : Raw) : Except DecErr Instr :=
  match opMinors r.op with
  | none => .error .illegalOp
  | some k =>
    if k ≤ r.f.toNat then .error .illegalOp
    else match formOf r with
      | none => .error .illegalForm
      | some i => if i.wf then .ok i else .error .illegalForm

/-- NOP accepts TL 0 to 4 and ignores its tail; only D must be zero (R141, R175). -/
def decodeNop (h : BitVec 16) (t : BitVec 128) : Except DecErr Instr :=
  if h.extractLsb' 0 6 ≠ 0 then .error .illegalForm
  else match (h.extractLsb' 6 3).toNat with
    | 0 => .ok .nop
    | 1 => .ok (.nopTail 0 ((t.extractLsb' 0 16).setWidth 64))
    | 2 => .ok (.nopTail 1 ((t.extractLsb' 0 32).setWidth 64))
    | 3 => .ok (.nopTail 2 ((t.extractLsb' 0 48).setWidth 64))
    | 4 => .ok (.nopTail 3 (t.extractLsb' 0 64))
    | _ => .error .illegalForm

/-- The decoder: a head and its tail, bits above the tail's length zero, to an instruction or a refusal (R138). -/
def decode (h : BitVec 16) (t : BitVec 128) : Except DecErr Instr :=
  if h.extractLsb' 9 7 = 0 then decodeNop h t
  else if h.extractLsb' 6 3 = 7 then .error .illegalForm
  else decodeRaw (rawOf h t)

/-! ### Lines -/

/-- Head count of a line (R129). -/
def lineHC (l : Line) : Nat := (l.extractLsb' 0 5).toNat

/-- Head `i` of a line (R130). -/
def lineHead (l : Line) (i : Nat) : BitVec 16 := l.extractLsb' (16 + 16 * i) 16

/-- TL code of a head (R133). -/
def headTL (h : BitVec 16) : BitVec 3 := h.extractLsb' 6 3

/-- The sum of the tail lengths of heads 0 to `n` − 1 (R130). -/
def tailSum (l : Line) : Nat → Nat
  | 0 => 0
  | n + 1 => tailSum l n + tailLen (headTL (lineHead l n))

/-- The tail of head `i` of a line of `w` bits, 512 for a code line (R130) and 64 × CL for a mini-line (R74). -/
def lineTail (w : Nat) (l : Line) (i : Nat) : BitVec 128 :=
  let len := tailLen (headTL (lineHead l i))
  BitVec.ofNat 128 (l.extractLsb' (w - tailSum l (i + 1)) 128).toNat &&& BitVec.ofNat 128 (2 ^ len - 1)

/-- No head among the first `n` has TL = 7. -/
def noTL7 (l : Line) : Nat → Bool
  | 0 => true
  | n + 1 => noTL7 l n && headTL (lineHead l n) != 7#3

/-- The legality of a line of `w` bits (R131; for a mini-line R74, HC 1 to 4). -/
def lineLegal (w : Nat) (l : Line) : Bool :=
  lineHC l != 0 && l.extractLsb' 5 11 == 0#11 && noTL7 l (lineHC l) &&
  16 + 16 * lineHC l + tailSum l (lineHC l) ≤ w

/-- A line holding one head and its tail, at slot 0. -/
def lineOf (h : BitVec 16) (t : BitVec 128) : Line :=
  let len := tailLen (headTL h)
  (1#512 ||| (h.setWidth 512 <<< 16)) ||| ((t &&& BitVec.ofNat 128 (2 ^ len - 1)).setWidth 512 <<< (512 - len))

/-- The instruction the decoder reads from the word of an opcode-table row: its first 16 bits are the head, the later
ones the tail (R130, R133). They are laid out as a line of one head and read from there. -/
def decodeTableWord (nbits w : Nat) : Option Instr :=
  let w := w % 2 ^ nbits
  let l := lineOf (BitVec.ofNat 16 w) (BitVec.ofNat 128 (w / 2 ^ 16))
  match decode (lineHead l 0) (lineTail 512 l 0) with
  | .ok i => some i
  | .error _ => none

/-! ### The encoder -/

def encG : GOp → BitVec 6
  | .g n => BitVec.ofNat 6 n.val
  | .c n => BitVec.ofNat 6 (32 + n.val)

def encV (n : Fin 16) : BitVec 6 := BitVec.ofNat 6 n.val
def encP (n : Fin 8) : BitVec 6 := BitVec.ofNat 6 n.val
def encA (n : Fin 4) : BitVec 6 := BitVec.ofNat 6 n.val

def encIntTy : IntTy → BitVec 3
  | .i64 => 0 | .i32 => 1 | .i16 => 2 | .i8 => 3 | .n64 => 4 | .n32 => 5 | .n16 => 6 | .n8 => 7

def encFp : FpTy → BitVec 2
  | .f32 => 0 | .f64 => 1 | .f16 => 2 | .bf16 => 3

def encRnd : Rnd → BitVec 3
  | .rne => 0 | .rtz => 1 | .rup => 2 | .rdn => 3 | .rna => 4

def encFull : FullTy → BitVec 5
  | .i64 => 0 | .i32 => 1 | .i16 => 2 | .i8 => 3 | .n64 => 4 | .n32 => 5 | .n16 => 6 | .n8 => 7
  | .f32 => 8 | .f64 => 9 | .f16 => 10 | .bf16 => 11 | .e4 => 12 | .e5 => 13 | .pb8 => 14 | .pb4 => 15
  | .mx8e4 => 16 | .mx8e5 => 17 | .mx4 => 18 | .mxi8 => 19 | .mx6e2 => 20 | .mx6e3 => 21

def encScope : Scope → BitVec 2
  | .core => 0 | .field => 1 | .dev => 2 | .sys => 3

def encKind : Kind → BitVec 2
  | .none => 0 | .acq => 1 | .rel => 2 | .full => 3

def encCond : Cond → BitVec 4
  | .eq => 0 | .ne => 1 | .lt => 2 | .le => 3 | .gt => 4 | .ge => 5

def encVCond : VCond → BitVec 4
  | .eq => 0 | .ne => 1 | .lt => 2 | .le => 3 | .gt => 4 | .ge => 5 | .un => 6 | .ord => 7

def encAmoOp : AmoOp → BitVec 4
  | .add => 0 | .swap => 1 | .cas => 2 | .and => 3 | .or => 4 | .xor => 5 | .min => 6 | .max => 7

def encAmoTy : AmoTy → BitVec 2
  | .i64 => 0 | .i32 => 1 | .n64 => 2 | .n32 => 3

def encFun : VFun → BitVec 4
  | .exp => 0 | .exp2 => 1 | .log => 2 | .log2 => 3 | .sin => 4 | .cos => 5 | .tanh => 6 | .rsqrt => 7
  | .recip => 8 | .erf => 9 | .sigmoid => 10

def encSync (s : Sync) : BitVec 32 := s.inc ++ s.ssem ++ s.thr ++ s.wsem
def encCtr (c : Ctr) : BitVec 32 := c.cinc ++ c.creg

def encCls : MsgCls → BitVec 2
  | .req => 0 | .rsp => 1 | .sys => 3

def encBlk : BlkTy → BitVec 1
  | .pb8 => 0 | .pb4 => 1

def encVMod : VMod → BitVec 6
  | .fp f r => 0#1 ++ encFp f ++ encRnd r
  | .int t => 0b100#3 ++ encIntTy t

def encVTy : VTy → BitVec 6
  | .fp f => 0#1 ++ encFp f ++ 0#3
  | .int t => 0b100#3 ++ encIntTy t

def encIntM (t : IntTy) : BitVec 6 := 0#3 ++ encIntTy t

def encOrd (o : Option Scope) (t : BitVec 3) : BitVec 6 :=
  match o with
  | none => 0#3 ++ t
  | some s => encScope s ++ 1#1 ++ t

/-- A T32 form with the given guard. -/
def rawT32 (op : BitVec 7) (q : Guard) (d a b c : BitVec 6) (f : BitVec 4) (m : BitVec 6) : Raw :=
  { op := op, tl := 2, d := d, a := a, b := b, c := c, g := BitVec.ofNat 3 q.p.val, n := q.neg, f := f, m := m }

def Raw.withImm (r : Raw) : Imm → Raw
  | .i16 v => { r with tl := 3, imm := v.setWidth 32 }
  | .i32 v => { r with tl := 4, imm := v }

def Raw.with16 (r : Raw) (v : BitVec 16) : Raw := { r with tl := 3, imm := v.setWidth 32 }

def Raw.withOpt16 (r : Raw) : Option (BitVec 16) → Raw
  | none => r
  | some v => r.with16 v

def Raw.withCmd (r : Raw) (imm : BitVec 32) (s : Sync) : Option Ctr → Raw
  | none => { r with tl := 5, imm := imm, sync := encSync s }
  | some c => { r with tl := 6, imm := imm, sync := encSync s, imm2 := encCtr c }

def Raw.withOptCmd (r : Raw) : Option (Sync × Option Ctr) → Raw
  | none => r
  | some (s, c) => r.withCmd 0 s c

/-- The T16 form where the instruction is unguarded with M = 0, otherwise the T32 form (R145). -/
def rawShort (op : BitVec 7) (q : Guard) (d a b : BitVec 6) (f : BitVec 4) (m : BitVec 6) : Raw :=
  if q = Guard.always ∧ m = 0 then { op := op, tl := 1, d := d, a := a, b := b, f := f }
  else rawT32 op q d a b 0 f m

def rawSrc (short : Bool) (op : BitVec 7) (q : Guard) (d a : BitVec 6) (f : BitVec 4) (m : BitVec 6) : Src → Raw
  | .reg b => if short then rawShort op q d a (encG b) f m else rawT32 op q d a (encG b) 0 f m
  | .imm v => (rawT32 op q d a 0 0 f m).withImm v

def rawAlu2 (op : BitVec 7) (f : BitVec 4) (x : Alu2) : Raw :=
  rawSrc true op x.q (encG x.d) (encG x.a) f (encIntM x.t) x.b

def rawAlu1 (op : BitVec 7) (f : BitVec 4) (x : Alu1) : Raw :=
  rawShort op x.q (encG x.d) (encG x.a) 0 f (encIntM x.t)

/-- TL 2 with the register in A (`inA`) or B, TL 3 with imm16. -/
def rawR16 (op : BitVec 7) (q : Guard) (d a b : BitVec 6) (f : BitVec 4) (m : BitVec 6) (inA : Bool) : R16 → Raw
  | .reg r => if inA then rawT32 op q d (encG r) b 0 f m else rawT32 op q d a (encG r) 0 f m
  | .imm v => (rawT32 op q d a b 0 f m).with16 v

def rawJump (op : BitVec 7) (off : BitVec 32) : Raw := { op := op, tl := 4, d := 0, imm := off }
def rawV3 (op : BitVec 7) (f : BitVec 4) (x : V3) : Raw :=
  rawT32 op x.q (encV x.d) (encV x.a) (encV x.b) 0 f (encVMod x.m)
def rawVN3 (op : BitVec 7) (f : BitVec 4) (x : VN3) : Raw :=
  rawT32 op x.q (encV x.d) (encV x.a) (encV x.b) 0 f (encVTy x.t)
def rawVN2 (op : BitVec 7) (f : BitVec 4) (x : VN2) : Raw :=
  rawT32 op x.q (encV x.d) (encV x.a) 0 0 f (encVTy x.t)
def rawB3 (op : BitVec 7) (x : B3) : Raw :=
  rawT32 op x.q (encV x.d) (encV x.a) (encV x.b) 0 0 (0#5 ++ encBlk x.k)
def encBlkF (k : BlkTy) (f : FpTy) : BitVec 6 := 0#3 ++ encFp f ++ encBlk k
def rawLd (op : BitVec 7) (x : LdF) : Raw := rawSrc false op x.q (encG x.d) (encG x.a) 0 (encIntM x.t) x.o
def rawLdv (op : BitVec 7) (x : LdvF) : Raw := rawSrc false op x.q (encV x.d) (encG x.a) 0 0 x.o
def rawLdb (op : BitVec 7) (x : LdbF) : Raw :=
  let r := rawT32 op x.q (encV x.d) (encG x.a) (encG x.b) 0 0 (0#5 ++ encBlk x.k)
  match x.off with
  | none => r
  | some v => r.withImm v
def encCvtB : CvtB → BitVec 6
  | .none => 0
  | .v n => encV n
  | .g r => encG r
def semRaw (op : BitVec 7) (q : Guard) (d : BitVec 6) (n : BitVec 8) : SemArg → Raw
  | .imm v => (rawT32 op q d 0 0 0 0 0).with16 (v ++ n)
  | .reg r => (rawT32 op q d (encG r) 0 0 0 0).with16 (0#8 ++ n)

/-- The fields of an encoded instruction, in the shortest form that holds it (R145); none for an event and for NOP,
whose tail is free. -/
def toRaw : Instr → Option Raw
  | .halt => some { op := 0x01, tl := 0, d := 0 }
  | .yield => some { op := 0x02, tl := 0, d := 0 }
  | .bkpt c => some { op := 0x03, tl := 0, d := c }
  | .add x => some (rawAlu2 0x04 0 x)
  | .sub x => some (rawAlu2 0x05 0 x)
  | .mul x => some (rawAlu2 0x06 0 x)
  | .mulh x => some (rawAlu2 0x07 0 x)
  | .div x => some (rawAlu2 0x08 0 x)
  | .rem x => some (rawAlu2 0x09 0 x)
  | .and x => some (rawAlu2 0x0A 0 x)
  | .or x => some (rawAlu2 0x0B 0 x)
  | .xor x => some (rawAlu2 0x0C 0 x)
  | .andn x => some (rawAlu2 0x0D 0 x)
  | .shl x => some (rawAlu2 0x0E 0 x)
  | .shr x => some (rawAlu2 0x0F 0 x)
  | .sar x => some (rawAlu2 0x10 0 x)
  | .rot x => some (rawAlu2 0x11 0 x)
  | .clz x => some (rawAlu1 0x12 0 x)
  | .ctz x => some (rawAlu1 0x12 1 x)
  | .popc x => some (rawAlu1 0x12 2 x)
  | .min x => some (rawAlu2 0x13 0 x)
  | .max x => some (rawAlu2 0x13 1 x)
  | .abs x => some (rawAlu1 0x14 0 x)
  | .neg x => some (rawAlu1 0x14 1 x)
  | .cmp x => some (rawSrc false 0x15 x.q (encP x.d) (encG x.a) (encCond x.cond) (encIntM x.t) x.b)
  | .sel x => some (rawT32 0x16 x.q (encG x.d) (encG x.a) (encG x.b) (encP x.c) 0 0)
  | .movi x => some ((rawT32 0x17 x.q (encG x.d) 0 0 0 0 (encIntM x.t)).withImm x.v)
  | .movhi x => some ((rawT32 0x18 x.q (encG x.d) 0 0 0 0 0).withImm (.i32 x.v))
  | .ext x => some (rawAlu1 0x19 0 x)
  | .bfx x => some ((rawT32 0x1A x.q (encG x.d) (encG x.a) 0 0 0 (encIntM (if x.signed then .i64 else .n64))).with16
      (0#3 ++ x.len ++ x.lo))
  | .bfi x => some ((rawT32 0x1B x.q (encG x.d) (encG x.a) 0 0 0 (encIntM (if x.signed then .i64 else .n64))).with16
      (0#3 ++ x.len ++ x.lo))
  | .lea x =>
    let r := rawT32 0x1C x.q (encG x.d) (encG x.a) (encG x.b) 0 0 0
    some (match x.sd with
      | .plain => r
      | .s16 s d => r.with16 (d ++ s)
      | .s32 s d => r.withImm (.i32 (d ++ s)))
  | .madr x => some (rawT32 0x1D x.q (encG x.d) (encG x.a) (encG x.b) (encG x.c) 0 (encIntM x.t))
  | .mov x => some (rawShort 0x1E x.q (encG x.d) (encG x.a) 0 0 0)
  | .pand x => some (rawShort 0x1F x.q (encP x.d) (encP x.a) (encP x.b) 0 0)
  | .por x => some (rawShort 0x1F x.q (encP x.d) (encP x.a) (encP x.b) 1 0)
  | .pxor x => some (rawShort 0x1F x.q (encP x.d) (encP x.a) (encP x.b) 2 0)
  | .pnot x => some (rawShort 0x1F x.q (encP x.d) (encP x.a) 0 3 0)
  | .pmov x => some (rawShort 0x1F x.q (encP x.d) (encG x.a) 0 4 0)
  | .pany x => some (rawShort 0x1F x.q (encG x.d) (encP x.a) 0 5 0)
  | .br off => some (rawJump 0x20 off)
  | .brp q off => some ((rawT32 0x21 q 0 0 0 0 0 0).withImm (.i32 off))
  | .bcmp x => some ((rawT32 0x22 x.q (encG x.d) (encG x.a) 0 0 (encCond x.cond) (encIntM x.t)).withImm (.i32 x.off))
  | .call off => some (rawJump 0x23 off)
  | .calli x => some (rawShort 0x24 x.q 0 (encG x.a) 0 0 0)
  | .ret => some { op := 0x25, tl := 0, d := 0 }
  | .retReg x => some (rawT32 0x25 x.q 0 (encG x.a) 0 0 0 0)
  | .jmpi x => some (rawShort 0x26 x.q 0 (encG x.a) 0 0 0)
  | .loop c d off => some { op := 0x27, tl := 4, d := encG d, f := BitVec.ofNat 4 c.val, imm := off }
  | .waitev => some { op := 0x28, tl := 0, d := 0 }
  | .waitevGuarded q => some (rawT32 0x28 q 0 0 0 0 0 0)
  | .trap c => some { op := 0x29, tl := 0, d := c }
  | .eret => some { op := 0x2A, tl := 0, d := 0 }
  | .aptest x => some (rawT32 0x2C x.q (encP x.d) (encG x.a) 0 0
      (match x.w with | .glob => 0 | .loc => 1 | .berth => 2) 0)
  | .apcvt x => some (rawT32 0x2D x.q (encG x.d) (encG x.a) 0 0
      (match x.k with | .ofs => 0 | .loc => 1 | .brt => 2) 0)
  | .time x => some (rawShort 0x2E x.q (encG x.d) 0 0 0 0)
  | .meter x => some (rawShort 0x2F x.q (encG x.d) 0 0 0 0)
  | .ld x => some (rawLd 0x30 x)
  | .st x => some (rawLd 0x31 x)
  | .lds x => some (rawSrc false 0x32 x.q (encG x.d) (encG x.a) 0 (0#2 ++ BitVec.ofBool x.clr ++ encIntTy x.t) x.o)
  | .stf x => some (rawLd 0x33 x)
  | .fesetFull x => some (rawR16 0x34 x.q 0 (encG x.a) 0 0 0 false x.n)
  | .fesetEmpty x => some (rawR16 0x34 x.q 0 (encG x.a) 0 1 0 false x.n)
  | .fetest x => some (rawR16 0x34 x.q (encG x.d) (encG x.a) 0 2 0 false x.n)
  | .ldv x => some (rawLdv 0x35 x)
  | .stv x => some (rawLdv 0x36 x)
  | .ldb x => some (rawLdb 0x37 x)
  | .stb x => some (rawLdb 0x38 x)
  | .ldg x => some (rawSrc false 0x39 x.q (encG x.d) (encG x.a) 0 (encOrd x.ord (encIntTy x.t)) x.o)
  | .stg x => some (rawSrc false 0x3A x.q (encG x.d) (encG x.a) 0 (encOrd x.ord (encIntTy x.t)) x.o)
  | .ldgv x => some (rawSrc false 0x3B x.q (encV x.d) (encG x.a) 0 (encOrd x.ord 0) x.o)
  | .stgv x => some (rawSrc false 0x3B x.q (encV x.d) (encG x.a) 1 (encOrd x.ord 0) x.o)
  | .amo x => some ((rawT32 0x3C x.q (encG x.d) (encG x.a) (encG x.b) (encG x.c) (encAmoOp x.op)
      (0#4 ++ encAmoTy x.t)).withOpt16 x.off)
  | .amog x => some ((rawT32 0x3D x.q (encG x.d) (encG x.a) (encG x.b) (encG x.c) (encAmoOp x.op)
      (encScope x.scope ++ encKind x.kind ++ encAmoTy x.t)).withOpt16 x.off)
  | .fence x => some (rawT32 0x3E x.q 0 0 0 0 0 (0#2 ++ encScope x.scope ++ encKind x.kind))
  | .mon x => some (rawR16 0x3F x.q 0 (encG x.a) 0 0 0 false x.o)
  | .mwait x => some (rawR16 0x3F x.q (encG x.d) 0 0 1 0 true x.t)
  | .send x => some ((rawT32 0x40 x.q (encG x.d) (encG x.a) (encG x.b) (encG x.c) 0
      (0#4 ++ encCls x.cls)).withOpt16 x.tag)
  | .sendv x => some ((rawT32 0x41 x.q (encG x.d) (encG x.a) 0 0 0 (0#4 ++ encCls x.cls)).withOpt16 x.tag)
  | .sendb x => some ((rawT32 0x42 x.q (encG x.d) (encV x.a) 0 0 (if x.lock then 1 else 0)
      (0#3 ++ encBlk x.k ++ encCls x.cls)).withOpt16 x.tag)
  | .tagset x => some (rawR16 0x43 x.q 0 (encG x.a) 0 0 0 false x.t)
  | .tagget x => some (rawR16 0x43 x.q (encG x.d) 0 0 1 0 false x.t)
  | .chk x => some (match x.s with
      | .chan n => rawT32 0x44 x.q (encG x.d) (encG (.c n)) 0 0 0 0
      | .mask m => (rawT32 0x44 x.q (encG x.d) 0 0 0 0 0).with16 m)
  | .semsig x => some (semRaw 0x45 x.q 0 x.n x.i)
  | .semwait x => some (semRaw 0x46 x.q (encG x.d) x.n x.i)
  | .semget x => some ((rawT32 0x47 x.q (encG x.d) 0 0 0 0 0).with16 (0#8 ++ x.n))
  | .semset x => some ((rawT32 0x47 x.q 0 (encG x.a) 0 0 1 0).with16 (0#8 ++ x.n))
  | .shape x => some (rawT32 0x48 x.q (encP x.d) (encG x.a) 0 0 0 0)
  | .copy x => some ((rawT32 0x49 x.q (encG x.d) (encP x.a) (encP x.b) (encG x.c) 0
      (0#5 ++ BitVec.ofBool x.fb)).withOptCmd x.cmd)
  | .copyRing x => some ((rawT32 0x49 x.q (encG x.d) (encP x.a) (encP x.b) 0 1 0).withOptCmd x.cmd)
  | .space x => some (rawR16 0x4A x.q 0 (encG x.a) 0 0 0 false x.n)
  | .cntwait x => some (rawT32 0x4B x.q 0 (encG x.a) (encG x.b) 0 0 0)
  | .berthOut x => some ((rawT32 0x4C x.q 0 (encG x.a) (encG x.b) 0 0 0).with16 x.pb)
  | .berthIn x => some ((rawT32 0x4C x.q 0 (encG x.a) (encG x.b) 0 1 0).with16 x.pb)
  | .berthClose x => some (rawT32 0x4C x.q 0 (encG x.a) 0 0 2 0)
  | .tide x => some (rawR16 0x50 x.q 0 (encG x.a) 0 0 (encA x.gm) false x.fl)
  | .tidewait x =>
    let r := rawT32 0x51 x.q (encG x.d) (encG x.a) 0 0 0 (encA x.gm)
    some (match x.nb with
      | none => r
      | some b => r.with16 ((BitVec.ofBool b).setWidth 16))
  | .tideq x => some (rawR16 0x52 x.q (encG x.d) 0 0 0 (encA x.gm) true x.sel)
  | .chunkinit x => some (rawR16 0x53 x.q 0 (encG x.a) 0 0 (encA x.gm) false x.sz)
  | .getchunk x => some ((rawT32 0x53 x.q (encG x.d) 0 0 0 1 (encA x.gm)).withOpt16 x.cap)
  | .lace x => some ((rawT32 0x54 x.q (encG x.d) 0 0 0 0 0).withImm (.i32 x.imm))
  | .unlace => some { op := 0x55, tl := 0, d := 0 }
  | .unlaceStatus x => some (rawT32 0x55 x.q (encG x.d) 0 0 0 0 0)
  | .relace x => some (rawT32 0x56 x.q (encG x.d) 0 0 0 0 0)
  | .laceq x => some (rawT32 0x56 x.q (encG x.d) 0 0 0 1 0)
  | .spawn x => some (rawT32 0x57 x.q (encG x.d) (encG x.a) 0 0 0 0)
  | .migrate x => some (rawT32 0x57 x.q (encG x.d) (encG x.a) (encG x.b) 0 1 0)
  | .taskid x => some (rawR16 0x57 x.q (encG x.d) 0 0 2 0 true x.sel)
  | .vadd x => some (rawV3 0x58 0 x)
  | .vsub x => some (rawV3 0x59 0 x)
  | .vmul x => some (rawV3 0x5A 0 x)
  | .vfma x => some (rawT32 0x5B x.q (encV x.d) (encV x.a) (encV x.b) (encV x.c) 0 (encVMod x.m))
  | .vdiv x => some (rawT32 0x5C x.q (encV x.d) (encV x.a) (encV x.b) 0 0 (encVMod (.fp x.f x.r)))
  | .vsqrt x => some (rawT32 0x5C x.q (encV x.d) (encV x.a) 0 0 1 (encVMod (.fp x.f x.r)))
  | .vmin x => some (rawVN3 0x5D 0 x)
  | .vmax x => some (rawVN3 0x5D 1 x)
  | .vabs x => some (rawVN2 0x5E 0 x)
  | .vneg x => some (rawVN2 0x5E 1 x)
  | .vcmp x => some (rawT32 0x5F x.q (encP x.d) (encV x.a) (encV x.b) 0 (encVCond x.cond)
      (encVTy x.t ||| (if x.tot then 1 else 0)))
  | .vsel x => some (rawT32 0x60 x.q (encV x.d) (encV x.a) (encV x.b) (encP x.c) 0 (encVTy x.t))
  | .vlog x => some (rawT32 0x61 x.q (encV x.d) (encV x.a) (encV x.b) 0
      (match x.op with | .and => 0 | .or => 1 | .xor => 2 | .andn => 3 | .not => 4) (encVTy (.int x.t)))
  | .vsh x => some (rawT32 0x62 x.q (encV x.d) (encV x.a) (encV x.b) 0
      (match x.op with | .shl => 0 | .shr => 1 | .sar => 2 | .rot => 3) (encVTy (.int x.t)))
  | .vcvt x => some ((rawT32 0x63 x.q (encV x.d) (encV x.a) (encCvtB x.b) 0 0 0).with16
      (0#3 ++ encRnd x.r ++ encFull x.src ++ encFull x.dst))
  | .vfn x => some (rawT32 0x64 x.q (encV x.d) (encV x.a) 0 0 (encFun x.fn) (encVMod (.fp x.f x.r)))
  | .vred x => some (rawT32 0x65 x.q (encV x.d) (encV x.a) 0 0
      (match x.op with | .sum => 0 | .min => 1 | .max => 2 | .and => 3 | .or => 4) (encVMod x.m))
  | .vscan x => some (rawT32 0x66 x.q (encV x.d) (encV x.a) 0 0 0 (encVMod x.m))
  | .vperm x => some (rawVN3 0x67 0 x)
  | .vbcast x =>
    some (match x.b with
      | .reg a => rawT32 0x68 x.q (encV x.d) (encG a) 0 0 0 (encVTy x.t)
      | .imm v => (rawT32 0x68 x.q (encV x.d) 0 0 0 0 (encVTy x.t)).withImm v)
  | .vext x => some (rawT32 0x69 x.q (encG x.d) (encV x.a) (encG x.b) 0 0 (encVTy x.t))
  | .vins x => some (rawT32 0x69 x.q (encV x.d) (encG x.a) (encG x.b) 0 1 (encVTy x.t))
  | .vmov x => some (rawVN2 0x6A 0 x)
  | .vclass x => some (rawT32 0x6B x.q (encV x.d) (encV x.a) 0 0 0 (encVTy (.fp x.f)))
  | .flg d => some { op := 0x6C, tl := 0, d := encG d }
  | .flgMasked x => some (rawT32 0x6C x.q (encG x.d) (encG x.a) 0 0 0 0)
  | .badd x => some (rawB3 0x70 x)
  | .bmul x => some (rawB3 0x71 x)
  | .bfma x => some (rawT32 0x72 x.q (encV x.d) (encV x.a) (encV x.b) (encV x.c) 0 (0#5 ++ encBlk x.k))
  | .bnorm x => some (rawT32 0x73 x.q (encV x.d) (encV x.a) 0 0 0 (0#5 ++ encBlk x.k))
  | .brenorm x => some (rawT32 0x73 x.q (encV x.d) (encV x.a) (encG x.b) 0 1 (0#5 ++ encBlk x.k))
  | .bquant x => some (rawT32 0x74 x.q (encV x.d) (encV x.a) (encV x.b) (encG x.c) 0 (encBlkF x.k x.f))
  | .bdeq x => some (rawT32 0x75 x.q (encV x.d) (encV x.a) (encG x.b) 0 0 (encBlkF x.k x.f))
  | .bscale x => some (rawT32 0x76 x.q (encV x.d) (encV x.a) (encG x.b) 0 0 (encBlkF x.k x.f))
  | .bscalePow2 x => some ((rawT32 0x76 x.q (encV x.d) (encV x.a) 0 0 0 (0#5 ++ encBlk x.k)).with16 x.e)
  | .bdot x => some (rawB3 0x77 x)
  | .mcfg x => some ((rawT32 0x78 x.q (encA x.d) 0 0 0 0 (0#1 ++ encFull x.t)).with16 x.flags)
  | .mrun x => some ((rawT32 0x79 x.q (encA x.d) 0 0 0 0 0).withCmd x.imm x.sync x.ctr)
  | .mfeed x => some ((rawT32 0x7A x.q (encG x.d) (encG x.a) (encA x.b) 0 0 0).withCmd x.imm x.sync x.ctr)
  | .mzero x => some (rawT32 0x7B x.q (encA x.d) 0 0 0 0 0)
  | .mload x => some (rawT32 0x7B x.q (encA x.d) (encG x.a) (encG x.b) 0 1 0)
  | .mdrainVector x => some (rawT32 0x7B x.q (encV x.d) (encA x.a) (encG x.b) 0 2 0)
  | .mdrainSram x => some (rawT32 0x7B x.q 0 (encA x.a) (encG x.b) (encG x.c) 2 0)
  | .mstat x => some (rawT32 0x7B x.q (encG x.d) (encA x.a) 0 0 3 0)
  | .scancfg x => some (rawR16 0x7C x.q 0 0 0 0 0 true x.src)
  | .scan x => some ((rawT32 0x7D x.q (encP x.d) (encP x.a) (encP x.b) (encP x.c) 0
      (match x.form with | .byRule => 0 | .chk => 1 | .stp => 2)).withCmd x.len x.sync x.ctr)
  | .scanstSave x => some (rawT32 0x7D x.q 0 (encG x.a) 0 0 1 0)
  | .scanstLoad x => some (rawT32 0x7D x.q 0 (encG x.a) 0 0 2 0)
  | .mfs x => some (rawR16 0x7E x.q (encG x.d) 0 0 0 0 true x.sr)
  | .mts x => some (rawR16 0x7E x.q 0 (encG x.a) 0 1 0 false x.sr)
  | .invalS1Page x => some ((rawT32 0x7E x.q 0 (encG x.a) (encG x.b) 0 2 0).with16 0)
  | .invalS1All x => some ((rawT32 0x7E x.q 0 (encG x.a) (encG x.b) 0 2 0).with16 1)
  | .invalS2Page x => some ((rawT32 0x7E x.q 0 (encG x.a) (encG x.b) 0 2 0).with16 2)
  | .invalS2All x => some ((rawT32 0x7E x.q 0 (encG x.a) (encG x.b) 0 2 0).with16 3)
  | .ctxsv x => some (rawT32 0x7E x.q 0 (encG x.a) 0 0 3 0)
  | .ctxld x => some (rawT32 0x7E x.q 0 (encG x.a) 0 0 4 0)
  | .sramclr x => some (rawT32 0x7E x.q 0 (encG x.a) (encG x.b) 0 5 0)
  | .frmld x => some (rawR16 0x7E x.q 0 (encG x.a) 0 6 0 false x.n)
  | .frminv x => some (rawR16 0x7E x.q 0 0 0 7 0 false x.n)
  | .grpset x => some (rawR16 0x7E x.q (encG x.d) (encG x.a) 0 8 0 false x.n)
  | .rankset x => some (rawR16 0x7E x.q (encG x.d) (encG x.a) 0 9 0 false x.n)
  | _ => none

/-- The head word of the fields (R133). -/
def rawHead (r : Raw) : BitVec 16 := r.op ++ r.tl ++ r.d

/-- The T32 bits of the fields (R134). -/
def rawT (r : Raw) : BitVec 32 := r.m ++ r.f ++ BitVec.ofBool r.n ++ r.g ++ r.c ++ r.b ++ r.a

/-- The tail of the fields (R134), zero above its length. -/
def rawTail (r : Raw) : BitVec 128 :=
  match r.tl.toNat with
  | 0 => 0
  | 1 => (r.f ++ r.b ++ r.a).setWidth 128
  | 2 => (rawT r).setWidth 128
  | 3 => (r.imm.extractLsb' 0 16 ++ rawT r).setWidth 128
  | 4 => (r.imm ++ rawT r).setWidth 128
  | 5 => (r.sync ++ r.imm ++ rawT r).setWidth 128
  | _ => r.imm2 ++ r.sync ++ r.imm ++ rawT r

/-- The head and tail of an encoded instruction; none for an event. -/
def encode : Instr → Option (BitVec 16 × BitVec 128)
  | .nop => some (0, 0)
  | .nopTail tl bits => some (0#7 ++ (BitVec.ofNat 3 (tl.val + 1)) ++ 0#6, bits.setWidth 128)
  | i => (toRaw i).map fun r => (rawHead r, rawTail r)

/-- Whether a step of the table is an encoded instruction rather than an event. -/
def Instr.encoded (i : Instr) : Bool := (encode i).isSome

end Sys2Proof
end

