-- ==== Sys2Proof/Machine/State.lean ====
section
/-! DEFINITION. The state of a W1 module as plain data: slots and cores (01, 03, 04, 08, 09, 13), fields and rails
(14 to 17), partitions and launches (03, 13, 15, 16, 18), quays and the module's own registers (17, 19), and the
machine after reset. Cores, fields, partitions, VFs and quays stand in lists keyed by number; an unlisted one is in
its wiped state (R374). -/

namespace Sys2Proof.Machine

/-- A stop of the model that no rule of the spec describes. -/
inductive Fault where
  /-- Raised by `step` when the agenda names as an event an encoded instruction, which only a slot can issue. Safe: the
  hardware has no such input. -/
  | agendaNotAnEvent
  deriving DecidableEq, Repr

/-- No meaning for a step. -/
inductive Refusal where
  /-- Raised by an arm of `exec` that has no meaning yet. Safe. -/
  | notModelled (mnemonic : String)
  deriving DecidableEq, Repr

/-! ### Sparse maps -/

/-- The value listed for a key. -/
def mget {α : Type} (l : List (Nat × α)) (k : Nat) : Option α :=
  match l with
  | [] => none
  | (k', v) :: l => if k = k' then some v else mget l k

/-- The list with key `k` holding `v`, in rising order of keys. -/
def mset {α : Type} (l : List (Nat × α)) (k : Nat) (v : α) : List (Nat × α) :=
  match l with
  | [] => [(k, v)]
  | (k', v') :: l =>
    if k = k' then (k, v) :: l
    else if k < k' then (k, v) :: (k', v') :: l
    else (k', v') :: mset l k v

/-! ### A slot -/

/-- The states of R66. -/
inductive SlotSt where | empty | ready | wait | sleep | trapped | halting
  deriving DecidableEq, Repr

/-- What a slot in WAIT waits for (R67 and the waits of 06 to 09, 13, 14). -/
inductive Wait where
  | none | channel | semaphore | granule | counter | watch | tide | tideOut | lace | relace | laceBuffer | inject
  | pendingReg | accessRoom | walk | reply | fence | stream | tile | unit | berth | commands | load | moved | inval
  deriving DecidableEq, Repr

/-- A hardware loop counter (R174, R292). -/
structure LoopCtr where
  value : BitVec 32
  count : BitVec 32
  start : Word
  fin : Word
  deriving DecidableEq, Repr

/-- The registers of a slot (R28). -/
structure Regs where
  g : Vector Word 32
  c : Vector Word 8
  pres : BitVec 8
  v : Vector VWord 16
  hdr : Vector (BitVec 128) 16
  p : Vector (BitVec 16) 8
  lc : Vector LoopCtr 2
  gm : Vector Word 4
  flags : BitVec 8
  deriving DecidableEq, Repr

/-- The trap and stack registers of a slot (R292, R313). TST.PEND is read from `Slot.deferred`. -/
structure TrapRegs where
  tpc : Word
  tst : Word
  tcause : Word
  taddr : Word
  tvec : Word
  tsel : Word
  sbase : Word
  slim : Word
  xinfo : Word
  deriving DecidableEq, Repr

/-- A deferred cause pending (R298): its code, the TADDR of its first occurrence, its origin, and whether a further
occurrence merged into it. -/
structure Deferred where
  cause : BitVec 8
  taddr : Word
  origin : Bool
  merged : Bool
  deriving DecidableEq, Repr

/-- Lace states (R86). -/
inductive LaceCode where | solo | binding | leader | leaderWait | attached | detached | rejoining
  deriving DecidableEq, Repr

/-- Lace state of a slot (R86, R301): the core and slot of its leader, whether it was lost, its elapsed wait, and the
result of a LACE or RELACE that has been decided and not yet returned. -/
structure LaceSt where
  code : LaceCode
  xl : BitVec 11
  w : BitVec 7
  index : BitVec 6
  e : BitVec 5
  leadCore : CoreId
  leadSlot : Fin 4
  lost : Bool
  waited : Word
  result : Option (BitVec 2)
  timeout : Bool
  /-- Re-attached while its leader still waits at the RELACE (R84): that RELACE is not forwarded to it again. -/
  joined : Bool
  deriving DecidableEq, Repr

/-- A head forwarded on the lace wire (R81, R82): the head and tail, its code pointer, the head after it, and the
leader's next program counter. -/
structure LaceHead where
  head : BitVec 16
  tail : BitVec 128
  pc : Word
  next : Word
  target : Word
  deriving DecidableEq, Repr

/-- The watch of a slot (R118, R119): armed on a line (by DPA), or ended with a cause not yet returned. -/
structure WatchSt where
  armed : Bool
  line : Nat
  ended : Option (BitVec 3)
  deriving DecidableEq, Repr

/-- An answer of a tide received and not yet returned by TIDEWAIT (R93). -/
structure TideAns where
  gm : Fin 4
  tag : BitVec 32
  lanes : VWord
  hdr : BitVec 128
  status : Word
  deriving DecidableEq, Repr

/-- Detail of a translation fault (R312, R314): its kind, level − 1, stage, whether on a table, and the GPA. -/
structure XFault where
  kind : BitVec 4
  level : BitVec 2
  stage2 : Bool
  tbl : Bool
  gpa : Word
  va : Word
  deriving DecidableEq, Repr

/-- What a waiting head has been answered. -/
inductive Reply where
  | value (v : Word)
  | fault (f : XFault)
  | trap (cause : BitVec 8) (taddr : Word)
  | moved
  | armed
  | fenced
  deriving DecidableEq, Repr

structure Slot where
  r : Regs
  t : TrapRegs
  st : SlotSt
  wait : Wait
  /-- The head the slot issues next (R132). -/
  pc : Word
  /-- When the slot last became READY (R68). -/
  readyAt : Nat
  /-- Event latch (R178). -/
  ev : Bool
  deferred : List Deferred
  gtid : Word
  lace : LaceSt
  buf : List LaceHead
  watch : WatchSt
  /-- A semaphore wait granted to the head at `pc` (R261): the semaphore, and the threshold that the head takes from it as
  it issues (R136). -/
  grant : Option (BitVec 8 × BitVec 16)
  answers : List TideAns
  reply : Option Reply
  /-- A request made for the head at `pc` and not yet answered. -/
  asked : Bool
  /-- The next issue follows an ERET from a stop of KIND 1 or 3 (R382). -/
  pastStop : Bool
  /-- The WAITEV under which the slot sleeps: its head and tail, and the head that follows it (R179, R299). -/
  slept : Option (BitVec 16 × BitVec 128 × Word)
  deriving DecidableEq, Repr

/-! ### A core -/

/-- A code frame (R21): bits 59:11 of the address of its first line, its lines, and whether it was loaded for a slot at level U
(R315), as it is again on a resume (R307). -/
structure Frame where
  tag : Option (BitVec 49)
  lines : Vector Line 32
  user : Bool
  deriving DecidableEq, Repr

/-- A shape record (R105). -/
abbrev Shp := BitVec 256

/-- A tag table entry (R71) with the ring base of the last write (R72) and a count of its writes (R259). -/
structure TagEnt where
  word : Word
  base : BitVec 12
  writes : Nat
  deriving DecidableEq, Repr

/-- Bytes by rising address; no zero byte is listed (an unlisted byte reads 0). -/
abbrev Memory := List Host.Cell

/-- SRAM, granules, frames, semaphores, tags and shapes of a core (R20 to R23). -/
structure CoreMem where
  sram : Memory
  full : BitVec 4096
  frames : Vector Frame 16
  sem : Vector (BitVec 16) 256
  sf : BitVec 256
  /-- Slots waiting on semaphores with their thresholds, earliest first (R261). -/
  semQ : List (Fin 4 × BitVec 8 × BitVec 16)
  tags : Vector TagEnt 64
  shapes : Vector Shp 8
  deriving DecidableEq, Repr

/-- Signal and counter of an asynchronous command (R136, R224). -/
structure Done where
  inc : BitVec 8
  ssem : BitVec 8
  ctr : Option (Word × BitVec 26)
  deriving DecidableEq, Repr

/-- One direction of a tile's flow (R222, R230): the latched scales, whether a feed is open, the index expected of the
next token, the CRC formed over the block's flits. -/
structure FlowSt where
  scales : Word
  isOpen : Bool
  index : BitVec 24
  crc : BitVec 16
  /-- A token has been taken since the last operand flit. -/
  seen : Bool
  deriving DecidableEq, Repr

/-- An accumulator tile (R24, R225 to R228): elements row by row as binary32. -/
structure Tile where
  acc : Vector (BitVec 32) 64
  work : Vector (BitVec 32) 64
  owner : Option (Fin 4)
  ty : FullTy
  cfg : BitVec 5
  index : BitVec 24
  feedIdx : Vector (BitVec 24) 2
  done : BitVec 24
  err : Bool
  fault : Bool
  flow : Vector FlowSt 2
  /-- Operand pairs of the open group, as the two flits' data and aux (R56). -/
  group : List (Word × BitVec 8 × Word × BitVec 8)
  /-- Flits of each direction taken since the last tokens. -/
  flits : Nat
  flags : BitVec 8
  deriving DecidableEq, Repr

/-- An MRUN queued or running (R230), counting blocks or k-steps; `drain` is the draining of R231. -/
structure Run where
  tile : Fin 4
  slot : Fin 4
  unit : Bool
  count : Nat
  taken : Nat
  drain : Bool
  /-- TADDR of the CHECK that the failed token raises (R231). -/
  fail : Word
  done : Done
  deriving DecidableEq, Repr

/-- An operand flit or a two-flit scale token on a link (R17, R220, R221). -/
inductive Flit where
  | data (w : Word) (aux : BitVec 8)
  | token (scales : Word) (word1 : Word)
  deriving DecidableEq, Repr

/-- An MFEED on its channel (R229): blocks left, flits of the block injected, feed position. -/
structure Feed where
  tile : Fin 4
  slot : Fin 4
  src : Word
  scale : Word
  nb : Nat
  /-- Blocks read from the source. -/
  blk : Nat
  /-- FIRST has been sent. -/
  isOpen : Bool
  /-- CRC of the flits of the block that precedes the next token. -/
  crc : BitVec 16
  /-- The token of the present block, and its flits, not yet sent. -/
  pend : List Flit
  /-- Its last source byte has been read and its completion made (R229). -/
  told : Bool
  done : Done
  deriving DecidableEq, Repr

/-- A SCAN queued or running (R234). -/
structure Scan where
  slot : Fin 4
  form : ScanForm
  x : Shp
  a : Shp
  bc : Shp
  y : Shp
  len : Nat
  at_ : Nat
  /-- Bytes taken from a berth for x, the decay, and B and C. -/
  stage : Vector (List Byte) 3
  flags : BitVec 8
  done : Done
  deriving DecidableEq, Repr

/-- The tensor and scan units of a core (08, R353). -/
structure Units where
  tiles : Vector Tile 4
  runs : List Run
  feeds : Vector (List Feed) 2
  /-- Operand queues (R219): A from the west link, B from the north link, A and B from the core's own feeds. -/
  queues : Vector (List Flit) 4
  scanOwner : Option (Fin 4)
  scanCfg : BitVec 16
  /-- h[p][n] at pN + n (R233). -/
  scanH : List (BitVec 32)
  scans : List Scan
  tokens : Nat
  /-- Tokens that the step begun by the tensor unit, and by the scan unit, has yet to take (R353). -/
  owedT : Nat
  owedS : Nat
  starved : Bool
  stalls : BitVec 32
  /-- Took or waited for a token since the last boundary (R354). -/
  wanted : Bool
  deriving DecidableEq, Repr

/-- A finished translation (R316): page base and size of the VA, the DPA and GPA pages, permissions, the stage-1 U bit
and the issuing VF; beside them, for XINFO (R314), what the stage-1 leaf alone permits and the levels of the leaves. -/
structure TEntry where
  vf : Nat
  va : Nat
  bits : Nat
  dpa : Nat
  gpa : Nat
  gbits : Nat
  r : Bool
  w : Bool
  x : Bool
  u : Bool
  r1 : Bool
  w1 : Bool
  x1 : Bool
  lvl1 : BitVec 2
  lvl2 : BitVec 2
  used : Nat
  deriving DecidableEq, Repr

/-- A stream (R108 to R112). -/
structure Stream where
  slot : Fin 4
  gtid : Word
  src : Shp
  dst : Shp
  ring : Bool
  fb : Bool
  /-- The next tile to write. -/
  tile : Nat
  credit : Nat
  /-- Ring tiles filled and not yet freed, with the oldest one's number. -/
  filled : Nat
  oldest : Nat
  faulted : Bool
  /-- Waiting for the completion step of its last tile. -/
  ended : Bool
  /-- Redirected by a move of its task (R359): where the task is now. -/
  redirect : Option (CoreId × Fin 4)
  done : Done
  /-- The one translation entry (R110). -/
  ent : Option TEntry
  flags : BitVec 8
  /-- Bytes taken from an IN berth for the next tile. -/
  stage : List Byte
  /-- Frames of the next tile have been sent (R400), and what peers have answered, by element. -/
  asked : Bool
  got : List (Nat × Nat)
  /-- DPAs of the next tile's global elements that the entry has given so far (R110). -/
  addrs : List Nat
  /-- When it was issued. -/
  at_ : Nat
  deriving DecidableEq, Repr

/-- Berth states and directions (R114). -/
inductive BerthSt where | closed | opened | joined
  deriving DecidableEq, Repr

structure Berth where
  st : BerthSt
  out : Bool
  peer : BitVec 22
  peerBerth : Fin 4
  /-- The rank that opened it. -/
  own : BitVec 22
  launch : Nat
  /-- Bytes received and not yet taken (IN), or waiting to be sent (OUT). -/
  buf : List Byte
  /-- Bytes the other side may still receive (OUT). -/
  credit : Nat
  /-- Bytes sent and not yet accepted by the peer (OUT). -/
  flying : Nat
  deriving DecidableEq, Repr

/-- What a message is, beside its header: an ordinary one, berth data, or one of class 2 or 3 (R115, R257, R297). -/
inductive MsgKind where
  | plain
  /-- For the peer's berth `b`, from berth `mine`: bytes carried. -/
  | berthData (b mine : Fin 4) (n : Nat)
  /-- To the OUT side of a pair: bytes accepted, and bytes of the buffer freed. -/
  | berthFree (b : Fin 4) (ack n : Nat)
  /-- An open of the peer's berth `mine`, naming `b` (R114). -/
  | berthOpen (b mine : Fin 4)
  /-- The free-space notice of a ring that a berth feeds (R113): the ring's core, its stream and when that was issued, and
  the credits. -/
  | freeSpace (ring : CoreId) (n : Fin 8) (issued m : Nat)
  | renorm
  | exponent (l : BitVec 8)
  | lockedPartial
  | notice
  | sysmsg
  deriving DecidableEq, Repr

/-- A message (R253): the launch whose ranks it names, where it goes, its header fields and payload. -/
structure Msg where
  kind : MsgKind
  vf : Nat
  launch : Nat
  dst : BitVec 22
  src : BitVec 22
  /-- The core whose network interface formed it (R408). -/
  from_ : CoreId
  cls : Fin 4
  tag : BitVec 6
  block : Bool
  seq : BitVec 7
  payload : List Word
  /-- Sampled (R387): the source field's timestamp when its header was injected. -/
  sample : Option Word
  deriving DecidableEq, Repr

/-- The log of a sampled message whose action has completed (R387): its partition, header flit, birth, the cores it went
from and to, and GTID bits 46:22. -/
structure Sample where
  part : Nat
  hdr : Word
  birth : Word
  src : CoreId
  dst : CoreId
  who : BitVec 25
  deriving DecidableEq, Repr

/-- A locked context (R257, R258): its partial as integers on the grid of its exponent, and the contributions held. -/
structure LockCtx where
  tag : BitVec 6
  pb4 : Bool
  nb : Nat
  gran : BitVec 12
  haddr : BitVec 16
  slot : Fin 4
  sigen : Bool
  sem : BitVec 8
  vf : Nat
  launch : Nat
  part : List Int
  held : List (Nat × List Int)
  deriving DecidableEq, Repr

/-- A register named by an operand. -/
inductive Reg where
  | g (n : Fin 32) | c (n : Fin 8) | v (n : Fin 16) | p (n : Fin 8)
  deriving DecidableEq, Repr

/-- A value that a vector operation writes when it completes (R192). -/
inductive RegWrite where
  | g (n : Fin 32) (x : Word)
  | c (n : Fin 8) (x : Word)
  | v (n : Fin 16) (x : VWord) (h : BitVec 128)
  | p (n : Fin 8) (x : BitVec 16)
  deriving DecidableEq, Repr

/-- A vector operation in flight (R192): what it writes and the flags it sets. -/
structure VecOp where
  slot : Fin 4
  writes : List RegWrite
  flags : BitVec 8
  deriving DecidableEq, Repr

/-- What a global access does (R249 to R252, R314). -/
inductive GOpKind where
  | load | store | amog | counterAdd
  deriving DecidableEq, Repr

/-- A global access issued and not yet both performed and returned (R120, R249). -/
structure GAcc where
  slot : Fin 4
  gtid : Word
  kind : GOpKind
  va : Word
  dpa : Nat
  size : Nat
  /-- Byte lanes stored, for a masked vector store. -/
  mask : BitVec 64
  data : VWord
  cmp : Word
  op : AmoOp
  ty : IntTy
  acq : Bool
  rel : Bool
  scope : Scope
  dest : Option Reg
  /-- The 32-bit lanes loaded into a vector destination. -/
  lanes : BitVec 16
  /-- A load with destination g2 or a channel register, which waits before it retires. -/
  holds : Bool
  performed : Bool
  /-- The value the load read, once performed. -/
  value : VWord
  /-- The cause its consumer raises: its data came back with an uncorrectable error (R249), or the peer refused it
  (R400); 0 for none. -/
  bad : BitVec 8
  /-- Failed one line check already, of what is sent to the quay or, once performed, of what it returns (R368). -/
  retried : Bool
  /-- Sent to a network peer and not yet answered: its frame (R403). -/
  net : Option NetId
  /-- In its memory quay's queue (R398). -/
  queued : Bool
  /-- When it was issued. -/
  at_ : Nat
  deriving DecidableEq, Repr

/-- A translation miss (R316, R317): the head of a slot or the stream that waits, the VA, the access code of R314 and the
level it runs at. A counter add waits where both are `none` and the code is 5; where the code is another, the head that
missed no longer waits (a deferred cause has been taken, R298). -/
structure Miss where
  party : Option (Fin 4)
  stream : Option (Fin 8)
  va : Word
  acc : BitVec 8
  user : Bool
  vf : Nat
  sent : Bool
  deriving DecidableEq, Repr

/-- The INLINE handler context (R74, R75). -/
structure Handler where
  m : Vector Word 8
  line : Line
  cl : Nat
  next : Nat
  slot : Fin 4
  tag : BitVec 6
  sigen : Bool
  sem : BitVec 8
  /-- Its message, which stays at the head of its class queue until the handler ends (R70). -/
  msg : Msg
  deriving DecidableEq, Repr

/-- The launch that holds a core (R337) and its rectangle (R25). -/
structure Held where
  part : Nat
  vf : Nat
  launch : Nat
  x0 : Nat
  y0 : Nat
  w : Nat
  h : Nat
  s : Nat
  deriving DecidableEq, Repr

/-- A counter bank (R380, R384), with the event-set version under which it was configured (R386). -/
structure Bank where
  ctl : Word
  ev : Vector Word 4
  val : Vector Word 4
  ver : BitVec 16
  deriving DecidableEq, Repr

/-- Core-scope registers and counts (13 to 18). -/
structure CoreRegs where
  supr : Word
  hsupr : Word
  wdog : Word
  strflt : Vector Word 8
  sfdet : Vector Word 8
  cal : Vector (BitVec 16) 32
  /-- By VF, in 2^-8 pJ, modulo 2^56 (R344), and the readings at the last metering boundary (R345). -/
  meter : List (Nat × Nat)
  metered : List (Nat × Nat)
  migt : Vector Word 4
  nextid : Word
  eccstat : Word
  linkstat : Word
  /-- Offsets of words that hold a single-bit and a double-bit error (R372). -/
  ce : List Nat
  ue : List Nat
  scrub : BitVec 16
  /-- SRAM words corrected since the last scrub, by offset; rows of corrected words with the times, within one hour; and spare
  rows in use (R367). -/
  corrected : List Nat
  rowErrs : List (Nat × Nat)
  rowsUsed : Nat
  /-- The core does not confirm a wipe, and is fenced off (R374). -/
  stuck : Bool
  bank : Bank
  /-- The session that resumes when the present one is released, and those that resume after it (R384, R386). -/
  bankShadow : Option Bank
  bankFrozen : List Bank
  samp : Word
  /-- The frozen SAMPCTL and its count of messages (R384). -/
  sampShadow : Option (Word × Nat)
  sampCount : Nat
  deriving DecidableEq, Repr

/-- The interrupted commands of a slot (R301). -/
structure SlotCmds where
  runs : List Run
  feeds : Vector (List Feed) 2
  scans : List Scan
  deriving DecidableEq, Repr

/-- A core (R18 to R24) with its engines, queues and registers. -/
structure Core where
  mem : CoreMem
  slots : Vector Slot 4
  unit : Units
  /-- Commands that CTXLD has loaded, which resume when their slot next issues (R304). -/
  parked : List (Fin 4 × SlotCmds)
  streams : Vector (Option Stream) 8
  berths : Vector Berth 4
  inj : List Msg
  arr : Vector (List Msg) 4
  /-- Sequence counters out and last accepted in, by class-free rank pair (R253, R370). -/
  seqOut : List (Nat × BitVec 7)
  seqIn : List (Nat × BitVec 7)
  locks : List LockCtx
  vops : List VecOp
  gaccs : List GAcc
  ports : List TEntry
  misses : List Miss
  handler : Option Handler
  /-- A handler has just finished: a READY slot goes before the next one (R68). -/
  handlerDone : Bool
  held : Option Held
  regs : CoreRegs
  /-- Free-space notices that have reached the sending core (R113): the ring's core, its stream and when that was issued, and
  the credits. -/
  notices : List (CoreId × Fin 8 × Nat × Nat)
  /-- Counter adds that a fault holds (R300): the record, the issuing slot, the address, the increment, the semaphore whose SF
  a fault of the add sets, and the GTID of the task. -/
  heldAdds : List (Fin 8 × Fin 4 × Word × BitVec 26 × BitVec 8 × Word)
  deriving DecidableEq, Repr

/-! ### Fields and rails -/

/-- A rail (R349 to R352, R356). -/
structure Rail where
  ctl : Word
  target : BitVec 10
  setpt : BitVec 10
  state : BitVec 2
  trip : Bool
  /-- Held off since the start, where it did not regulate (R378). -/
  off : Bool
  /-- Votes of departed VFs still held: VF, vote, boundaries left once the save has completed (R352). -/
  holds : List (Nat × BitVec 10 × Option Nat)
  deriving DecidableEq, Repr

/-- A walk request at a hub (R318, R319), with the requests that have joined its walk. -/
structure WalkReq where
  core : CoreId
  miss : Miss
  started : Bool
  stale : Bool
  waiters : List (CoreId × Miss)
  deriving DecidableEq, Repr

/-- An entry of a walk cache (R320), tagged by VF, stage, level and the address bits above its span: a table entry of levels
1 to 3, or the stage-2 translation of a stage-1 table address, as the page, size, level and entry of its leaf. -/
inductive CacheEnt where
  | pte (vf : Nat) (stage2 : Bool) (level tag : Nat) (word : Word)
  | trans (vf bits tag page level : Nat) (word : Word)
  deriving DecidableEq, Repr

structure Field where
  partdef : Word
  time : Word
  walks : List WalkReq
  /-- The hub's walk cache, oldest entry first (R320). -/
  cache : List CacheEnt
  rails : Vector Rail 4
  /-- Dead cores, as 97 × row + physical column (R362). -/
  dead : List Nat
  /-- Repair words in the fuses, in force and staged, by row (R362, R364, R366); an unlisted one is 0xFFFF. -/
  fuses : List (Nat × Word)
  rows : List (Nat × Word)
  staged : List (Nat × Word)
  repsel : Word
  repctl : Word
  /-- By hub link (N, E, S, W): spare lanes in use in the direction into this field (R367), and whether the link has stopped
  (R369). -/
  hubLanes : Vector Nat 4
  hubStopped : Vector Bool 4
  skew : Word
  /-- Hub meter by VF in 2^-8 pJ (R344), charges of the roll-up period and boundaries of it gone by (R346). -/
  meter : List (Nat × Nat)
  rolled : List (Nat × Nat)
  rollAt : Nat
  fenced : Bool
  /-- Reduction slots granted to the groups of the VF that runs, as partition × 256 + group (R343). -/
  redSlots : List Nat
  /-- Readings of the hub's meter at the last boundary (R345). -/
  meterAt : List (Nat × Nat)
  /-- Charges of the field's quays by VF since the last boundary, in 2^-8 pJ (R344, R345). -/
  qmeter : List (Nat × Nat)
  /-- VFs that have occupied the field since the last boundary (R345). -/
  occ : List Nat
  /-- The VF whose save ended last (R345, R308). -/
  lastVf : Option Nat
  /-- Meter increases of cores that a wipe has zeroed since the last boundary, by 512 × rail + VF, in 2^-8 pJ (R345, R374). -/
  carry : List (Nat × Nat)
  /-- Link wires and SRAM rows marked for replacement at the next wipe (R367). -/
  marked : List (CoreId × Fin 4 × Nat)
  markedRows : List (CoreId × Nat)
  deriving DecidableEq, Repr

/-! ### Partitions -/

/-- A contribution to a tide round (R90): its member's GTID and the field of its rank (R64), the membership it answers, its
tag, lanes, header lane and flag word; at the home, whether it was dropped, and whether it has been answered. -/
structure Contrib where
  gtid : Word
  field : Nat
  gm : Fin 4
  tag : BitVec 32
  lanes : VWord
  hdr : BitVec 128
  flag : BitVec 16
  dropped : Bool
  answered : Bool
  deriving DecidableEq, Repr

/-- A member of a group at its home (R90): its rank, last(m), whether it is present, its latest round included. -/
structure Member where
  rank : BitVec 22
  last : BitVec 32
  present : Bool
  deriving DecidableEq, Repr

/-- A closed round (R93). -/
structure TideRes where
  round : BitVec 32
  lanes : VWord
  hdr : BitVec 128
  flag : BitVec 16
  deriving DecidableEq, Repr

/-- Chunk counter (R94). -/
structure Chunk where
  next : BitVec 48
  total : BitVec 48
  size : BitVec 16
  guided : Bool
  deriving DecidableEq, Repr

/-- A group: its table entry (R87) and its home (R90 to R94). -/
structure Group where
  entry : BitVec 192
  rho : BitVec 32
  members : List Member
  incl : List Contrib
  early : List Contrib
  results : List TideRes
  chunk : Chunk
  /-- The fields whose hubs the open round has asked for a reduction slot (R343). -/
  hubsAsked : List Nat
  deriving DecidableEq, Repr

/-- Traffic between members and homes (R90, R269, R270, R285). -/
inductive HubMsg where
  | contrib (group : Nat) (c : Contrib)
  | withdraw (group : Nat) (rank : BitVec 22) (launch : Nat)
  | query (group : Nat) (rank : BitVec 22) (core : CoreId) (slot : Fin 4)
  | chunkInit (group : Nat) (rank : BitVec 22) (core : CoreId) (slot : Fin 4) (total : BitVec 48) (size : BitVec 16)
      (guided : Bool)
  | getChunk (group : Nat) (rank : BitVec 22) (core : CoreId) (slot : Fin 4) (cap : BitVec 16)
  | answer (gtid : Word) (a : TideAns)
  deriving DecidableEq, Repr

/-- Launch states (R336). -/
inductive LaunchSt where | held | queued | loading | running | completing | done
  deriving DecidableEq, Repr

/-- What the dispatcher reads from an image (R335): entry, text, tags, groups and SRAM bytes. -/
structure Image where
  entry : Word
  text : Word
  textSize : Nat
  tags : List (BitVec 6 × Word)
  groups : List (Nat × Bool × BitVec 192)
  sram : List Byte
  w : Nat
  h : Nat
  s : Nat
  stack : Nat
  gp : Word
  deriving DecidableEq, Repr

/-- Where a packet came from (R333). -/
inductive PktSrc where | host | net (q : Nat) | spawn (core : CoreId) (slot : Fin 4)
  deriving DecidableEq, Repr

/-- A launch (R336), with the eight words of its packet (R332) and its argument block. -/
structure Launch where
  vf : Nat
  num : Nat
  st : LaunchSt
  packet : Vector Word 8
  args : Vector Word 8
  img : Image
  x0 : Nat
  y0 : Nat
  /-- Every core has reported loaded (R338). -/
  loaded : Bool
  /-- Its dependence counter has reached the target (R336). -/
  met : Bool
  order : Nat
  deriving DecidableEq, Repr

/-- The step that a move in progress is to make next (R359): `waits` is step 1 of a MIGTn request that has been taken up,
`failed` the release of an entry by a move that has not been made (R360). -/
inductive MoveStep where | waits | entry | flush | copy | release | failed
  deriving DecidableEq, Repr

/-- A move of a task (R359): where it is and goes, its entry of the exception table, and the request's origin. -/
structure Move where
  core : CoreId
  slot : Fin 4
  toCore : CoreId
  toSlot : Fin 4
  gtid : Word
  entry : Nat
  /-- `none` for MIGRATE; the MIGT register that asked. -/
  migt : Option (Fin 4)
  /-- Destination of MIGRATE's status and the issuer. -/
  issuer : Option (CoreId × Fin 4)
  step : MoveStep
  deriving DecidableEq, Repr

/-- An update of the rank exception table, or of the stop entries, being broadcast (R358, R380): the entry, its value,
and who waits. -/
structure TabUpd where
  entry : Nat
  value : Word
  issuer : Option (CoreId × Fin 4)
  stop : Bool
  deriving DecidableEq, Repr

/-- The registers of a partition that belong to the VF it runs, and its groups: saved and restored with the VF (R313,
R350, R380, R340). -/
structure PartCtx where
  s1root : Word
  s2root : Word
  rvote : Word
  stop : Vector Word 8
  stoppc : Vector Word 8
  stopown : Word
  sampbase : Word
  sampdrop : Word
  ologctl : Word
  ologbase : Word
  ologsize : Word
  ologstat : Word
  groups : List (Nat × Group)
  ranks : Vector Word 64
  hub : List HubMsg
  /-- Choices made, by place and then by count (R389), and records written, by segment. -/
  seqs : List (Nat × Nat)
  segs : List (Nat × Nat)
  /-- Stops that a choice presented at a place calls for, until that place's next choice is made (R390): 2 DIVERGED, 3 ENDED; 4
  where the choice presented is another one, and the logged one may yet come. -/
  due : List (Nat × Nat)
  /-- Messages that found their arrival queue full in phase 2 (R306). -/
  overflow : List (CoreId × Msg)
  /-- Pieces of the overflow area handed out, in order: the core, its field, and the bytes written (R306). -/
  pieces : List (CoreId × Nat × Nat)
  /-- TADDR of the PREEMPT notices of its next resumption: when phase 1 began, or all ones (R297, R390). -/
  began : Word
  /-- Reduction slots that its groups held at the hubs when the VF was saved (R307, R343): the field, and the holder as
  `Field.redSlots` has it. -/
  redSlots : List (Nat × Nat)
  deriving DecidableEq, Repr

/-- Phases of a pre-emption (R305 to R308). -/
inductive Phase where | run | stop1 | drain2 | save3 | out
  deriving DecidableEq, Repr

structure Partition where
  valid : Bool
  fx0 : Nat
  fy0 : Nat
  fw : Nat
  fh : Nat
  phase : Phase
  qcur : Word
  qt : Vector Word 16
  /-- QT0 to QT15 as they stood at the last slice boundary, at which writes take effect (R330). -/
  qtNow : Vector Word 16
  rollp : Word
  ctx : PartCtx
  launches : List Launch
  packets : List (PktSrc × Nat × List Byte)
  /-- Message records held while it does not run (R404): the network quay, the VF, the record. -/
  netHeld : List (Nat × Nat × List Word)
  moves : List Move
  upds : List TabUpd
  /-- Contexts saved by VF: the partition's registers and its cores (R307). -/
  saved : List (Nat × PartCtx × List (Nat × Core))
  exhausted : Bool
  /-- Notices held for the supervisors of a VF until it resumes (R342, R347): the VF, the cause and TADDR. -/
  owed : List (Nat × BitVec 8 × Word)
  /-- The quantum-table entry chosen to run next, at the last slice end (R340), and its value then (R330). -/
  next : Option (Fin 16 × Word)
  /-- Launches that end when the partition has drained (R356, R369): VF and number. -/
  ended : List (Nat × Nat)
  deriving DecidableEq, Repr

/-! ### Quays and the module -/

/-- A VF's counts (R27, R396). -/
structure VfSt where
  lastLaunch : Nat
  accepted : Word
  refused : Word
  lastPart : BitVec 7
  deriving DecidableEq, Repr

/-- What a frame on a network quay carries: the global access that names it; elements of a stream's tile (R116); a write of a
hub (R334, R339); piece i of a request that came in by another frame and whose home is a third module (R401). -/
inductive NetFor where
  | access
  | tile (n : Fin 8) (els : List Nat)
  | post
  | relay (q : Nat) (from_ : NetId) (i : Nat)
  deriving DecidableEq, Repr

/-- A frame sent on a network quay and not yet acknowledged (R403). -/
structure NetOut where
  id : NetId
  core : CoreId
  tries : Nat
  what : NetFor
  deriving DecidableEq, Repr

/-- A request that a network quay has passed on, and the answers so far, by piece: data, or a refusal (R401). -/
structure Relay where
  id : NetId
  got : List (Nat × Option (List Byte))
  deriving DecidableEq, Repr

/-- A quay: memory quays 0 to 63, host quays 64 and 65, network quays 66 to 129 (R392). -/
structure Quay where
  /-- Bandwidth now, and at full, in units of 0.125 GB/s (R341, R342, R398). -/
  b : Nat
  full : Nat
  /-- Capacity of the device behind a memory quay (R393). -/
  cap : Nat
  /-- Charge of a 64-byte unit of traffic, fused, in 2^-8 pJ (R344). -/
  rate : Nat
  throttled : Bool
  /-- QSHARE by partition (R329). -/
  share : List (Nat × Word)
  /-- Grants of the last window by partition, in each direction: reads, writes (R341). -/
  grants : Vector (List (Nat × Nat)) 2
  up : Bool
  lanes : Nat
  /-- Frames sent so far to each peer (R403). -/
  txSeq : List (Nat × Nat)
  outst : List NetOut
  relays : List Relay
  /-- Sequence counters of R402 by (vf, launch, rank). -/
  injSeq : List (Nat × BitVec 7)
  /-- Frames taken in order, by the peer's address (R403). -/
  rxSeq : List (Nat × Nat)
  trained : Bool
  /-- Spare lanes that link training has left to the quay (R367). -/
  laneSpares : Nat
  /-- A host quay whose partner speaks PCIe (R394, R396). -/
  pcie : Bool
  /-- Addresses of the peers marked down (R403). -/
  down : List Nat
  deriving DecidableEq, Repr

/-- A watch at a quay, oldest first (R118). -/
structure Watch where
  quay : Nat
  line : Nat
  core : CoreId
  slot : Fin 4
  deriving DecidableEq, Repr

/-- A slot in CNTWAIT (R117): the counter and the least value that ends the wait. -/
structure CntWait where
  core : CoreId
  slot : Fin 4
  dpa : Nat
  bound : Nat
  deriving DecidableEq, Repr

/-- A held launch (R336): its partition, VF and number, its counter and target. -/
structure DepWait where
  part : Nat
  vf : Nat
  num : Nat
  dpa : Nat
  bound : Nat
  deriving DecidableEq, Repr

/-- A flit (R17): its 64 data bits and its sideband: KIND, AUX and CHECK. -/
structure WireFlit where
  data : Word
  side : BitVec 16
  deriving DecidableEq, Repr

/-- A link out of a core (R369): the flits that its sender keeps for a replay, newest last, and whether it has stopped. -/
structure LinkSt where
  sent : List WireFlit
  stopped : Bool
  deriving DecidableEq, Repr

/-- A message on the core mesh (R15), with the core it travels to and its flits, header first and trailer last (R17). -/
structure Flight where
  msg : Msg
  target : CoreId
  wire : List WireFlit
  deriving DecidableEq, Repr

/-- A lace head on its wire (R81). -/
structure LaceFly where
  core : CoreId
  slot : Fin 4
  head : LaceHead
  deriving DecidableEq, Repr

/-- A page drop on its way (R323). -/
structure Drop where
  part : Nat
  vf : Nat
  kind : Fin 4
  addr : Word
  ctr : Word
  issuer : CoreId × Fin 4
  /-- The step at which the drop reached the hubs and cores. -/
  dropped : Option Nat
  deriving DecidableEq, Repr

/-- Adds to a control block on their way (R346): the hub's field, its partition, the VF, the charge in pJ that BALANCE loses at
this boundary, if any, and what CONSUMED gains at the end of a roll-up period. -/
structure BalAdd where
  field : Nat
  part : Option Nat
  vf : Nat
  charge : Option Int
  consumed : Option Int
  deriving DecidableEq, Repr

/-- A SYS access to another core (R303): the instruction, its issuer and the operand values read at issue. -/
structure SysAcc where
  core : CoreId
  slot : Fin 4
  instr : Instr
  tsel : Word
  a : Word
  b : Word
  pc : Word
  deriving DecidableEq, Repr

/-- Module registers (15 to 19). -/
structure ModRegs where
  vfcbase : Word
  qshsel : Word
  railsel : Word
  thsel : Word
  skewsel : Word
  lcstate : BitVec 3
  /-- Transitions from RETURNED to PROVISIONED made (R373). -/
  returns : Nat
  moderr : Word
  idkey : Vector Word 6
  idtype : Word
  meas : Vector Word 8
  /-- Next leaf and fused counter of the identity key (R376). -/
  leaf : Nat
  fusedCtr : Nat
  /-- SHA-256 of the vendor public key, fused (R375). -/
  vendorKey : BitVec 256
  /-- The levels at which root firmware and the device manager run, once started (R378). -/
  rootLvl : Option (BitVec 2)
  dmLvl : Option (BitVec 2)
  /-- The least security version of a firmware image that runs (R375). -/
  minVer : BitVec 32
  keyLive : Bool
  evver : Word
  tenants : Vector Word 256
  peers : Vector (BitVec 128) 256
  udp : Word
  exports : List (Nat × Word × Word)
  deriving DecidableEq, Repr

/-- A sensor: level 0 NORMAL, 1 WARM, 2 HOT, and its last reading in units of 0.25 °C (R350, R355). -/
structure Sensor where
  level : BitVec 2
  temp : BitVec 10
  deriving DecidableEq, Repr

/-- What the schedule or the outside does next. -/
inductive Choice where
  /-- An issue turn of a core (R18). -/
  | issue (k : CoreId)
  /-- One of the events of the opcode table. -/
  | event (i : Instr)
  /-- An issue turn of a core in which a plain LD reads what the deposit `e` is writing (R102). -/
  | race (k : CoreId) (e : Instr)
  /-- The engine of a stream, or the counter adds of a core, look for their translations (R110, R316). -/
  | refill (k : CoreId) (n : Option (Fin 8))
  /-- The feed channel of an edge injects its next flit or token (R229). -/
  | feed (k : CoreId) (e : Edge)
  deriving DecidableEq, Repr

/-- The issuing context of an encoded instruction: the slot, or the INLINE handler context run for it; the head's word,
and the head that follows it (R132). -/
structure Cur where
  core : CoreId
  slot : Fin 4
  inline : Bool
  head : BitVec 16
  tail : BitVec 128
  next : Word
  deriving DecidableEq, Repr

structure State where
  cores : List (Nat × Core)
  fields : List (Nat × Field)
  parts : List (Nat × Partition)
  vfs : List (Nat × VfSt)
  quays : List (Nat × Quay)
  sensors : List (Nat × Sensor)
  regs : ModRegs
  /-- Module memory by DPA. -/
  gmem : Memory
  watches : List Watch
  cntwaits : List CntWait
  deps : List DepWait
  mesh : List Flight
  /-- Core links by 4 × core + direction: 0 north, 1 east, 2 south, 3 west. -/
  links : List (Nat × LinkSt)
  laces : List LaceFly
  drops : List Drop
  sys : List SysAcc
  adds : List BalAdd
  /-- Command records written by saves (R301), newest first: their bytes, and what they hold. -/
  records : List (List Byte × SlotCmds)
  /-- Root firmware runs, the quays are trained, the control plane is stopped (R378). -/
  started : Bool
  stopped : Bool
  /-- Attestation quotes produced, newest first (R377). -/
  quotes : List (List Byte)
  /-- Answers to network, configuration and attestation requests, newest first (R376, R378, R400): number, whether granted,
  data. -/
  answers : List (Nat × Bool × List Byte)
  /-- Notices taken by firmware, newest first: those whose receiver is no task on a core (R297, R408). -/
  fw : List Msg
  /-- Sample logs to be written (R387). -/
  samples : List Sample
  cur : Cur
  agenda : List Choice
  /-- Steps made, and free values used: the model's own. -/
  now : Nat
  free : Nat
  deriving DecidableEq, Repr

/-! ### The wiped state (R374) -/

def LaceSt.solo : LaceSt := ⟨.solo, 0, 0, 0, 0, 0, 0, false, 0, none, false, false⟩

def Regs.zero : Regs :=
  { g := Vector.replicate 32 0, c := Vector.replicate 8 0, pres := 0, v := Vector.replicate 16 0,
    hdr := Vector.replicate 16 0, p := Vector.replicate 8 0, lc := Vector.replicate 2 ⟨0, 0, 0, 0⟩,
    gm := Vector.replicate 4 0, flags := 0 }

def TrapRegs.zero : TrapRegs := ⟨0, 0, 0, 0, 0, 0, 0, 0, 0⟩

def Slot.wiped : Slot :=
  { r := Regs.zero, t := TrapRegs.zero, st := .empty, wait := .none, pc := 0, readyAt := 0, ev := false,
    deferred := [], gtid := 0, lace := LaceSt.solo, buf := [], watch := ⟨false, 0, none⟩, grant := none,
    answers := [], reply := none, asked := false, pastStop := false, slept := none }

def Frame.empty : Frame := ⟨none, Vector.replicate 32 0, true⟩

def CoreMem.wiped : CoreMem :=
  { sram := [], full := 0, frames := Vector.replicate 16 Frame.empty, sem := Vector.replicate 256 0, sf := 0,
    semQ := [], tags := Vector.replicate 64 ⟨0, 0, 0⟩, shapes := Vector.replicate 8 0 }

def FlowSt.idle : FlowSt := ⟨0, false, 0, 0, false⟩

def Tile.wiped : Tile :=
  { acc := Vector.replicate 64 0, work := Vector.replicate 64 0, owner := none, ty := .i64, cfg := 0, index := 0,
    feedIdx := Vector.replicate 2 0, done := 0, err := false, fault := false, flow := Vector.replicate 2 FlowSt.idle,
    group := [], flits := 0, flags := 0 }

def Units.wiped : Units :=
  { tiles := Vector.replicate 4 Tile.wiped, runs := [], feeds := Vector.replicate 2 [],
    queues := Vector.replicate 4 [], scanOwner := none, scanCfg := 0, scanH := [], scans := [], tokens := 0, owedT := 0,
    owedS := 0, starved := false, stalls := 0, wanted := false }

def Berth.closed : Berth := ⟨.closed, false, 0, 0, 0, 0, [], 0, 0⟩

def Bank.zero : Bank := ⟨0, Vector.replicate 4 0, Vector.replicate 4 0, 0⟩

/-- Calibration is fused at test and not given by the spec: 0 (DESIGN CHOICE, entry 2). -/
def CoreRegs.wiped : CoreRegs :=
  { supr := 0, hsupr := 0, wdog := 0, strflt := Vector.replicate 8 0, sfdet := Vector.replicate 8 0,
    cal := Vector.replicate 32 0, meter := [], metered := [], migt := Vector.replicate 4 0, nextid := 0,
    eccstat := 0, linkstat := 0, ce := [], ue := [], scrub := 0, corrected := [], rowErrs := [], rowsUsed := 0,
    stuck := false, bank := Bank.zero, bankShadow := none, bankFrozen := [], samp := 0, sampShadow := none, sampCount := 0 }

/-- A core after a wipe. -/
def Core.wiped : Core :=
  { mem := CoreMem.wiped, slots := Vector.replicate 4 Slot.wiped, unit := Units.wiped, parked := [],
    streams := Vector.replicate 8 none, berths := Vector.replicate 4 Berth.closed, inj := [],
    arr := Vector.replicate 4 [], seqOut := [], seqIn := [], locks := [], vops := [], gaccs := [], ports := [],
    misses := [], handler := none, handlerDone := false, held := none, regs := CoreRegs.wiped, notices := [],
    heldAdds := [] }

/-- RAILCTL and RAILSTAT at reset (R351). -/
def Rail.reset : Rail :=
  { ctl := (4915200#24 ++ 6250#16 ++ 0#4 ++ 550#10 ++ 320#10), target := 400, setpt := 400, state := 0, trip := false,
    off := false, holds := [] }

def Field.reset : Field :=
  { partdef := 0, time := 0, walks := [], cache := [], rails := Vector.replicate 4 Rail.reset, dead := [],
    fuses := [], rows := [], staged := [], repsel := 0, repctl := 0, hubLanes := Vector.replicate 4 0,
    hubStopped := Vector.replicate 4 false, skew := 0, meter := [], rolled := [], rollAt := 0, fenced := false,
    redSlots := [], meterAt := [], qmeter := [], occ := [], lastVf := none, carry := [], marked := [], markedRows := [] }

def PartCtx.reset : PartCtx :=
  { s1root := 0, s2root := 0, rvote := 0, stop := Vector.replicate 8 0, stoppc := Vector.replicate 8 0, stopown := 0,
    sampbase := 0, sampdrop := 0, ologctl := 0, ologbase := 0, ologsize := 0, ologstat := 0, groups := [],
    ranks := Vector.replicate 64 0, hub := [], seqs := [], segs := [], due := [], overflow := [],
    pieces := [], began := 0, redSlots := [] }

/-- No partition: QCUR.IDLE is 1 (R329). -/
def Partition.absent : Partition :=
  { valid := false, fx0 := 0, fy0 := 0, fw := 0, fh := 0, phase := .run, qcur := 0x10, qt := Vector.replicate 16 0,
    qtNow := Vector.replicate 16 0, rollp := 0, ctx := PartCtx.reset, launches := [], packets := [], netHeld := [],
    moves := [], upds := [], saved := [], exhausted := false, owed := [], next := none, ended := [] }

def VfSt.reset : VfSt := ⟨0, 0, 0, 0⟩

/-- The capacity of a memory device is what R393 allows at most; the fused rate is 0 (DESIGN CHOICE, entry 2). -/
def Quay.reset : Quay :=
  { b := 0, full := 0, cap := 2 ^ 39, rate := 0, throttled := false, share := [], grants := Vector.replicate 2 [],
    up := true, lanes := 0, txSeq := [], outst := [], relays := [], injSeq := [], rxSeq := [], trained := false,
    laneSpares := 0, pcie := false, down := [] }

/-- EVVER is 1 and the UDP port 21,320 at reset (R380, R395); the rest is fused or written by firmware (entry 2). -/
def ModRegs.reset : ModRegs :=
  { vfcbase := 0, qshsel := 0, railsel := 0, thsel := 0, skewsel := 0, lcstate := 0, returns := 0, moderr := 0,
    idkey := Vector.replicate 6 0, idtype := 0, meas := Vector.replicate 8 0, leaf := 0, fusedCtr := 0, vendorKey := 0,
    rootLvl := none, dmLvl := none, minVer := 0, keyLive := false, evver := 1, tenants := Vector.replicate 256 0,
    peers := Vector.replicate 256 0, udp := 21320, exports := [] }

/-- The module right after reset: every core, field and quay wiped (R374), no partition (R378), memory with nothing
listed, and no input waiting. -/
def State.reset : State :=
  { cores := [], fields := [], parts := [], vfs := [], quays := [], sensors := [], regs := ModRegs.reset, gmem := [],
    watches := [], cntwaits := [], deps := [], mesh := [], links := [], laces := [], drops := [], sys := [], adds := [],
    records := [], started := false, stopped := false, quotes := [], answers := [], fw := [], samples := [],
    cur := ⟨0, 0, false, 0, 0, 0⟩, agenda := [], now := 0, free := 0 }

end Sys2Proof.Machine
end

