-- ==== Sys2Proof/Machine/Ops.lean ====
section
/-! DEFINITION. The named operations over the state: places, memory, energy and counters, notices, taking an exception
(R297, R408) and returning from one (R182), retirement with hardware loops (R78), and the frame that every encoded
instruction runs in (R29, R135, R138, R157, R187). -/

namespace Sys2Proof.Machine

/-! ### Reaching the parts of the state -/

def State.core (s : State) (k : CoreId) : Core := (mget s.cores k).getD Core.wiped
def State.setCore (s : State) (k : CoreId) (c : Core) : State := { s with cores := mset s.cores k c }
def State.modCore (s : State) (k : CoreId) (f : Core → Core) : State := s.setCore k (f (s.core k))

def Core.slot (c : Core) (n : Fin 4) : Slot := c.slots[n]
def Core.setSlot (c : Core) (n : Fin 4) (x : Slot) : Core := { c with slots := c.slots.set n x }

def State.slot (s : State) (k : CoreId) (n : Fin 4) : Slot := (s.core k).slot n
def State.modSlot (s : State) (k : CoreId) (n : Fin 4) (f : Slot → Slot) : State :=
  s.modCore k fun c => c.setSlot n (f (c.slot n))

/-- The issuing slot. -/
def State.me (s : State) : Slot := s.slot s.cur.core s.cur.slot
def State.modMe (s : State) (f : Slot → Slot) : State := s.modSlot s.cur.core s.cur.slot f
def State.modRegs (s : State) (k : CoreId) (n : Fin 4) (f : Regs → Regs) : State :=
  s.modSlot k n fun x => { x with r := f x.r }
def State.modTrap (s : State) (k : CoreId) (n : Fin 4) (f : TrapRegs → TrapRegs) : State :=
  s.modSlot k n fun x => { x with t := f x.t }
def State.modMem (s : State) (k : CoreId) (f : CoreMem → CoreMem) : State :=
  s.modCore k fun c => { c with mem := f c.mem }
def State.modUnits (s : State) (k : CoreId) (f : Units → Units) : State :=
  s.modCore k fun c => { c with unit := f c.unit }
def State.modCoreRegs (s : State) (k : CoreId) (f : CoreRegs → CoreRegs) : State :=
  s.modCore k fun c => { c with regs := f c.regs }

def State.field (s : State) (f : Nat) : Field := (mget s.fields f).getD Field.reset
def State.modField (s : State) (f : Nat) (g : Field → Field) : State :=
  { s with fields := mset s.fields f (g (s.field f)) }
def State.part (s : State) (p : Nat) : Partition := (mget s.parts p).getD Partition.absent
def State.modPart (s : State) (p : Nat) (g : Partition → Partition) : State :=
  { s with parts := mset s.parts p (g (s.part p)) }
def State.modCtx (s : State) (p : Nat) (g : PartCtx → PartCtx) : State :=
  s.modPart p fun x => { x with ctx := g x.ctx }
def State.vf (s : State) (v : Nat) : VfSt := (mget s.vfs v).getD VfSt.reset
def State.modVf (s : State) (v : Nat) (g : VfSt → VfSt) : State := { s with vfs := mset s.vfs v (g (s.vf v)) }
def State.quay (s : State) (q : Nat) : Quay := (mget s.quays q).getD Quay.reset
def State.modQuay (s : State) (q : Nat) (g : Quay → Quay) : State := { s with quays := mset s.quays q (g (s.quay q)) }
def State.sensor (s : State) (n : Nat) : Sensor := (mget s.sensors n).getD ⟨0, 0⟩
def State.modMod (s : State) (g : ModRegs → ModRegs) : State := { s with regs := g s.regs }

/-! ### Places (R13, R14, R25, R349) -/

def posX (k : CoreId) : Nat := k % 1152
def posY (k : CoreId) : Nat := k / 1152
def coreAt (x y : Nat) : CoreId := y * 1152 + x
/-- A position packed as R13. -/
def packPos (k : CoreId) : BitVec 21 := BitVec.ofNat 21 (posX k + 2048 * posY k)
/-- The core a packed position names, if it lies on the grid. -/
def unpackPos (b : BitVec 21) : Option CoreId :=
  let x := (b.extractLsb' 0 11).toNat
  let y := (b.extractLsb' 11 10).toNat
  if x < 1152 && y < 896 then some (coreAt x y) else none
def fieldOf (k : CoreId) : Nat := (posY k / 128) * 12 + posX k / 96
def fieldX (f : Nat) : Nat := f % 12
def fieldY (f : Nat) : Nat := f / 12
/-- The band of a core's rail in its field (R349). -/
def bandOf (k : CoreId) : Fin 4 := Fin.ofNat 4 (posY k % 128 / 32)

/-- Bit fields of PARTDEF (R329). -/
def pdValid (d : Word) : Bool := d.getLsbD 63
def pdNum (d : Word) : Nat := (d.extractLsb' 14 7).toNat
/-- The partition that holds a field (R329). -/
def State.partOfField (s : State) (f : Nat) : Option Nat :=
  let d := (s.field f).partdef
  if pdValid d then some (pdNum d) else none
def State.partOf (s : State) (k : CoreId) : Option Nat := s.partOfField (fieldOf k)
/-- Partition number of a core's field, 0 when it has none. -/
def State.partNum (s : State) (k : CoreId) : Nat := (s.partOf k).getD 0

/-- The fields of a partition, row by row (R328). -/
def Partition.fields (p : Partition) : List Nat :=
  (List.range p.fh).flatMap fun j => (List.range p.fw).map fun i => (p.fy0 + j) * 12 + p.fx0 + i
def Partition.holds (p : Partition) (k : CoreId) : Bool :=
  let fx := fieldX (fieldOf k)
  let fy := fieldY (fieldOf k)
  p.valid && p.fx0 ≤ fx && fx < p.fx0 + p.fw && p.fy0 ≤ fy && fy < p.fy0 + p.fh

/-- Cores of a partition that are not in their wiped state. -/
def State.coresOf (s : State) (p : Nat) : List CoreId :=
  (s.cores.map (·.1)).filter fun k => s.partOf k == some p

def gtidVf (g : Word) : Nat := (g.extractLsb' 38 9).toNat
def gtidLaunch (g : Word) : Nat := (g.extractLsb' 22 16).toNat
def gtidRank (g : Word) : BitVec 22 := g.extractLsb' 0 22
/-- A GTID (R27). -/
def mkGtid (vf launch : Nat) (rank : BitVec 22) : Word :=
  (0#17 ++ BitVec.ofNat 9 vf ++ BitVec.ofNat 16 launch ++ rank)

/-- Number of ranks of the launch that holds a core. -/
def Held.ranks (h : Held) : Nat := h.w * h.h * h.s
/-- The core and slot of a rank by R25. -/
def Held.home (h : Held) (rank : Nat) : CoreId × Fin 4 :=
  (coreAt (h.x0 + rank / h.s % h.w) (h.y0 + rank / h.s / h.w), Fin.ofNat 4 (rank % h.s))
/-- The rank of a core and slot by R25. -/
def Held.rankAt (h : Held) (k : CoreId) (n : Fin 4) : Nat := ((posY k - h.y0) * h.w + (posX k - h.x0)) * h.s + n.val

/-- Entry of the rank exception table (R358). -/
structure RankEnt where
  v : Bool
  transit : Bool
  launch : Nat
  rank : Nat
  slot : Fin 4
  pos : BitVec 21
  deriving DecidableEq, Repr

def rankEnt (w : Word) : RankEnt :=
  ⟨w.getLsbD 63, w.getLsbD 62, (w.extractLsb' 46 16).toNat, (w.extractLsb' 24 22).toNat,
   Fin.ofNat 4 (w.extractLsb' 21 2).toNat, w.extractLsb' 0 21⟩

def rankWord (e : RankEnt) : Word :=
  BitVec.ofBool e.v ++ BitVec.ofBool e.transit ++ BitVec.ofNat 16 e.launch ++ BitVec.ofNat 22 e.rank ++ 0#1 ++
    BitVec.ofNat 2 e.slot.val ++ e.pos

/-- The valid entry of the exception table for a rank (R358). -/
def State.rankLookup (s : State) (p launch rank : Nat) : Option RankEnt :=
  ((s.part p).ctx.ranks.toList.map rankEnt).find? fun e => e.v && e.launch == launch && e.rank == rank

/-- Where messages for a rank of a launch go (R26, R358). -/
def State.route (s : State) (h : Held) (rank : Nat) : CoreId × Fin 4 :=
  match s.rankLookup h.part h.launch rank with
  | some e => ((unpackPos e.pos).getD 0, e.slot)
  | none => h.home rank

/-- The core and slot that hold a GTID. -/
def State.findTask (s : State) (g : Word) : Option (CoreId × Fin 4) :=
  s.cores.findSome? fun (k, c) =>
    ((List.finRange 4).find? fun n => (c.slot n).st != .empty && (c.slot n).gtid == g).map fun n => (k, n)

/-! ### Memory -/

def Memory.get (m : Memory) (a : Nat) : Byte :=
  match m with
  | [] => 0
  | (a', b) :: m => if a = a' then b else Memory.get m a

def Memory.put (m : Memory) (a : Nat) (b : Byte) : Memory :=
  match m with
  | [] => if b = 0 then [] else [(a, b)]
  | (a', b') :: m =>
    if a = a' then (if b = 0 then m else (a, b) :: m)
    else if a < a' then (if b = 0 then (a', b') :: m else (a, b) :: (a', b') :: m)
    else (a', b') :: Memory.put m a b

/-- Addresses above `lo` rise strictly, and no listed byte is the 0 that an unlisted one reads as. -/
def Memory.wfFrom (lo : Nat) (m : Memory) : Bool :=
  match m with
  | [] => true
  | (a, b) :: m => lo ≤ a && b != 0 && Memory.wfFrom (a + 1) m

/-- The canonical form of a memory. -/
def Memory.wf (m : Memory) : Bool := Memory.wfFrom 0 m

/-- `n` bytes from `a`, little-endian (R5). -/
def Memory.readLE (m : Memory) (a : Nat) : Nat → Nat
  | 0 => 0
  | n + 1 => (m.get a).toNat + 256 * Memory.readLE m (a + 1) n

/-- The low `n` bytes of `v` stored from `a`, little-endian. -/
def Memory.writeLE (m : Memory) (a : Nat) (n : Nat) (v : Nat) : Memory :=
  match n with
  | 0 => m
  | n + 1 => Memory.writeLE (m.put a (BitVec.ofNat 8 v)) (a + 1) n (v / 256)

def Memory.readBytes (m : Memory) (a : Nat) : Nat → List Byte
  | 0 => []
  | n + 1 => m.get a :: Memory.readBytes m (a + 1) n

def Memory.writeBytes (m : Memory) (a : Nat) : List Byte → Memory
  | [] => m
  | b :: l => Memory.writeBytes (m.put a b) (a + 1) l

/-- Bytes of `v` from `a` where bit i of `mask` is 1, for i below `n`. -/
def Memory.writeMask (m : Memory) (a : Nat) (n : Nat) (v : Nat) (mask : Nat) : Memory :=
  match n with
  | 0 => m
  | n + 1 =>
    Memory.writeMask (if mask % 2 = 1 then m.put a (BitVec.ofNat 8 v) else m) (a + 1) n (v / 256) (mask / 2)

/-- Little-endian value of a list of bytes. -/
def leBytes : List Byte → Nat
  | [] => 0
  | b :: l => b.toNat + 256 * leBytes l

/-- `n` bytes of `v`. -/
def toBytes (v : Nat) : Nat → List Byte
  | 0 => []
  | n + 1 => BitVec.ofNat 8 v :: toBytes (v / 256) n

/-! ### Generic addresses (R96) -/

def winBits (a : Word) : BitVec 4 := a.extractLsb' 60 4
def isGlobal (a : Word) : Bool := winBits a == 0
def isLocal (a : Word) : Bool := winBits a == 0xE && a.extractLsb' 16 44 == 0#44
def isBerth (a : Word) : Bool := winBits a == 0xD && a.extractLsb' 2 58 == 0#58
/-- SRAM offset of a local address. -/
def offOf (a : Word) : Nat := (a.extractLsb' 0 16).toNat
def localAddr (o : Nat) : Word := 0xE000000000000000#64 + BitVec.ofNat 64 o
/-- The sum that keeps its window (R167, R242). -/
def addOff (a : Word) (d : Word) : Word := winBits a ++ (a + d).extractLsb' 0 60

/-! ### Free values -/

/-- A fresh free word (entry 5 of the log). -/
def State.fresh (s : State) : Word × State := (Config.word s.free, { s with free := s.free + 1 })

/-! ### Energy and counters (R344, R385) -/

/-- A bucketed sum in a list of counts. -/
def madd (l : List (Nat × Nat)) (k n : Nat) : List (Nat × Nat) := mset l k ((mget l k).getD 0 + n)

/-- Charge `n` events of class `c` to a VF on a core's meter: CAL × MSCALE rounded toward zero to 2^-8 pJ. Class 31 is
never charged; it stands for a head that the table has no class for. -/
def CoreRegs.charge (r : CoreRegs) (ms : Nat) (vf : Nat) (c : Fin 32) (n : Nat) : CoreRegs :=
  let e := r.cal[c].toNat * ms / 4096 * n
  if e = 0 ∨ c = 31 then r else { r with meter := mset r.meter vf (((mget r.meter vf).getD 0 + e) % 2 ^ 56) }

/-- Increase of a meter since the last boundary, in 2^-8 pJ (R345). -/
def meterInc (now last : List (Nat × Nat)) (vf : Nat) : Nat :=
  ((mget now vf).getD 0 + 2 ^ 56 - (mget last vf).getD 0) % 2 ^ 56

/-- One counter of a bank: `n` events of `code`, attributed to a slot where they have one (R385). -/
def countOne (ctl ev val : Word) (i : Nat) (code : Nat) (sl : Option (Fin 4)) (n : Nat) : Word :=
  if ctl.getLsbD i && (ev.extractLsb' 0 8).toNat == code && !val.getLsbD 63 &&
      (!ctl.getLsbD 8 || sl == some (Fin.ofNat 4 (ctl.extractLsb' 9 2).toNat)) then
    let t := (val.extractLsb' 0 48).toNat + n
    BitVec.ofBool false ++ BitVec.ofBool (val.getLsbD 62 || 2 ^ 48 ≤ t) ++ 0#14 ++ BitVec.ofNat 48 t
  else val

def Bank.count (b : Bank) (code : Nat) (sl : Option (Fin 4)) (n : Nat) : Bank :=
  if b.ctl.extractLsb' 0 4 = 0#4 then b
  else { b with val := Vector.ofFn fun i : Fin 4 => countOne b.ctl b.ev[i] b.val[i] i.val code sl n }

/-- Count `n` events of an event code on a core (R385). -/
def State.count (s : State) (k : CoreId) (code : Nat) (sl : Option (Fin 4)) (n : Nat := 1) : State :=
  s.modCoreRegs k fun r => { r with bank := r.bank.count code sl n }

/-- MSCALE of a core: (SETPT / 400 mV)² of its rail with 16 fraction bits, rounded toward zero (R329, R352). -/
def State.mscale (s : State) (k : CoreId) : Nat :=
  let v := (s.field (fieldOf k)).rails[bandOf k].setpt.toNat
  v * v * 65536 / 160000

/-- QCUR (R329). -/
def qIdle (q : Word) : Bool := q.getLsbD 4
def qVf (q : Word) : Nat := (q.extractLsb' 32 9).toNat
/-- The current VF of a partition. -/
def Partition.current (x : Partition) : Option Nat :=
  if qIdle x.qcur then none else some (qVf x.qcur)

/-- The current VF of a core, which its charges fall to (R344). A core that has none issues nothing; a charge there would
fall to `d`. -/
def State.vfOn (s : State) (k : CoreId) (d : Nat) : Nat :=
  (((s.partOf k).bind fun p => (s.part p).current)).getD d

/-- Charge the current VF of a core for an event of a slot. -/
def State.charge (s : State) (k : CoreId) (sl : Fin 4) (c : Fin 32) (n : Nat := 1) : State :=
  let v := s.vfOn k (gtidVf (s.slot k sl).gtid)
  s.modCoreRegs k fun r => r.charge (s.mscale k) v c n

/-! ### Event latches and semaphores (R178, R261) -/

def State.setEv (s : State) (k : CoreId) (sl : Fin 4) : State := s.modSlot k sl fun x => { x with ev := true }

/-- What a slot has been granted of semaphore `n` and has not yet taken (R136). -/
def Slot.owes (x : Slot) (n : BitVec 8) : Nat :=
  match x.grant with
  | some (m, t) => if m = n then t.toNat else 0
  | none => 0

/-- What is left of semaphore `n` beside the grants not yet taken. -/
def Core.freeSem (c : Core) (n : BitVec 8) : Nat := c.mem.sem[n.toFin].toNat - (c.slots.toList.map (·.owes n)).sum

/-- Grant waiters of semaphore `n`, earliest first, as many as the count allows; a waiter whose threshold is not met
holds the later ones (R261). -/
def grantLoop (n : BitVec 8) (q : List (Fin 4 × BitVec 8 × BitVec 16)) (cnt : Nat) :
    List (Fin 4 × BitVec 16) × List (Fin 4 × BitVec 8 × BitVec 16) :=
  match q with
  | [] => ([], [])
  | (sl, m, t) :: q =>
    if m = n then
      if t.toNat ≤ cnt then
        let (g, q') := grantLoop n q (cnt - t.toNat)
        ((sl, t) :: g, q')
      else ([], (sl, m, t) :: q)
    else
      let (g, q') := grantLoop n q cnt
      (g, (sl, m, t) :: q')

/-- Test the waiters of a semaphore (R261). A grant takes nothing: the granted head takes its threshold as it issues. -/
def Core.grants (c : Core) (n : BitVec 8) : Core :=
  let (g, q) := grantLoop n c.mem.semQ (c.freeSem n)
  g.foldl (fun c e => c.setSlot e.1 { c.slot e.1 with grant := some (n, e.2) }) { c with mem := { c.mem with semQ := q } }

/-- The threshold leaves the semaphore, in the same access as the issue (R136); a count lowered since the grant is not
taken below zero (R261, R23). -/
def CoreMem.takeThr (m : CoreMem) (n : BitVec 8) (t : BitVec 16) : CoreMem :=
  { m with sem := m.sem.set n.toFin (m.sem[n.toFin] - (if t ≤ m.sem[n.toFin] then t else m.sem[n.toFin])) }

/-- Set a semaphore and grant its waiters. -/
def Core.setSem (c : Core) (n : BitVec 8) (v : BitVec 16) : Core :=
  Core.grants { c with mem := { c.mem with sem := c.mem.sem.set n.toFin v } } n

/-- Add to a semaphore; `none` past 65,535 (R23). -/
def Core.addSem (c : Core) (n : BitVec 8) (i : Nat) : Option Core :=
  let v := c.mem.sem[n.toFin].toNat + i
  if 65535 < v then none else some (c.setSem n (BitVec.ofNat 16 v))

def setBit256 (x : BitVec 256) (n : BitVec 8) (b : Bool) : BitVec 256 :=
  if b then x ||| (1#256 <<< n.toNat) else x &&& ~~~(1#256 <<< n.toNat)

def Core.setSF (c : Core) (n : BitVec 8) (b : Bool) : Core :=
  { c with mem := { c.mem with sf := setBit256 c.mem.sf n b } }

/-! ### Levels and stops -/

def lvlOf (x : Slot) : BitVec 2 := x.t.tst.extractLsb' 0 2
def supvOf (x : Slot) : Bool := x.t.tst.getLsbD 4

/-- TST.PEND bit of a deferred cause (R293). -/
def Deferred.bit (d : Deferred) : Nat :=
  if d.origin then 10
  else match d.cause.toNat with
    | 0x0D => 8
    | 0x0F => 9
    | 0x26 => 11
    | _ => 12

/-- TST as MFS and CTXSV read it (R293). -/
def Slot.tstRead (x : Slot) : Word := x.deferred.foldl (fun w d => w ||| (1#64 <<< d.bit)) x.t.tst

/-- The lowest stop entry of a kind that matches a task (R381), for KIND 1 at a code pointer. -/
def PartCtx.stopMatch (c : PartCtx) (g : Word) (kind : BitVec 2) (pc : Word) : Option (Fin 8) :=
  if !c.stopown.getLsbD 63 then none
  else (List.finRange 8).find? fun i =>
    let e := c.stop[i]
    e.getLsbD 63 && e.extractLsb' 61 2 == kind &&
    (if e.getLsbD 60 then e.extractLsb' 22 25 == g.extractLsb' 22 25 else e.extractLsb' 0 47 == g.extractLsb' 0 47) &&
    (kind != 1 || c.stoppc[i] == pc)

def State.stopAt (s : State) (k : CoreId) (sl : Fin 4) (kind : BitVec 2) : Option (Fin 8) :=
  match s.partOf k with
  | none => none
  | some p => (s.part p).ctx.stopMatch (s.slot k sl).gtid kind (s.slot k sl).pc

/-! ### Notices (R297, R408) -/

/-- Word 1 of a notice (R297). -/
def noticeWord (sl : Fin 4) (k : CoreId) (stream : BitVec 4) (defer origin : Bool) (lvl : BitVec 2)
    (cause : BitVec 8) : Word :=
  0#25 ++ BitVec.ofNat 2 sl.val ++ packPos k ++ stream ++ BitVec.ofBool defer ++ BitVec.ofBool origin ++ lvl ++ cause

/-- Queue a notice on a core for the task that GTID `to_` names; 0 names the root field controller's task. -/
def State.notify (s : State) (k : CoreId) (to_ : Word) (ws : List Word) : State :=
  s.modCore k fun c => { c with inj := c.inj ++
    [{ kind := .notice, vf := gtidVf to_, launch := gtidLaunch to_, dst := gtidRank to_, src := 0x3FFFBF, from_ := k,
       cls := 3, tag := 0, block := false, seq := 0, payload := ws, sample := none }] }

/-- Where a notice for level U, or for level S, goes (R297, R408). -/
def State.supTarget (s : State) (k : CoreId) (lvl : BitVec 2) : Word :=
  let r := (s.core k).regs
  if lvl = 0 then (if r.supr = 0 then r.hsupr else r.supr)
  else if lvl = 1 then r.hsupr else 0

/-- A notice about a task in a slot (R297, R298). -/
def State.slotNotice (s : State) (k : CoreId) (sl : Fin 4) (to_ : Word) (defer origin : Bool) (cause : BitVec 8)
    (taddr tpc : Word) : State :=
  let x := s.slot k sl
  s.notify k to_ [if x.st = .empty then 0 else x.gtid, noticeWord sl k 0 defer origin (lvlOf x) cause, taddr, tpc]

/-- A notice that names no task, from a core or hub, to a GTID (R297). -/
def State.plainNotice (s : State) (k : CoreId) (to_ : Word) (cause : BitVec 8) (taddr : Word) : State :=
  s.notify k to_ [0, cause.setWidth 64, taddr, 0]

/-- Slots of a partition that receive class 3 messages (R290). -/
def State.supervisors (s : State) (p : Nat) : List (CoreId × Fin 4) :=
  (s.coresOf p).flatMap fun k => ((List.finRange 4).filter fun n => supvOf (s.slot k n) && (s.slot k n).st != .empty).map
    fun n => (k, n)

/-- One notice for every supervisor slot of a partition. -/
def State.notifyAll (s : State) (p : Nat) (cause : BitVec 8) (taddr : Word) : State :=
  (s.supervisors p).foldl (fun s (k, n) => s.plainNotice k (s.slot k n).gtid cause taddr) s

/-! ### Taking an exception, and returning from one -/

/-- XINFO and SFDET (R314). -/
def XFault.word (f : XFault) (acc : BitVec 8) : Word :=
  0#4 ++ (if f.stage2 then f.gpa.extractLsb' 16 44 else 0#44) ++ f.kind ++ f.level ++ BitVec.ofBool f.stage2 ++
    BitVec.ofBool f.tbl ++ acc

/-- The cause of a translation fault (R312): kinds 0, 1 and 7 are XLATE. -/
def XFault.cause (f : XFault) : BitVec 8 :=
  if f.kind = 0 ∨ f.kind = 1 ∨ f.kind = 7 then 0x08 else 0x09

/-- TST with DEFER, ORIGIN and MORE set for a cause (R293, R298). -/
def tstFor (t : Word) (defer origin more : Bool) : Word :=
  t.extractLsb' 14 50 ++ BitVec.ofBool more ++ t.extractLsb' 8 5 ++ BitVec.ofBool origin ++ BitVec.ofBool defer ++
    t.extractLsb' 0 6

/-- A trap detaches an attached lace follower (R83), and ends a wait in LACE or RELACE that has not been decided (R298:
the instruction has not begun). -/
def LaceSt.detach (l : LaceSt) : LaceSt :=
  match l.code with
  | .attached => { l with code := .detached, waited := 0, result := none, joined := false }
  | .binding => { l with code := .solo, waited := 0, result := none }
  | .rejoining => { l with code := .detached, waited := 0, result := none }
  | .leaderWait => { l with code := .leader, waited := 0 }
  | _ => l

/-- A level M slot that traps stops the control plane (R297, R378). -/
def State.moduleError (s : State) (fld : BitVec 8) (code : BitVec 8) : State :=
  s.modMod fun m => { m with moderr := 1#1 ++ 0#47 ++ fld ++ code }

/-- ECCSTAT.UE and UWORD: an uncorrectable word of SRAM has been found at an offset (R366, R372). -/
def CoreRegs.noteUE (r : CoreRegs) (o : Nat) : CoreRegs :=
  { r with eccstat := r.eccstat.extractLsb' 48 16 ++ 1#1 ++ 0#31 ++ BitVec.ofNat 13 (o / 8) ++ 0#3 }

/-- UNCORRECTABLE at a local address is such a word, found on that core. -/
def State.noteUE (s : State) (k : CoreId) (cause : BitVec 8) (taddr : Word) : State :=
  if cause = 0x0F ∧ isLocal taddr then s.modCoreRegs k fun r => r.noteUE (offOf taddr) else s

/-- R297 step 1: the slot's trap registers and its state. A head that a deferred cause or a missing frame keeps from being
issued is still the first one after an ERET (R382). -/
def Slot.trapped (x : Slot) (cause : BitVec 8) (taddr : Word) (defer origin more : Bool) (xinfo : Option Word) : Slot :=
  { x with
    t := { x.t with tpc := x.pc, tcause := cause.setWidth 64, taddr := taddr,
                    tst := tstFor x.t.tst defer origin more, xinfo := xinfo.getD x.t.xinfo },
    st := .trapped, wait := .none, lace := x.lace.detach, asked := false, reply := none, slept := none, grant := none,
    buf := if x.lace.code = .attached then [] else x.buf,
    pastStop := x.pastStop && (defer || cause == 0x0C) }

/-- Whether a deferred cause may be taken now (R298): not between an answer and the head that it is for. -/
def Slot.interruptible (x : Slot) : Bool := x.reply.isNone && x.lace.result.isNone

/-- A slot's misses are no longer those of a waiting head (R298). -/
def Core.leaveMiss (c : Core) (sl : Fin 4) : Core :=
  { c with misses := c.misses.map fun m => if m.party = some sl then { m with party := none } else m }

/-- A slot stops waiting on semaphores (R298: its instruction has not begun). -/
def Core.leaveQ (c : Core) (sl : Fin 4) : Core :=
  { c with mem := { c.mem with semQ := c.mem.semQ.filter fun e => e.1 != sl } }

/-- A slot that traps has taken no threshold (R136, R277): it waits on semaphores no more, what it was granted is free
again, and the waiters that it held are tested. -/
def Core.unwait (c : Core) (sl : Fin 4) : Core :=
  match (c.slot sl).grant with
  | none =>
    match c.mem.semQ.find? fun e => e.1 == sl with
    | none => c
    | some e => (c.leaveQ sl).grants e.2.1
  | some g => ((c.setSlot sl { c.slot sl with grant := none }).leaveQ sl).grants g.1

/-- TAKING AN EXCEPTION (R297, R298, R408): the slot is TRAPPED with TPC, TCAUSE, TADDR and TST set, and a notice is
queued for SUPR, HSUPR or the root firmware; a stage-2 fault goes to HSUPR (R322); at level M the control plane stops, and
MODERR's second write of FIELD leaves the cause there (R378). -/
def State.takeTrap (s : State) (k : CoreId) (sl : Fin 4) (cause : BitVec 8) (taddr : Word) (defer : Bool := false)
    (origin : Bool := false) (more : Bool := false) (xf : Option (XFault × BitVec 8) := none) : State :=
  let x := s.slot k sl
  let s' := (s.noteUE k cause taddr).modCore k fun c =>
    ((c.unwait sl).leaveMiss sl).setSlot sl (x.trapped cause taddr defer origin more (xf.map fun f => f.1.word f.2))
  let s' := if x.lace.code = .attached then s'.count k 11 (some sl) else s'
  if lvlOf x = 3 then { s'.moduleError cause 4 with stopped := true }
  else
    let to_ := match xf with
      | some (f, _) => if f.stage2 then (s.core k).regs.hsupr else s.supTarget k (lvlOf x)
      | none => s.supTarget k (lvlOf x)
    s'.slotNotice k sl to_ defer origin cause taddr x.pc

/-- The stop at the boundary before a head (R381, R382): of the entries that match by code pointer, and by HALT where the head
is one, the lowest. -/
def State.boundaryStop (s : State) (k : CoreId) (sl : Fin 4) (halt : Bool) : Option (BitVec 2 × Fin 8) :=
  if (s.slot k sl).pastStop then none
  else match s.stopAt k sl 1, if halt then s.stopAt k sl 3 else none with
    | none, none => none
    | some a, none => some (1, a)
    | none, some b => some (3, b)
    | some a, some b => some (if a.val < b.val then (1, a) else (3, b))

/-- A stop of R381: cause BREAK, TADDR naming the entry, the notice to STOPOWN. -/
def State.takeStop (s : State) (k : CoreId) (sl : Fin 4) (kind : BitVec 2) (e : Fin 8) : State :=
  let x := s.slot k sl
  let taddr : Word := 1#1 ++ 0#53 ++ kind ++ 0#5 ++ BitVec.ofNat 3 e.val
  let s' := s.modCore k fun c => (c.unwait sl).setSlot sl
    { x.trapped 0x11 taddr false false false none with pastStop := kind == 1 || kind == 3 }
  let s' := if x.lace.code = .attached then s'.count k 11 (some sl) else s'
  s'.slotNotice k sl (((s.part (s.partNum k)).ctx.stopown.extractLsb' 0 47).setWidth 64) false false 0x11 taddr x.pc

/-- Merge a deferred cause into those pending (R298). -/
def addDeferredTo (l : List Deferred) (d : Deferred) : List Deferred :=
  match l with
  | [] => [d]
  | e :: l => if e.bit = d.bit then { e with merged := true } :: l else e :: addDeferredTo l d

/-- A deferred cause arises for a slot (R298): held for the next boundary, or sent as a notice for a HALTING or an EMPTY
slot. -/
def State.defer (s : State) (k : CoreId) (sl : Fin 4) (cause : BitVec 8) (taddr : Word) (origin : Bool := false) : State :=
  let s := s.noteUE k cause taddr
  let x := s.slot k sl
  if x.st = .halting ∨ x.st = .empty then
    s.slotNotice k sl (s.supTarget k (lvlOf x)) true origin cause taddr 0
  else s.modSlot k sl fun x => { x with deferred := addDeferredTo x.deferred ⟨cause, taddr, origin, false⟩ }

/-- The return from an exception (R182): a TRAPPED slot is READY at its TPC. -/
def Slot.resume (x : Slot) (now : Nat) : Slot := { x with st := .ready, pc := x.t.tpc, readyAt := now }

/-- The signal increment of a command at its completion (R136, R116): SEM_OVERFLOW is deferred, and sets SF (R300). -/
def State.signal (s : State) (k : CoreId) (sl : Fin 4) (d : Done) : State :=
  if d.inc = 0 then s
  else match (s.core k).addSem d.ssem d.inc.toNat with
    | some c => s.setCore k c
    | none => (s.modCore k fun c => c.setSF d.ssem true).defer k sl 0x0E (d.ssem.setWidth 64)

/-- Commands of a slot that have not completed (R69). Vector operations in flight are none of them: they complete into the slot after
a HALT (DESIGN CHOICE, entry 94). -/
def Core.outstanding (c : Core) (sl : Fin 4) : Bool :=
  (c.unit.runs.any fun r => r.slot == sl) || (c.unit.feeds.toList.any fun q => q.any fun f => f.slot == sl && !f.told) ||
  (c.unit.scans.any fun r => r.slot == sl) || (c.parked.any fun e => e.1 == sl) ||
  (c.streams.toList.any fun o => match o with | some t => t.slot == sl && t.redirect.isNone | none => false)

/-- The same, with the COPYs that a move has left behind (R359). -/
def State.outstanding (s : State) (k : CoreId) (sl : Fin 4) : Bool :=
  (s.core k).outstanding sl || s.cores.any fun e => e.2.streams.toList.any fun o =>
    match o with | some t => t.redirect == some (k, sl) | none => false

/-- A HALTING slot is EMPTY once its last command has completed (R69); its watch and its MIGT request go (R357). -/
def State.settleHalt (s : State) (k : CoreId) (sl : Fin 4) : State :=
  if (s.slot k sl).st = .halting ∧ s.outstanding k sl = false then
    let s := s.modSlot k sl fun x => { x with st := .empty, watch := ⟨false, 0, none⟩ }
    let s := s.modCoreRegs k fun r => { r with migt := r.migt.set sl (r.migt[sl] &&& ~~~(1#64 <<< 63)) }
    { s with watches := s.watches.filter fun w => !(w.core == k && w.slot == sl) }
  else s

/-- The semaphore whose SF a fault sets (R111, R231, R300). -/
def Done.faultSem (d : Done) : BitVec 8 := if d.inc = 0 then 0 else d.ssem

/-! ### Order log (R389) -/

/-- Place of a core, and of a quay: a record shows bits 20:0, where a quay has bit 20 set (R389), as have the cores of rows 512
and up; bit 24 keeps the two apart. -/
def placeCore (k : CoreId) : Nat := (packPos k).toNat
def placeQuay (q : Nat) : Nat := 2 ^ 24 + 2 ^ 20 + q

/-- Number the next choice at a place and, in record mode, note it; the record's bytes are written to the log's segment
by `State.logTo` (Machine/Translate.lean). -/
def PartCtx.nextSeq (c : PartCtx) (place : Nat) : Nat := (mget c.seqs place).getD 0
def PartCtx.bumpSeq (c : PartCtx) (place : Nat) : PartCtx :=
  { c with seqs := mset c.seqs place (c.nextSeq place + 1), due := c.due.filter fun e => e.1 != place }

/-- A choice presented at a place calls for a stop (R390); what may yet come right does not undo one that is certain. -/
def PartCtx.noteDue (c : PartCtx) (place reason : Nat) : PartCtx :=
  if reason = 4 ∧ (mget c.due place).isSome then c else { c with due := mset c.due place reason }

/-! ### Retirement (R78, R68) -/

/-- R78: the counters and the next head after the instruction at `pc`, whose successor is `next`. -/
def loopEnd (lc : Vector LoopCtr 2) (pc next : Word) : Vector LoopCtr 2 × Word :=
  let l0 := lc[0]
  let l1 := lc[1]
  if pc = l1.fin ∧ l1.value ≠ 0 ∧ pc = l0.fin ∧ l0.value ≠ 0 then
    if l1.value - 1 ≠ 0 then (lc.set 1 { l1 with value := l1.value - 1 }, l1.start)
    else
      let lc' := (lc.set 1 { l1 with value := l1.count }).set 0 { l0 with value := l0.value - 1 }
      if l0.value - 1 ≠ 0 then (lc', l0.start) else (lc', next)
  else
    let (lc1, n1) :=
      if pc = l1.fin ∧ l1.value ≠ 0 then
        (lc.set 1 { l1 with value := l1.value - 1 }, if l1.value - 1 ≠ 0 then l1.start else next)
      else (lc, next)
    if pc = l0.fin ∧ l0.value ≠ 0 then
      (lc1.set 0 { l0 with value := l0.value - 1 }, if l0.value - 1 ≠ 0 then l0.start else n1)
    else (lc1, n1)

/-- A follower that executes forwarded heads: attached, or about to be when its own LACE retires (R79). -/
def LaceSt.follows (l : LaceSt) : Bool := l.code == .attached || (l.code == .binding && l.result.isSome)

/-- The attached followers of a lace leader (R81). -/
def State.followers (s : State) (k : CoreId) (sl : Fin 4) : List (CoreId × Fin 4) :=
  let w := (s.slot k sl).lace.w.toNat
  (List.range w).flatMap fun i =>
    if i = 0 then [] else
    ((List.finRange 4).filter fun n =>
      let l := (s.slot (k + i) n).lace
      l.leadCore == k && l.leadSlot == sl && l.follows).map fun n => (k + i, n)

/-- The leader forwards a head it has executed to every attached follower (R81, R82). -/
def State.forward (s : State) (k : CoreId) (sl : Fin 4) (pc target : Word) : State :=
  let c := (s.slot k sl).lace.code
  if c = .leader ∨ c = .leaderWait then
    { s with laces := s.laces ++ (s.followers k sl).map fun f =>
        ⟨f.1, f.2, ⟨s.cur.head, s.cur.tail, pc, s.cur.next, target⟩⟩ }
  else s

/-- An attached follower that has executed a forwarded head drops it from its buffer, and detaches where its own next
program counter differs from the leader's (R82). -/
def Slot.popHead (x : Slot) (pc : Word) : Slot :=
  if x.lace.code = .attached ∧ x.lace.result = none then
    match x.buf with
    | [] => x
    | h :: t =>
      if h.target = pc then { x with buf := t, lace := { x.lace with joined := false } }
      else { x with buf := [], lace := { x.lace with code := .detached, joined := false } }
  else x

/-- The slot after its head: at the next head, READY and the youngest, its waits and answers used up. -/
def Slot.stepTo (x : Slot) (lc : Vector LoopCtr 2) (pc : Word) (now : Nat) : Slot :=
  Slot.popHead { x with r := { x.r with lc := lc }, pc := pc, st := .ready, wait := .none, readyAt := now, grant := none,
                        reply := none, asked := false, pastStop := false, slept := none } pc

/-- Where a head that retires goes (R78); a taken transfer leaves the counters as they are. -/
def Slot.after (x : Slot) (next : Word) (jump : Option Word) : Vector LoopCtr 2 × Word :=
  match jump with
  | some t => (x.r.lc, t)
  | none => loopEnd x.r.lc x.pc next

/-- The issuing slot's head retires: charge (R344), count (R385), loops (R78) and forwarding (R81). The slot is READY and
the youngest (R68): after every slot that became READY in the same step. -/
def State.retireHead (s : State) (cls : Fin 32) (jump : Option Word := none) : State :=
  let k := s.cur.core
  let sl := s.cur.slot
  let pc := s.me.pc
  let t := ((s.charge k sl cls).count k 2 (some sl)).modSlot k sl fun x =>
    let a := x.after s.cur.next jump
    x.stepTo a.1 a.2 (s.now + 1)
  let t := if s.me.lace.code = .attached ∧ (t.slot k sl).lace.code = .detached then t.count k 11 (some sl) else t
  t.forward k sl pc (t.slot k sl).pc

/-- A step stop at the boundary after a retired head (R381). -/
def State.stepStop (s : State) (k : CoreId) (sl : Fin 4) : State :=
  match s.stopAt k sl 2 with
  | some e => s.takeStop k sl 2 e
  | none => s

/-- RETIREMENT of the issuing slot's head. -/
def State.retire (s : State) (cls : Fin 32) (jump : Option Word := none) : State :=
  (s.retireHead cls jump).stepStop s.cur.core s.cur.slot

/-- A head waits: its slot is in WAIT (R67) and the head has not begun. -/
def State.waitFor (s : State) (w : Wait) : State := s.modMe fun x => { x with st := .wait, wait := w }

/-! ### Pending registers (R192, R249) -/

def RegWrite.reg : RegWrite → Reg
  | .g n _ => .g n
  | .c n _ => .c n
  | .v n _ _ => .v n
  | .p n _ => .p n

/-- Registers of a slot that a vector operation or a global load has yet to write. -/
def Core.pendingRegs (c : Core) (sl : Fin 4) : List Reg :=
  ((c.vops.filter (·.slot == sl)).flatMap fun o => o.writes.map RegWrite.reg) ++
  ((c.gaccs.filter fun a => a.slot == sl && !a.holds).filterMap (·.dest))

/-- A pending load whose data came back bad, for one of these registers (R249): its cause and address. -/
def Core.badLoad (c : Core) (sl : Fin 4) (rs : List Reg) : Option (BitVec 8 × Word) :=
  (c.gaccs.find? fun a => a.slot == sl && a.bad != 0 &&
    (match a.dest with | some r => rs.contains r | none => false)).map fun a => (a.bad, a.va)

/-- The bad loads of these registers are reported: they pend no longer. -/
def Core.dropBad (c : Core) (sl : Fin 4) (rs : List Reg) : Core :=
  { c with gaccs := c.gaccs.filter fun a => !(a.slot == sl && a.bad != 0 &&
      (match a.dest with | some r => rs.contains r | none => false)) }

/-- A task that is on the move issues nothing and takes no cause (R359). -/
def State.moving (s : State) (k : CoreId) (sl : Fin 4) : Bool :=
  match s.partOf k with
  | none => false
  | some p => (s.part p).moves.any fun m =>
      if m.step == .release then m.toCore == k && m.toSlot == sl else m.core == k && m.slot == sl

/-! ### The frame of an encoded instruction -/

/-- What the body of an instruction does. -/
inductive Act where
  /-- Retires and goes on at the next head. -/
  | ok (s : State)
  /-- Retires as a taken transfer. -/
  | jump (s : State) (target : Word)
  /-- Raises a synchronous cause; nothing of the instruction happens. -/
  | trap (cause : BitVec 8) (taddr : Word)
  /-- The same, with an effect that the spec gives the trapping instruction. -/
  | trapWith (f : State → State) (cause : BitVec 8) (taddr : Word)
  /-- Raises the cause of a translation fault for an access of R314. -/
  | xtrap (f : XFault) (acc : BitVec 8)
  /-- Has done a part, and goes on at a later turn of its slot, the youngest then; its channel sources stay present. -/
  | again (f : State → State)
  /-- Waits; `f` notes a request, and nothing else of the instruction happens. -/
  | wait (w : Wait) (f : State → State)
  /-- The state is whole as it stands (HALT, WAITEV, TRAP, a lace wait). -/
  | stay (s : State)

/-- What a form reads and names (R135, R157, R192): guard, G sources, all registers named, energy class (R344) and the
lowest level that may issue it (R138). -/
structure Form where
  q : Guard
  srcs : List GOp
  regs : List Reg
  cls : Fin 32
  lvl : BitVec 2 := 0

def gopReg : GOp → Reg
  | .g n => .g n
  | .c n => .c n

/-- p0 reads 0xFFFF (R29). -/
def Regs.rdP (r : Regs) (n : Fin 8) : BitVec 16 := if n = 0 then 0xFFFF else r.p[n]

/-- A scalar guard (R135). -/
def guardHolds (q : Guard) (r : Regs) : Bool := (r.rdP q.p).getLsbD 0 != q.neg

def setPres (p : BitVec 8) (n : Fin 8) (b : Bool) : BitVec 8 :=
  if b then p ||| (1#8 <<< n.val) else p &&& ~~~(1#8 <<< n.val)

/-- Channel sources that are absent (R29). -/
def Regs.absent (r : Regs) (srcs : List GOp) : Bool :=
  srcs.any fun g => match g with
    | .g _ => false
    | .c n => !r.pres.getLsbD n.val

/-- Consume channel sources (R157). -/
def Regs.consume (r : Regs) (srcs : List GOp) : Regs :=
  srcs.foldl (fun r g => match g with
    | .g _ => r
    | .c n => { r with pres := setPres r.pres n false }) r

def State.setTagErr (s : State) (k : CoreId) (t : BitVec 6) : State :=
  s.modMem k fun m => { m with tags := m.tags.set t.toFin { m.tags[t.toFin] with word := m.tags[t.toFin].word ||| (1#64 <<< 58) } }

/-- SIGEN of a tag action that is complete (R71, R23), and its event (R178). -/
def State.tagDone (s : State) (k : CoreId) (sl : Fin 4) (sigen : Bool) (sem : BitVec 8) : State :=
  let s := s.setEv k sl
  if sigen then
    match (s.core k).addSem sem 1 with
    | some c => s.setCore k c
    | none => s.defer k sl 0x0E (sem.setWidth 64)
  else s

/-- The header of a message (R253). -/
def Msg.header (m : Msg) : Word :=
  m.seq ++ BitVec.ofBool m.block ++ m.src ++ BitVec.ofNat 2 m.cls.val ++ BitVec.ofNat 4 m.payload.length ++ m.tag ++ m.dst

/-! ### Flits (R17, R369) -/

/-- CRC-16 over a byte, polynomial 0x1021, most significant bit first (R17, R221). -/
def crcByte (c : BitVec 16) (b : Byte) : BitVec 16 :=
  (List.range 8).foldl (fun c i => let x := c.getLsbD 15 != b.getLsbD (7 - i); if x then (c <<< 1) ^^^ 0x1021#16 else c <<< 1) c

/-- CRC-16 of words, data bytes 0 to 7 of each in order, from 0xFFFF (R17). -/
def crcWords (ws : List Word) : BitVec 16 :=
  ws.foldl (fun c w => (List.range 8).foldl (fun c i => crcByte c (w.extractLsb' (8 * i) 8)) c) 0xFFFF

/-- The per-hop check (R369): CRC-6 with x^6 + x + 1 from 0 over the 64 data bits and sideband bits 15:6, most significant
bit first (DESIGN CHOICE, entry 86: R369 gives no bit order). -/
def crc6 (w : Word) (side : BitVec 10) : BitVec 6 :=
  (List.range 74).foldl (fun c i =>
    let b := if i < 64 then w.getLsbD (63 - i) else side.getLsbD (73 - i)
    if c.getLsbD 5 != b then (c <<< 1) ^^^ 0x03#6 else c <<< 1) 0

/-- A flit with its sideband. -/
def wireFlit (w : Word) (kind : BitVec 2) (aux : BitVec 8) : WireFlit := ⟨w, kind ++ aux ++ crc6 w (kind ++ aux)⟩

/-- The flits of a message (R17): header, payload, and the trailer with its CRC-16. -/
def Msg.wire (m : Msg) : List WireFlit :=
  wireFlit m.header 2 0 :: m.payload.map (fun w => wireFlit w 0 0) ++
    [wireFlit ((crcWords (m.header :: m.payload)).setWidth 64) 3 0]

/-- Whether the trailer fits what stands before it (R17, R370): `err` is what happened to the data bits on the way, flit by
flit. -/
def trailerOk (l : List WireFlit) (err : Nat) : Bool :=
  let ws := l.mapIdx fun i f => f.data ^^^ BitVec.ofNat 64 (err / 2 ^ (64 * i))
  ws.getLast? == some ((crcWords ws.dropLast).setWidth 64)

/-- A link, 4 × core + direction. -/
def State.wireLink (s : State) (n : Nat) : LinkSt := (mget s.links n).getD ⟨[], false⟩

/-- Flits cross a link; its sender keeps the last 16 (R369). -/
def State.cross (s : State) (n : Nat) (l : List WireFlit) : State :=
  let x := s.wireLink n
  let q := x.sent ++ l
  { s with links := mset s.links n { x with sent := q.drop (q.length - 16) } }

/-- Routers of the route of R15, along x and then along y. -/
def routeOf (a b : CoreId) : List CoreId :=
  let line := fun (u v : Nat) => if u ≤ v then (List.range (v + 1 - u)).map fun i => u + i else (List.range (u + 1 - v)).map fun i => u - i
  (line (posX a) (posX b)).map (fun x => coreAt x (posY a)) ++ ((line (posY a) (posY b)).drop 1).map fun y => coreAt (posX b) y

/-- The link between neighbours. -/
def linkTo (a b : CoreId) : Nat :=
  4 * a + (if posY b < posY a then 0 else if posX a < posX b then 1 else if posY a < posY b then 2 else 3)

/-- The links of a route. -/
def linksOf (a b : CoreId) : List Nat :=
  let r := routeOf a b
  (r.zip (r.drop 1)).map fun p => linkTo p.1 p.2

/-- No link of a route has stopped (R369). -/
def State.routeOpen (s : State) (a b : CoreId) : Bool := (linksOf a b).all fun n => !(s.wireLink n).stopped

/-- A message's action is complete: the log of a sampled one is assembled (R387). -/
def State.acted (s : State) (k : CoreId) (m : Msg) : State :=
  match m.sample with
  | none => s
  | some b => { s with samples := s.samples ++
      [⟨s.partNum k, m.header, b, m.from_, k, BitVec.ofNat 9 m.vf ++ BitVec.ofNat 16 m.launch⟩] }

/-! ### Tags (R71) -/

def tagAction (e : Word) : Nat := (e.extractLsb' 61 3).toNat
def tagSlot (e : Word) : Fin 4 := Fin.ofNat 4 (e.extractLsb' 59 2).toNat
def tagSigen (e : Word) : Bool := e.getLsbD 57
def tagSem (e : Word) : BitVec 8 := e.extractLsb' 49 8
def tagGran (e : Word) : BitVec 12 := e.extractLsb' 0 12

/-- Whether a message on a tag can never be acted on (R73): no action, a slot outside the launch, a short INLINE. -/
def tagHopeless (c : Core) (m : Msg) : Bool :=
  let e := c.mem.tags[m.tag.toFin].word
  tagAction e == 0 || tagAction e == 7 || (match c.held with | some h => decide (h.s ≤ (tagSlot e).val) | none => true) ||
  (tagAction e == 4 && decide (m.payload.length < (e.extractLsb' 0 3).toNat))

/-- A message is discarded under R73. -/
def Core.tagErr (c : Core) (t : BitVec 6) : Core :=
  let x := c.mem.tags[t.toFin]
  { c with mem := { c.mem with tags := c.mem.tags.set t.toFin { x with word := x.word ||| (1#64 <<< 58) } } }

/-- A queue held by a handler (R70). -/
def Core.queueHeld (c : Core) (q : Fin 4) : Bool :=
  match c.handler with
  | some h => h.msg.cls == q
  | none => false

/-- Discard the heads of a class queue that can never be acted on (R73). -/
def Core.settleQueue (c : Core) (q : Fin 4) : Nat → Core
  | 0 => c
  | fuel + 1 =>
    match c.arr[q] with
    | [] => c
    | m :: l =>
      if m.kind == .plain && tagHopeless c m then
        Core.settleQueue (Core.tagErr { c with arr := c.arr.set q l } m.tag) q fuel
      else c

/-- Both tagged class queues, unless a handler holds one. -/
def Core.settle (c : Core) : Core :=
  [(0 : Fin 4), 1].foldl (fun c q => if c.queueHeld q then c else c.settleQueue q c.arr[q].length) c

def State.settleTags (s : State) (k : CoreId) : State := s.modCore k Core.settle

/-- A handler leaves the core, and its message the head of its queue; what stands behind it is looked at (R73). -/
def State.handlerEnd (s : State) (k : CoreId) (h : Handler) : State :=
  (s.modCore k fun c =>
    Core.settle { c with handler := none, handlerDone := true,
                         arr := c.arr.set h.msg.cls (c.arr[h.msg.cls].drop 1) }).acted k h.msg

/-- A handler is abandoned (R76). -/
def State.handlerFail (s : State) (k : CoreId) (h : Handler) (cause : BitVec 8) (taddr : Word) : State :=
  ((s.setTagErr k h.tag).handlerEnd k h).defer k h.slot cause taddr true

/-- A handler's head is done (R74, R76). -/
def State.handlerNext (s : State) (k : CoreId) (h : Handler) : State :=
  let s := (s.charge k h.slot 28).count k 2 (some h.slot)
  if h.next + 1 < lineHC h.line then
    s.modCore k fun c => { c with handler := c.handler.map fun h => { h with next := h.next + 1 } }
  else (s.handlerEnd k h).tagDone k h.slot h.sigen h.sem

/-- The end of an encoded instruction, from its body's act; `s` is the state in which it issued. -/
def finish (s : State) (cls : Fin 32) (a : Act) : State :=
  let k := s.cur.core
  if s.cur.inline then
    match (s.core k).handler, a with
    | none, _ => s
    | some h, .ok s' => s'.handlerNext k h
    | some h, .jump s' _ => s'.handlerNext k h
    | some h, .trap c t => s.handlerFail k h c t
    | some h, .trapWith f c t => (f s).handlerFail k h c t
    | some h, .xtrap f _ => s.handlerFail k h f.cause f.va
    | some _, .wait _ _ => s
    | some _, .again f => f s
    | some _, .stay s' => s'
  else
    match a with
    | .ok s' => s'.retire cls
    | .jump s' t => s'.retire (if cls = 1 then 4 else cls) (some t)
    | .trap c t => s.takeTrap k s.cur.slot c t
    | .trapWith f c t => (f s).takeTrap k s.cur.slot c t
    | .xtrap f acc => s.takeTrap k s.cur.slot f.cause f.va (xf := some (f, acc))
    | .wait w f => (f s).waitFor w
    | .again f => (f s).modSlot k s.cur.slot fun x => { x with readyAt := s.now + 1 }
    | .stay s' => s'

/-- The head of the issuing context, as TADDR reports it (R295). -/
def State.headWord (s : State) : Word := s.cur.head.setWidth 64

/-- THE FRAME OF AN ENCODED INSTRUCTION: its level (R138), its guard (R135), registers still pending (R192, R249), absent
channel sources (R29), then its body over the state with the channel sources consumed (R157). In the handler context
the head has been checked when it was fetched (R75), and only its body is run. -/
def issue (f : Form) (body : State → Act) (s : State) : Host.Outcome State Fault Refusal :=
  if s.cur.inline then .next (finish s f.cls (body s))
  else
    let k := s.cur.core
    let sl := s.cur.slot
    let x := s.me
    if (lvlOf x).toNat < f.lvl.toNat then .next (s.takeTrap k sl 0x04 s.headWord)
    else if ((s.core k).pendingRegs sl).contains (.p f.q.p) then .next (s.waitFor .pendingReg)
    else if !guardHolds f.q x.r then .next (s.retire 0)
    else match (s.core k).badLoad sl f.regs with
      | some b => .next ((s.takeTrap k sl b.1 b.2).modCore k fun c => c.dropBad sl f.regs)
      | none =>
        if f.regs.any fun r => ((s.core k).pendingRegs sl).contains r then .next (s.waitFor .pendingReg)
        else if x.r.absent f.srcs then .next (s.waitFor .channel)
        else .next (finish s f.cls (body (s.modMe fun x => { x with r := x.r.consume f.srcs })))

/-- The end of an event: where it cannot happen, as its rules have it, nothing does (`none`). -/
def event (s : State) (r : Option State) : Host.Outcome State Fault Refusal := .next (r.getD s)

end Sys2Proof.Machine
end

