-- ==== Sys2Proof/Machine/Flags.lean ====
section
/-! DEFINITION. The sticky flags of R53 and the integer operations that set or read them (R61, R156, R158 to R162). -/

namespace Sys2Proof.Machine

def flagNX : BitVec 8 := 0x01
def flagUF : BitVec 8 := 0x02
def flagOF : BitVec 8 := 0x04
def flagDZ : BitVec 8 := 0x08
def flagNV : BitVec 8 := 0x10
def flagNF : BitVec 8 := 0x20
def flagBSAT : BitVec 8 := 0x40
def flagAOV : BitVec 8 := 0x80

/-- OR flags into a slot's word (R53, R55). -/
def State.setFlags (s : State) (k : CoreId) (sl : Fin 4) (f : BitVec 8) : State :=
  if f = 0 then s else s.modRegs k sl fun r => { r with flags := r.flags ||| f }

def State.setMyFlags (s : State) (f : BitVec 8) : State := s.setFlags s.cur.core s.cur.slot f

/-! ### Integer widths (R156) -/

def tyWidth : IntTy → Nat
  | .i64 => 64 | .i32 => 32 | .i16 => 16 | .i8 => 8 | .n64 => 64 | .n32 => 32 | .n16 => 16 | .n8 => 8

def tySigned : IntTy → Bool
  | .i64 => true | .i32 => true | .i16 => true | .i8 => true | _ => false

/-- The low `w` bits of a word as an unsigned number. -/
def patOf (w : Nat) (x : Word) : Nat := x.toNat % 2 ^ w

/-- `get` of R156: the value of a register at a type. -/
def getTy (t : IntTy) (x : Word) : Int :=
  let w := tyWidth t
  let u := patOf w x
  if tySigned t ∧ 2 ^ (w - 1) ≤ u then (u : Int) - 2 ^ w else u

/-- `put` of R156: the low bits of an exact value, extended to 64 by the type. -/
def putTy (t : IntTy) (v : Int) : Word :=
  let w := tyWidth t
  let u := (v % (2 ^ w : Int)).toNat
  if tySigned t ∧ 2 ^ (w - 1) ≤ u then BitVec.ofInt 64 ((u : Int) - 2 ^ w) else BitVec.ofNat 64 u

/-- `immx` of R156 for a type; class Z extends as signed. -/
def immTy (t : IntTy) : Imm → Word
  | .i16 v => if tySigned t then v.signExtend 64 else v.setWidth 64
  | .i32 v => if tySigned t then v.signExtend 64 else v.setWidth 64

def immZ : Imm → Word
  | .i16 v => v.signExtend 64
  | .i32 v => v.signExtend 64

/-! ### Two-source operations (R158) -/

/-- The operations of OP 0x04 to 0x11 and 0x13. -/
inductive AluOp where
  | add | sub | mul | mulh | div | rem | and | or | xor | andn | shl | shr | sar | rot | min | max
  deriving DecidableEq, Repr

/-- Shift count of R158: the low log2(w) bits. -/
def shiftCount (w : Nat) (b : Word) : Nat := b.toNat % w

/-- The value `v` of R158 before `put`, and whether DZ is set (R159). -/
def aluVal (op : AluOp) (t : IntTy) (x y : Word) : Int × Bool :=
  let w := tyWidth t
  let a := getTy t x
  let b := getTy t y
  let ua := patOf w x
  let n := shiftCount w y
  match op with
  | .add => (a + b, false)
  | .sub => (a - b, false)
  | .mul => (a * b, false)
  | .mulh => (Int.fdiv (a * b) (2 ^ w), false)
  | .div => if b = 0 then (2 ^ w - 1, true) else (Int.tdiv a b, false)
  | .rem => if b = 0 then (a, true) else (a - b * Int.tdiv a b, false)
  | .and => ((x &&& y).toNat % 2 ^ w, false)
  | .or => ((x ||| y).toNat % 2 ^ w, false)
  | .xor => ((x ^^^ y).toNat % 2 ^ w, false)
  | .andn => ((x &&& ~~~y).toNat % 2 ^ w, false)
  | .shl => (ua * 2 ^ n, false)
  | .shr => (ua / 2 ^ n, false)
  | .sar => (Int.fdiv (if 2 ^ (w - 1) ≤ ua then (ua : Int) - 2 ^ w else ua) (2 ^ n), false)
  | .rot => (ua / 2 ^ n + (ua % 2 ^ n) * 2 ^ (w - n), false)
  | .min => (if a ≤ b then a else b, false)
  | .max => (if a ≥ b then a else b, false)

/-! ### One-source operations (R160) -/

/-- Leading zeros of a `w`-bit pattern. -/
def clzNat (u : Nat) : Nat → Nat
  | 0 => 0
  | w + 1 => if u.testBit w then 0 else 1 + clzNat u w

/-- Trailing zeros of a pattern, counted up to `w`. -/
def ctzNat (u : Nat) : Nat → Nat
  | 0 => 0
  | w + 1 => if u % 2 = 1 then 0 else 1 + ctzNat (u / 2) w

/-- One bits among the low `w`. -/
def popNat (u : Nat) : Nat → Nat
  | 0 => 0
  | w + 1 => u % 2 + popNat (u / 2) w

inductive UnOp where | clz | ctz | popc | abs | neg | ext
  deriving DecidableEq, Repr

def unVal (op : UnOp) (t : IntTy) (x : Word) : Word :=
  let w := tyWidth t
  let a := getTy t x
  let ua := patOf w x
  match op with
  | .clz => BitVec.ofNat 64 (clzNat ua w)
  | .ctz => BitVec.ofNat 64 (ctzNat ua w)
  | .popc => BitVec.ofNat 64 (popNat ua w)
  | .abs => putTy t (if a < 0 then -a else a)
  | .neg => putTy t (-a)
  | .ext => putTy t a

/-- The conditions of R162. -/
def condInt (c : Cond) (a b : Int) : Bool :=
  match c with
  | .eq => a == b
  | .ne => a != b
  | .lt => a < b
  | .le => a ≤ b
  | .gt => a > b
  | .ge => a ≥ b

/-- A predicate value (R162). -/
def predOf (b : Bool) : BitVec 16 := if b then 0xFFFF else 0

end Sys2Proof.Machine
end

