-- ==== Sys2Proof/Machine/Operands.lean ====
section
/-! DEFINITION. Operand forms: G, P and V operands of the issuing context (R29, R75, R137, R157), second sources and
immediates (R156), memory operands (R242), code pointers (R132, R169) and their checks. -/

namespace Sys2Proof.Machine

/-! ### General and channel registers -/

/-- g0 reads 0 (R29). -/
def Regs.rdG (r : Regs) (n : Fin 32) : Word := if n = 0 then 0 else r.g[n]

/-- A write to g0 is discarded (R29). -/
def Regs.wrG (r : Regs) (n : Fin 32) (v : Word) : Regs := if n = 0 then r else { r with g := r.g.set n v }

/-- A channel destination receives the value and its presence is set (R157). -/
def Regs.wrC (r : Regs) (n : Fin 8) (v : Word) : Regs := { r with c := r.c.set n v, pres := setPres r.pres n true }

/-- A write to p0 is discarded (R29). -/
def Regs.wrP (r : Regs) (n : Fin 8) (v : BitVec 16) : Regs := if n = 0 then r else { r with p := r.p.set n v }

def Regs.wrOp (r : Regs) (d : GOp) (v : Word) : Regs :=
  match d with
  | .g n => r.wrG n v
  | .c n => r.wrC n v

def Regs.rdOp (r : Regs) (d : GOp) : Word :=
  match d with
  | .g n => r.rdG n
  | .c n => r.c[n]

/-- m0 to m7 of the handler context (R75). -/
def State.rdM (s : State) (n : Fin 32) : Word :=
  match (s.core s.cur.core).handler with
  | some h => if hn : n.val < 8 then h.m[n.val] else 0
  | none => 0

def State.wrM (s : State) (n : Fin 32) (v : Word) : State :=
  s.modCore s.cur.core fun c => { c with handler := c.handler.map fun h =>
    if hn : n.val < 8 then { h with m := h.m.set n.val v } else h }

/-- Reading a G operand in the issuing context. -/
def State.rd (s : State) (g : GOp) : Word :=
  match g with
  | .g n => if s.cur.inline then s.rdM n else s.me.r.rdG n
  | .c n => s.me.r.c[n]

/-- Writing a G operand in the issuing context. -/
def State.wr (s : State) (d : GOp) (v : Word) : State :=
  match d with
  | .g n => if s.cur.inline then s.wrM n v else s.modRegs s.cur.core s.cur.slot fun r => r.wrG n v
  | .c n => s.modRegs s.cur.core s.cur.slot fun r => r.wrC n v

def State.wrPred (s : State) (n : Fin 8) (v : BitVec 16) : State :=
  s.modRegs s.cur.core s.cur.slot fun r => r.wrP n v

/-- STACK_LIMIT: whether writing `v` to `d` is refused (R103). -/
def State.slimRefuses (s : State) (d : GOp) (v : Word) : Bool :=
  !s.cur.inline && d == .g 2 && decide (v < s.me.t.slim)

/-- A handler's write to a channel waits until its presence is clear (R75). -/
def State.chanBusy (s : State) (d : GOp) : Bool :=
  s.cur.inline && (match d with | .g _ => false | .c n => s.me.r.pres.getLsbD n.val)

/-- Write a G destination, with STACK_LIMIT before the write (R103), then `k`. -/
def writeG (s : State) (d : GOp) (v : Word) (k : State → Act := .ok) : Act :=
  if s.slimRefuses d v then .trap 0x0B v
  else if s.chanBusy d then .wait .channel id
  else k (s.wr d v)

/-- The G sources and registers of a second source. -/
def srcOps : Src → List GOp
  | .reg r => [r]
  | .imm _ => []

def r16Ops : R16 → List GOp
  | .reg r => [r]
  | .imm _ => []

def srcRegs (b : Src) : List Reg := (srcOps b).map gopReg

/-- A second source at an integer type (R158). -/
def State.src (s : State) (t : IntTy) : Src → Word
  | .reg r => s.rd r
  | .imm v => immTy t v

/-- A register, or imm16 zero-extended. -/
def State.r16 (s : State) : R16 → Word
  | .reg r => s.rd r
  | .imm v => v.setWidth 64

/-! ### Forms -/

def mkForm (q : Guard) (cls : Fin 32) (srcs : List GOp) (dsts : List GOp) (extra : List Reg := [])
    (lvl : BitVec 2 := 0) : Form :=
  { q := q, srcs := srcs, regs := (srcs ++ dsts).map gopReg ++ extra, cls := cls, lvl := lvl }

/-! ### Memory operands (R242) -/

def State.ea (s : State) (a : GOp) : Src → Word
  | .reg r => addOff (s.rd a) (s.rd r)
  | .imm v => addOff (s.rd a) (immZ v)

def State.ea16 (s : State) (a : GOp) : R16 → Word
  | .reg r => addOff (s.rd a) (s.rd r)
  | .imm v => addOff (s.rd a) (v.signExtend 64)

def State.eaOpt (s : State) (a : GOp) : Option (BitVec 16) → Word
  | none => addOff (s.rd a) 0
  | some v => addOff (s.rd a) (v.signExtend 64)

def aligned (a : Word) (n : Nat) : Bool := a.toNat % n == 0

/-- Window, then alignment, of a local access (R96, R97, R242). -/
def localCheck (a : Word) (n : Nat) (k : Nat → Act) : Act :=
  if !isLocal a then .trap 0x0A a
  else if !aligned a n then .trap 0x07 a
  else k (offOf a)

/-! ### SRAM with its error codes (R372) -/

/-- The words an access touches. -/
def wordsOf (o n : Nat) : List Nat := (List.range ((o + n + 7) / 8 - o / 8)).map fun i => o / 8 + i

/-- An uncorrectable word in `n` bytes from `o`: its offset. -/
def Core.badWord (c : Core) (o n : Nat) : Option Nat :=
  if c.regs.ue.isEmpty then none else ((wordsOf o n).find? fun w => c.regs.ue.contains (8 * w)).map (8 * ·)

/-- A read corrects single-bit errors and counts them (R372), for the slot that reads (R385). -/
def Core.correct (c : Core) (o n : Nat) (sl : Option (Fin 4) := none) : Core :=
  if c.regs.ce.isEmpty then c
  else
    let hit := (wordsOf o n).filter fun w => c.regs.ce.contains (8 * w)
    let cnt := Nat.min 65535 ((c.regs.eccstat.extractLsb' 48 16).toNat + hit.length)
    { c with regs := { c.regs with
        ce := c.regs.ce.filter fun o => !hit.contains (o / 8),
        eccstat := BitVec.ofNat 16 cnt ++ c.regs.eccstat.extractLsb' 0 48,
        corrected := c.regs.corrected ++ hit.map (8 * ·),
        bank := c.regs.bank.count 13 sl hit.length } }

/-- A store of whole words removes their errors (R372). -/
def Core.overwrite (c : Core) (o n : Nat) : Core :=
  if c.regs.ue.isEmpty && c.regs.ce.isEmpty then c
  else
    let whole := (wordsOf o n).filter fun w => o ≤ 8 * w && 8 * w + 8 ≤ o + n
    { c with regs := { c.regs with
        ce := c.regs.ce.filter fun x => !whole.contains (x / 8), ue := c.regs.ue.filter fun x => !whole.contains (x / 8) } }

/-- A store of `n` bytes (R372): whole words lose their errors; a word stored in part is read first, which corrects it and counts
it, or finds it uncorrectable, and it stays so (DEDUCED, entry 91). -/
def Core.storing (c : Core) (o n : Nat) (sl : Option (Fin 4) := none) : Core :=
  let c := (c.overwrite o n).correct o n sl
  match c.badWord o n with
  | some w => { c with regs := c.regs.noteUE w }
  | none => c

/-- The same for a store of 64 bytes under a mask of bytes in which whole 32-bit lanes are set. -/
def Core.storingLanes (c : Core) (o : Nat) (m : BitVec 16) (sl : Option (Fin 4)) : Core :=
  (List.range 8).foldl (fun c i =>
    match m.getLsbD (2 * i), m.getLsbD (2 * i + 1) with
    | true, true => c.storing (o + 8 * i) 8 sl
    | true, false => c.storing (o + 8 * i) 4 sl
    | false, true => c.storing (o + 8 * i + 4) 4 sl
    | false, false => c) c

def State.sramLE (s : State) (k : CoreId) (o n : Nat) : Nat := (s.core k).mem.sram.readLE o n

def State.sramPut (s : State) (k : CoreId) (o n v : Nat) (sl : Option (Fin 4) := none) : State :=
  s.modCore k fun c => { c.storing o n sl with mem := { c.mem with sram := c.mem.sram.writeLE o n v } }

/-- A local read of `n` bytes: UNCORRECTABLE at the instruction (R243, R372), else the value. -/
def readLocal (s : State) (o n : Nat) (k : State → Nat → Act) : Act :=
  match (s.core s.cur.core).badWord o n with
  | some w => .trap 0x0F (localAddr w)
  | none => k (s.modCore s.cur.core fun c => c.correct o n (some s.cur.slot)) (s.sramLE s.cur.core o n)

/-- Full/empty bits (R20). -/
def getFull (f : BitVec 4096) (g : Nat) : Bool := f.getLsbD g
def setFullRun (f : BitVec 4096) (g n : Nat) (b : Bool) : BitVec 4096 :=
  let m : BitVec 4096 := (BitVec.allOnes 4096 >>> (4096 - n)) <<< g
  if b then f ||| m else f &&& ~~~m

def State.setFull (s : State) (k : CoreId) (g n : Nat) (b : Bool) : State :=
  s.modMem k fun m => { m with full := setFullRun m.full g n b }

/-! ### Code pointers (R132, R169) -/

def cpSlot (p : Word) : Nat := (p.extractLsb' 0 5).toNat
/-- The address of the line a code pointer names. -/
def cpLine (p : Word) : Word := p &&& ~~~0x3F#64
/-- Reserved bits and SLOT = 31. -/
def cpBad (p : Word) : Bool := p.extractLsb' 60 4 != 0#4 || p.getLsbD 5 || cpSlot p == 31
/-- A branch target (R169). -/
def branchTarget (pc : Word) (off : BitVec 32) : Word :=
  let line : BitVec 54 := pc.extractLsb' 6 54 + (off.extractLsb' 5 27).signExtend 54
  0#4 ++ line ++ 0#1 ++ off.extractLsb' 0 5

/-! ### Frames (R21) -/

/-- The resident frame that holds a line. -/
def CoreMem.frameOf (m : CoreMem) (p : Word) : Option (Fin 16) :=
  (List.finRange 16).find? fun i => m.frames[i].tag == some (p.extractLsb' 11 49)

def CoreMem.lineAt (m : CoreMem) (p : Word) : Option Line :=
  (m.frameOf p).map fun i => m.frames[i].lines[(p.extractLsb' 6 5).toFin]

/-- The head that follows a head of a line (R132). -/
def nextHead (l : Line) (p : Word) : Word :=
  if cpSlot p + 1 < lineHC l then p + 1 else cpLine p + 64

/-! ### Vector registers -/

def State.rdV (s : State) (n : Fin 16) : VWord := s.me.r.v[n]
def State.rdH (s : State) (n : Fin 16) : BitVec 128 := s.me.r.hdr[n]
def Regs.wrV (r : Regs) (n : Fin 16) (x : VWord) (h : BitVec 128) : Regs :=
  { r with v := r.v.set n x, hdr := r.hdr.set n h }
def State.wrV (s : State) (n : Fin 16) (x : VWord) (h : BitVec 128) : State :=
  s.modRegs s.cur.core s.cur.slot fun r => r.wrV n x h

end Sys2Proof.Machine
end

