-- ==== Sys2Proof/Machine/Select.lean ====
section
/-! DEFINITION. The slot that TSEL selects, and the way of a SYS access to its core and back (R294, R303). -/

namespace Sys2Proof.Machine

/-- TSEL's slot, when VALID and on a core of the issuer's partition (R294, R303). -/
def State.selOf (s : State) (k : CoreId) (tsel : Word) : Option (CoreId × Fin 4) :=
  if !tsel.getLsbD 31 then none
  else match unpackPos (tsel.extractLsb' 0 21) with
    | none => none
    | some t =>
      if (s.partOf k).isSome && s.partOf t == s.partOf k then some (t, Fin.ofNat 4 (tsel.extractLsb' 21 2).toNat) else none

def State.selected (s : State) : Option (CoreId × Fin 4) := s.selOf s.cur.core s.me.t.tsel

/-- What a SYS access does at its target. -/
inductive SysRes where
  | ok (s : State) (v : Word)
  | trap (cause : BitVec 8) (taddr : Word)
  | fault (f : XFault)
  /-- Not yet (CTXSV waits for the slot's commands, R304). -/
  | later

/-- Run an access on a core: at once on the issuing core; else the issuer waits while it travels in class 3 to the target
and back (R303). -/
def viaTarget (s : State) (i : Instr) (tk : CoreId) (a b : Word) (acc : State → SysRes) (k : State → Word → Act)
    (xacc : BitVec 8 := 6) : Act :=
  if tk = s.cur.core then
    match acc s with
    | .ok s v => k s v
    | .trap c t => .trap c t
    | .fault f => .xtrap f xacc
    | .later => .wait .commands id
  else
    match s.me.reply with
    | some (.value v) => k s v
    | some (.trap c t) => .trap c t
    | some (.fault f) => .xtrap f xacc
    | _ => .wait .reply fun s =>
      if s.me.asked then s
      else
        let q : SysAcc := ⟨s.cur.core, s.cur.slot, i, s.me.t.tsel, a, b, s.me.pc⟩
        State.modMe { s with sys := s.sys ++ [q] } fun x => { x with asked := true }

/-- ERET at its target (R182, R303): the slot must be TRAPPED. -/
def accEret (tsel : Word) (tk : CoreId) (tsl : Fin 4) (s : State) : SysRes :=
  if (s.slot tk tsl).st = .trapped then .ok (s.modSlot tk tsl fun x => x.resume s.now) 0 else .trap 0x09 tsel

end Sys2Proof.Machine
end

