-- ==== Sys2Proof/Machine/Control.lean ====
section
/-! DEFINITION. Transfers, loops, slot control, traps from the program, address tests, clock and meter: OP 0x01 to 0x03
and 0x20 to 0x2F (06 R169 to R186), and the events EVENT_WAKE and DEFERRED_CAUSE_TAKE. -/

namespace Sys2Proof.Machine

/-- The head that follows in the call's line, as a code pointer (R132, R170). -/
def State.link (s : State) : Word := s.cur.next

/-- BR (R170). -/
def execBr (off : BitVec 32) (s : State) : Host.Outcome State Fault Refusal :=
  issue (mkForm Guard.always 1 [] []) (fun s => .jump s (branchTarget s.me.pc off)) s

/-- BRP (R170): a transfer under its guard. -/
def execBrp (q : Guard) (off : BitVec 32) (s : State) : Host.Outcome State Fault Refusal :=
  issue (mkForm q 1 [] []) (fun s => .jump s (branchTarget s.me.pc off)) s

/-- BCMP (R171): gD is compared with gA. -/
def execBcmp (x : BcmpF) (s : State) : Host.Outcome State Fault Refusal :=
  issue (mkForm x.q 1 [x.d, x.a] [])
    (fun s => if condInt x.cond (getTy x.t (s.rd x.d)) (getTy x.t (s.rd x.a)) then .jump s (branchTarget s.me.pc x.off)
              else .ok s) s

/-- CALL (R170): g1 := the head that follows. -/
def execCall (off : BitVec 32) (s : State) : Host.Outcome State Fault Refusal :=
  issue (mkForm Guard.always 1 [] [.g 1])
    (fun s => .jump (s.wr (.g 1) s.link) (branchTarget s.me.pc off)) s

/-- A transfer to a pointer in a register: ILLEGAL_LINE on a malformed one (R172). -/
def jumpTo (p : Word) (s : State) : Act := if cpBad p then .trap 0x01 p else .jump s p

/-- CALLI (R172): reads gA before it writes g1. -/
def execCalli (x : G1) (s : State) : Host.Outcome State Fault Refusal :=
  issue (mkForm x.q 1 [x.a] [.g 1]) (fun s => jumpTo (s.rd x.a) (s.wr (.g 1) s.link)) s

/-- RET (R172): through g1. -/
def execRet (s : State) : Host.Outcome State Fault Refusal :=
  issue (mkForm Guard.always 1 [.g 1] []) (fun s => jumpTo (s.rd (.g 1)) s) s

/-- The register of RET gA: A = 0 names g1 (R155, R172). -/
def retSrc (a : GOp) : GOp := if a = .g 0 then .g 1 else a

/-- RET gA (R172). -/
def execRetReg (x : G1) (s : State) : Host.Outcome State Fault Refusal :=
  issue (mkForm x.q 1 [retSrc x.a] []) (fun s => jumpTo (s.rd (retSrc x.a)) s) s

/-- JMPI (R172). -/
def execJmpi (x : G1) (s : State) : Host.Outcome State Fault Refusal :=
  issue (mkForm x.q 1 [x.a] []) (fun s => jumpTo (s.rd x.a) s) s

/-- A counter loaded by LOOP (R174). -/
def State.setLc (s : State) (ctr : Fin 2) (v : LoopCtr) : State :=
  s.modMe fun x => { x with r := { x.r with lc := x.r.lc.set ctr v } }

/-- LOOP (R174, R77): arms a counter, or with a count of 0 goes to the head after the end. -/
def loopAct (ctr : Fin 2) (d : GOp) (off : BitVec 32) (s : State) : Act :=
  let c := (s.rd d).extractLsb' 0 32
  let fin := branchTarget s.me.pc off
  let start := s.cur.next
  if fin < start then .trap 0x03 s.headWord
  else if c ≠ 0 then .ok (s.setLc ctr ⟨c, c, start, fin⟩)
  else match (s.core s.cur.core).mem.lineAt fin with
    | none => .trap 0x0C (cpLine fin)
    | some l =>
      if !lineLegal 512 l || lineHC l ≤ cpSlot fin then .trap 0x01 fin
      else .jump (s.setLc ctr ⟨c, c, start, fin⟩) (nextHead l fin)

/-- LOOP (R174). -/
def execLoop (ctr : Fin 2) (d : GOp) (off : BitVec 32) (s : State) : Host.Outcome State Fault Refusal :=
  issue (mkForm Guard.always 1 [d] []) (loopAct ctr d off) s

/-- YIELD (R176): retires, the youngest among the READY slots. -/
def execYield (s : State) : Host.Outcome State Fault Refusal := issue (mkForm Guard.always 0 [] []) .ok s

/-- Step 2 of R69: the slot's tiles and its claim on the scan unit are released; their values stay. -/
def Units.release (u : Units) (sl : Fin 4) : Units :=
  { u with tiles := u.tiles.map fun t => if t.owner = some sl then { t with owner := none } else t,
           scanOwner := if u.scanOwner = some sl then none else u.scanOwner }

/-- Step 3 of R69: a withdrawal for each valid membership. -/
def State.withdraw (s : State) (k : CoreId) (sl : Fin 4) : State :=
  match s.partOf k with
  | none => s
  | some p =>
    let x := s.slot k sl
    let ws := (x.r.gm.toList.filter fun g => g.getLsbD 63).map fun g =>
      HubMsg.withdraw (g.extractLsb' 0 8).toNat (gtidRank x.gtid) (gtidLaunch x.gtid)
    s.modCtx p fun c => { c with hub := c.hub ++ ws }

/-- The lace state of a slot that leaves by UNLACE, HALT or a move: SOLO, and no longer to be told of a loss (DEDUCED, entry 95:
the last sentence of R84 is about followers that have timed out); a slot in no lace keeps what it has to be told (R272). -/
def LaceSt.left (l : LaceSt) : LaceSt :=
  { LaceSt.solo with lost := l.lost && (l.code == .solo || l.code == .binding) }

/-- Heads on the wire to a slot are discarded (R82). -/
def State.dropWire (s : State) (m : CoreId × Fin 4) : State :=
  { s with laces := s.laces.filter fun f => !(f.core == m.1 && f.slot == m.2) }

/-- The end of a slot's lace membership (R85). A leader's lace dissolves: members waiting or detached are SOLO, and a
RELACE that one of them waits at returns 0 (DESIGN CHOICE, entry 85: R84 has no row for it); attached followers still have
the heads forwarded to them, and are SOLO when they have executed them. -/
def State.endLace (s : State) (k : CoreId) (sl : Fin 4) : State :=
  let l := (s.slot k sl).lace
  let s := (s.modSlot k sl fun x => { x with lace := x.lace.left, buf := [] }).dropWire (k, sl)
  if l.code = .leader ∨ l.code = .leaderWait then
    (List.range l.w.toNat).foldl (fun s i =>
      if i = 0 then s else
      (List.finRange 4).foldl (fun s n =>
        let m := (s.slot (k + i) n).lace
        if m.leadCore = k ∧ m.leadSlot = sl ∧ m.code = .detached then
          s.modSlot (k + i) n fun x => { x with lace := LaceSt.solo }
        else if m.leadCore = k ∧ m.leadSlot = sl ∧ m.code = .rejoining then
          s.modSlot (k + i) n fun x => { x with lace := { m with code := .solo, result := some 0 } }
        else s) s) s
  else s

/-- HALT (R69, R177): channel words discarded, claims released, memberships withdrawn, the lace membership ended; the
slot is HALTING until its last command completes. -/
def haltAct (s : State) : State :=
  let k := s.cur.core
  let sl := s.cur.slot
  let s := s.retireHead 1
  let s := s.modSlot k sl fun x => { x with st := .halting, r := { x.r with c := Vector.replicate 8 0, pres := 0 } }
  let s := (s.modUnits k fun u => u.release sl).withdraw k sl
  (s.endLace k sl).settleHalt k sl

/-- HALT (R177). -/
def execHalt (s : State) : Host.Outcome State Fault Refusal :=
  issue (mkForm Guard.always 1 [] []) (fun s => .stay (haltAct s)) s

/-- BKPT (R181): a stop that a debug session has armed (R381), else BREAK with the code. -/
def execBkpt (code : BitVec 6) (s : State) : Host.Outcome State Fault Refusal :=
  issue (mkForm Guard.always 1 [] [])
    (fun s => match s.stopAt s.cur.core s.cur.slot 0 with
      | some e => .stay (s.takeStop s.cur.core s.cur.slot 0 e)
      | none => .trap 0x11 (code.setWidth 64)) s

/-- TRAP (R180): retires, then raises 0x10 with TPC at the head after it. -/
def execTrap (code : BitVec 6) (s : State) : Host.Outcome State Fault Refusal :=
  issue (mkForm Guard.always 1 [] [])
    (fun s => .stay ((s.retireHead 1).takeTrap s.cur.core s.cur.slot 0x10 (code.setWidth 64))) s

/-- ERET (R182): resumes the slot that TSEL names; ACCESS where it names none that is TRAPPED in the partition. -/
def execEret (s : State) : Host.Outcome State Fault Refusal :=
  issue (mkForm Guard.always 29 [] [] [] 1)
    (fun s => match s.selected with
      | none => .trap 0x09 s.me.t.tsel
      | some (tk, tsl) => viaTarget s .eret tk 0 0 (accEret s.me.t.tsel tk tsl) fun s _ => .ok s) s

/-- WAITEV (R179): samples and clears EV, or sleeps. -/
def waitevAct (s : State) : Act :=
  if s.me.ev then .ok (s.modMe fun x => { x with ev := false })
  else .stay (s.modMe fun x => { x with st := .sleep, wait := .none, slept := some (s.cur.head, s.cur.tail, s.cur.next) })

/-- WAITEV (R179). -/
def execWaitev (s : State) : Host.Outcome State Fault Refusal := issue (mkForm Guard.always 1 [] []) waitevAct s

/-- WAITEV under a guard (R179). -/
def execWaitevGuarded (q : Guard) (s : State) : Host.Outcome State Fault Refusal := issue (mkForm q 1 [] []) waitevAct s

/-- A pre-empted partition's cores issue nothing (R305), and a core that has been fenced off neither (R374). -/
def State.coreRuns (s : State) (k : CoreId) : Bool :=
  !(s.core k).regs.stuck &&
  match s.partOf k with
  | none => true
  | some p => (s.part p).phase == .run

/-- The WAITEV of a sleeping slot retires, with EV cleared (R179). -/
def State.retireWaitev (s : State) (k : CoreId) (sl : Fin 4) : State :=
  let w := (s.slot k sl).slept.getD (0x5000, 0, (s.slot k sl).pc)
  let s := s.modSlot k sl fun x => { x with ev := false }
  State.retire { s with cur := ⟨k, sl, false, w.1, w.2.1, w.2.2⟩ } 1

/-- EVENT_WAKE (R179): an event has set EV of a sleeping slot. -/
def execEventWake (k : CoreId) (sl : Fin 4) (s : State) : Host.Outcome State Fault Refusal :=
  event s
    (if (s.slot k sl).st = .sleep ∧ (s.slot k sl).ev = true ∧ s.coreRuns k = true then some (s.retireWaitev k sl) else none)

/-- The deferred cause of lowest code (R298). -/
def lowestDeferred : List Deferred → Option Deferred
  | [] => none
  | d :: l => match lowestDeferred l with
    | none => some d
    | some e => if e.cause < d.cause then some e else some d

/-- A deferred cause may end a slot's wait (R298), unless the atomic that it waits for has been performed already. -/
def State.mayInterrupt (s : State) (k : CoreId) (sl : Fin 4) : Bool :=
  (s.slot k sl).interruptible &&
    !((s.core k).gaccs.any fun a => a.slot == sl && a.holds && a.performed && a.kind == .amog)

/-- Whether a request of a hub's list was made by a head of a slot. -/
def HubMsg.askedBy (m : HubMsg) (k : CoreId) (sl : Fin 4) : Bool :=
  match m with
  | .query _ _ c n => c == k && n == sl
  | .chunkInit _ _ c n _ _ _ => c == k && n == sl
  | .getChunk _ _ c n _ => c == k && n == sl
  | _ => false

/-- A wait ends without its instruction having begun (R298): what the head has asked for, and is not yet done, is not done
for it. -/
def State.unask (s : State) (k : CoreId) (sl : Fin 4) : State :=
  if !(s.slot k sl).asked then s
  else
    let s := s.modCore k fun c => { c with gaccs := c.gaccs.filter fun a => !(a.slot == sl && a.holds) }
    let s := { s with
      sys := s.sys.filter fun q => !(q.core == k && q.slot == sl),
      drops := s.drops.filter fun d => !(d.issuer.1 == k && d.issuer.2 == sl) }
    match s.partOf k with
    | none => s
    | some p => s.modPart p fun x => { x with
        packets := x.packets.filter fun q => q.1 != .spawn k sl,
        upds := x.upds.map fun u => if u.issuer = some (k, sl) then { u with issuer := none } else u,
        ctx := { x.ctx with hub := x.ctx.hub.filter fun m => !m.askedBy k sl } }

/-- DEFERRED_CAUSE_TAKE (R298): the pending cause of lowest code is taken in the slot, ending a wait or a sleep. -/
def execDeferredCauseTake (k : CoreId) (sl : Fin 4) (s : State) : Host.Outcome State Fault Refusal :=
  let x := s.slot k sl
  event s
    (if (x.st = .ready ∨ x.st = .wait ∨ x.st = .sleep) ∧ s.mayInterrupt k sl = true ∧ s.moving k sl = false then
      (lowestDeferred x.deferred).map fun d =>
        ((s.unask k sl).modSlot k sl fun x => { x with deferred := x.deferred.filter fun e => e.bit != d.bit }).takeTrap k sl d.cause
          d.taddr true d.origin d.merged
     else none)

/-- APTEST (R183). -/
def windowOk : Window → Word → Bool
  | .glob, a => isGlobal a
  | .loc, a => isLocal a
  | .berth, a => isBerth a

/-- APTEST (R183). -/
def execAptest (x : AptestF) (s : State) : Host.Outcome State Fault Refusal :=
  issue (mkForm x.q 1 [x.a] [] [.p x.d]) (fun s => .ok (s.wrPred x.d (predOf (windowOk x.w (s.rd x.a))))) s

/-- The conversions of R184. -/
def apcvtVal (k : ApKind) (a : Word) : Word :=
  match k with
  | .ofs => if isLocal a then BitVec.ofNat 64 (offOf a) else BitVec.allOnes 64
  | .loc => if a ≤ 0xFFFF then 0xE000000000000000#64 + a else BitVec.allOnes 64
  | .brt => if a ≤ 3 then 0xD000000000000000#64 + a else BitVec.allOnes 64

/-- APCVT (R184). -/
def execApcvt (x : ApcvtF) (s : State) : Host.Outcome State Fault Refusal :=
  issue (mkForm x.q 1 [x.a] [x.d]) (fun s => writeG s x.d (apcvtVal x.k (s.rd x.a))) s

/-- Some counts of the field timestamp counter pass (R185): how many is a free value. -/
def State.tick (s : State) (f : Nat) : State :=
  { s.modField f fun x => { x with time := x.time + ((Config.ticks s.free).extractLsb' 0 32).setWidth 64 } with
    free := s.free + 1 }

/-- TIME (R185): the field's counter at one instant. -/
def execTime (x : GD) (s : State) : Host.Outcome State Fault Refusal :=
  issue (mkForm x.q 1 [] [x.d])
    (fun s =>
      let s := s.tick (fieldOf s.cur.core)
      writeG s x.d (s.field (fieldOf s.cur.core)).time) s

/-- Integer part of a meter (R186, R344). -/
def meterPJ (r : CoreRegs) (vf : Nat) : Word := BitVec.ofNat 64 ((mget r.meter vf).getD 0 / 256 % 2 ^ 48)

/-- METER (R186). -/
def execMeter (x : GD) (s : State) : Host.Outcome State Fault Refusal :=
  issue (mkForm x.q 1 [] [x.d])
    (fun s => writeG s x.d (meterPJ (s.core s.cur.core).regs (gtidVf s.me.gtid))) s

end Sys2Proof.Machine
end

