-- ==== Sys2Proof/Machine/Float.lean ====
section
/-! DEFINITION. Floating-point numbers: formats (R43), exact values, rounding once (R49), special values (R44, R51, R54),
conversions (R45 to R48) and comparisons (R52). -/

namespace Sys2Proof.Machine

/-- A binary format: exponent and fraction bits, bias, whether the top exponent holds infinities and NaNs as in IEEE 754
(R43). -/
structure Fmt where
  eb : Nat
  mb : Nat
  bias : Nat
  ieee : Bool
  /-- The code of the largest finite magnitude. -/
  top : Nat
  deriving DecidableEq, Repr

def fmtF64 : Fmt := ⟨11, 52, 1023, true, 0x7FEFFFFFFFFFFFFF⟩
def fmtF32 : Fmt := ⟨8, 23, 127, true, 0x7F7FFFFF⟩
def fmtF16 : Fmt := ⟨5, 10, 15, true, 0x7BFF⟩
def fmtBf16 : Fmt := ⟨8, 7, 127, true, 0x7F7F⟩
def fmtE5 : Fmt := ⟨5, 2, 15, true, 0x7B⟩
def fmtE4 : Fmt := ⟨4, 3, 7, false, 0x7E⟩
def fmtMx6e3 : Fmt := ⟨3, 2, 3, false, 0x1F⟩
def fmtMx6e2 : Fmt := ⟨2, 3, 1, false, 0x1F⟩
def fmtMx4 : Fmt := ⟨2, 1, 1, false, 0x7⟩

def fmtOf : FpTy → Fmt
  | .f32 => fmtF32
  | .f64 => fmtF64
  | .f16 => fmtF16
  | .bf16 => fmtBf16

def Fmt.width (f : Fmt) : Nat := 1 + f.eb + f.mb
def Fmt.signBit (f : Fmt) : Nat := 2 ^ (f.eb + f.mb)
def Fmt.quietBit (f : Fmt) : Nat := 2 ^ (f.mb - 1)
/-- Code of +∞. -/
def Fmt.inf (f : Fmt) : Nat := (2 ^ f.eb - 1) * 2 ^ f.mb
/-- The default NaN (R44). -/
def Fmt.nan (f : Fmt) : Nat := if f.ieee then f.inf + f.quietBit else 2 ^ (f.eb + f.mb) - 1

/-- A value: a NaN, signalling or quiet; an infinity; or (−1)^neg × m × 2^e. -/
inductive FV where
  | nan (neg : Bool) (sig : Bool)
  | inf (neg : Bool)
  | fin (neg : Bool) (m : Nat) (e : Int)
  deriving DecidableEq, Repr

/-- The value a code has (R43); FP8 has no signalling NaNs. -/
def Fmt.unpack (f : Fmt) (x : Nat) : FV :=
  let neg := x / f.signBit % 2 = 1
  let ex := x / 2 ^ f.mb % 2 ^ f.eb
  let fr := x % 2 ^ f.mb
  if f.ieee ∧ ex = 2 ^ f.eb - 1 then
    if fr = 0 then .inf neg else .nan neg (fr < f.quietBit && f.mb != 2)
  else if f.eb = 4 ∧ f.ieee = false ∧ ex = 15 ∧ fr = 7 then .nan neg false
  else if ex = 0 then .fin neg fr (1 - (f.bias : Int) - f.mb)
  else .fin neg (2 ^ f.mb + fr) ((ex : Int) - f.bias - f.mb)

/-! ### Rounding (R49) -/

/-- Round the magnitude m × 2^e to a multiple of 2^q: the multiple, and whether it differs. -/
def roundAt (r : Rnd) (neg : Bool) (m : Nat) (e q : Int) : Nat × Bool :=
  if q ≤ e then (m * 2 ^ (e - q).toNat, false)
  else
    let k := (q - e).toNat
    let n := m / 2 ^ k
    let rem := m % 2 ^ k
    let inexact := rem != 0
    let up := match r with
      | .rne => decide (2 ^ k < 2 * rem) || (2 * rem == 2 ^ k && n % 2 == 1)
      | .rtz => false
      | .rup => inexact && !neg
      | .rdn => inexact && neg
      | .rna => decide (2 ^ k ≤ 2 * rem) && inexact
    (if up then n + 1 else n, inexact)

/-- Rounding to nearest, ties to even, of m / 2^k (R9). -/
def rneShift (m k : Nat) : Nat := (roundAt .rne false m 0 k).1

/-- The same on signed integers. -/
def rneShiftInt (t : Int) (k : Nat) : Int := if t < 0 then -(rneShift t.natAbs k : Int) else rneShift t.natAbs k

def signOf (f : Fmt) (neg : Bool) : Nat := if neg then f.signBit else 0

/-- Whether an overflow goes to infinity under a mode (R194). -/
def overInf (r : Rnd) (neg : Bool) : Bool :=
  match r with
  | .rne => true
  | .rna => true
  | .rtz => false
  | .rup => !neg
  | .rdn => neg

/-- Round m × 2^e once into a format: the code and the flags OF, UF and NX (R49, R194). A format without infinities
saturates (R48). -/
def Fmt.round (f : Fmt) (r : Rnd) (neg : Bool) (m : Nat) (e : Int) : Nat × BitVec 8 :=
  if m = 0 then (signOf f neg, 0)
  else
    let ev : Int := e + Nat.log2 m
    let emin : Int := 1 - f.bias
    let q : Int := max (ev - f.mb) (emin - f.mb)
    let (n, inexact) := roundAt r neg m e q
    let code : Nat := if n < 2 ^ f.mb then n else ((q + f.mb + f.bias).toNat - 1) * 2 ^ f.mb + n
    if f.top < code then
      if f.ieee && overInf r neg then (signOf f neg + f.inf, flagOF ||| flagNX)
      else (signOf f neg + f.top, flagOF ||| flagNX)
    else
      let tiny := ev < emin ∧ ¬(ev = emin - 1 ∧ (roundAt r neg m e (ev - f.mb)).1 = 2 ^ (f.mb + 1))
      (signOf f neg + code, (if inexact then flagNX else 0) ||| (if inexact ∧ tiny then flagUF else 0))

/-- Round a value known to lie strictly above m × 2^e and below (m + 1) × 2^e. -/
def Fmt.roundSticky (f : Fmt) (r : Rnd) (neg : Bool) (m : Nat) (e : Int) : Nat × BitVec 8 :=
  f.round r neg (2 * m + 1) (e - 1)

/-- NF where a result is an infinity or a NaN (R54). -/
def Fmt.withNF (f : Fmt) (x : Nat × BitVec 8) : Nat × BitVec 8 :=
  match f.unpack x.1 with
  | .fin _ _ _ => x
  | _ => (x.1, x.2 ||| flagNF)

/-- A NaN made quiet (R44). -/
def Fmt.quiet (f : Fmt) (x : Nat) : Nat := if x / f.quietBit % 2 = 1 then x else x + f.quietBit

def FV.isNan : FV → Bool
  | .nan _ _ => true
  | _ => false

def FV.isSig : FV → Bool
  | .nan _ s => s
  | _ => false

/-- The first NaN operand made quiet, NV for a signalling one (R44). -/
def Fmt.nanOf (f : Fmt) (ops : List Nat) : Option (Nat × BitVec 8) :=
  (ops.find? fun x => (f.unpack x).isNan).map fun x =>
    (f.quiet x, if ops.any fun y => (f.unpack y).isSig then flagNV else 0)

/-! ### Arithmetic (R194) -/

/-- A signed exact value i × 2^e. -/
def dyAdd (i : Int) (e : Int) (j : Int) (g : Int) : Int × Int :=
  if e ≤ g then (i + j * 2 ^ (g - e).toNat, e) else (i * 2 ^ (e - g).toNat + j, g)

def sgn (neg : Bool) (m : Nat) : Int := if neg then -(m : Int) else m

/-- Round an exact signed value; an exact zero takes the sign given (R51, R405). -/
def Fmt.roundInt (f : Fmt) (r : Rnd) (i : Int) (e : Int) (zneg : Bool) : Nat × BitVec 8 :=
  if i = 0 then (signOf f zneg, 0) else f.round r (decide (i < 0)) i.natAbs e

/-- The sign of an exact zero sum of two terms (R51). -/
def zeroSign (r : Rnd) (a b : Bool) : Bool := if a = b then a else r == .rdn

/-- Sum of two values neither of which is a NaN. -/
def Fmt.addV (f : Fmt) (r : Rnd) (x y : FV) : Nat × BitVec 8 :=
  match x, y with
  | .inf a, .inf b => if a = b then (signOf f a + f.inf, 0) else (f.nan, flagNV)
  | .inf a, _ => (signOf f a + f.inf, 0)
  | _, .inf b => (signOf f b + f.inf, 0)
  | .fin a m e, .fin b n g =>
    let (i, h) := dyAdd (sgn a m) e (sgn b n) g
    f.roundInt r i h (if m = 0 ∧ n = 0 then zeroSign r a b else r == .rdn)
  | _, _ => (f.nan, 0)

def FV.negate : FV → FV
  | .nan a s => .nan a s
  | .inf a => .inf (!a)
  | .fin a m e => .fin (!a) m e

def Fmt.add (f : Fmt) (r : Rnd) (x y : Nat) : Nat × BitVec 8 :=
  f.withNF ((f.nanOf [x, y]).getD (f.addV r (f.unpack x) (f.unpack y)))

def Fmt.sub (f : Fmt) (r : Rnd) (x y : Nat) : Nat × BitVec 8 :=
  f.withNF ((f.nanOf [x, y]).getD (f.addV r (f.unpack x) (f.unpack y).negate))

/-- Exact product of two values neither of which is a NaN; `none` for 0 × ∞. -/
def FV.mul (x y : FV) : Option FV :=
  match x, y with
  | .inf a, .inf b => some (.inf (a != b))
  | .inf a, .fin b n _ => if n = 0 then none else some (.inf (a != b))
  | .fin a m _, .inf b => if m = 0 then none else some (.inf (a != b))
  | .fin a m e, .fin b n g => some (.fin (a != b) (m * n) (e + g))
  | _, _ => none

def Fmt.roundV (f : Fmt) (r : Rnd) : FV → Nat × BitVec 8
  | .nan _ _ => (f.nan, 0)
  | .inf a => (signOf f a + f.inf, 0)
  | .fin a m e => f.round r a m e

def Fmt.mul (f : Fmt) (r : Rnd) (x y : Nat) : Nat × BitVec 8 :=
  f.withNF ((f.nanOf [x, y]).getD
    (match (f.unpack x).mul (f.unpack y) with
     | none => (f.nan, flagNV)
     | some v => f.roundV r v))

/-- a × b + c, rounded once; 0 × ∞ is invalid whatever c holds (R194). -/
def Fmt.fma (f : Fmt) (r : Rnd) (x y z : Nat) : Nat × BitVec 8 :=
  let a := f.unpack x
  let b := f.unpack y
  let c := f.unpack z
  f.withNF
    (if a.isNan || b.isNan then (f.nanOf [x, y, z]).getD (f.nan, 0)
     else match a.mul b with
      | none => (f.nan, flagNV)
      | some p => if c.isNan then (f.nanOf [z]).getD (f.nan, 0) else f.addV r p c)

/-- The quotient of two magnitudes with enough bits to round, and whether it is exact. -/
def divBits (f : Fmt) (m : Nat) (e : Int) (n : Nat) (g : Int) : Nat × Int × Bool :=
  let s := f.mb + 4 + Nat.log2 n
  (m * 2 ^ s / n, e - g - s, m * 2 ^ s % n == 0)

def Fmt.roundEx (f : Fmt) (r : Rnd) (neg : Bool) (q : Nat × Int × Bool) : Nat × BitVec 8 :=
  if q.2.2 then f.round r neg q.1 q.2.1 else f.roundSticky r neg q.1 q.2.1

def Fmt.div (f : Fmt) (r : Rnd) (x y : Nat) : Nat × BitVec 8 :=
  f.withNF ((f.nanOf [x, y]).getD
    (match f.unpack x, f.unpack y with
     | .inf _, .inf _ => (f.nan, flagNV)
     | .inf a, .fin b _ _ => (signOf f (a != b) + f.inf, 0)
     | .fin a _ _, .inf b => (signOf f (a != b), 0)
     | .fin a m e, .fin b n g =>
       if n = 0 then (if m = 0 then (f.nan, flagNV) else (signOf f (a != b) + f.inf, flagDZ))
       else if m = 0 then (signOf f (a != b), 0)
       else f.roundEx r (a != b) (divBits f m e n g)
     | _, _ => (f.nan, 0)))

/-- floor(√n), bit by bit from bit `k` − 1. -/
def isqrtFrom (n : Nat) (acc : Nat) : Nat → Nat
  | 0 => acc
  | k + 1 =>
    let t := acc + 2 ^ k
    isqrtFrom n (if t * t ≤ n then t else acc) k

def isqrt (n : Nat) : Nat := isqrtFrom n 0 (Nat.log2 n / 2 + 1)

def Fmt.sqrt (f : Fmt) (r : Rnd) (x : Nat) : Nat × BitVec 8 :=
  f.withNF ((f.nanOf [x]).getD
    (match f.unpack x with
     | .inf a => if a then (f.nan, flagNV) else (f.inf, 0)
     | .fin a m e =>
       if m = 0 then (signOf f a, 0)
       else if a then (f.nan, flagNV)
       else
         let odd := e % 2 != 0
         let m' := if odd then 2 * m else m
         let e' := if odd then e - 1 else e
         let s := f.mb + 4
         let n := m' * 2 ^ (2 * s)
         let q := isqrt n
         f.roundEx r false (q, e' / 2 - s, q * q == n)
     | .nan _ _ => (f.nan, 0)))

/-! ### Comparison (R51, R52) -/

/-- a < b for values that are not NaNs, with −0 equal to +0. -/
def FV.key : FV → Option (Int × Int)
  | .fin a m e => some (sgn a m, e)
  | _ => none

def FV.lt (x y : FV) : Bool :=
  match x, y with
  | .inf a, .inf b => a && !b
  | .inf a, .fin _ _ _ => a
  | .fin _ _ _, .inf b => !b
  | .fin a m e, .fin b n g => let (d, _) := dyAdd (sgn a m) e (-(sgn b n)) g; decide (d < 0)
  | _, _ => false

/-- The key of totalOrder (R52). -/
def Fmt.totKey (f : Fmt) (x : Nat) : Nat :=
  if x / f.signBit % 2 = 1 then 2 * f.signBit - 1 - x else x + f.signBit

/-- VCMP without `.tot`: the relation and NV for a signalling NaN (R52). -/
def Fmt.cmp (f : Fmt) (c : VCond) (x y : Nat) : Bool × BitVec 8 :=
  let a := f.unpack x
  let b := f.unpack y
  let un := a.isNan || b.isNan
  let lt := !un && a.lt b
  let gt := !un && b.lt a
  let eq := !un && !lt && !gt
  (match c with
    | .eq => eq
    | .ne => !eq
    | .lt => lt
    | .le => lt || eq
    | .gt => gt
    | .ge => gt || eq
    | .un => un
    | .ord => !un,
   if a.isSig || b.isSig then flagNV else 0)

/-- VCMP `.tot`. -/
def Fmt.cmpTot (f : Fmt) (c : VCond) (x y : Nat) : Bool :=
  let a := f.totKey x
  let b := f.totKey y
  match c with
  | .eq => a == b
  | .ne => a != b
  | .lt => a < b
  | .le => a ≤ b
  | .gt => a > b
  | .ge => a ≥ b
  | _ => false

/-- IEEE minimum and maximum: −0 is less than +0 (R51). -/
def Fmt.minmax (f : Fmt) (mx : Bool) (x y : Nat) : Nat × BitVec 8 :=
  f.withNF ((f.nanOf [x, y]).getD (if (decide (f.totKey x ≤ f.totKey y)) != mx then (x, 0) else (y, 0)))

/-! ### Conversions (R45 to R48) -/

/-- Rounding of a conversion: OF also where the mode delivers the largest finite value for a magnitude that would round to
nearest above it, as the worked example of R201 has it (DEDUCED, entry 8). -/
def Fmt.roundNarrow (f : Fmt) (r : Rnd) (neg : Bool) (m : Nat) (e : Int) : Nat × BitVec 8 :=
  let x := f.round r neg m e
  if (f.round .rne neg m e).2.getLsbD 2 then (x.1, x.2 ||| flagOF ||| flagNX) else x

/-- An IEEE value into an IEEE format. -/
def cvtIeee (s d : Fmt) (r : Rnd) (x : Nat) : Nat × BitVec 8 :=
  d.withNF
    (match s.unpack x with
     | .nan neg sig =>
       let fr := x % 2 ^ s.mb
       let fr' := if d.mb ≤ s.mb then fr / 2 ^ (s.mb - d.mb) else fr * 2 ^ (d.mb - s.mb)
       (signOf d neg + d.quiet (d.inf + fr' % 2 ^ d.mb), if sig then flagNV else 0)
     | .inf neg => (signOf d neg + d.inf, 0)
     | .fin neg m e => d.roundNarrow r neg m e)

/-- A float into FP8 E4M3: saturates to ±448 (R48). A magnitude between 448 and 480 is out of range where it rounds above 448:
under a directed mode that delivers ±448 it sets NX alone (DESIGN CHOICE, entry 89). -/
def cvtE4 (s : Fmt) (r : Rnd) (x : Nat) : Nat × BitVec 8 :=
  match s.unpack x with
  | .nan neg sig => (signOf fmtE4 neg + 0x7F, (if sig then flagNV else 0) ||| flagNF)
  | .inf neg => (signOf fmtE4 neg + fmtE4.top, flagOF)
  | .fin neg m e => fmtE4.round r neg m e

/-- An FP8 value into binary32 or binary64: exact; a NaN stays a NaN (R48), quiet, of its sign and with no other fraction bit
(DESIGN CHOICE, entry 89). -/
def cvtFromFp8 (s d : Fmt) (x : Nat) : Nat × BitVec 8 :=
  d.withNF
    (match s.unpack x with
     | .nan neg _ => (signOf d neg + d.nan, 0)
     | .inf neg => (signOf d neg + d.inf, 0)
     | .fin neg m e => d.round .rne neg m e)

/-- A float into an integer type: saturates with NV, not NX; a NaN gives 0 and NV (R48). -/
def cvtToInt (s : Fmt) (t : IntTy) (r : Rnd) (x : Nat) : Nat × BitVec 8 :=
  let w := tyWidth t
  let lo : Int := if tySigned t then -(2 ^ (w - 1)) else 0
  let hi : Int := if tySigned t then 2 ^ (w - 1) - 1 else 2 ^ w - 1
  let pat := fun (v : Int) => (v % 2 ^ w).toNat
  match s.unpack x with
  | .nan _ _ => (0, flagNV)
  | .inf neg => (pat (if neg then lo else hi), flagNV)
  | .fin neg m e =>
    let (n, inexact) := roundAt r neg m e 0
    let v := sgn neg n
    if v < lo then (pat lo, flagNV) else if hi < v then (pat hi, flagNV)
    else (pat v, if inexact then flagNX else 0)

/-- The integer a pattern has at a type. -/
def intOf (t : IntTy) (x : Nat) : Int :=
  let w := tyWidth t
  let u := x % 2 ^ w
  if tySigned t ∧ 2 ^ (w - 1) ≤ u then (u : Int) - 2 ^ w else u

/-- An integer into a float (R48), with OF judged as between floats (DEDUCED, entry 8). -/
def cvtFromInt (t : IntTy) (d : Fmt) (r : Rnd) (x : Nat) : Nat × BitVec 8 :=
  let v := intOf t x
  d.withNF (d.roundNarrow r (decide (v < 0)) v.natAbs 0)

/-- Element formats of the MX types. -/
def mxFmt : FullTy → Fmt
  | .mx8e4 => fmtE4
  | .mx8e5 => fmtE5
  | .mx4 => fmtMx4
  | .mx6e2 => fmtMx6e2
  | .mx6e3 => fmtMx6e3
  | _ => fmtE4

/-- emax of R47. -/
def mxEmax : FullTy → Int
  | .mx8e4 => 8
  | .mx8e5 => 15
  | .mx4 => 2
  | .mx6e3 => 4
  | .mx6e2 => 2
  | _ => 0

/-- The value of an MX element under a scale (R45): the element's own NaNs and infinities, and X = 0xFF. -/
def mxValue (t : FullTy) (x : Nat) (scale : Nat) : FV :=
  if scale = 0xFF then .nan false false
  else
    let v := match t with
      | .mxi8 => let i := intOf .i8 x; FV.fin (decide (i < 0)) i.natAbs (-6)
      | t => (mxFmt t).unpack x
    match v with
    | .fin a m e => .fin a m (e + scale - 127)
    | v => v

/-- An MX element into binary32 or binary64: exact except for overflow (R48); a NaN as from FP8 (DESIGN CHOICE, entry 89). -/
def cvtFromMx (t : FullTy) (d : Fmt) (r : Rnd) (x scale : Nat) : Nat × BitVec 8 :=
  d.withNF
    (match mxValue t x scale with
     | .nan neg _ => (signOf d neg + d.nan, 0)
     | .inf neg => (signOf d neg + d.inf, 0)
     | .fin neg m e => d.round r neg m e)

/-- floor(log2) of the largest magnitude among finite values, as an exponent; `none` when all are zero. -/
def maxLog (l : List FV) : Option Int :=
  l.foldl (fun acc v => match v with
    | .fin _ m e =>
      if m = 0 then acc
      else
        let x : Int := e + Nat.log2 m
        match acc with
        | none => some x
        | some y => some (max x y)
    | _ => acc) none

def satInt (v lo hi : Int) : Int := max lo (min v hi)

/-- One element of an MX block (R47): rounded, saturating at the largest finite magnitude; NX, OF and BSAT on saturation, and
UF for a value that is tiny and inexact, or becomes zero (R53). -/
def mxElem (t : FullTy) (scale : Nat) (v : FV) : Nat × BitVec 8 :=
  match t with
  | .mxi8 =>
    match v with
    | .inf neg => (if neg then 0x81 else 0x7F, flagOF ||| flagBSAT)
    | .fin neg m e =>
      let (n, inexact) := roundAt .rne neg m e (scale - 127 - 6)
      if 127 < n then (if neg then 0x81 else 0x7F, flagOF ||| flagBSAT ||| flagNX)
      else (if neg then (256 - n) % 256 else n, (if inexact then flagNX else 0) ||| (if n = 0 ∧ m ≠ 0 then flagUF else 0))
    | .nan _ _ => (0, 0)
  | t =>
    let f := { mxFmt t with ieee := false }
    match v with
    | .inf neg => (signOf f neg + f.top, flagOF ||| flagBSAT)
    | .fin neg m e =>
      let (x, fl) := f.round .rne neg m (e - scale + 127)
      (x, fl ||| (if fl &&& flagOF != 0 then flagBSAT else 0))
    | .nan _ _ => (0, 0)

/-- 32 values into an MX block: the scale, the elements and the flags (R47). -/
def mxBlock (t : FullTy) (l : List FV) : Nat × List Nat × BitVec 8 :=
  if l.any FV.isNan then (0xFF, l.map fun _ => 0, flagNV ||| flagNF)
  else
    let hasInf := l.any fun v => match v with | .inf _ => true | _ => false
    let x : Nat :=
      if hasInf then 254
      else match maxLog l with
        | none => 0
        | some k => (satInt (k - mxEmax t + 127) 0 254).toNat
    let r := l.map (mxElem t x)
    (x, r.map (·.1), r.foldl (fun a e => a ||| e.2) 0)

end Sys2Proof.Machine
end

