-- ==== Sys2Proof/Machine/Transcend.lean ====
section
/-! DEFINITION. The correctly rounded functions of VFN (R59): each value is enclosed in an interval that is narrowed until
both ends round alike; arguments whose value lies within 2^-60 of a known number are rounded from that side. -/

namespace Sys2Proof.Machine

/-! ### Fixed-point constants and series at scale 2^-w -/

/-- Σ c / ((2n + 1) k^(2n+1)) with signs alternating when `alt`, from the term `t`. -/
def arcLoop (k2 : Nat) (alt : Bool) (t : Nat) (n : Nat) (neg : Bool) (acc : Int) : Nat → Int
  | 0 => acc
  | fuel + 1 =>
    let u : Int := (t / (2 * n + 1) : Nat)
    arcLoop k2 alt (t / k2) (n + 1) (neg != alt) (if neg then acc - u else acc + u) fuel

/-- atan(1/k), or atanh(1/k), at scale w. -/
def arcInv (k : Nat) (alt : Bool) (w : Nat) : Int := arcLoop (k * k) alt (2 ^ w / k) 0 false 0 (w / 2 + 2)

/-- ln 2 at scale w, below by less than w. -/
def ln2At (w : Nat) : Nat := (2 * arcInv 3 false w).toNat

/-- π at scale w, within 32w. -/
def piAt (w : Nat) : Nat := (16 * arcInv 5 true w - 4 * arcInv 239 true w).toNat

/-- Σ r^n / n! at scale w, for r below 1. -/
def expLoop (r w : Nat) (t n acc : Nat) : Nat → Nat
  | 0 => acc
  | fuel + 1 =>
    let t' := t * r / (n * 2 ^ w)
    expLoop r w t' (n + 1) (acc + t') fuel

def expSeries (r w : Nat) : Nat := expLoop r w (2 ^ w) 1 (2 ^ w) w

/-- m × 2^e at scale w, toward zero. -/
def fixAt (m : Nat) (e : Int) (w : Nat) : Nat :=
  if 0 ≤ e + w then m * 2 ^ (e + w).toNat else m / 2 ^ (-(e + w)).toNat

/-- e^x for x = X at scale w: a mantissa at scale w and a power of two; |x| is below 2^12. -/
def expFix (x : Int) (w : Nat) : Nat × Int :=
  let l := ln2At w
  let k := Int.fdiv x l
  (expSeries (x - k * l).toNat w, k)

/-- 2 Σ z^(2n+1) / (2n+1) at scale w, for z of either sign. -/
def atanhLoop (z2 w : Nat) (t n acc : Nat) : Nat → Nat
  | 0 => acc
  | fuel + 1 => atanhLoop z2 w (t * z2 / 2 ^ w) (n + 1) (acc + 2 * (t / (2 * n + 1))) fuel

def atanh2 (z w : Nat) : Nat := atanhLoop (z * z / 2 ^ w) w z 0 0 (w / 4 + 2)

/-- ln(m × 2^e) at scale w. -/
def logFix (m : Nat) (e : Int) (w : Nat) : Int :=
  let b := Nat.log2 m
  -- m = y × 2^b with y in [1, 2), or y in [2/3, 1) × 2^(b+1)
  let up := 4 * 2 ^ b ≤ 3 * m
  let k : Int := e + (if up then b + 1 else b : Nat)
  let d := 2 ^ (if up then b + 1 else b)
  let z := (if m < d then d - m else m - d) * 2 ^ w / (m + d)
  k * ln2At w + (if m < d then -(atanh2 z w : Int) else atanh2 z w)

/-- Alternating Σ t r^2 …: the series of sin (from n = 1) and cos (from n = 0). -/
def trigLoop (r2 w : Nat) (t n : Nat) (neg : Bool) (acc : Int) : Nat → Int
  | 0 => acc
  | fuel + 1 =>
    trigLoop r2 w (t * r2 / (2 ^ w * ((n + 1) * (n + 2)))) (n + 2) (!neg) (if neg then acc - (t : Int) else acc + t) fuel

def sinSeries (r w : Nat) : Int := trigLoop (r * r / 2 ^ w) w r 1 false 0 w
def cosSeries (r w : Nat) : Int := trigLoop (r * r / 2 ^ w) w (2 ^ w) 0 false 0 w

/-- sin or cos of m × 2^e, reduced by multiples of π/2, at scale w. -/
def trigFix (sine : Bool) (m : Nat) (e : Int) (w : Nat) : Int :=
  let h := w + 32 + (max 0 (e + Nat.log2 m)).toNat
  let p := piAt h
  let x := fixAt m e h
  let q := 2 * x / p
  let r := (2 * x - q * p) / 2 ^ (h - w + 1)
  match (if sine then q else q + 1) % 4 with
  | 0 => sinSeries r w
  | 1 => cosSeries r w
  | 2 => -sinSeries r w
  | _ => -cosSeries r w

/-- Σ (2x²)^n / (2n+1)!! at scale w. -/
def erfLoop (x2 w : Nat) (t n acc : Nat) : Nat → Nat
  | 0 => acc
  | fuel + 1 =>
    let t' := 2 * t * x2 / ((2 * n + 3) * 2 ^ w)
    erfLoop x2 w t' (n + 1) (acc + t') fuel

/-- erf(x) / x at scale w for x² = X at scale w below 64. -/
def erfRatio (x2 w : Nat) : Nat :=
  let s := erfLoop x2 w (2 ^ w) 0 (2 ^ w) (w + 300)
  let (v, k) := expFix (-(x2 : Int)) w
  let c := isqrt (4 * 2 ^ (3 * w) / piAt w)
  s * v * c / 2 ^ (2 * w + (-k).toNat)

/-! ### Enclosures: |value / 2^e − v| ≤ err -/

structure Encl where
  v : Int
  err : Nat
  e : Int
  deriving DecidableEq, Repr

/-- Error, in units of scale w, that covers every series above for w below 2^14. -/
def serErr : Nat := 2 ^ 36

/-- The enclosure of a function at m × 2^e, away from its special and its near-constant arguments. -/
def enclose (fn : VFun) (neg : Bool) (m : Nat) (e : Int) (w : Nat) : Encl :=
  let x := fixAt m e w
  let xs : Int := if neg then -(x : Int) else x
  match fn with
  | .exp => let (v, k) := expFix xs w; ⟨v, serErr, k - w⟩
  | .exp2 =>
    let k := Int.fdiv xs (2 ^ w)
    ⟨expSeries ((xs - k * 2 ^ w).toNat * ln2At w / 2 ^ w) w, serErr, k - w⟩
  | .log => ⟨logFix m e w, serErr, -w⟩
  | .log2 => ⟨Int.fdiv (logFix m e w * 2 ^ w) (ln2At w), 4 * serErr, -w⟩
  | .sin => ⟨if neg then -trigFix true m e w else trigFix true m e w, serErr, -w⟩
  | .cos => ⟨trigFix false m e w, serErr, -w⟩
  | .tanh =>
    let (v, k) := expFix (-(2 * x : Int)) w
    let y := v / 2 ^ (-k).toNat
    let t := (2 ^ w - y) * 2 ^ w / (2 ^ w + y)
    ⟨if neg then -(t : Int) else t, 4 * serErr, -w⟩
  | .sigmoid =>
    let (v, k) := expFix (-xs) w
    if k ≤ 0 then ⟨(2 ^ (2 * w) / (2 ^ w + v / 2 ^ (-k).toNat) : Nat), 4 * serErr, -w⟩
    else ⟨(2 ^ (2 * w + k.toNat) / (2 ^ w + v * 2 ^ k.toNat) : Nat), 4 * serErr, -w - k⟩
  | .erf =>
    let t := m * erfRatio (fixAt (m * m) (2 * e) w) w
    ⟨if neg then -(t : Int) else t, t / 2 ^ (w - 44) + m, e - w⟩
  | _ => ⟨0, 0, 0⟩

/-- Round an enclosed value, with more precision until both ends agree (R59). -/
def zivRound (f : Fmt) (r : Rnd) (g : Nat → Encl) (w : Nat) : Nat → Nat × BitVec 8
  | 0 => let c := g w; f.roundSticky r (decide (c.v < 0)) c.v.natAbs c.e
  | fuel + 1 =>
    let c := g w
    let n := c.v.natAbs
    let neg := decide (c.v < 0)
    let a := f.roundSticky r neg (n - c.err - 1) c.e
    let b := f.roundSticky r neg (n + c.err) c.e
    if c.err + 1 < n ∧ a = b then a else zivRound f r g (2 * w) fuel

/-- A value strictly between a number and the number 2^-60 of it above, or below. -/
def justAbove (f : Fmt) (r : Rnd) (neg : Bool) (m : Nat) (e : Int) : Nat × BitVec 8 :=
  f.roundSticky r neg (m * 2 ^ 60) (e - 60)
def justBelow (f : Fmt) (r : Rnd) (neg : Bool) (m : Nat) (e : Int) : Nat × BitVec 8 :=
  f.roundSticky r neg (m * 2 ^ 60 - 1) (e - 60)

/-- A value above every format's range, and one strictly between 0 and every format's least. -/
def hugeResult (f : Fmt) (r : Rnd) : Nat × BitVec 8 := f.roundSticky r false 1 4000
def tinyResult (f : Fmt) (r : Rnd) : Nat × BitVec 8 := f.roundSticky r false 0 (-4000)

/-- 1 / √(m × 2^e). -/
def rsqrtFin (f : Fmt) (r : Rnd) (m : Nat) (e : Int) : Nat × BitVec 8 :=
  let odd := e % 2 != 0
  let m' := if odd then 2 * m else m
  let e' := if odd then e - 1 else e
  let s := f.mb + 4 + Nat.log2 m'
  let n := 2 ^ (2 * s)
  let q := isqrt (n / m')
  f.roundEx r false (q, -(e' / 2) - s, q * q * m' == n)

/-- The code of 1. -/
def Fmt.one (f : Fmt) : Nat := f.bias * 2 ^ f.mb

/-- A function at a finite non-zero argument. -/
def fnFin (f : Fmt) (fn : VFun) (r : Rnd) (x : Nat) (neg : Bool) (m : Nat) (e : Int) : Nat × BitVec 8 :=
  let top : Int := e + Nat.log2 m
  let ziv := fun (_ : Unit) => zivRound f r (enclose fn neg m e) 160 7
  let nearOne := if neg then justBelow f r false 1 0 else justAbove f r false 1 0
  let isInt := 0 ≤ e || m % 2 ^ (-e).toNat == 0
  match fn with
  | .exp => if 10 ≤ top then (if neg then tinyResult f r else hugeResult f r) else if top < -62 then nearOne else ziv ()
  | .exp2 =>
    if 12 ≤ top then (if neg then tinyResult f r else hugeResult f r)
    else if top < -62 then nearOne
    else if isInt then f.round r false 1 (sgn neg (fixAt m e 0))
    else ziv ()
  | .log => if neg then (f.nan, flagNV) else if x = f.one then (0, 0) else ziv ()
  | .log2 =>
    if neg then (f.nan, flagNV) else if m = 2 ^ Nat.log2 m then f.roundInt r top 0 false else ziv ()
  | .sin => if top < -31 then justBelow f r neg m e else ziv ()
  | .cos => if top < -31 then justBelow f r false 1 0 else ziv ()
  | .tanh => if top < -31 then justBelow f r neg m e else if 6 ≤ top then justBelow f r neg 1 0 else ziv ()
  | .erf => if 3 ≤ top then justBelow f r neg 1 0 else ziv ()
  | .sigmoid =>
    if top < -62 then (if neg then justBelow f r false 1 (-1) else justAbove f r false 1 (-1))
    else if !neg && 6 ≤ top then justBelow f r false 1 0
    else if 10 ≤ top then tinyResult f r
    else ziv ()
  | .rsqrt => if neg then (f.nan, flagNV) else rsqrtFin f r m e
  | .recip => f.div r f.one x

/-- VFN on one lane (R59). -/
def Fmt.fn (f : Fmt) (fn : VFun) (r : Rnd) (x : Nat) : Nat × BitVec 8 :=
  f.withNF ((f.nanOf [x]).getD
    (match f.unpack x with
     | .nan _ _ => (f.nan, 0)
     | .inf neg =>
       match fn with
       | .exp => (if neg then 0 else f.inf, 0)
       | .exp2 => (if neg then 0 else f.inf, 0)
       | .log => if neg then (f.nan, flagNV) else (f.inf, 0)
       | .log2 => if neg then (f.nan, flagNV) else (f.inf, 0)
       | .sin => (f.nan, flagNV)
       | .cos => (f.nan, flagNV)
       | .tanh => (signOf f neg + f.one, 0)
       | .erf => (signOf f neg + f.one, 0)
       | .sigmoid => (if neg then 0 else f.one, 0)
       | .rsqrt => if neg then (f.nan, flagNV) else (0, 0)
       | .recip => (signOf f neg, 0)
     | .fin neg m e =>
       if m = 0 then
         match fn with
         | .exp => (f.one, 0)
         | .exp2 => (f.one, 0)
         | .log => (f.signBit + f.inf, flagDZ)
         | .log2 => (f.signBit + f.inf, flagDZ)
         | .sin => (signOf f neg, 0)
         | .cos => (f.one, 0)
         | .tanh => (signOf f neg, 0)
         | .erf => (signOf f neg, 0)
         | .sigmoid => (f.one - 2 ^ f.mb, 0)
         | .rsqrt => (signOf f neg + f.inf, flagDZ)
         | .recip => (signOf f neg + f.inf, flagDZ)
       else fnFin f fn r x neg m e))

end Sys2Proof.Machine
end

