-- ==== Sys2Proof/Machine/Lanes.lean ====
section
/-! DEFINITION. Lanes, masks and lane operations of the vector unit (R189, R190, R194 to R208), and the issue of a vector
operation (R192). -/

namespace Sys2Proof.Machine

/-! ### Lanes -/

def fpWidth : FpTy → Nat
  | .f64 => 64
  | .f32 => 32
  | _ => 16

def vtyWidth : VTy → Nat
  | .fp f => fpWidth f
  | .int t => tyWidth t

def vmodTy : VMod → VTy
  | .fp f _ => .fp f
  | .int t => .int t

def lane (w : Nat) (v : VWord) (i : Nat) : Nat := v.toNat / 2 ^ (w * i) % 2 ^ w
def lanesOf (w : Nat) (v : VWord) : List Nat := (List.range (512 / w)).map (lane w v)
def packNat (w : Nat) : List Nat → Nat
  | [] => 0
  | x :: l => x % 2 ^ w + 2 ^ w * packNat w l
def packL (w : Nat) (l : List Nat) : VWord := BitVec.ofNat 512 (packNat w l)

/-- Whether lane i of width w is active (R190). -/
def laneOn (m : BitVec 16) (w i : Nat) : Bool := m.getLsbD (i * w / 32)

/-- The lane mask of a vector head (R190). -/
def Regs.mask (r : Regs) (q : Guard) : BitVec 16 :=
  if q.p = 0 then 0xFFFF else if q.neg then ~~~(r.rdP q.p) else r.rdP q.p

def orFlags (l : List (Nat × BitVec 8)) : BitVec 8 := l.foldl (fun a e => a ||| e.2) 0

/-- `f i` in every active lane, the previous contents elsewhere; the flags of the active lanes. -/
def mapLanes (m : BitVec 16) (w : Nat) (old : VWord) (f : Nat → Nat × BitVec 8) : VWord × BitVec 8 :=
  let r := (List.range (512 / w)).map fun i => if laneOn m w i then f i else (lane w old i, 0)
  (packL w (r.map (·.1)), orFlags r)

/-! ### Arithmetic (R194, R195) -/

inductive VArith where | add | sub | mul
  deriving DecidableEq, Repr

def arithFp (op : VArith) (f : Fmt) (r : Rnd) (a b : Nat) : Nat × BitVec 8 :=
  match op with
  | .add => f.add r a b
  | .sub => f.sub r a b
  | .mul => f.mul r a b

def arithInt (op : VArith) (w a b : Nat) : Nat :=
  match op with
  | .add => (a + b) % 2 ^ w
  | .sub => (a + 2 ^ w - b) % 2 ^ w
  | .mul => a * b % 2 ^ w

def arithLane (op : VArith) (m : VMod) (a b : Nat) : Nat × BitVec 8 :=
  match m with
  | .fp f r => arithFp op (fmtOf f) r a b
  | .int t => (arithInt op (tyWidth t) a b, 0)

def fmaLane (m : VMod) (a b c : Nat) : Nat × BitVec 8 :=
  match m with
  | .fp f r => (fmtOf f).fma r a b c
  | .int t => ((a * b + c) % 2 ^ tyWidth t, 0)

def minmaxLane (mx : Bool) (t : VTy) (a b : Nat) : Nat × BitVec 8 :=
  match t with
  | .fp f => (fmtOf f).minmax mx a b
  | .int t => (if (decide (intOf t a ≤ intOf t b)) != mx then a else b, 0)

/-- VABS and VNEG (R195). -/
def signLane (neg : Bool) (t : VTy) (a : Nat) : Nat × BitVec 8 :=
  match t with
  | .fp f =>
    let F := fmtOf f
    F.withNF ((F.nanOf [a]).getD
      (if neg then (if a < F.signBit then a + F.signBit else a - F.signBit) else a % F.signBit, 0))
  | .int t =>
    let w := tyWidth t
    (if neg then (2 ^ w - a) % 2 ^ w else if intOf t a < 0 then (2 ^ w - a) % 2 ^ w else a, 0)

/-! ### Comparison and classes (R196, R198) -/

def cmpLane (c : VCond) (t : VTy) (tot : Bool) (a b : Nat) : Bool × BitVec 8 :=
  match t with
  | .fp f => if tot then ((fmtOf f).cmpTot c a b, 0) else (fmtOf f).cmp c a b
  | .int t =>
    let x := intOf t a
    let y := intOf t b
    (match c with
      | .eq => decide (x = y)
      | .ne => decide (x ≠ y)
      | .lt => decide (x < y)
      | .le => decide (x ≤ y)
      | .gt => decide (x > y)
      | .ge => decide (x ≥ y)
      | _ => false, 0)

/-- Bits of pD that VCMP writes: bit j holds when the condition holds in every lane that maps to it, and is left alone
where no such lane is active (R196). -/
def cmpBits (m : BitVec 16) (w : Nat) (old : BitVec 16) (f : Nat → Bool) : BitVec 16 :=
  BitVec.ofNat 16 (packNat 1 ((List.range 16).map fun j =>
    if m.getLsbD (if w = 64 then j / 2 * 2 else j) then
      (if w ≤ 32 then (if (List.range (32 / w)).all fun i => f (j * (32 / w) + i) then 1 else 0)
       else if f (j / 2) then 1 else 0)
    else if old.getLsbD j then 1 else 0))

/-- The class of a value as one bit (R198). -/
def classLane (f : Fmt) (x : Nat) : Nat :=
  let sub := x / 2 ^ f.mb % 2 ^ f.eb == 0
  match f.unpack x with
  | .nan _ sig => if sig then 1 else 2
  | .inf neg => if neg then 4 else 512
  | .fin neg m _ =>
    if m = 0 then (if neg then 32 else 64)
    else if neg then (if sub then 16 else 8)
    else if sub then 128 else 256

/-! ### Logic and shifts (R199) -/

def logLane (op : VLogOp) (w a b : Nat) : Nat :=
  match op with
  | .and => a &&& b
  | .or => a ||| b
  | .xor => a ^^^ b
  | .andn => a &&& (2 ^ w - 1 - b)
  | .not => 2 ^ w - 1 - a

def shLane (op : VShOp) (w a b : Nat) : Nat :=
  let s := b % w
  match op with
  | .shl => a * 2 ^ s % 2 ^ w
  | .shr => a / 2 ^ s
  | .sar => a / 2 ^ s + (if 2 ^ (w - 1) ≤ a then 2 ^ w - 2 ^ (w - s) else 0)
  | .rot => a / 2 ^ s + a % 2 ^ s * 2 ^ (w - s)

/-! ### Conversion (R200, R201) -/

def fullWidth : FullTy → Nat
  | .i64 => 64 | .i32 => 32 | .i16 => 16 | .i8 => 8 | .n64 => 64 | .n32 => 32 | .n16 => 16 | .n8 => 8
  | .f32 => 32 | .f64 => 64 | .f16 => 16 | .bf16 => 16 | .e4 => 8 | .e5 => 8 | .pb8 => 8 | .pb4 => 4
  | .mx8e4 => 8 | .mx8e5 => 8 | .mx4 => 4 | .mxi8 => 8 | .mx6e2 => 6 | .mx6e3 => 6

/-- Elements of a type in a register (R200). -/
def fullLanes (t : FullTy) : Nat := if fullWidth t = 6 then 64 else 512 / fullWidth t

def isMx : FullTy → Bool
  | .mx8e4 => true | .mx8e5 => true | .mx4 => true | .mxi8 => true | .mx6e2 => true | .mx6e3 => true
  | _ => false

def fullFmt : FullTy → Option Fmt
  | .f32 => some fmtF32 | .f64 => some fmtF64 | .f16 => some fmtF16 | .bf16 => some fmtBf16
  | _ => none

def fullInt : FullTy → Option IntTy
  | .i64 => some .i64 | .i32 => some .i32 | .i16 => some .i16 | .i8 => some .i8
  | .n64 => some .n64 | .n32 => some .n32 | .n16 => some .n16 | .n8 => some .n8
  | _ => none

/-- Scale of block b in a header lane (R46). -/
def mxScale (h : BitVec 128) (b : Nat) : Nat := h.toNat / 2 ^ (8 * b) % 256

/-- One element converted to a type that is no MX type (R48). -/
def cvtElem (d t : FullTy) (r : Rnd) (x scale : Nat) : Nat × BitVec 8 :=
  match fullFmt t with
  | some sf =>
    match fullFmt d, fullInt d with
    | some df, _ => cvtIeee sf df r x
    | none, some it => cvtToInt sf it r x
    | none, none => if d = .e4 then cvtE4 sf r x else cvtIeee sf fmtE5 r x
  | none =>
    let df := (fullFmt d).getD fmtF32
    match fullInt t with
    | some it => cvtFromInt it df r x
    | none =>
      match t with
      | .e4 => cvtFromFp8 fmtE4 df x
      | .e5 => cvtFromFp8 fmtE5 df x
      | t => cvtFromMx t df r x scale

/-- Source elements of a conversion, each with its scale (R200): `va` and `vb` with their header lanes, `g` the part. -/
def cvtSources (d t : FullTy) (va vb : VWord × BitVec 128) (g : Nat) : List (Nat × Nat) :=
  let w := fullWidth t
  let ls := fullLanes t
  let ld := fullLanes d
  let el := fun (v : VWord × BitVec 128) (j : Nat) => (lane w v.1 j, if isMx t then mxScale v.2 (j / 32) else 0)
  if fullWidth d < w then
    (List.range (min ld (2 * ls))).map fun k => if k < ls then el va k else el vb (k - ls)
  else if fullWidth d = w then (List.range ld).map (el va)
  else
    let p := g % (ls / ld)
    (List.range ld).map fun k => el va (p * ld + k)

/-- Blocks of 32 values. -/
def chunks32 (l : List FV) : Nat → List (List FV)
  | 0 => []
  | n + 1 => l.take 32 :: chunks32 (l.drop 32) n

/-- VCVT: the register, its header lane and the flags. -/
def cvtReg (d t : FullTy) (r : Rnd) (m : BitVec 16) (old : VWord) (va vb : VWord × BitVec 128) (g : Nat) :
    VWord × BitVec 128 × BitVec 8 :=
  let src := cvtSources d t va vb g
  let w := fullWidth d
  if isMx d then
    let f := (fullFmt t).getD fmtF32
    let bs := (chunks32 (src.map fun e => f.unpack e.1) (src.length / 32)).map (mxBlock d)
    (packL w (bs.flatMap fun b => b.2.1), BitVec.ofNat 128 (packNat 8 (bs.map (·.1))),
     bs.foldl (fun a b => a ||| b.2.2) 0)
  else
    let (v, fl) := mapLanes m w old fun i =>
      match src[i]? with
      | some e => cvtElem d t r e.1 e.2
      | none => (0, 0)
    (v, 0, fl)

/-! ### Reductions and prefix sums (R203, R204, R62, R63) -/

/-- A node of a VRED tree, and its flags. -/
def redNode (op : VRedOp) (m : VMod) (a b : Nat) : Nat × BitVec 8 :=
  match op with
  | .sum => arithLane .add m a b
  | .min => minmaxLane false (vmodTy m) a b
  | .max => minmaxLane true (vmodTy m) a b
  | .and => (a &&& b, 0)
  | .or => (a ||| b, 0)

/-- One level of the tree: pairs combined, absent operands passed over (R63). -/
def redLevel (op : VRedOp) (m : VMod) : List (Option Nat) → List (Option Nat) × BitVec 8
  | a :: b :: l =>
    let (r, fl) := redLevel op m l
    match a, b with
    | some x, some y => let (z, g) := redNode op m x y; (some z :: r, fl ||| g)
    | some x, none => (some x :: r, fl)
    | none, y => (y :: r, fl)
  | l => (l, 0)

def redTree (op : VRedOp) (m : VMod) (l : List (Option Nat)) : Nat → Option Nat × BitVec 8
  | 0 => (l.headD none, 0)
  | n + 1 =>
    let (l', fl) := redLevel op m l
    let (r, g) := redTree op m l' n
    (r, fl ||| g)

/-- The value of a wholly absent reduction (R63, R203). -/
def redEmpty (op : VRedOp) (m : VMod) : Nat :=
  match m with
  | .fp f _ =>
    let F := fmtOf f
    match op with
    | .min => F.inf
    | .max => F.signBit + F.inf
    | _ => 0
  | .int t =>
    let w := tyWidth t
    match op with
    | .min => if tySigned t then 2 ^ (w - 1) - 1 else 2 ^ w - 1
    | .max => if tySigned t then 2 ^ (w - 1) else 0
    | .and => 2 ^ w - 1
    | _ => 0

/-- NF for a value written in a lane type (R54). -/
def nfOf (t : VTy) (x : Nat) : BitVec 8 :=
  match t with
  | .fp f => ((fmtOf f).withNF (x, 0)).2
  | .int _ => 0

def redReg (op : VRedOp) (md : VMod) (m : BitVec 16) (va : VWord) : VWord × BitVec 8 :=
  let t := vmodTy md
  let w := vtyWidth t
  let (r, fl) := redTree op md ((List.range (512 / w)).map fun i => if laneOn m w i then some (lane w va i) else none) 6
  let x := r.getD (redEmpty op md)
  (packL w [x], (fl &&& ~~~flagNF) ||| nfOf t x)

/-- Prefix sums from the left. The first present lane stays as it is, with no addition to the +0 of absent lanes before it (DESIGN
CHOICE, entry 94: R62 could mean one). -/
def scanFrom (md : VMod) (acc : Option Nat) : List (Option Nat) → List Nat × BitVec 8
  | [] => ([], 0)
  | x :: l =>
    let (y, fl) : Option Nat × BitVec 8 :=
      match acc, x with
      | some a, some b => let (z, g) := arithLane .add md a b; (some z, g)
      | some a, none => (some a, 0)
      | none, y => (y, 0)
    let (r, g) := scanFrom md y l
    (y.getD 0 :: r, fl ||| g ||| nfOf (vmodTy md) (y.getD 0))

def scanReg (md : VMod) (m : BitVec 16) (va : VWord) : VWord × BitVec 8 :=
  let w := vtyWidth (vmodTy md)
  let (r, fl) := scanFrom md none ((List.range (512 / w)).map fun i => if laneOn m w i then some (lane w va i) else none)
  (packL w r, fl)

/-! ### Broadcast (R206) -/

/-- The value VBCAST writes, and its flags. -/
def bcastVal (t : VTy) (g : Word) : Src → Nat × BitVec 8
  | .reg _ => (g.toNat % 2 ^ vtyWidth t, 0)
  | .imm i =>
    match t, i with
    | .int t, i => ((immTy t i).toNat % 2 ^ tyWidth t, 0)
    | .fp .f32, .i16 v => (v.toNat * 2 ^ 16, 0)
    | .fp .f32, .i32 v => (v.toNat, 0)
    | .fp .f64, .i16 v => let (x, fl) := cvtIeee fmtBf16 fmtF64 .rne v.toNat; (x, fl &&& flagNV)
    | .fp .f64, .i32 v => let (x, fl) := cvtIeee fmtF32 fmtF64 .rne v.toNat; (x, fl &&& flagNV)
    | .fp _, .i16 v => (v.toNat, 0)
    | .fp _, .i32 v => (v.toNat % 2 ^ 16, 0)

/-! ### Issue of a vector operation (R190, R192) -/

/-- The issue of a head with a lane mask: it waits for its predicate, then retires with no effect where the guard does
not hold (R190), else issues. -/
def issueMasked (f : Form) (holds : State → Bool) (body : State → Act) (s : State) : Host.Outcome State Fault Refusal :=
  if ((s.core s.cur.core).pendingRegs s.cur.slot).contains (.p f.q.p) then .next (s.waitFor .pendingReg)
  else if !holds s then .next (s.retire 0)
  else issue { f with q := Guard.always } body s

/-- Whether some lane of width w is active. -/
def anyLane (q : Guard) (w : Nat) (s : State) : Bool :=
  (if w = 64 then s.me.r.mask q &&& 0x5555 else s.me.r.mask q) != 0

def vform (q : Guard) (cls : Fin 32) (vs : List (Fin 16)) (srcs : List GOp := []) (extra : List Reg := []) : Form :=
  { q := q, srcs := srcs, regs := srcs.map gopReg ++ vs.map Reg.v ++ extra, cls := cls }

/-- Queue an operation in the vector unit. -/
def State.vop (s : State) (ws : List RegWrite) (fl : BitVec 8) : State :=
  s.modCore s.cur.core fun c => { c with vops := c.vops ++ [⟨s.cur.slot, ws, fl⟩] }

/-- An operation that writes lanes of width `w` of one V register: its element bits, header lane and flags. -/
def vissue (q : Guard) (cls : Fin 32) (w : Nat) (d : Fin 16) (srcs : List (Fin 16)) (f : State → BitVec 16 → VWord × BitVec 128 × BitVec 8)
    (gs : List GOp := []) (extra : List Reg := []) (s : State) : Host.Outcome State Fault Refusal :=
  issueMasked (vform q cls (d :: srcs) gs extra) (anyLane q w)
    (fun t => let r := f t (s.me.r.mask q); .ok (t.vop [.v d r.1 r.2.1] r.2.2)) s

/-- A lanewise operation: `f i` in the active lanes, the header lane zero (R189). -/
def vlanes (q : Guard) (cls : Fin 32) (w : Nat) (d : Fin 16) (srcs : List (Fin 16)) (f : State → Nat → Nat × BitVec 8)
    (gs : List GOp := []) (extra : List Reg := []) (s : State) : Host.Outcome State Fault Refusal :=
  vissue q cls w d srcs (fun t m => let r := mapLanes m w (t.rdV d) (f t); (r.1, 0, r.2)) gs extra s

/-- Energy class of lane arithmetic (R344). -/
def vclass : VTy → Fin 32
  | .int _ => 8
  | .fp .f32 => 10
  | .fp .f64 => 11
  | .fp _ => 9

/-- Charge further events of a class for the issuing slot. -/
def State.chargeMore (s : State) (c : Fin 32) (n : Nat) : State := s.charge s.cur.core s.cur.slot c n

end Sys2Proof.Machine
end

