-- ==== Sys2Proof/Machine/Blocks.lean ====
section
/-! DEFINITION. PB8 and PB4 blocks (R31 to R37, R210 to R213): values, quantisation, addition and packing. -/

namespace Sys2Proof.Machine

/-- A block: its exponent, its micro-exponent bits, and its elements as signed magnitudes (R31, R32). -/
structure Blk where
  e : Nat
  d : Nat
  el : List Int
  deriving DecidableEq, Repr

def isPb4 : BlkTy → Bool
  | .pb4 => true
  | .pb8 => false

/-- P of R32. -/
def pbP (k : BlkTy) : Int := if isPb4 k then 2 else 6
/-- MMAX of R35. -/
def pbMax (k : BlkTy) : Nat := if isPb4 k then 7 else 127
/-- HLIM of R36. -/
def pbLim (k : BlkTy) : Nat := if isPb4 k then 4 else 64
/-- Bits of an element. -/
def pbBits (k : BlkTy) : Nat := if isPb4 k then 4 else 8
/-- Blocks in a register (R34). -/
def pbCount (k : BlkTy) : Nat := if isPb4 k then 8 else 4

/-- The NaN block the device writes (R32). -/
def Blk.nan : Blk := ⟨0xFF, 0, List.replicate 16 0⟩
def Blk.zero : Blk := ⟨0, 0, List.replicate 16 0⟩
def Blk.isNan (b : Blk) : Bool := b.e == 0xFF

/-- d of element i. -/
def Blk.dOf (b : Blk) (i : Nat) : Nat := b.d / 2 ^ (i / 2) % 2

/-- An element's code as a signed magnitude, and back; −0 is +0 (R32). -/
def elemOf (k : BlkTy) (x : Nat) : Int :=
  let h := 2 ^ (pbBits k - 1)
  if h ≤ x then -((x - h : Nat) : Int) else x
def elemCode (k : BlkTy) (v : Int) : Nat := if v < 0 then 2 ^ (pbBits k - 1) + v.natAbs else v.natAbs

/-- A block from 16 element codes and a header (R31, R33). -/
def blkOf (k : BlkTy) (codes : List Nat) (hdr : Nat) : Blk := ⟨hdr % 256, hdr / 256 % 256, codes.map (elemOf k)⟩
def Blk.hdr (b : Blk) : Nat := b.d * 256 + b.e
def Blk.codes (b : Blk) (k : BlkTy) : List Nat := b.el.map (elemCode k)

/-- Block b of a register (R34). -/
def regBlk (k : BlkTy) (v : VWord) (h : BitVec 128) (b : Nat) : Blk :=
  blkOf k ((List.range 16).map fun i => lane (pbBits k) v (16 * b + i)) (h.toNat / 2 ^ (16 * b))

/-- Blocks of a register, element bits and headers; header bits beyond the last header zero (R34). -/
def packBlks (k : BlkTy) (l : List Blk) : VWord × BitVec 128 :=
  (packL (pbBits k) (l.flatMap fun b => b.codes k), BitVec.ofNat 128 (packNat 16 (l.map Blk.hdr)))

/-- The exact value of element i of a block that is no NaN block (R32). -/
def Blk.val (b : Blk) (k : BlkTy) (i : Nat) : FV :=
  let v := b.el.getD i 0
  .fin (decide (v < 0)) v.natAbs (b.e - 127 - pbP k - b.dOf i)

def FV.isInf : FV → Bool
  | .inf _ => true
  | _ => false

def FV.neg : FV → Bool
  | .nan a _ => a
  | .inf a => a
  | .fin a _ _ => a

def FV.isZero : FV → Bool
  | .fin _ m _ => m == 0
  | _ => false

/-- |v| < 2^t. -/
def FV.below (v : FV) (t : Int) : Bool :=
  match v with
  | .fin _ m e => m == 0 || decide (e + Nat.log2 m < t)
  | _ => false

/-- rne(|v| / 2^s): the integer and whether it differs; an infinity gives `big`. -/
def FV.quot (v : FV) (s : Int) (big : Nat) : Nat × Bool :=
  match v with
  | .fin _ m e => roundAt .rne false m e s
  | _ => (big, true)

/-- Micro-exponent bits from a test of each pair. -/
def pairBits (f : Nat → Bool) : Nat := packNat 1 ((List.range 8).map fun j => if f j then 1 else 0)

/-- d bits and rounded magnitudes of a block at exponent E (R35). -/
def quantAt (k : BlkTy) (l : List FV) (E : Int) : Nat × List (Nat × Bool) :=
  let small := fun i => (l.getD i (.fin false 0 0)).below (E - 128)
  let d := pairBits fun j => small (2 * j) && small (2 * j + 1)
  (d, (List.range 16).map fun i =>
    (l.getD i (.fin false 0 0)).quot (E - 127 - pbP k - (d / 2 ^ (i / 2) % 2 : Nat)) (pbMax k + 1))

/-- The procedure of R35 on 16 exact values. -/
def quantise (k : BlkTy) (l : List FV) : Blk × BitVec 8 :=
  if l.any FV.isNan then (.nan, flagNV)
  else
    let start : Option Int :=
      if l.any FV.isInf then some 0xFE else (maxLog l).map fun m => satInt (m + 127) 0 0xFE
    match start with
    | none => (.zero, 0)
    | some e0 =>
      let tooBig := fun (q : Nat × List (Nat × Bool)) => q.2.any fun x => decide (pbMax k < x.1)
      let q0 := quantAt k l e0
      let grow := tooBig q0 && decide (e0 < 0xFE)
      let E := if grow then e0 + 1 else e0
      let q := if grow then quantAt k l E else q0
      let vals := q.2.map fun x => if pbMax k < x.1 then (pbMax k, true) else x
      let fl := (if tooBig q then flagBSAT else 0) ||| (if vals.any (·.2) then flagNX else 0) |||
        (if (List.range 16).any fun i => !(l.getD i (.fin false 0 0)).isZero && (vals.getD i (0, false)).1 == 0 then flagUF
         else 0)
      (⟨E.toNat, q.1, (List.range 16).map fun i => sgn (l.getD i (.fin false 0 0)).neg (vals.getD i (0, false)).1⟩, fl)

/-! ### Packing (R36) -/

/-- d bits of pack. -/
def packD (k : BlkTy) (t : List Int) : Nat :=
  pairBits fun j => (t.getD (2 * j) 0).natAbs < pbLim k && (t.getD (2 * j + 1) 0).natAbs < pbLim k

/-- Signed magnitudes at the d bits, and whether a halving discards a bit. -/
def packQ (d : Nat) (t : List Int) : List Int × Bool :=
  let r := t.zipIdx.map fun (x, i) => if d / 2 ^ (i / 2) % 2 = 1 then (x, false) else (rneShiftInt x 1, x % 2 != 0)
  (r.map (·.1), r.any (·.2))

def clampEl (mx : Nat) (v : Int) : Int := satInt v (-(mx : Int)) mx

/-- pack(t, E) of R36, growing at most `fuel` times; `hold` keeps E (R213). -/
def pack (k : BlkTy) (hold : Bool) (t : List Int) (E : Nat) (fl : BitVec 8) : Nat → Blk × BitVec 8
  | 0 => (⟨E, packD k t, (packQ (packD k t) t).1.map (clampEl (pbMax k))⟩, fl ||| flagBSAT)
  | fuel + 1 =>
    let d := packD k t
    let (q, lost) := packQ d t
    let fl' := if lost then fl ||| flagNX else fl
    if q.all fun x => decide (x.natAbs ≤ pbMax k) then (⟨E, d, q⟩, fl')
    else if hold || E = 0xFE then (⟨E, d, q.map (clampEl (pbMax k))⟩, fl' ||| flagBSAT)
    else pack k hold (t.map fun x => rneShiftInt x 1) (E + 1) (if t.any fun x => x % 2 != 0 then fl ||| flagNX else fl) fuel

/-- An element on the fine grid of its block (R36). -/
def Blk.fine (b : Blk) (i : Nat) : Int := b.el.getD i 0 * 2 ^ (1 - b.dOf i)

/-- x / 2^n rounded to nearest even, and whether a bit is discarded. -/
def shiftLoss (x : Int) (n : Nat) : Int × Bool := (rneShiftInt x n, x % 2 ^ n != 0)

/-- Block addition (R36, R37). -/
def addBlk (k : BlkTy) (a b : Blk) : Blk × BitVec 8 :=
  if a.isNan || b.isNan then (.nan, flagNF)
  else
    let E := max a.e b.e
    let r := (List.range 16).map fun i =>
      let x := shiftLoss (a.fine i) (E - a.e)
      let y := shiftLoss (b.fine i) (E - b.e)
      (x.1 + y.1, x.2 || y.2)
    pack k false (r.map (·.1)) E (if r.any (·.2) then flagNX else 0) 4

/-! ### The block instructions (R211 to R217) -/

/-- BMUL: the exact products, quantised, NV apart (R211). -/
def mulBlk (k : BlkTy) (a b : Blk) : Blk × BitVec 8 :=
  if a.isNan || b.isNan then (.nan, flagNF)
  else
    let (r, fl) := quantise k ((List.range 16).map fun i => ((a.val k i).mul (b.val k i)).getD (.fin false 0 0))
    (r, fl &&& ~~~flagNV)

/-- BFMA (R211). -/
def fmaBlk (k : BlkTy) (a b c : Blk) : Blk × BitVec 8 :=
  if a.isNan || b.isNan || c.isNan then (.nan, flagNF)
  else
    let (p, fl) := mulBlk k a b
    let (r, fl') := addBlk k p c
    (r, fl ||| fl')

/-- One pair of lpack (R212): d and the two magnitudes. -/
def lpackPair (k : BlkTy) (u v : Nat) : Option (Bool × Nat × Nat) :=
  if u < pbLim k ∧ v < pbLim k then some (true, u, v)
  else if u % 2 = 0 ∧ v % 2 = 0 ∧ u / 2 ≤ pbMax k ∧ v / 2 ≤ pbMax k then some (false, u / 2, v / 2)
  else if u ≤ pbMax k ∧ v ≤ pbMax k then some (true, u, v)
  else none

def lpack (k : BlkTy) (t : List Int) (e : Nat) : Option Blk :=
  let ps := (List.range 8).map fun j => lpackPair k (t.getD (2 * j) 0).natAbs (t.getD (2 * j + 1) 0).natAbs
  if ps.any Option.isNone then none
  else
    let qs := ps.map fun p => p.getD (false, 0, 0)
    some ⟨e, pairBits fun j => (qs.getD j (false, 0, 0)).1,
      (List.range 16).map fun i =>
        let p := qs.getD (i / 2) (false, 0, 0)
        sgn (decide (t.getD i 0 < 0)) (if i % 2 = 0 then p.2.1 else p.2.2)⟩

/-- The smallest exponent from `e` that holds the block (R212). -/
def normFrom (k : BlkTy) (b : Blk) (e : Nat) : Nat → Blk
  | 0 => b
  | fuel + 1 =>
    match lpack k ((List.range 16).map fun i => b.fine i * 2 ^ (b.e - e)) e with
    | some r => r
    | none => normFrom k b (e + 1) fuel

/-- BNORM (R212). -/
def normBlk (k : BlkTy) (b : Blk) : Blk × BitVec 8 :=
  if b.isNan then (.nan, flagNF)
  else if b.el.all fun x => x == 0 then (.zero, 0)
  else (normFrom k b 0 (b.e + 1), 0)

/-- BRENORM to exponent T (R213). -/
def renormBlk (k : BlkTy) (T : Nat) (b : Blk) : Blk × BitVec 8 :=
  if b.isNan then (.nan, flagNF)
  else
    let r := (List.range 16).map fun i =>
      if T ≤ b.e then (b.fine i * 2 ^ (b.e - T), false) else shiftLoss (b.fine i) (T - b.e)
    pack k true (r.map (·.1)) T (if r.any (·.2) then flagNX else 0) 1

/-- BSCALE by an exact value (R216). -/
def scaleBlk (k : BlkTy) (s : FV) (b : Blk) : Blk × BitVec 8 :=
  if b.isNan then (.nan, flagNF)
  else
    let (r, fl) := quantise k ((List.range 16).map fun i => (s.mul (b.val k i)).getD (.nan false false))
    (r, if r.isNan then fl ||| flagNF else fl)

/-- T of R217 on the grid 2^(EA + EB − 256 − 2P), and whether every term is −0 (R405). -/
def dotTerms (a b : Blk) : List Int :=
  (List.range 16).map fun i => a.fine i * b.fine i
def dotNegZero (a b : Blk) : Bool :=
  (List.range 16).all fun i =>
    let x := a.el.getD i 0
    let y := b.el.getD i 0
    (x == 0 || y == 0) && (decide (x < 0) != decide (y < 0))

/-- BDOT on one lane (R217). -/
def dotLane (k : BlkTy) (a b : Blk) (c : Nat) : Nat × BitVec 8 :=
  if a.isNan || b.isNan then (fmtF32.nan, flagNV ||| flagNF)
  else
    let T := (dotTerms a b).foldl (· + ·) 0
    let tv := FV.fin (if T = 0 then dotNegZero a b else decide (T < 0)) T.natAbs (a.e + b.e - 256 - 2 * pbP k)
    fmtF32.withNF ((fmtF32.nanOf [c]).getD (fmtF32.addV .rne (fmtF32.unpack c) tv))

/-! ### Masks -/

/-- Whether block b is active (R190). -/
def blkOn (k : BlkTy) (m : BitVec 16) (b : Nat) : Bool := m.getLsbD (if isPb4 k then 2 * b else 4 * b)

def anyBlk (q : Guard) (k : BlkTy) (s : State) : Bool :=
  (List.range (pbCount k)).any (blkOn k (s.me.r.mask q))

end Sys2Proof.Machine
end

