-- ==== Sys2Proof/Machine/Translate.lean ====
section
/-! DEFINITION. Address translation (14), homes of addresses (R393), the order log (R389, R390), watches (R118) and global
memory (R120). -/

namespace Sys2Proof.Machine

/-! ### Homes (R393) -/

/-- The home of a device physical address. -/
inductive Home where
  | mem (q : Nat)
  | host (h : Nat)
  | remote (t : Nat) (ap : Bool) (off : Nat)
  deriving DecidableEq, Repr

def homeOf (d : Nat) : Option Home :=
  if d < 2 ^ 45 then some (.mem (d / 2 ^ 39))
  else if d < 2 ^ 46 then some (.host (d / 2 ^ 44 % 2))
  else if d < 2 ^ 47 then some (.remote (d / 2 ^ 38 % 256) (d / 2 ^ 37 % 2 == 1) (d % 2 ^ 37))
  else none

/-- Tenant entry t (R400). -/
def State.tenant (s : State) (t : Nat) : Word := s.regs.tenants[Fin.ofNat 256 t]
def tenantNq (e : Word) : Nat := (e.extractLsb' 53 6).toNat
def tenantLvf (e : Word) : Nat := (e.extractLsb' 44 9).toNat
def tenantPvf (e : Word) : Nat := (e.extractLsb' 35 9).toNat

/-- The quay that performs accesses to an address (R120). -/
def State.quayOf (s : State) (d : Nat) : Nat :=
  match homeOf d with
  | some (.mem q) => q
  | some (.host h) => 64 + h
  | some (.remote t _ _) => 66 + tenantNq (s.tenant t)
  | none => 0

/-- Whether an address is module or host memory with a device behind it. -/
def State.decodes (s : State) (d : Nat) : Bool :=
  match homeOf d with
  | some (.mem q) => decide (d % 2 ^ 39 < (s.quay q).cap)
  | some (.host h) => !(s.quay (64 + h)).pcie
  | _ => false

/-- Whether an access is decoded (R393, R399 to R401): `acc` of R314, of which AMOGs and counter adds are atomics and need
READ and WRITE; `whole` for an STGV of every lane or a 64-byte COPY tile. -/
def State.reachable (s : State) (vf : Nat) (acc : BitVec 8) (whole : Bool) (d : Nat) : Bool :=
  match homeOf d with
  | some (.remote t ap off) =>
    let e := s.tenant t
    let rd := acc == 0 || acc == 2 || acc == 5 || acc == 6 || acc == 7 || acc == 9
    let wr := acc == 1 || acc == 2 || acc == 5 || acc == 8
    e.getLsbD 63 && tenantLvf e == vf && (rd || wr) &&
    (if ap then (acc == 1 || acc == 8) && whole && ((off == 0 && e.getLsbD 62) || (off == 0x40 && e.getLsbD 61))
     else (!rd || e.getLsbD 59) && (!wr || e.getLsbD 60))
  | _ => s.decodes d

/-- `n` bytes at a DPA (R5); those of another module are free values (R401). -/
def State.homeLE (s : State) (d n : Nat) : Nat :=
  match homeOf d with
  | some (.remote _ _ _) => (leBytes ((List.range n).map fun i => (Config.remote s.free (d + i)).extractLsb' 0 8))
  | _ => s.gmem.readLE d n

/-! ### Walks (R309 to R312, R320, R321) -/

/-- Entry bits (R311). -/
def pteAddr (e : Word) : Nat := (e &&& 0x0FFFFFFFFFFFC000#64).toNat

/-- MALFORMED of R312 at a level whose entries span 2^sh bytes. -/
def pteBad (stage2 : Bool) (n sh : Nat) (e : Word) : Bool :=
  let leaf := e.getLsbD 1
  e.extractLsb' 60 4 != 0#4 || e.extractLsb' 6 2 != 0#2 || (leaf && n == 1) || (!leaf && n == 4) ||
  (leaf && pteAddr e % 2 ^ sh != 0) || (!leaf && e.extractLsb' 2 4 != 0#4) || (e.getLsbD 3 && !e.getLsbD 2) ||
  (stage2 && e.getLsbD 5)

/-- A fault of a walk, at a level from 1. -/
def walkFault (kind : BitVec 4) (level : Nat) (stage2 tbl : Bool) (gpa : Nat) : XFault :=
  ⟨kind, BitVec.ofNat 2 (level - 1), stage2, tbl, BitVec.ofNat 64 gpa, 0⟩

/-- The levels and the bits below each one's span (R309). -/
def walkLevels : List (Nat × Nat) := [(1, 49), (2, 38), (3, 27), (4, 16)]

/-- A leaf: its output page, the bits below its size, its level and its entry. -/
structure Leaf where
  page : Nat
  bits : Nat
  level : Nat
  pte : Word
  deriving DecidableEq, Repr

/-- What a walk works with: the VF, the hub's cache, the reads made so far, and the number of the read whose line fails its
check twice (R368), 0 for none. -/
structure WalkSt where
  vf : Nat
  cache : List CacheEnt
  reads : Nat
  bad : Nat
  deriving DecidableEq, Repr

/-- The cached table entry of a stage and level for an address (R320). -/
def WalkSt.pte? (w : WalkSt) (stage2 : Bool) (n tag : Nat) : Option Word :=
  w.cache.findSome? fun e => match e with
    | .pte v st l t x => if v = w.vf ∧ st = stage2 ∧ l = n ∧ t = tag then some x else none
    | .trans _ _ _ _ _ _ => none

/-- The cached stage-2 translation of a stage-1 table address (R320). -/
def WalkSt.trans? (w : WalkSt) (gpa : Nat) : Option Leaf :=
  w.cache.findSome? fun e => match e with
    | .trans v b t p l x => if v = w.vf ∧ t = gpa / 2 ^ b then some ⟨p, b, l, x⟩ else none
    | .pte _ _ _ _ _ => none

/-- 4,096 entries; the oldest is replaced (R320: the order affects timing only; entry 86). -/
def WalkSt.keep (w : WalkSt) (e : CacheEnt) : WalkSt :=
  { w with cache := (if w.cache.length < 4096 then w.cache else w.cache.drop 1) ++ [e] }

/-- Walk a tree from `tbl`: each level from the cache, else read by `rd` at an address for a level; what is valid and well
formed at levels 1 to 3 is kept (R320, R321). -/
def walkTree (rd : WalkSt → Nat → Nat → WalkSt × Except XFault Word) (stage2 tblFault : Bool) (gpa a : Nat) (w : WalkSt)
    (tbl : Nat) : List (Nat × Nat) → WalkSt × Except XFault Leaf
  | [] => (w, .error (walkFault 1 4 stage2 tblFault gpa))
  | (n, sh) :: rest =>
    match w.pte? stage2 n (a / 2 ^ sh) with
    | some e =>
      if e.getLsbD 1 then (w, .ok ⟨pteAddr e, sh, n, e⟩) else walkTree rd stage2 tblFault gpa a w (pteAddr e) rest
    | none =>
      match rd w (tbl + 8 * (a / 2 ^ sh % 2048)) n with
      | (w, .error f) => (w, .error f)
      | (w, .ok e) =>
        if !e.getLsbD 0 then (w, .error (walkFault 0 n stage2 tblFault gpa))
        else if pteBad stage2 n sh e then (w, .error (walkFault 1 n stage2 tblFault gpa))
        else
          let w := if n ≤ 3 then w.keep (.pte w.vf stage2 n (a / 2 ^ sh) e) else w
          if e.getLsbD 1 then (w, .ok ⟨pteAddr e, sh, n, e⟩) else walkTree rd stage2 tblFault gpa a w (pteAddr e) rest

/-- Read a table entry at a DPA (R321); UNDECODED where no memory answers, or its line fails its check twice (R312, R368). -/
def State.readPte (s : State) (stage2 tbl : Bool) (gpa : Nat) (w : WalkSt) (d n : Nat) : WalkSt × Except XFault Word :=
  let w := { w with reads := w.reads + 1 }
  (w, if s.reachable w.vf 0 false d && w.reads != w.bad then .ok (BitVec.ofNat 64 (s.homeLE d 8))
      else .error (walkFault 6 n stage2 tbl gpa))

/-- Stage 2 of an address that stage 1 produced (R310); identity when it is disabled. -/
def State.stage2 (s : State) (c : PartCtx) (w : WalkSt) (gpa : Nat) (tbl : Bool) : WalkSt × Except XFault Leaf :=
  if !c.s2root.getLsbD 63 then (w, .ok ⟨0, 60, 1, 0x1E⟩)
  else match if tbl then w.trans? gpa else none with
    | some l => (w, .ok l)
    | none =>
      match walkTree (s.readPte true tbl gpa) true tbl gpa gpa w (pteAddr c.s2root) walkLevels with
      | (w, .error f) => (w, .error f)
      | (w, .ok l) => (if tbl then w.keep (.trans w.vf l.bits (gpa / 2 ^ l.bits) l.page l.level l.pte) else w, .ok l)

/-- The DPA of an address under its leaf. -/
def Leaf.apply (l : Leaf) (a : Nat) : Nat := l.page + a % 2 ^ l.bits

/-- Read a stage-1 entry, whose address is a GPA (R310). -/
def State.readPte1 (s : State) (c : PartCtx) (w : WalkSt) (a n : Nat) : WalkSt × Except XFault Word :=
  match s.stage2 c w a true with
  | (w, .error f) => (w, .error f)
  | (w, .ok l) => s.readPte false false 0 w (l.apply a) n

/-- The entry that a core keeps of two leaves (R310, R316). -/
def leafEntry (vf va now : Nat) (l1 l2 : Leaf) : TEntry :=
  let gpa := l1.apply va
  let bits := min l1.bits l2.bits
  let d := l2.apply gpa
  let p := l1.pte &&& l2.pte
  { vf := vf, va := va / 2 ^ bits * 2 ^ bits, bits := bits, dpa := d / 2 ^ bits * 2 ^ bits,
    gpa := gpa / 2 ^ l2.bits * 2 ^ l2.bits, gbits := l2.bits, r := p.getLsbD 2, w := p.getLsbD 3,
    x := p.getLsbD 4, u := l1.pte.getLsbD 5, r1 := l1.pte.getLsbD 2, w1 := l1.pte.getLsbD 3,
    x1 := l1.pte.getLsbD 4, lvl1 := BitVec.ofNat 2 (l1.level - 1), lvl2 := BitVec.ofNat 2 (l2.level - 1), used := now }

/-- A whole translation (R309, R310, R320): the cache after it, and the entry that a core would keep. -/
def State.walkVia (s : State) (c : PartCtx) (vf va : Nat) (cache : List CacheEnt) (bad : Nat) :
    List CacheEnt × Except XFault TEntry :=
  let va := va % 2 ^ 60
  if !c.s1root.getLsbD 63 then (cache, .error (walkFault 7 1 false false 0))
  else
    match walkTree (s.readPte1 c) false false 0 va ⟨vf, cache, 0, bad⟩ (pteAddr c.s1root) walkLevels with
    | (w, .error f) => (w.cache, .error f)
    | (w, .ok l1) =>
      match s.stage2 c w (l1.apply va) false with
      | (w, .error f) => (w.cache, .error f)
      | (w, .ok l2) => (w.cache, .ok (leafEntry vf va s.now l1 l2))

/-- A translation with no cache. -/
def State.walk (s : State) (c : PartCtx) (vf va : Nat) : Except XFault TEntry := (s.walkVia c vf va [] 0).2

def TEntry.covers (e : TEntry) (vf va : Nat) : Bool := e.vf == vf && va % 2 ^ 60 / 2 ^ e.bits == e.va / 2 ^ e.bits
def TEntry.apply (e : TEntry) (va : Nat) : Nat := e.dpa + va % 2 ^ e.bits
def TEntry.gpaOf (e : TEntry) (va : Nat) : Nat := e.gpa + (e.dpa + va % 2 ^ e.bits) % 2 ^ e.gbits

/-- A permission fault: of stage 2 where stage 1 alone would permit the access (R314). -/
def TEntry.permFault (e : TEntry) (va : Nat) (kind : BitVec 4) (first : Bool) : XFault :=
  if first then ⟨kind, e.lvl2, true, false, BitVec.ofNat 64 (e.gpaOf va), 0⟩ else ⟨kind, e.lvl1, false, false, 0, 0⟩

/-- UNDECODED of an address that an entry gives: its level is that of the leaf that gave the DPA, of stage 2 where that is
enabled, whose leaves are smaller than 2^60 bytes (R312). -/
def TEntry.undecoded (e : TEntry) (va : Word) : XFault :=
  { e.permFault va.toNat 6 (decide (e.gbits < 60)) with va := va }

/-- R315: what an access needs of its entry. -/
def TEntry.check (e : TEntry) (va : Nat) (acc : BitVec 8) (user : Bool) : Option XFault :=
  let rd := acc != 1 && acc != 5 && acc != 6 && acc != 8
  let wr := acc == 1 || acc == 2 || acc == 5 || acc == 8
  if rd && !e.r then some (e.permFault va 2 e.r1)
  else if wr && !e.w then some (e.permFault va 3 e.w1)
  else if acc == 6 && !e.x then some (e.permFault va 4 e.x1)
  else if user && !e.u then some (e.permFault va 5 false)
  else none

/-- A translation made at one instant for an engine: walk, permission, decode (R312, R315), under a context's roots and from
a hub's cache. -/
def State.translateIn (s : State) (c : PartCtx) (vf : Nat) (va : Word) (acc : BitVec 8) (user whole : Bool)
    (cache : List CacheEnt := []) : Except XFault (Nat × TEntry) :=
  match (s.walkVia c vf va.toNat cache 0).2 with
  | .error f => .error { f with va := va }
  | .ok e =>
    match e.check va.toNat acc user with
    | some f => .error { f with va := va }
    | none =>
      let d := e.apply va.toNat
      if s.reachable vf acc whole d then .ok (d, e) else .error (e.undecoded va)

/-- The same under the roots of the VF that a partition runs. -/
def State.translateNow (s : State) (p vf : Nat) (va : Word) (acc : BitVec 8) (user whole : Bool)
    (cache : List CacheEnt := []) : Except XFault (Nat × TEntry) := s.translateIn (s.part p).ctx vf va acc user whole cache

/-- The same for a slot's access, whose level decides whether there is a translation at all (R310). -/
def State.translateFor (s : State) (k : CoreId) (sl : Fin 4) (va : Word) (acc : BitVec 8) (whole : Bool) :
    Except XFault Nat :=
  let x := s.slot k sl
  if 2 ≤ (lvlOf x).toNat then
    if s.reachable (gtidVf x.gtid) acc whole va.toNat then .ok va.toNat else .error ⟨6, 0, false, false, 0, va⟩
  else (s.translateNow (s.partNum k) (gtidVf x.gtid) va acc (lvlOf x == 0) whole (s.field (fieldOf k)).cache).map (·.1)

/-! ### Direct accesses and their ports (R316, R317) -/

def Core.portFor (c : Core) (vf va : Nat) : Option TEntry := c.ports.find? fun e => e.covers vf va

/-- An entry becomes the last used. -/
def Core.touch (c : Core) (e : TEntry) (now : Nat) : Core :=
  { c with ports := c.ports.map fun f => if f = e then { f with used := now } else f }

/-- The least used of a list of entries. -/
def oldestPort : List TEntry → Option TEntry
  | [] => none
  | e :: l => match oldestPort l with
    | none => some e
    | some f => if f.used < e.used then some f else some e

/-- Eight entries, the least recently used replaced (R316). -/
def Core.addPort (c : Core) (e : TEntry) : Core :=
  if c.ports.length < 8 then { c with ports := c.ports ++ [e] }
  else { c with ports := c.ports.filter (fun f => some f != oldestPort c.ports) ++ [e] }

/-- A miss arises (R316), once for a waiting head. -/
def State.noteMiss (s : State) (va : Word) (acc : BitVec 8) : State :=
  let k := s.cur.core
  let sl := s.cur.slot
  if (s.core k).misses.any fun m => m.party == some sl && m.va == va && m.acc == acc then s
  else
    (s.modCore k fun c => { c with misses := c.misses ++
      [⟨some sl, none, va, acc, lvlOf s.me == 0, gtidVf s.me.gtid, false⟩] }).count k 8 (some sl)

/-- What a head that waits has used (R316). -/
def Act.using (a : Act) (g : State → State) : Act :=
  match a with
  | .wait w f => .wait w fun s => f (g s)
  | a => a

/-- Translate a direct access of the issuing slot, then `k` with the DPA (R249, R316). -/
def xlate (s : State) (va : Word) (acc : BitVec 8) (whole : Bool) (k : State → Nat → Act) : Act :=
  match s.me.reply with
  | some (.fault f) => .xtrap f acc
  | _ =>
    if 2 ≤ (lvlOf s.me).toNat then
      match s.translateFor s.cur.core s.cur.slot va acc whole with
      | .error f => .xtrap f acc
      | .ok d => k s d
    else
      let vf := gtidVf s.me.gtid
      match (s.core s.cur.core).portFor vf va.toNat with
      | none => .wait .walk fun s => s.noteMiss va acc
      | some e =>
        match e.check va.toNat acc (lvlOf s.me == 0) with
        | some f => .xtrap { f with va := va } acc
        | none =>
          if s.reachable vf acc whole (e.apply va.toNat) then
            let used := fun (t : State) => t.modCore s.cur.core fun c => c.touch e s.now
            (k (used s) (e.apply va.toNat)).using used
          else .xtrap (e.undecoded va) acc

/-- Whether a request may join a walk (R319): its VF, VA page of 64 KiB and level are those of the walk. -/
def WalkReq.same (w r : WalkReq) : Bool :=
  w.miss.vf == r.miss.vf && w.miss.va.toNat % 2 ^ 60 / 2 ^ 16 == r.miss.va.toNat % 2 ^ 60 / 2 ^ 16 && w.miss.user == r.miss.user

/-- A request joins the first matching walk that has room, 1,024 waiters beside the request that started it. -/
def joinWalk (r : WalkReq) : List WalkReq → Option (List WalkReq)
  | [] => none
  | w :: l =>
    if w.started && w.same r && decide (w.waiters.length < 1024) then
      some ({ w with waiters := w.waiters ++ (r.core, r.miss) :: r.waiters } :: l)
    else (joinWalk r l).map (w :: ·)

/-- A request arrives, or is looked at again (R318, R319): it joins a walk, waits behind one that is full, starts a walk
where one of 256 is free, or waits in the queue. -/
def admitWalk (ws : List WalkReq) (r : WalkReq) : List WalkReq :=
  if ws.any fun w => w.started && w.same r then (joinWalk r ws).getD (ws ++ [r])
  else if (ws.filter (·.started)).length < 256 then ws ++ [{ r with started := true }]
  else ws ++ [r]

/-- Walks have ended: the waiting requests are looked at in arrival order (R318, R319). -/
def settleWalks (ws : List WalkReq) : List WalkReq := (ws.filter (!·.started)).foldl admitWalk (ws.filter (·.started))

/-- Window, then alignment, of a global access (R242). -/
def globalCheck (a : Word) (n : Nat) (k : Act) : Act :=
  if !isGlobal a then .trap 0x0A a else if !aligned a n then .trap 0x07 a else k

/-! ### Watches (R118, R119) -/

/-- The mode of the order log at a core: 0 off, 1 record, 2 replay (R389). -/
def State.logMode (s : State) (k : CoreId) : Nat :=
  match s.partOf k with
  | none => 0
  | some p => ((s.part p).ctx.ologctl.extractLsb' 62 2).toNat

/-- A slot's watch ends with a cause; EV is set (R178). In replay the log alone decides the causes other than WRITE (R278). -/
def State.endWatch (s : State) (k : CoreId) (sl : Fin 4) (cause : BitVec 3) : State :=
  if (s.slot k sl).watch.armed && (cause == 0 || s.logMode k != 2) then
    { s.modSlot k sl fun x => { x with ev := true, watch := { x.watch with armed := false, ended := some cause } } with
      watches := s.watches.filter fun w => !(w.core == k && w.slot == sl) }
  else s

/-- A slot in CNTWAIT whose counter has come to satisfy it (R117). -/
def State.countReached (s : State) (w : CntWait) : State :=
  let x := s.slot w.core w.slot
  if x.st = .wait ∧ x.wait = .counter ∧ w.bound ≤ s.gmem.readLE w.dpa 8 then
    s.modSlot w.core w.slot fun x => { x with reply := some (.value 0) }
  else s

/-- A held launch whose counter has reached its target (R336). -/
def State.depReached (s : State) (w : DepWait) : State :=
  if w.bound ≤ s.gmem.readLE w.dpa 8 then
    s.modPart w.part fun x => { x with launches := x.launches.map fun l =>
      if l.vf = w.vf ∧ l.num = w.num then { l with met := true } else l }
  else s

/-- A write is performed at a line: its watches end with WRITE (R118), and its counters are read again (R117, R336). -/
def State.lineWritten (s : State) (d : Nat) : State :=
  (s.deps.filter fun w => w.dpa / 64 == d / 64).foldl State.depReached
    ((s.cntwaits.filter fun w => w.dpa / 64 == d / 64).foldl State.countReached
      ((s.watches.filter fun w => w.line == d / 64 * 64).foldl (fun s w => s.endWatch w.core w.slot 0) s))

/-! ### The order log (R389, R390) -/

def PartCtx.logMode (c : PartCtx) : Nat := (c.ologctl.extractLsb' 62 2).toNat

/-- Segment of a field in its partition (R389). -/
def Partition.segOf (p : Partition) (f : Nat) : Nat := (fieldY f - p.fy0) * p.fw + (fieldX f - p.fx0)

/-- Bytes of a segment. -/
def PartCtx.segSize (c : PartCtx) : Nat := c.ologsize.toNat / 2 ^ 16 * 2 ^ 16

/-- VA of record i of a segment. -/
def PartCtx.recVa (c : PartCtx) (seg i : Nat) : Nat := c.ologbase.toNat + seg * c.segSize + 32 * i

/-- DPA of a byte of the log, under the partition's own translation. -/
def State.logDpa (s : State) (p : Nat) (va : Nat) : Option Nat :=
  match s.walk (s.part p).ctx 0 va with
  | .error _ => none
  | .ok e => if s.decodes (e.apply va) then some (e.apply va) else none

def State.logRead (s : State) (p va : Nat) : Nat :=
  match s.logDpa p va with
  | some d => s.gmem.readLE d 8
  | none => 0

/-- The record of a place with a number, from record i of a segment on; KIND 3 stands at quays only. -/
def State.findRec (s : State) (p seg place seq i : Nat) : Nat → Option (Nat × Nat × Nat)
  | 0 => none
  | fuel + 1 =>
    let va := (s.part p).ctx.recVa seg i
    let w := s.logRead p va
    if w / 2 ^ 56 = 0 then none
    else if w % 2 ^ 56 = place % 2 ^ 24 * 2 ^ 32 + seq ∧ (w / 2 ^ 56 = 3 ↔ 2 ^ 24 ≤ place) then some (w / 2 ^ 56, s.logRead p (va + 8), s.logRead p (va + 16))
    else s.findRec p seg place seq (i + 1) fuel

/-- Records that a segment has room for. -/
def PartCtx.segRoom (c : PartCtx) : Nat := c.segSize / 32

/-- Whether a choice names its object for good: not a rank, which may present several at once (R389, R390). -/
def firmKind (kind : Nat) : Bool := kind != 3 && kind != 5 && kind != 6 && kind != 7

/-- An order-sensitive choice at a place: recorded, or allowed only where the log has it (R389, R390). `error`: it is held
back, or its segment is full; where it calls for a stop, that is noted. -/
def State.order (s : State) (p place seg kind obj choice : Nat) : Except State State :=
  let c := (s.part p).ctx
  let w1 := (Config.logWord kind 1 obj).toNat
  let w2 := (Config.logWord kind 2 choice).toNat
  let bump := fun (s : State) => s.modCtx p fun c => c.bumpSeq place
  let due := fun (r : Nat) => s.modCtx p fun c => c.noteDue place r
  match c.logMode with
  | 1 =>
    let n := (mget c.segs seg).getD 0
    if c.segRoom ≤ n then .error s
    else
      let s := bump (s.modCtx p fun c => { c with segs := mset c.segs seg (n + 1) })
      match s.logDpa p (c.recVa seg n) with
      | none => .ok s
      | some d =>
        let m := s.gmem.writeLE d 8 (kind * 2 ^ 56 + place % 2 ^ 24 * 2 ^ 32 + c.nextSeq place % 2 ^ 32)
        .ok (State.lineWritten { s with gmem := ((m.writeLE (d + 8) 8 w1).writeLE (d + 16) 8 w2).writeLE (d + 24) 8 0 } d)
  | 2 =>
    match s.findRec p seg place (c.nextSeq place) 0 c.segRoom with
    | some (k, o, x) =>
      if k = kind ∧ o = w1 ∧ x = w2 then .ok (bump s)
      else if k = kind ∧ o = w1 then .error s
      else .error (due (if k = kind ∧ x = w2 ∧ firmKind kind then 2 else 4))
    | none => .error (due 3)
  | _ => .ok s

/-- A choice at a core. -/
def State.orderAt (s : State) (k : CoreId) (kind obj choice : Nat) : Except State State :=
  match s.partOf k with
  | none => .ok s
  | some p => s.order p (placeCore k) ((s.part p).segOf (fieldOf k)) kind obj choice

/-- A choice at a quay, for an access of a core's partition. -/
def State.orderQuay (s : State) (k : CoreId) (q kind obj choice : Nat) : Except State State :=
  match s.partOf k with
  | none => .ok s
  | some p => s.order p (placeQuay q) 0 kind obj choice

/-- What a choice held back has noted in another state (R390). -/
def State.keepDue (s u : State) (k : CoreId) : State :=
  match s.partOf k with
  | none => s
  | some p => if (s.part p).ctx.due = (u.part p).ctx.due then s else s.modCtx p fun c => { c with due := (u.part p).ctx.due }

/-- The choices of one action at a core: all of them, or none but for what the one held back has noted. -/
def State.orderAll (s : State) (k : CoreId) : List (State → Except State State) → Except State State
  | [] => .ok s
  | f :: l =>
    match f s with
    | .error e => .error e
    | .ok t => match t.orderAll k l with
      | .ok u => .ok u
      | .error e => .error (s.keepDue e k)

/-- An event whose choice the order log decides: where it is held back, only what that notes (R390). -/
def ordered (r : Except State State) (f : State → State) : Option State :=
  match r with
  | .ok s => some (f s)
  | .error s => some s

/-! Objects of KIND 2 and 8 (R389; DESIGN CHOICE, entry 92): an SRAM offset, or the number of a semaphore, a tag, a shape
record or a tile beside a mark of its kind. -/
def objSem (n : BitVec 8) : Nat := 2 ^ 16 + n.toNat
def objTag (n : Nat) : Nat := 2 ^ 17 + n
def objShape (n : Fin 8) : Nat := 2 ^ 18 + n.val
def objTile (n : Fin 4) : Nat := 2 ^ 19 + n.val

/-- An engine's access to a core's shared state (R19, R389); the engines are issuers 8 to 23. -/
def State.orderEngine (s : State) (k : CoreId) (obj issuer : Nat) : Except State State := s.orderAt k 2 obj issuer

/-- The signal of a command that completes is an access to its semaphore (R19). -/
def State.orderSignal (s : State) (k : CoreId) (d : Done) (issuer : Nat) : Except State State :=
  if d.inc = 0 then .ok s else s.orderEngine k (objSem d.ssem) issuer

/-- Lines that `n` bytes from `d` touch. -/
def linesOf (d n : Nat) : List Nat := (List.range ((d + n + 63) / 64 - d / 64)).map fun i => d / 64 * 64 + 64 * i

/-- Write memory and end the watches on it. -/
def State.gwrite (s : State) (d n v : Nat) : State :=
  (linesOf d n).foldl (fun s l => s.lineWritten l) { s with gmem := s.gmem.writeLE d n v }

def State.gwriteBytes (s : State) (d : Nat) (l : List Byte) : State :=
  if l.isEmpty then s
  else (linesOf d l.length).foldl (fun s x => s.lineWritten x) { s with gmem := s.gmem.writeBytes d l }

def State.gwriteMask (s : State) (d n v mask : Nat) : State :=
  if mask = 0 then s else (linesOf d n).foldl (fun s l => s.lineWritten l) { s with gmem := s.gmem.writeMask d n v mask }

def isRemote (d : Nat) : Bool := match homeOf d with | some (.remote _ _ _) => true | _ => false

/-! ### Control blocks and save areas (R331, R307) -/

/-- The control block of a VF, a word of it, and its save area's base. -/
def State.cbAddr (s : State) (vf : Nat) : Nat := s.regs.vfcbase.toNat + 64 * vf
def State.cbWord (s : State) (vf o : Nat) : Word := BitVec.ofNat 64 (s.gmem.readLE (s.cbAddr vf + o) 8)
def State.ctxBase (s : State) (vf : Nat) : Word := s.cbWord vf 0x28

/-- A field's block of the save area of a VF. -/
def State.saveBlock (s : State) (p vf f : Nat) : Nat := (s.ctxBase vf).toNat + (s.part p).segOf f * 0x80000000

/-- A VA of the save area written under the VF's translation, in pieces that lie in one page; a piece that has no translation,
or that another module holds, is not written (entry 57). -/
def State.saveBytes (s : State) (c : PartCtx) (vf : Nat) (va : Nat) (l : List Byte) : Nat → State
  | 0 => s
  | fuel + 1 =>
    if l.isEmpty then s
    else
      let m := 65536 - va % 65536
      let s := match s.translateIn c vf (BitVec.ofNat 64 va) 1 false false with
        | .error _ => s
        | .ok (d, _) => if isRemote d then s else s.gwriteBytes d (l.take m)
      s.saveBytes c vf (va + m) (l.drop m) fuel

/-- `n` bytes of the save area, page by page; `none` where a page has no translation or another module holds it. -/
def State.loadBytes (s : State) (c : PartCtx) (vf va n : Nat) : Nat → Option (List Byte)
  | 0 => some []
  | fuel + 1 =>
    if n = 0 then some []
    else match s.translateIn c vf (BitVec.ofNat 64 va) 0 false false with
      | .error _ => none
      | .ok (d, _) =>
        if isRemote d then none
        else
          let m := min n (65536 - va % 65536)
          (s.loadBytes c vf (va + m) (n - m) fuel).map fun l => s.gmem.readBytes d m ++ l

/-! ### Operations on a location (R248, R250) -/

def amoIntTy : AmoTy → IntTy
  | .i64 => .i64
  | .i32 => .i32
  | .n64 => .n64
  | .n32 => .n32

/-- The new value of an AMO (R248). -/
def amoNew (op : AmoOp) (t : AmoTy) (old b c : Word) : Word :=
  let ty := amoIntTy t
  let x := getTy ty old
  let y := getTy ty b
  match op with
  | .add => old + b
  | .swap => b
  | .cas => if x = y then c else old
  | .and => old &&& b
  | .or => old ||| b
  | .xor => old ^^^ b
  | .min => if x ≤ y then old else b
  | .max => if x ≥ y then old else b

end Sys2Proof.Machine
end

