-- ==== Sys2Proof/Machine/Memory.lean ====
section
/-! DEFINITION. Loads, stores, atomics, fences and watches: OP 0x30 to 0x3F (09 R242 to R252), and the events of a global
access (R120, R249). -/

namespace Sys2Proof.Machine

/-! ### Local accesses (R243 to R248) -/

/-- Sources and destinations of a load form. -/
def ldForm (q : Guard) (cls : Fin 32) (a : GOp) (o : Src) (d : List GOp) (st : List GOp := []) (extra : List Reg := []) : Form :=
  mkForm q cls (a :: srcOps o ++ st) d extra

/-- Bytes of a type. -/
def tyBytes (t : IntTy) : Nat := tyWidth t / 8

/-- LD (R243). -/
def execLd (x : LdF) (s : State) : Host.Outcome State Fault Refusal :=
  issue (ldForm x.q 5 x.a x.o [x.d])
    (fun s => localCheck (s.ea x.a x.o) (tyBytes x.t) fun o =>
      readLocal s o (tyBytes x.t) fun s v => writeG s x.d (putTy x.t v)) s

/-- ST (R243). -/
def execSt (x : LdF) (s : State) : Host.Outcome State Fault Refusal :=
  issue (ldForm x.q 5 x.a x.o [] [x.d])
    (fun s => localCheck (s.ea x.a x.o) (tyBytes x.t) fun o =>
      .ok (s.sramPut s.cur.core o (tyBytes x.t) (s.rd x.d).toNat (some s.cur.slot))) s

/-- LDS (R244): waits for the granule; `.c` clears it at retirement. -/
def execLds (x : LdsF) (s : State) : Host.Outcome State Fault Refusal :=
  issue (ldForm x.q 5 x.a x.o [x.d])
    (fun s => localCheck (s.ea x.a x.o) (tyBytes x.t) fun o =>
      if !getFull (s.core s.cur.core).mem.full (o / 16) then .wait .granule id
      else readLocal s o (tyBytes x.t) fun s v =>
        writeG s x.d (putTy x.t v) fun s => .ok (if x.clr then s.setFull s.cur.core (o / 16) 1 false else s)) s

/-- STF (R244): its bytes, and the granule full, in one access. -/
def execStf (x : LdF) (s : State) : Host.Outcome State Fault Refusal :=
  issue (ldForm x.q 5 x.a x.o [] [x.d])
    (fun s => localCheck (s.ea x.a x.o) (tyBytes x.t) fun o =>
      .ok ((s.sramPut s.cur.core o (tyBytes x.t) (s.rd x.d).toNat (some s.cur.slot)).setFull s.cur.core (o / 16) 1 true)) s

/-- A run of granules (R245). -/
def feset (b : Bool) (x : FesetF) (s : State) : Host.Outcome State Fault Refusal :=
  issue (mkForm x.q 5 (x.a :: r16Ops x.n) [])
    (fun s => localCheck (s.rd x.a) 16 fun o =>
      let n := match x.n with | .imm v => v.toNat | .reg r => (s.rd r).toNat % 2 ^ 13
      if n = 0 then .ok s
      else if 4096 < o / 16 + n then .trap 0x07 (s.rd x.a)
      else .ok (s.setFull s.cur.core (o / 16) n b)) s

/-- FESET.full (R245). -/
def execFesetFull (x : FesetF) (s : State) : Host.Outcome State Fault Refusal := feset true x s

/-- FESET.empty (R245). -/
def execFesetEmpty (x : FesetF) (s : State) : Host.Outcome State Fault Refusal := feset false x s

/-- FETEST (R245). -/
def execFetest (x : FetestF) (s : State) : Host.Outcome State Fault Refusal :=
  issue (mkForm x.q 5 (x.a :: r16Ops x.n) [x.d])
    (fun s => localCheck (s.rd x.a) 16 fun o =>
      let n := match x.n with | .imm v => v.toNat | .reg r => (s.rd r).toNat % 2 ^ 7
      if n = 0 ∨ 64 < n then .trap 0x09 (BitVec.ofNat 64 n)
      else if 4096 < o / 16 + n then .trap 0x07 (s.rd x.a)
      else writeG s x.d (BitVec.ofNat 64 (((s.core s.cur.core).mem.full >>> (o / 16)).toNat % 2 ^ n))) s

/-- Byte mask of active 32-bit lanes. -/
def byteMask (m : BitVec 16) : Nat := packNat 4 ((List.range 16).map fun i => if m.getLsbD i then 15 else 0)

/-- The active 32-bit lanes of `v` over `old`. -/
def mergeLanes (m : BitVec 16) (old v : VWord) : VWord :=
  packL 32 ((List.range 16).map fun i => if m.getLsbD i then lane 32 v i else lane 32 old i)

/-- LDV (R246). -/
def execLdv (x : LdvF) (s : State) : Host.Outcome State Fault Refusal :=
  issueMasked (ldForm x.q 6 x.a x.o [] [] [.v x.d]) (anyLane x.q 32)
    (fun t => localCheck (t.ea x.a x.o) 64 fun o =>
      readLocal t o 64 fun t v => .ok (t.wrV x.d (mergeLanes (s.me.r.mask x.q) (t.rdV x.d) (BitVec.ofNat 512 v)) 0)) s

/-- STV (R246). -/
def execStv (x : LdvF) (s : State) : Host.Outcome State Fault Refusal :=
  issueMasked (ldForm x.q 6 x.a x.o [] [] [.v x.d]) (anyLane x.q 32)
    (fun t => localCheck (t.ea x.a x.o) 64 fun o =>
      .ok (t.modCore t.cur.core fun c =>
        { c.storingLanes o (s.me.r.mask x.q) (some t.cur.slot) with
          mem := { c.mem with sram := c.mem.sram.writeMask o 64 (t.rdV x.d).toNat (byteMask (s.me.r.mask x.q)) } })) s

/-- Block offset k of LDB and STB (R247). -/
def ldbOff : Option Imm → Word
  | none => 0
  | some i => immZ i

/-- Checks of LDB and STB, then the two offsets (R247). -/
def blkArea (x : LdbF) (s : State) (k : Nat → Nat → Act) : Act :=
  let e := addOff (s.rd x.a) (ldbOff x.off * 64)
  let n := 2 * pbCount x.k
  let h := addOff (s.rd x.b) (ldbOff x.off * BitVec.ofNat 64 n)
  if !isLocal e then .trap 0x0A e
  else if !isLocal h then .trap 0x0A h
  else if !aligned e (if isPb4 x.k then 8 else 16) || 65536 < offOf e + 64 then .trap 0x07 e
  else if !aligned h 2 || 65536 < offOf h + n then .trap 0x07 h
  else k (offOf e) (offOf h)

/-- LDB (R247). -/
def execLdb (x : LdbF) (s : State) : Host.Outcome State Fault Refusal :=
  issueMasked (mkForm x.q 6 [x.a, x.b] [] [.v x.d]) (anyBlk x.q x.k)
    (fun t => blkArea x t fun e h =>
      readLocal t e 64 fun t v => readLocal t h (2 * pbCount x.k) fun t w =>
        let m := s.me.r.mask x.q
        let sz := 16 * pbBits x.k
        let bits := packNat sz ((List.range (pbCount x.k)).map fun b =>
          (if blkOn x.k m b then v else (t.rdV x.d).toNat) / 2 ^ (sz * b))
        let hdr := packNat 16 ((List.range (pbCount x.k)).map fun b =>
          (if blkOn x.k m b then w else (t.rdH x.d).toNat) / 2 ^ (16 * b))
        .ok (t.wrV x.d (BitVec.ofNat 512 bits) (BitVec.ofNat 128 hdr))) s

/-- STB (R247). -/
def execStb (x : LdbF) (s : State) : Host.Outcome State Fault Refusal :=
  issueMasked (mkForm x.q 6 [x.a, x.b] [] [.v x.d]) (anyBlk x.q x.k)
    (fun t => blkArea x t fun e h =>
      let m := s.me.r.mask x.q
      let sz := 2 * pbBits x.k
      .ok ((List.range (pbCount x.k)).foldl (fun t b =>
        if blkOn x.k m b then
          (t.sramPut t.cur.core (e + sz * b) sz ((t.rdV x.d).toNat / 2 ^ (8 * sz * b)) (some t.cur.slot)).sramPut t.cur.core
            (h + 2 * b) 2 ((t.rdH x.d).toNat / 2 ^ (16 * b)) (some t.cur.slot)
        else t) t)) s

/-- AMO (R248). -/
def execAmo (x : AmoF) (s : State) : Host.Outcome State Fault Refusal :=
  issue (mkForm x.q 5 (x.a :: x.b :: (if x.op = .cas then [x.c] else [])) [x.d])
    (fun s =>
      let n := tyBytes (amoIntTy x.t)
      localCheck (s.eaOpt x.a x.off) n fun o =>
        readLocal s o n fun s v =>
          let old := putTy (amoIntTy x.t) v
          writeG s x.d old fun t =>
            .ok (t.sramPut s.cur.core o n (amoNew x.op x.t old (s.rd x.b) (s.rd x.c)).toNat (some s.cur.slot))) s

/-! ### Global accesses (R249, R250) -/

/-- Whether an access has a value to return. -/
def GAcc.returns (a : GAcc) : Bool := a.kind == .load || (a.kind == .amog && (a.dest.isSome || a.holds))

/-- Room for one more access of a slot: 16 loads and AMOGs pending, 16 stores unperformed (R249). -/
def Core.gRoom (c : Core) (sl : Fin 4) (ret : Bool) : Bool :=
  (c.gaccs.filter fun a => a.slot == sl && a.kind != .counterAdd && a.returns == ret).length < 16

/-- A destination that makes a load wait for its data before it retires (R249). -/
def lateDest : GOp → Bool
  | .g n => n == 2
  | .c _ => true

/-- The register a pending access names. -/
def destReg : GOp → Option Reg
  | .g n => if n = 0 then none else some (.g n)
  | .c n => some (.c n)

def GAcc.base (s : State) (kind : GOpKind) (va : Word) (d n : Nat) : GAcc :=
  { slot := s.cur.slot, gtid := s.me.gtid, kind := kind, va := va, dpa := d, size := n, mask := BitVec.allOnes 64,
    data := 0, cmp := 0, op := .add, ty := .n64, acq := false, rel := false, scope := .dev, dest := none, lanes := 0,
    holds := false, performed := false, value := 0, bad := 0, retried := false, net := none, queued := false, at_ := s.now }

/-- Accesses in one direction of a memory quay's queue (R398): loads, and all others. -/
def State.inQueue (s : State) (q : Nat) (reads : Bool) : Nat :=
  (s.cores.map fun e => (e.2.gaccs.filter fun a =>
    a.queued && !a.performed && s.quayOf a.dpa == q && (a.kind == .load) == reads).length).sum

/-- A memory quay holds 512 accesses in each direction (R398); others wait in the fabric. -/
def State.quayRoom (s : State) (q : Nat) (reads : Bool) : Bool := 64 ≤ q || decide (s.inQueue q reads < 512)

/-- An access is handed to the fabric, and takes a place in its quay's queue where there is one. -/
def State.addAcc (s : State) (a : GAcc) : State :=
  s.modCore s.cur.core fun c => { c with gaccs := c.gaccs ++ [{ a with queued := s.quayRoom (s.quayOf a.dpa) (a.kind == .load) }] }

/-- A load or an AMOG with a late destination (R249): it is issued once, and retires with its data. -/
def lateAct (s : State) (d : GOp) (chk : (State → Nat → Act) → Act) (mk : State → Nat → GAcc) : Act :=
  if s.me.asked then
    match s.me.reply with
    | some (.value v) => writeG s d v
    | some (.trap c t) => .trap c t
    | _ => .wait .load id
  else chk fun s dp =>
    if (s.core s.cur.core).gRoom s.cur.slot true then
      .wait .load fun t =>
        State.modMe (t.addAcc { mk s dp with holds := true } |>.count t.cur.core 12 (some t.cur.slot)) fun x =>
          { x with asked := true }
    else .wait .accessRoom id

/-- Hand an access to the fabric and retire (R249); loads and AMOGs are counted (R385). -/
def postAct (s : State) (ret : Bool) (a : GAcc) : Act :=
  if (s.core s.cur.core).gRoom s.cur.slot ret then
    .ok (if a.kind = .store then s.addAcc a else (s.addAcc a).count s.cur.core 12 (some s.cur.slot))
  else .wait .accessRoom id

/-- LDG (R249). -/
def execLdg (x : LdgF) (s : State) : Host.Outcome State Fault Refusal :=
  issue (ldForm x.q 7 x.a x.o [x.d])
    (fun s =>
      let va := s.ea x.a x.o
      let n := tyBytes x.t
      let mk := fun (s : State) d =>
        { GAcc.base s .load va d n with ty := x.t, acq := x.ord.isSome, scope := x.ord.getD .core, dest := destReg x.d }
      let chk := fun k => globalCheck va n (xlate s va 0 false k)
      if lateDest x.d then lateAct s x.d chk mk else chk fun s d => postAct s true (mk s d)) s

/-- STG (R249). -/
def execStg (x : LdgF) (s : State) : Host.Outcome State Fault Refusal :=
  issue (ldForm x.q 7 x.a x.o [] [x.d])
    (fun s =>
      let va := s.ea x.a x.o
      let n := tyBytes x.t
      globalCheck va n (xlate s va 1 false fun s d =>
        postAct s false { GAcc.base s .store va d n with
          data := (s.rd x.d).setWidth 512, rel := x.ord.isSome, scope := x.ord.getD .core })) s

/-- LDGV (R249). -/
def execLdgv (x : LdgvF) (s : State) : Host.Outcome State Fault Refusal :=
  issueMasked (ldForm x.q 7 x.a x.o [] [] [.v x.d]) (anyLane x.q 32)
    (fun t =>
      let va := t.ea x.a x.o
      globalCheck va 64 (xlate t va 0 false fun t d =>
        postAct t true { GAcc.base t .load va d 64 with
          acq := x.ord.isSome, scope := x.ord.getD .core, dest := some (.v x.d), lanes := s.me.r.mask x.q })) s

/-- STGV (R249). -/
def execStgv (x : LdgvF) (s : State) : Host.Outcome State Fault Refusal :=
  issueMasked (ldForm x.q 7 x.a x.o [] [] [.v x.d]) (anyLane x.q 32)
    (fun t =>
      let va := t.ea x.a x.o
      let m := s.me.r.mask x.q
      globalCheck va 64 (xlate t va 1 (m == 0xFFFF) fun t d =>
        postAct t false { GAcc.base t .store va d 64 with
          data := t.rdV x.d, mask := BitVec.ofNat 64 (byteMask m), rel := x.ord.isSome, scope := x.ord.getD .core })) s

/-- AMOG (R250). -/
def execAmog (x : AmogF) (s : State) : Host.Outcome State Fault Refusal :=
  issue (mkForm x.q 7 (x.a :: x.b :: (if x.op = .cas then [x.c] else [])) [x.d])
    (fun s =>
      let va := s.eaOpt x.a x.off
      let n := tyBytes (amoIntTy x.t)
      let mk := fun (s : State) d =>
        { GAcc.base s .amog va d n with
          data := (s.rd x.b).setWidth 512, cmp := s.rd x.c, op := x.op, ty := amoIntTy x.t,
          acq := x.kind == .acq || x.kind == .full, rel := x.kind == .rel || x.kind == .full, scope := x.scope,
          dest := destReg x.d }
      let chk := fun k => globalCheck va n (xlate s va 2 false k)
      if lateDest x.d then lateAct s x.d chk mk
      else chk fun s d => postAct s (destReg x.d).isSome (mk s d)) s

/-- What a FENCE waits for (R251): data that came back bad has returned. -/
def fenceDone (c : Core) (sl : Fin 4) (k : Kind) : Bool :=
  let mine := c.gaccs.filter fun a => a.slot == sl && a.kind != .counterAdd
  let acq := mine.all fun a => a.kind == .store || a.bad != 0
  let rel := mine.all (·.performed)
  match k with
  | .acq => acq
  | .rel => rel
  | .full => acq && rel
  | .none => true

/-- FENCE (R251). -/
def execFence (x : FenceF) (s : State) : Host.Outcome State Fault Refusal :=
  issue (mkForm x.q 1 [] [])
    (fun s => if fenceDone (s.core s.cur.core) s.cur.slot x.kind then .ok s else .wait .fence id) s

/-! ### Watches (R252) -/

/-- Arm the slot's watch at a line's home quay, evicting the oldest of 64 (R118). -/
def State.armWatch (s : State) (k : CoreId) (sl : Fin 4) (d : Nat) : State :=
  let q := s.quayOf d
  let s := { s with watches := s.watches.filter fun w => !(w.core == k && w.slot == sl) }
  let s := match s.watches.filter fun w => w.quay == q with
    | w :: l => if 64 ≤ l.length + 1 then s.endWatch w.core w.slot 2 else s
    | [] => s
  { s.modSlot k sl fun x => { x with watch := ⟨true, d / 64 * 64, none⟩ } with
    watches := s.watches ++ [⟨q, d / 64 * 64, k, sl⟩] }

/-- MON (R252). -/
def execMon (x : MonF) (s : State) : Host.Outcome State Fault Refusal :=
  issue (mkForm x.q 7 (x.a :: r16Ops x.o) [])
    (fun s =>
      let va := s.ea16 x.a x.o
      globalCheck va 1 (xlate s va 3 false fun s d => .ok (s.armWatch s.cur.core s.cur.slot d))) s

/-- Steps of MWAIT's timeout (R252). -/
def mwaitSteps (s : State) : R16 → Nat
  | .reg r => (s.rd r).toNat
  | .imm v => v.toNat * 1024

/-- The slot's watch is disarmed: no quay holds it. -/
def State.disarm (s : State) (k : CoreId) (sl : Fin 4) : State :=
  { s.modSlot k sl fun x => { x with watch := ⟨false, 0, none⟩ } with
    watches := s.watches.filter fun w => !(w.core == k && w.slot == sl) }

/-- The cause that MWAIT returns now (R119): that of the ended watch, NOWATCH, or in replay the spurious one that the log has
next (R278). -/
def State.watchCause (s : State) (k : CoreId) (sl : Fin 4) : Option (BitVec 3) :=
  let w := (s.slot k sl).watch
  match w.ended with
  | some c => some c
  | none =>
    if !w.armed then some 6
    else if s.logMode k ≠ 2 then none
    else ([1, 2, 3, 4, 5] : List (BitVec 3)).find? fun c => (s.orderAt k 9 w.line c.toNat).isOk

/-- MWAIT (R119, R252). A watch that ends only here, as the log has it, sets EV like any other (R178). -/
def mwaitAct (d : GOp) (t : R16) (s : State) : Act :=
  let k := s.cur.core
  let sl := s.cur.slot
  match s.watchCause k sl with
  | some c =>
    (match s.orderAt k 9 s.me.watch.line c.toNat with
     | .error t => .wait .watch fun u => u.keepDue t k
     | .ok t =>
       let t := if s.me.watch.armed then t.setEv k sl else t
       writeG (t.disarm k sl) d (c.setWidth 64))
  | none => .wait .watch fun t' => t'.modMe fun x => { x with asked := mwaitSteps s t != 0 }

/-- MWAIT (R119, R252). -/
def execMwait (x : MwaitF) (s : State) : Host.Outcome State Fault Refusal :=
  issue (mkForm x.q 1 (r16Ops x.t) [x.d]) (mwaitAct x.d x.t) s

/-- MWAIT_TIMEOUT (R119): the timeout of a waiting MWAIT passes. -/
def execMwaitTimeout (k : CoreId) (sl : Fin 4) (s : State) : Host.Outcome State Fault Refusal :=
  let x := s.slot k sl
  event s
    (if x.st = .wait ∧ x.wait = .watch ∧ x.asked = true ∧ x.watch.armed = true then some (s.endWatch k sl 1) else none)

/-! ### The events of a global access (R120, R122, R123, R249) -/

/-- The return of a value to its destination (R249). -/
def State.giveLoad (s : State) (k : CoreId) (a : GAcc) : State :=
  match a.dest with
  | none => s
  | some (.v n) => s.modRegs k a.slot fun r => r.wrV n (mergeLanes a.lanes r.v[n] a.value) 0
  | some (.g n) => s.modRegs k a.slot fun r => r.wrG n (putTy a.ty (a.value.toNat % 2 ^ 64))
  | some (.c n) => s.modRegs k a.slot fun r => r.wrC n (putTy a.ty (a.value.toNat % 2 ^ 64))
  | some (.p _) => s

/-- Data, or a cause, for the head that waits for its load. -/
def State.replyLoad (s : State) (k : CoreId) (sl : Fin 4) (r : Reply) : State :=
  s.modSlot k sl fun x => if x.st = .wait ∧ x.wait = .load ∧ x.asked then { x with reply := some r } else x

/-- GLOBAL_LOAD_RETURN (R249, R368): data reaches the core; a line that fails its check is fetched again, then is bad. -/
def execGlobalLoadReturn (k : CoreId) (i : Nat) (bad : Bool) (s : State) : Host.Outcome State Fault Refusal :=
  event s
    (match (s.core k).gaccs[i]? with
     | none => none
     | some a =>
       if !a.returns || !a.performed || a.bad != 0 then none
       else
         let drop := s.modCore k fun c => { c with gaccs := c.gaccs.eraseIdx i }
         let put := fun a => s.modCore k fun c => { c with gaccs := c.gaccs.set i a }
         if bad && !a.retried then some (put { a with retried := true })
         else if bad then
           (if a.holds then some (drop.replyLoad k a.slot (.trap 0x0F a.va)) else some (put { a with bad := 0x0F }))
         else if a.holds then some (drop.replyLoad k a.slot (.value (putTy a.ty (a.value.toNat % 2 ^ 64))))
         else some (drop.giveLoad k a))

def GAcc.overlaps (a b : GAcc) : Bool := a.dpa < b.dpa + b.size && b.dpa < a.dpa + a.size

/-- Whether access i may be performed before the earlier ones of its slot that are not (R122, R123). -/
def mayPerform (l : List GAcc) (i : Nat) (a : GAcc) : Bool :=
  (l.take i).all fun b => b.slot != a.slot || b.performed || a.kind == .counterAdd || b.kind == .counterAdd ||
    (!b.overlaps a && !b.acq && !a.rel)

/-- The field that holds a quay (R392). -/
def quayField (q : Nat) : Nat :=
  let per := (List.range 84).filter fun f =>
    (fieldY f == 0 || fieldY f == 6 || fieldX f == 0 || fieldX f == 11) && f != 5 && f != 78
  if q < 64 then per.getD (q / 2) 0 else if q = 64 then 5 else if q = 65 then 78 else per.getD ((q - 66) / 2) 0

/-- A quay charges traffic to a VF, in 64-byte units (R344). -/
def State.chargeQuay (s : State) (q vf bytes : Nat) : State :=
  let e := (s.quay q).rate * ((bytes + 63) / 64)
  if e = 0 then s else s.modField (quayField q) fun f => { f with qmeter := madd f.qmeter vf e }

/-- The STREAM_FAULT notice of a stream of core k, 8 for a counter add (R297), through the registers of the core on which its
task now runs (R408); a stage-2 fault goes to HSUPR (R322). Word 0 names the issuing task (entry 40, DEDUCED). -/
def State.streamNotice (s : State) (k : CoreId) (sl : Fin 4) (h : CoreId × Fin 4) (gtid : Word) (n : BitVec 4) (stage2 : Bool)
    (va : Word) : State :=
  let lvl := lvlOf (s.slot h.1 h.2)
  s.notify k (if stage2 then (s.core h.1).regs.hsupr else s.supTarget h.1 lvl) [gtid, noticeWord sl k n false false lvl 0x23, va, 0]

/-- A fault of a completion counter add (R300): every other effect is made; STREAM_FAULT with stream 8. -/
def State.counterFault (s : State) (k : CoreId) (a : GAcc) (f : XFault) : State :=
  let n : Fin 8 := Fin.ofNat 8 a.mask.toNat
  let s := s.modCore k fun c =>
    { c.setSF (BitVec.ofNat 8 (a.cmp.toNat)) true with
      heldAdds := c.heldAdds ++ [(n, a.slot, a.va, BitVec.ofNat 26 a.data.toNat, BitVec.ofNat 8 a.cmp.toNat, a.gtid)],
      regs := { c.regs with strflt := c.regs.strflt.set n (1#1 ++ 3#3 ++ a.va.extractLsb' 0 60),
                            sfdet := c.regs.sfdet.set n (f.word 5) } }
  s.streamNotice k a.slot (k, a.slot) a.gtid 8 f.stage2 a.va

/-- The address of the peer behind an address of the remote window (R400). -/
def State.peerOf (s : State) (d : Nat) : Nat :=
  (s.regs.peers[Fin.ofNat 256 ((s.tenant (d / 2 ^ 38)).extractLsb' 0 16).toNat]).toNat

/-- The number of the next frame to a peer (R403). -/
def Quay.nextId (y : Quay) (peer : Nat) : NetId := ⟨peer, (mget y.txSeq peer).getD 0⟩

/-- A frame to the peer behind an address goes out on its quay (R400, R403). -/
def State.sendFrame (s : State) (k : CoreId) (d : Nat) (what : NetFor) : State :=
  let p := s.peerOf d
  s.modQuay (s.quayOf d) fun y =>
    { y with txSeq := mset y.txSeq p ((y.nextId p).seq + 1), outst := y.outst ++ [⟨y.nextId p, k, 0, what⟩] }

/-- The quay to a remote address works, or its peer is marked down (R394, R403): what is sent there goes out, or fails at
once. -/
def State.peerDown (s : State) (d : Nat) : Bool := (s.quay (s.quayOf d)).down.contains (s.peerOf d)

/-- Send an access to its network peer (R400, R403). -/
def State.netSend (s : State) (k : CoreId) (i : Nat) (a : GAcc) : State :=
  let n := (s.quay (s.quayOf a.dpa)).nextId (s.peerOf a.dpa)
  (s.sendFrame k a.dpa .access).modCore k fun c => { c with gaccs := c.gaccs.set i { a with net := some n } }

/-- A remote access fails with a cause (R400, R403): at the consumer of its value, else deferred in its slot. -/
def State.netFail (s : State) (k : CoreId) (i : Nat) (a : GAcc) (cause : BitVec 8) : State :=
  let drop := s.modCore k fun c => { c with gaccs := c.gaccs.eraseIdx i }
  if a.holds then drop.replyLoad k a.slot (.trap cause a.va)
  else if a.returns then s.modCore k fun c => { c with gaccs := c.gaccs.set i { a with performed := true, bad := cause, net := none } }
  else if a.kind = .counterAdd ∧ cause = 0x09 then drop.counterFault k a ⟨6, 0, false, false, 0, a.va⟩
  else drop.defer k a.slot cause a.va

/-- The read, or the write, of an access at its home, at one instant (R120, R248). -/
def State.performAt (s : State) (a : GAcc) : State × VWord :=
  let old := s.gmem.readLE a.dpa a.size
  match a.kind with
  | .load => (s, BitVec.ofNat 512 old)
  | .store => (s.gwriteMask a.dpa a.size a.data.toNat a.mask.toNat, 0)
  | _ =>
    let t : AmoTy := match a.ty with | .i64 => .i64 | .i32 => .i32 | .n32 => .n32 | _ => .n64
    let n := (amoNew a.op t (putTy a.ty old) (a.data.setWidth 64) a.cmp).toNat % 2 ^ (8 * a.size)
    (if n = old then s else s.gwrite a.dpa a.size n, BitVec.ofNat 512 old)

/-- A performed access leaves the list, unless a value is on its way back, whose lines are checked anew (R368). -/
def State.performed (s : State) (k : CoreId) (i : Nat) (a : GAcc) (v : VWord) : State :=
  s.modCore k fun c =>
    { c with gaccs := if a.returns then c.gaccs.set i { a with performed := true, retried := false, value := v }
                      else c.gaccs.eraseIdx i }

/-- The address of an access: a counter add takes it from a port entry as it is performed (R117, R300, R316); `none`: no
entry covers it. -/
def State.accAddr (s : State) (k : CoreId) (a : GAcc) : Option (Except XFault Nat) :=
  let x := s.slot k a.slot
  let vf := gtidVf a.gtid
  if a.kind ≠ .counterAdd then some (.ok a.dpa)
  else if 2 ≤ (lvlOf x).toNat then
    some (if s.reachable vf 5 false a.va.toNat then .ok a.va.toNat else .error ⟨6, 0, false, false, 0, a.va⟩)
  else ((s.core k).portFor vf a.va.toNat).map fun e =>
    match e.check a.va.toNat 5 (lvlOf x == 0) with
    | some f => .error { f with va := a.va }
    | none => if s.reachable vf 5 false (e.apply a.va.toNat) then .ok (e.apply a.va.toNat) else .error (e.undecoded a.va)

/-- A counter add uses its port entry as it is performed (R316). -/
def Core.touchAdd (c : Core) (a : GAcc) (now : Nat) : Core :=
  if a.kind ≠ .counterAdd then c
  else match c.portFor (gtidVf a.gtid) a.va.toNat with
    | some e => c.touch e now
    | none => c

/-- A counter add that no port entry covers is a miss (R316). -/
def State.addRefill (s : State) (k : CoreId) : Option State :=
  ((s.core k).gaccs.find? fun a => a.kind == .counterAdd && a.net.isNone && (s.accAddr k a).isNone &&
      !((s.core k).misses.any fun m => m.party.isNone && m.acc == 5 && m.va == a.va && m.vf == gtidVf a.gtid)).map fun a =>
    (s.modCore k fun c => { c with misses := c.misses ++
      [⟨none, none, a.va, 5, lvlOf (s.slot k a.slot) == 0, gtidVf a.gtid, false⟩] }).count k 8 (some a.slot)

/-- GLOBAL_ACCESS_PERFORM (R120): an access is performed at its home quay. `bad`: the quay's check of data sent to it fails
(R368): it is sent once more, then not performed. An access that has no place in its quay's queue waits for one (R398). -/
def execGlobalAccessPerform (k : CoreId) (i : Nat) (bad : Bool) (s : State) : Host.Outcome State Fault Refusal :=
  event s
    (match (s.core k).gaccs[i]? with
     | none => none
     | some a0 =>
       if a0.performed || a0.net.isSome || !mayPerform (s.core k).gaccs i a0 || (bad && a0.kind == .load) then none
       else
         let drop := s.modCore k fun c => { c with gaccs := c.gaccs.eraseIdx i }
         if bad then
           (if a0.retried then some (drop.defer k a0.slot 0x0F a0.va)
            else some (s.modCore k fun c => { c with gaccs := c.gaccs.set i { a0 with retried := true } }))
         else
           match s.accAddr k a0 with
           | none => none
           | some (.error f) => some (drop.counterFault k a0 f)
           | some (.ok d) =>
             let a := { a0 with dpa := d }
             let s := s.modCore k fun c => c.touchAdd a0 s.now
             if isRemote d then
               (if s.peerDown d then some (s.netFail k i a 0x0F)
                else if !(s.quay (s.quayOf d)).up then none else some (s.netSend k i a))
             else if !a.queued && !s.quayRoom (s.quayOf d) (a.kind == .load) then none
             else
               let q := s.quayOf d
               let logged := if a.kind = .load then .ok s else s.orderQuay k q 3 d a.gtid.toNat
               ordered logged fun s =>
                 let r := s.performAt a
                 (r.1.performed k i a r.2).chargeQuay q (gtidVf a.gtid) a.size)

/-- An add to a counter is on its way (R116): `n` is the stream it belongs to, `sem` the semaphore whose SF its fault sets. -/
def State.addCounter (s : State) (k : CoreId) (sl : Fin 4) (n : Nat) (va : Word) (inc : BitVec 26) (sem : BitVec 8) : State :=
  s.modCore k fun c => { c with gaccs := c.gaccs ++
    [{ GAcc.base { s with cur := { s.cur with core := k, slot := sl } } .counterAdd va 0 8 with
       data := inc.setWidth 512, mask := BitVec.ofNat 64 n, cmp := sem.setWidth 64 }] }

/-- The counter add of a command's completion (R116). -/
def State.counterAdd (s : State) (k : CoreId) (sl : Fin 4) (n : Nat) (d : Done) : State :=
  match d.ctr with
  | none => s
  | some (va, inc) => s.addCounter k sl n va inc d.faultSem

/-- A command completes (R116, R136, R178): its signal, its counter add and the event. -/
def State.complete (s : State) (k : CoreId) (sl : Fin 4) (n : Nat) (d : Done) : State :=
  (((s.signal k sl d).counterAdd k sl n d).setEv k sl).settleHalt k sl

end Sys2Proof.Machine
end

