-- ==== Sys2Proof/Machine/Streams.lean ====
section
/-! DEFINITION. Shape records (04 R105 to R107, 09 R262), the issue of asynchronous commands (R136, R224), streams and
COPY (04 R108 to R113, 09 R263, R264), the bytes of berths (04 R114, R115), counters (04 R116, R117, 09 R265), and the
restart of streams (13 R300). -/

namespace Sys2Proof.Machine

/-! ### Shape records (R105, R106) -/

def Shp.base (h : Shp) : Word := h.extractLsb' 192 64
def Shp.conv (h : Shp) : Nat := (h.extractLsb' 38 4).toNat
def Shp.dims (h : Shp) : Nat := (h.extractLsb' 42 2).toNat
def Shp.esCode (h : Shp) : Nat := (h.extractLsb' 44 4).toNat
/-- Element size in bytes. -/
def Shp.es (h : Shp) : Nat := 2 ^ h.esCode
def Shp.c0 (h : Shp) : Nat := (h.extractLsb' 60 20).toNat
/-- Unused counts read as 1. -/
def Shp.c1 (h : Shp) : Nat := if h.dims < 2 then 1 else (h.extractLsb' 80 16).toNat
def Shp.c2 (h : Shp) : Nat := if h.dims < 3 then 1 else (h.extractLsb' 96 16).toNat
def Shp.s0 (h : Shp) : Int := (h.extractLsb' 112 16).toInt
def Shp.s1 (h : Shp) : Int := if h.dims < 2 then 0 else (h.extractLsb' 128 32).toInt
def Shp.s2 (h : Shp) : Int := if h.dims < 3 then 0 else (h.extractLsb' 160 32).toInt
def Shp.total (h : Shp) : Nat := h.c2 * h.c1 * h.c0
/-- Elements per tile; 0 means COUNT0. -/
def Shp.tile (h : Shp) : Nat :=
  let t := (h.extractLsb' 48 12).toNat
  if t = 0 then h.c0 else t

/-- Byte offset of element n from BASE (R106). -/
def Shp.off (h : Shp) (n : Nat) : Int :=
  (n / h.c0 / h.c1 : Nat) * h.s2 + (n / h.c0 % h.c1 : Nat) * h.s1 + (n % h.c0 : Nat) * h.s0

/-- Generic address of element n, of a record whose BASE is replaced by `b`. -/
def Shp.addr (h : Shp) (b : Word) (n : Nat) : Word := addOff b (BitVec.ofInt 64 (h.off n))

/-- The least and the greatest byte offset of an element from BASE. -/
def Shp.span (h : Shp) : Int × Int :=
  let e := fun (c : Nat) (s : Int) => ((c - 1 : Nat) : Int) * s
  let l := [e h.c0 h.s0, e h.c1 h.s1, e h.c2 h.s2]
  (l.foldl (fun a x => a + min x 0) 0, l.foldl (fun a x => a + max x 0) 0)

/-- Every element of a local record lies in 0x0000 to 0xFFFF. -/
def Shp.inside (h : Shp) (b : Word) : Bool :=
  let (lo, hi) := h.span
  isLocal b && 0 ≤ (offOf b : Int) + lo && (offOf b : Int) + hi + h.es ≤ 65536

/-- Source and destination sizes of a conversion, as codes of ESIZE (R106). -/
def convSizes : Nat → Option (Nat × Nat)
  | 1 => some (2, 1)
  | 2 => some (2, 1)
  | 3 => some (1, 2)
  | 4 => some (1, 2)
  | 5 => some (3, 2)
  | 6 => some (2, 3)
  | _ => none

/-- Formats of a conversion. -/
def convFmts : Nat → Fmt × Fmt
  | 1 => (fmtF32, fmtBf16)
  | 2 => (fmtF32, fmtF16)
  | 3 => (fmtBf16, fmtF32)
  | 4 => (fmtF16, fmtF32)
  | 5 => (fmtF64, fmtF32)
  | _ => (fmtF32, fmtF64)

/-- An element as its destination has it (R106). -/
def convElem (conv : Nat) (x : Nat) : Nat × BitVec 8 :=
  if conv = 0 then (x, 0) else cvtIeee (convFmts conv).1 (convFmts conv).2 .rne x

/-- The ILLEGAL_FORM cases of R107. -/
def Shp.illegal (h : Shp) : Bool :=
  h.extractLsb' 0 38 != 0#38 || 4 < h.esCode || h.dims == 0 || 6 < h.conv || h.c0 == 0 || h.c1 == 0 || h.c2 == 0 ||
  (match convSizes h.conv with | some (a, _) => a != h.esCode | none => false)

def validWindow (a : Word) : Bool := isGlobal a || isLocal a || isBerth a

/-- The ALIGN_SHAPE cases of R107. -/
def Shp.misaligned (h : Shp) : Bool :=
  h.base.toNat % h.es != 0 ||
  (!isBerth h.base && (h.s0 % h.es != 0 || h.s1 % h.es != 0 || h.s2 % h.es != 0)) ||
  h.total < h.tile || !validWindow h.base || (isLocal h.base && !h.inside h.base)

/-- Class of the G operands of a 256-byte or 32-byte area: window, then alignment and extent (R226, R262). -/
def areaCheck (a : Word) (n : Nat) (k : Nat → Act) : Act :=
  if !isLocal a then .trap 0x0A a
  else if !aligned a 16 || 65536 < offOf a + n then .trap 0x07 a
  else k (offOf a)

/-- SHAPE (R262). -/
def execShape (x : ShapeF) (s : State) : Host.Outcome State Fault Refusal :=
  issue (mkForm x.q 26 [x.a] [])
    (fun s => areaCheck (s.rd x.a) 32 fun o => readLocal s o 32 fun s v =>
      let h : Shp := BitVec.ofNat 256 v
      if h.illegal then .trap 0x03 s.headWord
      else if h.misaligned then .trap 0x05 h.base
      else .ok (s.modMem s.cur.core fun m => { m with shapes := m.shapes.set x.d h })) s

/-! ### Issuing an asynchronous command (R136, R224) -/

/-- The counter word: its address is read and checked at issue (R224, R117). -/
def counterWord (s : State) (c : Option Ctr) (k : Option (Word × BitVec 26) → Act) : Act :=
  match c with
  | none => k none
  | some c =>
    let a := s.rd (.g (Fin.ofNat 32 c.creg.toNat))
    if !isGlobal a then .trap 0x0A a else if !aligned a 8 then .trap 0x06 a else k (some (a, c.cinc))

def ctrOps : Option Ctr → List GOp
  | none => []
  | some c => [.g (Fin.ofNat 32 c.creg.toNat)]

def Sync.none : Sync := ⟨0, 0, 0, 0⟩

/-- A slot joins the queue of a semaphore (R67, R261). -/
def Core.enqueueSem (c : Core) (sl : Fin 4) (n : BitVec 8) (t : BitVec 16) : Core :=
  if c.mem.semQ.any fun e => e.1 == sl then c
  else Core.grants { c with mem := { c.mem with semQ := c.mem.semQ ++ [(sl, n, t)] } } n

/-- Take `t` from semaphore `n`, in the order of waits (R261, R67), in the access in which `k` goes on (R136): where `k`
traps, nothing is taken. A head that `ready` holds back keeps its grant. -/
def takeSem (s : State) (n : BitVec 8) (t : BitVec 16) (ready : Bool) (w : Wait) (k : State → Act) : Act :=
  let c := s.core s.cur.core
  let go := fun _ : Unit => k (s.modMem s.cur.core fun m => m.takeThr n t)
  if (s.me.grant.any fun g => g.1 == n) then (if ready then go () else .wait w id)
  else if ready && !(c.mem.semQ.any fun e => e.2.1 == n) && decide (t.toNat ≤ c.freeSem n) then go ()
  else .wait .semaphore fun s => s.modCore s.cur.core fun c => c.enqueueSem s.cur.slot n t

/-- The wait of the sync word, then a wait for a place (R136): the command issues in `k`. -/
def syncIssue (s : State) (y : Sync) (w : Wait) (ready : Bool) (k : State → Act) : Act :=
  if y.thr = 0 then (if ready then k s else .wait w id) else takeSem s y.wsem (y.thr.setWidth 16) ready w k

def syncDone (y : Sync) (c : Option (Word × BitVec 26)) : Done := ⟨y.inc, y.ssem, c⟩

/-! ### Berth bytes (R114, R115) -/

def berthNo (a : Word) : Fin 4 := Fin.ofNat 4 a.toNat

/-- Words of a list of bytes. -/
def bytesToWords : List Byte → Nat → List Word
  | _, 0 => []
  | l, n + 1 => BitVec.ofNat 64 (leBytes (l.take 8)) :: bytesToWords (l.drop 8) n

/-- A message of a berth to its peer (R266). -/
def Core.berthMsg (c : Core) (k : CoreId) (b : Berth) (kind : MsgKind) (ws : List Word) : Msg :=
  { kind := kind, vf := (c.held.map (·.vf)).getD 0, launch := b.launch, dst := b.peer, src := b.own, from_ := k, cls := 1,
    tag := 0, block := false, seq := 0, payload := ws, sample := none }

/-- Send what an OUT berth holds and its credit allows, in messages of at most eight words. -/
def Core.pumpOut (c : Core) (k : CoreId) (n : Fin 4) : Nat → Core
  | 0 => c
  | fuel + 1 =>
    let b := c.berths[n]
    let m := min 64 (min b.credit b.buf.length)
    if b.st != .joined || !b.out || m = 0 then c
    else
      let msg := c.berthMsg k b (.berthData b.peerBerth n m) (bytesToWords (b.buf.take m) ((m + 7) / 8))
      Core.pumpOut { c with inj := c.inj ++ [msg],
                            berths := c.berths.set n { b with buf := b.buf.drop m, credit := b.credit - m,
                                                              flying := b.flying + m } } k n fuel

/-- Put bytes into an OUT berth. -/
def Core.berthOut (c : Core) (k : CoreId) (n : Fin 4) (l : List Byte) : Core :=
  let b := c.berths[n]
  Core.pumpOut { c with berths := c.berths.set n { b with buf := b.buf ++ l } } k n (l.length + b.buf.length + 1)

/-- Whether a berth is joined in a direction. -/
def Core.berthReady (c : Core) (n : Fin 4) (out : Bool) : Bool := c.berths[n].st == .joined && c.berths[n].out == out

/-- Take `n` bytes from an IN berth, granting credit for them. -/
def Core.berthTake (c : Core) (k : CoreId) (b : Fin 4) (n : Nat) : List Byte × Core :=
  let x := c.berths[b]
  if n = 0 then ([], c)
  else (x.buf.take n, { c with inj := c.inj ++ [c.berthMsg k x (.berthFree x.peerBerth 0 (min n x.buf.length)) []],
                               berths := c.berths.set b { x with buf := x.buf.drop n } })

/-! ### Streams -/

/-- Elements the stream moves in all: the source's. -/
def Stream.elems (t : Stream) : Nat := t.src.total

/-- Elements of tile i. -/
def Stream.tileLen (t : Stream) (i : Nat) : Nat := min t.dst.tile (t.elems - i * t.dst.tile)
def Stream.tiles (t : Stream) : Nat := (t.elems + t.dst.tile - 1) / t.dst.tile
/-- Source bytes of the next tile. -/
def Stream.tileBytes (t : Stream) : Nat := t.tileLen t.tile * t.src.es
/-- Tiles of the ring (R112). -/
def Stream.ringTiles (t : Stream) : Nat := t.dst.total / t.dst.tile

/-- Bytes a stream would take from berth `b` now. -/
def Stream.wants (t : Stream) (b : Fin 4) : Nat :=
  if isBerth t.src.base && berthNo t.src.base == b && !t.faulted && !t.ended then t.tileBytes - t.stage.length else 0

/-- Steps of the next chunk or step of a SCAN (R235). -/
def Scan.next (r : Scan) : Nat :=
  match r.form with
  | .stp => 1
  | .chk => min 16 (r.len - r.at_)
  | .byRule => if r.len - r.at_ < 16 then 1 else 16

/-- Elements per step of each input record of a SCAN (R234). -/
def Units.scanPer (u : Units) (i : Fin 3) : Nat :=
  if i = 2 then 2 * (u.scanCfg.extractLsb' 0 7).toNat else (u.scanCfg.extractLsb' 7 4).toNat + 1

def Scan.rec_ (r : Scan) (i : Fin 3) : Shp := if i = 0 then r.x else if i = 1 then r.a else r.bc

/-- Bytes a SCAN would take from berth `b` for one of its records. -/
def Units.scanWants (u : Units) (r : Scan) (i : Fin 3) (b : Fin 4) : Nat :=
  let h := r.rec_ i
  if isBerth h.base && berthNo h.base == b then r.next * u.scanPer i * h.es - r.stage[i].length else 0

/-- Hand the bytes of IN berth `b` to the streams and then to the first SCAN that read it. -/
def Core.pullBerth (c : Core) (k : CoreId) (b : Fin 4) : Core :=
  if !c.berthReady b false then c
  else
    let c := (List.finRange 8).foldl (fun c n =>
      match c.streams[n] with
      | none => c
      | some t =>
        let (l, c) := c.berthTake k b (min (t.wants b) c.berths[b].buf.length)
        { c with streams := c.streams.set n (some { t with stage := t.stage ++ l }) }) c
    match c.unit.scans with
    | [] => c
    | r :: rs =>
      let (r, c) := (List.finRange 3).foldl (fun (r, c) i =>
        let (l, c) := Core.berthTake c k b (min (c.unit.scanWants r i b) c.berths[b].buf.length)
        ({ r with stage := r.stage.set i (r.stage[i] ++ l) }, c)) (r, c)
      { c with unit := { c.unit with scans := r :: rs } }

def Core.pullBerths (c : Core) (k : CoreId) : Core := (List.finRange 4).foldl (fun c b => c.pullBerth k b) c

/-! ### COPY (R263) -/

def Core.freeStream (c : Core) : Option (Fin 8) := (List.finRange 8).find? fun n => c.streams[n].isNone

/-- Step 1 of R263 for one end: the offset (R108). -/
def Shp.offCheck (h : Shp) (b : Word) (k : Act) : Act :=
  if b.toNat % h.es != 0 then .trap 0x06 b
  else if isLocal h.base && !h.inside b then .trap 0x06 b
  else k

/-- Step 1 of R263. -/
def copyCheck (src dst : Shp) (sb db : Word) (fb ring : Bool) (k : Act) : Act :=
  let sizes := match convSizes src.conv with
    | some (_, d) => d == dst.esCode
    | none => src.esCode == dst.esCode
  if (!ring && src.total != dst.total) || !sizes then .trap 0x06 0
  else src.offCheck sb (dst.offCheck db
    (if !validWindow sb then .trap 0x0A sb
     else if !validWindow db then .trap 0x0A db
     else if isGlobal sb && isGlobal db then .trap 0x0A db
     else if fb && !isLocal db then .trap 0x0A dst.base
     else k))

/-- The ring rules of R112. -/
def Shp.ringOk (h : Shp) : Bool :=
  let b := h.tile * h.es
  h.dims == 1 && isLocal h.base && h.s0 == (h.es : Int) && offOf h.base % 16 == 0 && h.tile != 0 &&
    h.total % h.tile == 0 && b % 16 == 0

def withBase (h : Shp) (b : Word) : Shp := b ++ h.extractLsb' 0 192

/-- A stream is taken (R108). -/
def State.startStream (s : State) (n : Fin 8) (src dst : Shp) (ring fb : Bool) (d : Done) : State :=
  let t : Stream :=
    { slot := s.cur.slot, gtid := s.me.gtid, src := src, dst := dst, ring := ring, fb := fb, tile := 0,
      credit := if ring then dst.total / dst.tile else 0, filled := 0, oldest := 0, faulted := false, ended := false,
      redirect := none, done := d, ent := none, flags := 0, stage := [], asked := false, got := [], addrs := [], at_ := s.now }
  s.modCore s.cur.core fun c => Core.pullBerths { c with streams := c.streams.set n (some t) } s.cur.core

def cmdSync : Option (Sync × Option Ctr) → Sync
  | none => Sync.none
  | some c => c.1
def cmdCtr : Option (Sync × Option Ctr) → Option Ctr
  | none => none
  | some c => c.2

/-- COPY (R263). -/
def execCopy (x : CopyF) (s : State) : Host.Outcome State Fault Refusal :=
  issue (mkForm x.q 26 (x.c :: x.d :: ctrOps (cmdCtr x.cmd)) [])
    (fun s =>
      let m := (s.core s.cur.core).mem
      let src := m.shapes[x.a]
      let dst := m.shapes[x.b]
      let sb := addOff src.base (s.rd x.c)
      let db := addOff dst.base (s.rd x.d)
      copyCheck src dst sb db x.fb false
        (counterWord s (cmdCtr x.cmd) fun ctr =>
          syncIssue s (cmdSync x.cmd) .stream (s.core s.cur.core).freeStream.isSome fun s =>
            match (s.core s.cur.core).freeStream with
            | none => .wait .stream id
            | some n => .ok (s.startStream n (withBase src sb) (withBase dst db) false x.fb (syncDone (cmdSync x.cmd) ctr)))) s

/-- COPY.ring (R263, R112). -/
def execCopyRing (x : CopyRingF) (s : State) : Host.Outcome State Fault Refusal :=
  issue (mkForm x.q 26 (ctrOps (cmdCtr x.cmd)) [x.d])
    (fun s =>
      let m := (s.core s.cur.core).mem
      let src := m.shapes[x.a]
      let dst := m.shapes[x.b]
      let free := (s.core s.cur.core).freeStream
      let num := BitVec.ofNat 64 (free.getD 0).val
      copyCheck src dst src.base dst.base false true
        (if !dst.ringOk then .trap 0x06 0
         else counterWord s (cmdCtr x.cmd) fun ctr =>
          if s.slimRefuses x.d num then .trap 0x0B num
          else syncIssue s (cmdSync x.cmd) .stream free.isSome fun s =>
            match free with
            | none => .wait .stream id
            | some n => .ok ((s.wr x.d num).startStream n src dst true true (syncDone (cmdSync x.cmd) ctr)))) s

/-! ### Tiles (R108 to R112) -/

/-- Why a tile stops (R111). -/
inductive TileStop where
  | xlate (f : XFault) (acc : BitVec 8)
  | data (va : Word)
  /-- The entry does not cover an element: the stream stalls until the hub walker has refilled it (R110). -/
  | miss (va : Word)
  /-- The bytes are not there. -/
  | wait

/-- Where a stream's task is now (R359). -/
def Stream.home (t : Stream) (k : CoreId) : CoreId × Fin 4 := t.redirect.getD (k, t.slot)

/-- Whether an element at a DPA is decoded, `off` bytes into its tile: a whole tile is one access to an aperture (R401). -/
def State.reachableAt (s : State) (vf : Nat) (acc : BitVec 8) (whole : Bool) (off d : Nat) : Bool :=
  match homeOf d with
  | some (.remote _ true _) => s.reachable vf acc whole (d - off)
  | _ => s.reachable vf acc whole d

/-- Translate an element through the stream's one entry (R110), `off` bytes into its tile. -/
def State.streamAddr (s : State) (k : CoreId) (t : Stream) (va : Word) (acc : BitVec 8) (whole : Bool) (off : Nat) :
    Except TileStop Nat :=
  let x := s.slot (t.home k).1 (t.home k).2
  if 2 ≤ (lvlOf x).toNat then
    (if s.reachableAt (gtidVf t.gtid) acc whole off va.toNat then .ok va.toNat
     else .error (.xlate ⟨6, 0, false, false, 0, va⟩ acc))
  else
    match t.ent.filter fun e => e.covers (gtidVf t.gtid) va.toNat with
    | none => .error (.miss va)
    | some e =>
      match e.check va.toNat acc (lvlOf x == 0) with
      | some f => .error (.xlate { f with va := va } acc)
      | none =>
        if s.reachableAt (gtidVf t.gtid) acc whole off (e.apply va.toNat) then .ok (e.apply va.toNat)
        else .error (.xlate (e.undecoded va) acc)

/-- Addresses of elements in linear order, each with its place in the tile, as far as the entry gives them. -/
def State.resolve (s : State) (k : CoreId) (t : Stream) (h : Shp) (acc : BitVec 8) (whole : Bool) :
    List (Nat × Nat) → List Nat × Option TileStop
  | [] => ([], none)
  | (n, j) :: l =>
    match s.streamAddr k t (h.addr h.base n) acc whole (j * h.es) with
    | .error e => ([], some e)
    | .ok d =>
      let r := s.resolve k t h acc whole l
      (d :: r.1, r.2)

/-- Elements of the tile that a stream is at, as its record numbers them. -/
def Stream.tileElems (t : Stream) (h : Shp) : List Nat :=
  (List.range (t.tileLen t.tile)).map fun j =>
    if t.ring && h == t.dst then (t.tile * t.dst.tile + j) % h.total else t.tile * t.dst.tile + j

/-- The global end of a stream and its access code (R314). -/
def Stream.globalEnd (t : Stream) : Option (Shp × BitVec 8) :=
  if isGlobal t.src.base then some (t.src, 7) else if isGlobal t.dst.base then some (t.dst, 8) else none

/-- DPAs of the tile's global elements: those found before, and those that the entry gives now. -/
def State.tileResolve (s : State) (k : CoreId) (t : Stream) : List Nat × Option TileStop :=
  match t.globalEnd with
  | none => ([], none)
  | some (h, acc) =>
    let r := s.resolve k t h acc (decide (t.tileLen t.tile * h.es = 64))
      (((t.tileElems h).zipIdx).drop t.addrs.length)
    (t.addrs ++ r.1, r.2)

/-- The values of a tile's source elements, and the stream after them; `ds` are its DPAs where it is global. -/
def State.tileRead (s : State) (k : CoreId) (t : Stream) (ds : List Nat) (bad : Bool) :
    Except TileStop (List Nat × Stream) :=
  let h := t.src
  let ns := t.tileElems h
  if isLocal h.base then
    let os := ns.map fun n => ((offOf h.base : Int) + h.off n).toNat
    match os.findSome? fun o => (s.core k).badWord o h.es with
    | some w => .error (.data (localAddr w))
    | none => .ok (os.map fun o => s.sramLE k o h.es, t)
  else if isBerth h.base then
    if t.stage.length < ns.length * h.es then .error .wait
    else .ok ((List.range ns.length).map fun i => leBytes ((t.stage.drop (i * h.es)).take h.es),
              { t with stage := t.stage.drop (ns.length * h.es) })
  else if bad then .error (.data (h.addr h.base (ns.headD 0)))
  else .ok (ds.zipIdx.map fun d => (mget t.got d.2).getD (s.homeLE d.1 h.es), t)

/-- Granules that a list of offsets of elements touches. -/
def granulesOf (os : List Nat) (n : Nat) : List Nat := os.flatMap fun o => [o / 16, (o + n - 1) / 16]

/-- Write a tile's elements to the destination; `ds` are its DPAs where it is global. -/
def State.tileWrite (s : State) (k : CoreId) (t : Stream) (vs ds : List Nat) : State :=
  let h := t.dst
  if isLocal h.base then
    let kd := (t.home k).1
    let os := (t.tileElems h).map fun n => ((offOf h.base : Int) + h.off n).toNat
    let s := (os.zip vs).foldl (fun s e => s.sramPut kd e.1 h.es e.2) s
    if t.fb then (granulesOf os h.es).foldl (fun s g => s.setFull kd g 1 true) s else s
  else if isBerth h.base then s.modCore k fun c => c.berthOut k (berthNo h.base) (vs.flatMap fun v => toBytes v h.es)
  else (ds.zip vs).foldl (fun s e => match homeOf e.1 with
    | some (.remote _ _ _) => s
    | _ => s.gwrite e.1 h.es e.2) s

/-- The elements of a tile that lie in other modules, with their addresses. -/
def tileRemote (ds : List Nat) : List (Nat × Nat) := ds.zipIdx.filter fun e => isRemote e.1

/-- A tile that reads or writes another module asks each peer that holds elements of it, with one frame (R400, R403). -/
def State.tileAsk (s : State) (k : CoreId) (n : Fin 8) (ds : List Nat) : State :=
  let es := tileRemote ds
  let to_ := fun (d : Nat) => (s.quayOf d, s.peerOf d)
  (es.map fun e => to_ e.1).eraseDups.foldl (fun t g =>
    match es.filter fun e => to_ e.1 == g with
    | [] => t
    | e :: l => t.sendFrame k e.1 (.tile n ((e :: l).map (·.2)))) s

/-- Whether a frame carries elements of a stream's tile. -/
def NetOut.ofStream (o : NetOut) (k : CoreId) (n : Fin 8) : Bool :=
  o.core == k && match o.what with | .tile m _ => m == n | _ => false

/-- Frames of a stream that no peer has answered (R116, R403). -/
def State.framesOut (s : State) (k : CoreId) (n : Fin 8) : Bool :=
  s.quays.any fun e => e.2.outst.any fun o => o.ofStream k n

/-- The order-sensitive choices of a tile (R278, R389): its place among the accesses to its granules at a local destination,
and among the stores to each address at a quay. -/
def State.tileOrder (s : State) (k : CoreId) (n : Fin 8) (t : Stream) (ds : List Nat) : Except State State :=
  let at_ := fun (h : Shp) => offOf (h.addr h.base ((t.tileElems h).headD 0))
  s.orderAll k
    ((if isLocal t.src.base then [fun s => s.orderEngine k (at_ t.src) (16 + n.val)] else []) ++
     (if isLocal t.dst.base then [fun s => s.orderAt (t.home k).1 8 (at_ t.dst) (16 + n.val)]
      else if isGlobal t.dst.base then ds.map fun d s => s.orderQuay k (s.quayOf d) 3 d t.gtid.toNat
      else []) ++
     (if t.ring then [fun s => s.orderSignal (t.home k).1 t.done (16 + n.val)] else []))

/-- A stream fault (R111, R300). -/
def State.streamFault (s : State) (k : CoreId) (n : Fin 8) (t : Stream) (kind : BitVec 3) (va sfdet : Word)
    (stage2 : Bool) : State :=
  let h := t.home k
  let s := s.modCore k fun c =>
    { c with streams := c.streams.set n (some { t with faulted := true, addrs := [], asked := false, got := [] }),
             regs := { c.regs with strflt := c.regs.strflt.set n (1#1 ++ kind ++ va.extractLsb' 0 60),
                                   sfdet := c.regs.sfdet.set n sfdet } }
  let s := s.modCore h.1 fun c => c.setSF t.done.faultSem true
  let s := if kind = 2 then s.noteUE k 0x0F va else s
  s.streamNotice k t.slot h t.gtid (BitVec.ofNat 4 n.val) stage2 va

/-- Engines of a core work outside the save of a pre-emption (R305 to R308). -/
def State.phaseOf (s : State) (k : CoreId) : Phase :=
  match s.partOf k with
  | none => .run
  | some p => (s.part p).phase

/-- Whether a stream may begin its next tile (R112, R114, R127, R305). R114 has one on an OPEN berth wait until it is JOINED;
one whose berth is CLOSED or joined in the other direction waits as well (DESIGN CHOICE, entry 85). -/
def State.tileGate (s : State) (k : CoreId) (t : Stream) : Bool :=
  let c := s.core k
  s.phaseOf k == .run && !t.faulted && !t.ended && (!t.ring || 0 < t.credit) &&
  (!isBerth t.src.base || c.berthReady (berthNo t.src.base) false) &&
  (!isBerth t.dst.base || (c.berthReady (berthNo t.dst.base) true && (c.berths[berthNo t.dst.base]).buf.isEmpty)) &&
  ((s.core (t.home k).1).gaccs.all fun a =>
    a.slot != (t.home k).2 || t.at_ ≤ a.at_ || a.performed || a.kind == .counterAdd)

/-- A stream looks for its next tile's translations (R110): it keeps what its entry gives, and a page that the entry does not
cover is a miss, which stalls it until the walk answers; a page that it may not use stops it (R111). -/
def State.streamRefill (s : State) (k : CoreId) (n : Fin 8) : Option State :=
  match (s.core k).streams[n] with
  | none => none
  | some t =>
    let r := s.tileResolve k t
    match r.2 with
    | some (.miss va) =>
      if !s.tileGate k t || (s.core k).misses.any fun m => m.stream == some n then none
      else
        let h := s.slot (t.home k).1 (t.home k).2
        let acc := match t.globalEnd with | some e => e.2 | none => 7
        some ((s.modCore k fun c =>
          { c with streams := c.streams.set n (some { t with addrs := r.1 }),
                   misses := c.misses ++ [⟨none, some n, va, acc, lvlOf h == 0, gtidVf t.gtid, false⟩] }).count k 9 (some t.slot))
    | _ => none

/-- A tile whose elements lie in other modules has its frames sent, once, over quays that work; a peer that is marked down fails
it (R400, R403). -/
def State.tileSend (s : State) (k : CoreId) (n : Fin 8) (t : Stream) (ds : List Nat) : Option State :=
  match t.globalEnd with
  | none => none
  | some (h, _) =>
    if t.asked || s.framesOut k n then none
    else match (tileRemote ds).find? fun e => s.peerDown e.1 with
      | some e => some (s.streamFault k n t 2 (h.addr h.base ((t.tileElems h).getD e.2 0)) 0 false)
      | none =>
        if (tileRemote ds).any fun e => !(s.quay (s.quayOf e.1)).up then none
        else some ((s.tileAsk k n ds).modCore k fun c =>
          { c with streams := c.streams.set n (some { t with asked := true, addrs := ds }) })

/-- Units of 16 bytes that one end of a tile moves at the core (R344): a global end is elsewhere. -/
def Shp.coreUnits (h : Shp) (n : Nat) : Nat := if isGlobal h.base then 0 else (n * h.es + 15) / 16

/-- COPY_TILE_COMPLETE (R108 to R112): a stream reads, converts and writes its next tile, or stops at it (R111). `bad`: the
data of its global source, or what it sends to its global destination, fails its check twice (R368). A tile of another module is asked
for first, and is whole once every peer has answered (R400, R403). -/
def execCopyTileComplete (k : CoreId) (n : Fin 8) (bad : Bool) (s : State) : Host.Outcome State Fault Refusal :=
  event s
    (match (s.core k).streams[n] with
     | none => none
     | some t =>
       if !s.tileGate k t || (bad && t.globalEnd.isNone) then none
       else
         let stop := fun (e : TileStop) => match e with
           | .wait => none
           | .miss _ => none
           | .data va => some (s.streamFault k n t 2 va 0 false)
           | .xlate f acc => some (s.streamFault k n t (if f.cause = 0x08 then 0 else 1) f.va (f.word acc) f.stage2)
         let ds := s.tileResolve k t
         match ds.2 with
         | some e => stop e
         | none =>
           match s.tileRead k t ds.1 bad with
           | .error e => stop e
           | .ok (vs, t1) =>
             if bad && isGlobal t.dst.base && !t.asked then stop (.data (t.dst.addr t.dst.base ((t.tileElems t.dst).headD 0)))
             else if !(tileRemote ds.1).isEmpty && (!t.asked || s.framesOut k n) then s.tileSend k n t ds.1
             else if (match t.globalEnd, ds.1.head? with
                 | some e, some d => !isRemote d && !s.quayRoom (s.quayOf d) (e.2 == 7)
                 | _, _ => false) then none
             else ordered (s.tileOrder k n t ds.1) fun s =>
             let cs := vs.map (convElem t.src.conv)
             let s1 := if isLocal t.src.base then (t.tileElems t.src).foldl (fun s j => s.modCore k fun c =>
                 c.correct ((offOf t.src.base : Int) + t.src.off j).toNat t.src.es (some t.slot)) s
               else { s with free := s.free + (if isGlobal t.src.base then 1 else 0) }
             let s2 := s1.tileWrite k t (cs.map (·.1)) ds.1
             let s2 := match t.globalEnd, ds.1.head? with
               | some e, some d => s2.chargeQuay (s.quayOf d) (gtidVf t.gtid) (vs.length * e.1.es)
               | _, _ => s2
             let h := t.home k
             let s2 := s2.charge k t.slot 22 (t.src.coreUnits vs.length + t.dst.coreUnits vs.length)
             let t3 := { t1 with tile := t.tile + 1, flags := t.flags ||| orFlags cs, addrs := [], asked := false, got := [],
                                 credit := if t.ring then t.credit - 1 else 0,
                                 filled := if t.ring then t.filled + 1 else 0, ended := decide (t.tiles ≤ t.tile + 1) }
             let s3 := s2.modCore k fun c => Core.pullBerths { c with streams := c.streams.set n (some t3) } k
             if t.ring then s3.signal h.1 h.2 t.done else s3)

/-- A core that a move has left, whose last redirected stream has completed, is freed and cleared (R359). -/
def State.freeLeft (s : State) (k : CoreId) : State :=
  let c := s.core k
  if c.held.isSome && (c.slots.toList.all fun x => x.st == .empty) && c.streams.toList.all Option.isNone then
    s.modCore k fun c => { c with held := none, mem := { c.mem with sram := [], full := 0 } }
  else s

/-- COPY_COMPLETE (R116): after the last tile, with every write to a network peer answered, the stream's flags, signal and
counter add are made and it is free. A SPACE after it finds no ring stream (DESIGN CHOICE, entry 85). A ring's owner has
its event latch set here, once, and not at the signal of each tile (DESIGN CHOICE, entry 94). -/
def execCopyComplete (k : CoreId) (n : Fin 8) (s : State) : Host.Outcome State Fault Refusal :=
  event s
    (match (s.core k).streams[n] with
     | none => none
     | some t =>
       if !t.ended || s.phaseOf k != .run || s.framesOut k n then none
       else
         let h := t.home k
         ordered (s.orderAll k [fun s => s.orderAt k 4 n.val n.val,
             fun s => if t.ring then .ok s else s.orderSignal h.1 t.done (16 + n.val)]) fun s =>
           let s := (s.modCore k fun c => { c with streams := c.streams.set n none }).setFlags h.1 h.2 t.flags
           let s := if t.ring then ((s.counterAdd h.1 h.2 n.val t.done).setEv h.1 h.2).settleHalt h.1 h.2
                    else s.complete h.1 h.2 n.val t.done
           if t.redirect.isSome then s.freeLeft k else s)

/-! ### SPACE (R113, R264) -/

/-- The ring stream of a number, here or left behind by a move (R359). -/
def State.ringOf (s : State) (k : CoreId) (n : Fin 8) : Option (CoreId × Stream) :=
  match (s.core k).streams[n] with
  | some t => if t.ring && t.redirect.isNone then some (k, t) else none
  | none => s.cores.findSome? fun e => match e.2.streams[n] with
    | some t => if t.ring && t.redirect.map (·.1) == some k then some (e.1, t) else none
    | none => none

/-- SPACE (R264): frees the oldest filled tiles, clears their granules and returns the credits. -/
def execSpace (x : SpaceF) (s : State) : Host.Outcome State Fault Refusal :=
  issue (mkForm x.q 26 (x.a :: r16Ops x.n) [])
    (fun s =>
      let n : Fin 8 := Fin.ofNat 8 (s.rd x.a).toNat
      let m := match x.n with | .imm v => v.toNat | .reg r => (s.rd r).toNat % 2 ^ 12
      match s.ringOf s.cur.core n with
      | none => .trap 0x09 (s.rd x.a)
      | some (k, t) =>
        if t.filled < m then .trap 0x09 (s.rd x.a)
        else
          let g := t.dst.tile * t.dst.es / 16
          let s := (List.range m).foldl (fun s i =>
            s.setFull s.cur.core (offOf t.dst.base / 16 + (t.oldest + i) % t.ringTiles * g) g false) s
          let t' := { t with filled := t.filled - m, oldest := (t.oldest + m) % t.ringTiles }
          .ok (s.modCore k fun c =>
            if isBerth t.src.base then
              { c with streams := c.streams.set n (some t'),
                       inj := c.inj ++ [c.berthMsg k c.berths[berthNo t.src.base] (.freeSpace k n t.at_ m) []] }
            else { c with streams := c.streams.set n (some { t' with credit := t.credit + m }) })) s

/-- The credits of a ring, for the stream that asked for them and no later one of its number. -/
def Core.ringCredit (c : Core) (n : Fin 8) (issued m : Nat) : Core :=
  { c with streams := c.streams.set n (c.streams[n].map fun t =>
      if t.ring ∧ t.at_ = issued then { t with credit := t.credit + m } else t) }

/-- FREE_SPACE_NOTICE (R113): the notice of a ring fed by a berth has reached the sending core, and its credits may be
used. -/
def execFreeSpaceNotice (k : CoreId) (i : Nat) (s : State) : Host.Outcome State Fault Refusal :=
  event s
    (match (s.core k).notices[i]? with
     | none => none
     | some (ring, n, issued, m) =>
       if s.phaseOf k != .run then none
       else some ((s.modCore k fun c => { c with notices := c.notices.eraseIdx i }).modCore ring fun c => c.ringCredit n issued m))

/-! ### CNTWAIT (R265) -/

/-- A slot no longer waits on a counter. -/
def State.endCount (s : State) (k : CoreId) (sl : Fin 4) : State :=
  { s with cntwaits := s.cntwaits.filter fun w => !(w.core == k && w.slot == sl) }

/-- The counter is read at once, and again whenever a write to it is performed (R117). -/
def cntAct (s : State) (d bound : Nat) : Act :=
  let k := s.cur.core
  let sl := s.cur.slot
  if bound ≤ s.gmem.readLE d 8 then .ok (s.endCount k sl)
  else .wait .counter fun s =>
    let t := s.endCount k sl
    { t with cntwaits := t.cntwaits ++ [⟨k, sl, d, bound⟩] }

/-- CNTWAIT (R265, R117): its read follows the slot's earlier accesses to the counter (R122), and those that R123 orders
before every later access. -/
def execCntwait (x : G2) (s : State) : Host.Outcome State Fault Refusal :=
  issue (mkForm x.q 7 [x.a, x.b] [])
    (fun s =>
      let a := s.rd x.a
      if s.me.reply = some (.value 0) then .ok (s.endCount s.cur.core s.cur.slot)
      else globalCheck a 8 (xlate s a 4 false fun t d =>
        if (t.core t.cur.core).gaccs.any fun g => g.slot == t.cur.slot && !g.performed && g.kind != .counterAdd &&
            (g.acq || (decide (g.dpa < d + 8) && decide (d < g.dpa + g.size))) then .wait .fence id
        else cntAct t d (s.rd x.b).toNat)) s

/-! ### Restart and end of a stream (R300) -/

/-- Clear a fault record. -/
def Core.clearFault (c : Core) (n : Fin 8) : Core :=
  { c with regs := { c.regs with strflt := c.regs.strflt.set n (c.regs.strflt[n] &&& ~~~(1#64 <<< 63)) } }

/-- The record of a stream holds a fault. -/
def Core.hasFault (c : Core) (n : Fin 8) : Bool := c.regs.strflt[n].getLsbD 63

/-- The held counter add of a record (R300). -/
def Core.heldAdd (c : Core) (n : Fin 8) : Option (Fin 4 × Word × BitVec 26 × BitVec 8 × Word) :=
  (c.heldAdds.find? fun e => e.1 == n).map (·.2)

/-- Whether the record is of a counter add (KIND 3). -/
def Core.faultIsAdd (c : Core) (n : Fin 8) : Bool := c.regs.strflt[n].extractLsb' 60 3 == 3#3

/-- ACTION 1 (R300): the stream goes on at its faulting tile, or the held counter add is made where its task now is (R359). -/
def State.restartStream (s : State) (k : CoreId) (n : Fin 8) : Option State :=
  let c := s.core k
  if !c.hasFault n then none
  else if c.faultIsAdd n then
    match c.heldAdd n with
    | none => none
    | some (sl, va, inc, sem, g) =>
      let h := (s.findTask g).getD (k, sl)
      some ((s.modCore k fun c => { c.clearFault n with heldAdds := c.heldAdds.eraseP fun e => e.1 == n }).addCounter h.1 h.2
        n.val va inc sem)
  else some (s.modCore k fun c =>
    { c.clearFault n with streams := c.streams.set n (c.streams[n].map fun t => { t with faulted := false }) })

/-- ACTION 2 (R300): the stream ends with its increment, or the held add is dropped; SF stays set. -/
def State.endStream (s : State) (k : CoreId) (n : Fin 8) : Option State :=
  let c := s.core k
  if !c.hasFault n then none
  else if c.faultIsAdd n then
    some (s.modCore k fun c => { c.clearFault n with heldAdds := c.heldAdds.eraseP fun e => e.1 == n })
  else match c.streams[n] with
    | none => some (s.modCore k fun c => c.clearFault n)
    | some t =>
      let h := t.home k
      let s := (s.modCore k fun c => { c.clearFault n with streams := c.streams.set n none }).setFlags h.1 h.2 t.flags
      let s := ((s.signal h.1 h.2 t.done).setEv h.1 h.2).settleHalt h.1 h.2
      some (if t.redirect.isSome then s.freeLeft k else s)

/-- STREAM_RESTART (R300): STRCTL with ACTION 1 acts on a core. -/
def execStreamRestart (k : CoreId) (n : Fin 8) (s : State) : Host.Outcome State Fault Refusal :=
  event s (s.restartStream k n)

/-- STREAM_END (R300): STRCTL with ACTION 2 acts on a core. -/
def execStreamEnd (k : CoreId) (n : Fin 8) (s : State) : Host.Outcome State Fault Refusal :=
  event s (s.endStream k n)

end Sys2Proof.Machine
end

