-- ==== Sys2Proof/Machine/Messages.lean ====
section
/-! DEFINITION. Messages, tags, channels and semaphores (09 R253 to R256, R259 to R261), the injection and arrival of
messages (01 R15 to R17, R26, 04 R126, 16 R358, 17 R370), and the actions DELIVER, DEPOSIT, ADDBLOCK, INLINE and WAKE
(03 R70 to R76). -/

namespace Sys2Proof.Machine

/-! ### Forming a message (R253) -/

def clsNo : MsgCls → Fin 4
  | .req => 0
  | .rsp => 1
  | .sys => 3

/-- `.sys` needs level S (R138). -/
def clsLvl : MsgCls → BitVec 2
  | .sys => 1
  | _ => 0

/-- The tag and the 4-bit count of a form (R253). -/
def msgTag (tag : Option (BitVec 16)) (gD : Word) : BitVec 6 × Nat :=
  match tag with
  | none => (gD.extractLsb' 22 6, (gD.extractLsb' 28 4).toNat)
  | some v => (v.extractLsb' 0 6, (v.extractLsb' 6 4).toNat)

/-- A class queue of the network interface holds four messages of its tasks (R253); berth data, notices and what locked nodes send take
no place in it (DESIGN CHOICE, entry 94). -/
def Core.injRoom (c : Core) (cls : Fin 4) : Bool :=
  (c.inj.filter fun m => m.cls == cls && (m.kind == .plain || m.kind == .sysmsg)).length < 4

/-- The message of the issuing slot (R253). -/
def State.mkMsg (s : State) (cls : Fin 4) (gD : Word) (tag : BitVec 6) (block : Bool) (ws : List Word) : Msg :=
  let g := s.me.gtid
  { kind := if cls = 3 then .sysmsg else .plain, vf := gtidVf g, launch := gtidLaunch g, dst := gD.extractLsb' 0 22,
    src := gtidRank g, from_ := s.cur.core, cls := cls, tag := tag, block := block, seq := 0, payload := ws,
    sample := none }

/-- The launch record by which messages find their ranks. -/
def State.heldOf (s : State) (vf launch : Nat) : Option Held :=
  s.cores.findSome? fun e => match e.2.held with
    | some h => if h.vf = vf ∧ h.launch = launch then some h else none
    | none => none

/-- The launch of a task: that of its core, where it is the one that its GTID names, else the one it names (R27). -/
def State.launchOf (s : State) (k : CoreId) (g : Word) : Option Held :=
  match (s.core k).held with
  | some h => if h.vf = gtidVf g ∧ h.launch = gtidLaunch g then some h else s.heldOf (gtidVf g) (gtidLaunch g)
  | none => s.heldOf (gtidVf g) (gtidLaunch g)

/-- The number of ranks of a task's launch, 0 where no core of it is held. -/
def State.rankCount (s : State) (k : CoreId) (g : Word) : Nat := match s.launchOf k g with | some h => h.ranks | none => 0

/-- The destination rank's check (R26), then room in the class queue. -/
def sendCheck (s : State) (cls : Fin 4) (gD : Word) (k : Act) : Act :=
  let r := (gD.extractLsb' 0 22).toNat
  let n := s.rankCount s.cur.core s.me.gtid
  if n ≤ r then .trap 0x09 (BitVec.ofNat 64 r)
  else if !(s.core s.cur.core).injRoom cls then .wait .inject id
  else k

/-- Queue a message for injection. -/
def State.enqueueMsg (s : State) (m : Msg) : State := s.modCore m.from_ fun c => { c with inj := c.inj ++ [m] }

/-- SEND (R254): L words of gA, gB, gC. -/
def execSend (x : SendF) (s : State) : Host.Outcome State Fault Refusal :=
  let n := if s.cur.inline then 3 else (msgTag x.tag (s.rd x.d)).2
  issue (mkForm x.q 31 (x.d :: ([x.a, x.b, x.c].take n)) [] [] (clsLvl x.cls))
    (fun s =>
      let t := msgTag x.tag (s.rd x.d)
      if 3 < t.2 then .trap 0x09 (s.rd x.d)
      else sendCheck s (clsNo x.cls) (s.rd x.d)
        (.ok (s.enqueueMsg (s.mkMsg (clsNo x.cls) (s.rd x.d) t.1 false (([x.a, x.b, x.c].map s.rd).take t.2))))) s

/-- SENDV (R255): L consecutive words of SRAM. -/
def execSendv (x : SendvF) (s : State) : Host.Outcome State Fault Refusal :=
  issue (mkForm x.q 31 [x.d, x.a] [] [] (clsLvl x.cls))
    (fun s =>
      let t := msgTag x.tag (s.rd x.d)
      localCheck (s.rd x.a) 8 fun o =>
        if t.2 = 0 ∨ 9 < t.2 then .trap 0x09 (s.rd x.d)
        else if 65536 < o + 8 * t.2 then .trap 0x07 (s.rd x.a)
        else sendCheck s (clsNo x.cls) (s.rd x.d)
          (readLocal s o (8 * t.2) fun s v =>
            .ok (s.enqueueMsg (s.mkMsg (clsNo x.cls) (s.rd x.d) t.1 false
              ((List.range t.2).map fun i => BitVec.ofNat 64 (v / 2 ^ (64 * i))))))) s

/-- Block counts of SENDB (R256). -/
def sendbMax (lock : Bool) (k : BlkTy) : Nat :=
  match lock, k with
  | false, .pb8 => 4
  | false, .pb4 => 7
  | true, .pb8 => 3
  | true, .pb4 => 6

/-- The payload of nb blocks: element words, then header words (R72, R256). -/
def blkPayload (k : BlkTy) (nb : Nat) (v : VWord) (h : BitVec 128) : List Word :=
  let ew := nb * (if isPb4 k then 1 else 2)
  ((List.range ew).map fun i => v.extractLsb' (64 * i) 64) ++
  ((List.range ((nb + 3) / 4)).map fun i =>
    BitVec.ofNat 64 (h.toNat % 2 ^ (16 * nb) / 2 ^ (64 * i)))

/-- SENDB (R256): NF when it sends a NaN block (R37). -/
def execSendb (x : SendbF) (s : State) : Host.Outcome State Fault Refusal :=
  issue (mkForm x.q 31 [x.d] [] [.v x.a] (clsLvl x.cls))
    (fun s =>
      let t := msgTag x.tag (s.rd x.d)
      let bs := (List.range t.2).map fun b => regBlk x.k (s.rdV x.a) (s.rdH x.a) b
      if t.2 = 0 ∨ sendbMax x.lock x.k < t.2 then .trap 0x09 (s.rd x.d)
      else if x.lock && (bs.any fun b => b.e != (bs.headD Blk.zero).e || b.isNan) then .trap 0x09 0
      else sendCheck s (clsNo x.cls) (s.rd x.d)
        (let s' := s.enqueueMsg (s.mkMsg (clsNo x.cls) (s.rd x.d) t.1 true (blkPayload x.k t.2 (s.rdV x.a) (s.rdH x.a)))
         .ok (if bs.any Blk.isNan then s'.setFlags s.cur.core s.cur.slot flagNF else s'))) s

/-! ### Injection (R26, R126, R253, R344, R358) -/

/-- Source of the order of R126 and of the duplicate test: the source rank, or for a notice the core that formed it
(R408). -/
def Msg.srcKey (m : Msg) : Nat := if m.kind == .notice then 2 ^ 22 + m.from_ else m.src.toNat

/-- A source and destination pair (R253, R370). -/
def Msg.pair (m : Msg) : Nat := ((m.vf * 2 ^ 16 + m.launch) * 2 ^ 22 + m.dst.toNat) * 2 ^ 23 + m.srcKey

/-- Source and sequence, as the order log names a message (R389), and the same as an issuer of R19 beside the core's own. -/
def Msg.logKey (m : Msg) : Nat := m.srcKey + 2 ^ 23 * m.seq.toNat
def Msg.issuer (m : Msg) : Nat := 32 + m.logKey

/-- Whether two messages keep their order (R126). -/
def Msg.sameFlow (m n : Msg) : Bool := m.pair == n.pair && m.cls == n.cls

def Msg.sameDst (m n : Msg) : Bool := m.vf == n.vf && m.launch == n.launch && m.dst == n.dst

/-- Flits of a message (R17). -/
def Msg.flits (m : Msg) : Nat := m.payload.length + 2

/-- A rank in transit holds its messages at the sender (R126, R358). -/
def State.inTransit (s : State) (m : Msg) : Bool :=
  match s.heldOf m.vf m.launch with
  | none => false
  | some h => match s.rankLookup h.part m.launch m.dst.toNat with
    | some e => e.transit
    | none => false

/-- Mesh steps of the route of R15. -/
def hops (a b : CoreId) : Nat :=
  (max (posX a) (posX b) - min (posX a) (posX b)) + (max (posY a) (posY b) - min (posY a) (posY b))

/-- Whether the sampling unit takes the next message of a class, counting it (R387). -/
def Core.sampleTick (c : Core) (cls : Fin 4) : Bool × Core :=
  let w := c.regs.samp
  let period := (w.extractLsb' 4 12).toNat
  if period = 0 ∨ !(w.getLsbD 3 || (w.extractLsb' 1 2).toNat == cls.val) then (false, c)
  else
    let n := c.regs.sampCount + 1
    if period ≤ n then (true, { c with regs := { c.regs with sampCount := 0 } })
    else (false, { c with regs := { c.regs with sampCount := n } })

/-- The slot of a core that holds a rank of a launch. -/
def State.rankSlot (s : State) (k : CoreId) (vf launch : Nat) (rank : BitVec 22) : Option (Fin 4) :=
  (List.finRange 4).find? fun n =>
    (s.slot k n).st != .empty && (s.slot k n).gtid == mkGtid vf launch rank

/-- Put message i of a core's queues on the mesh. -/
def State.inject (s : State) (k : CoreId) (i : Nat) (m : Msg) : State :=
  let q := (mget (s.core k).seqOut m.pair).getD 0
  let st := (s.core k).sampleTick m.cls
  let s := s.setCore k { st.2 with inj := st.2.inj.eraseIdx i, seqOut := mset st.2.seqOut m.pair (q + 1) }
  let s := if st.1 then s.tick (fieldOf k) else s
  let m := { m with seq := q, from_ := k, sample := if st.1 then some (s.field (fieldOf k)).time else none }
  let fl := m.flits
  let v := s.vfOn k m.vf
  let s := (s.modCoreRegs k fun r => r.charge (s.mscale k) v 23 fl).count k 4 (s.rankSlot k m.vf m.launch m.src) fl
  match s.heldOf m.vf m.launch with
  | none => if m.cls = 3 then { s with fw := m :: s.fw } else s
  | some h =>
    let t := (s.route h m.dst.toNat).1
    let s := s.modCoreRegs k fun r => r.charge (s.mscale k) v 24 (fl * hops k t)
    (linksOf k t).foldl (fun s n => s.cross n m.wire) { s with mesh := s.mesh ++ [⟨m, t, m.wire⟩] }

/-- MESSAGE_INJECT: a queued message is injected, none before it to the same rank, and none that could go (R126). -/
def execMessageInject (k : CoreId) (i : Nat) (s : State) : Host.Outcome State Fault Refusal :=
  event s
    (match (s.core k).inj[i]? with
     | none => none
     | some m =>
       let before := ((s.core k).inj.take i).filter fun n => n.cls == m.cls
       if s.phaseOf k != .run || s.inTransit m || !(before.all fun n => s.inTransit n && !n.sameDst m) then none
       else some (s.inject k i m))

/-! ### Tags (R71, R259) -/

/-- The checks of R71. -/
def tagBad (e : Word) : Bool :=
  let arg := e.extractLsb' 0 32
  e.extractLsb' 32 17 != 0#17 ||
  (match tagAction e with
   | 0 => arg != 0
   | 1 => decide (8 ≤ arg.toNat)
   | 2 => arg.extractLsb' 25 7 != 0#7
   | 3 => arg.extractLsb' 29 3 != 0#3
   | 4 => arg.toNat == 0 || decide (4 < arg.toNat)
   | 5 => arg.extractLsb' 14 18 != 0#18 || arg.extractLsb' 9 5 == 31#5
   | 6 => decide (4 ≤ arg.toNat)
   | _ => true)

/-- TAGSET: the entry, with ERR write-1-to-clear; the ring base is the GRAN written (R72). -/
def TagEnt.write (t : TagEnt) (v : Word) : TagEnt :=
  { word := (v &&& ~~~(1#64 <<< 58)) ||| (t.word &&& ~~~v &&& (1#64 <<< 58)), base := tagGran v, writes := t.writes + 1 }

/-- Number of a tag: imm16 bits 5:0, or bits 5:0 of a register. -/
def tagNo (s : State) : R16 → BitVec 6
  | .reg r => (s.rd r).extractLsb' 0 6
  | .imm v => v.extractLsb' 0 6

/-- TAGSET (R259, R71). -/
def execTagset (x : TagsetF) (s : State) : Host.Outcome State Fault Refusal :=
  issue (mkForm x.q 26 (x.a :: r16Ops x.t) [])
    (fun s =>
      if tagBad (s.rd x.a) then .trap 0x03 s.headWord
      else .ok ((s.modMem s.cur.core fun m =>
        { m with tags := m.tags.set (tagNo s x.t).toFin (m.tags[(tagNo s x.t).toFin].write (s.rd x.a)) }).settleTags s.cur.core)) s

/-- TAGGET (R259). -/
def execTagget (x : TaggetF) (s : State) : Host.Outcome State Fault Refusal :=
  issue (mkForm x.q 26 (r16Ops x.t) [x.d])
    (fun s => writeG s x.d (s.core s.cur.core).mem.tags[(tagNo s x.t).toFin].word) s

/-- CHK (R260). -/
def execChk (x : ChkF) (s : State) : Host.Outcome State Fault Refusal :=
  issue (mkForm x.q 1 [] [x.d] (match x.s with | .chan n => [.c n] | .mask _ => []))
    (fun s => match x.s with
      | .chan n => if s.me.r.pres.getLsbD n.val then writeG s x.d s.me.r.c[n] else .wait .channel id
      | .mask m => writeG s x.d ((s.me.r.pres &&& m.extractLsb' 0 8).setWidth 64)) s

/-! ### Semaphores (R261) -/

def semOps : SemArg → List GOp
  | .imm _ => []
  | .reg r => [r]

/-- I or T of a semaphore form. -/
def semVal (s : State) : SemArg → BitVec 16
  | .imm v => v.setWidth 16
  | .reg r => (s.rd r).extractLsb' 0 16

/-- SF × 2^16 + sem[N]. -/
def Core.semWord (c : Core) (n : BitVec 8) : Word :=
  0#47 ++ BitVec.ofBool (c.mem.sf.getLsbD n.toNat) ++ c.mem.sem[n.toFin]

/-- SEMSIG (R261, R23). -/
def execSemsig (x : SemsigF) (s : State) : Host.Outcome State Fault Refusal :=
  issue (mkForm x.q 26 (semOps x.i) [])
    (fun s => match (s.core s.cur.core).addSem x.n (semVal s x.i).toNat with
      | none => .trap 0x0E (x.n.setWidth 64)
      | some c => .ok (s.setCore s.cur.core c)) s

/-- SEMWAIT (R261, R67): a threshold of 0 in the register form is no wait. -/
def execSemwait (x : SemwaitF) (s : State) : Host.Outcome State Fault Refusal :=
  issue (mkForm x.q 26 (semOps x.i) [x.d])
    (fun s =>
      let t := semVal s x.i
      let fin := fun (s : State) => writeG s x.d ((s.core s.cur.core).semWord x.n)
      if t = 0 then fin s else takeSem s x.n t true .semaphore fin) s

/-- SEMGET (R261). -/
def execSemget (x : SemgetF) (s : State) : Host.Outcome State Fault Refusal :=
  issue (mkForm x.q 26 [] [x.d]) (fun s => writeG s x.d ((s.core s.cur.core).semWord x.n)) s

/-- SEMSET (R261): the count and SF. -/
def execSemset (x : SemsetF) (s : State) : Host.Outcome State Fault Refusal :=
  issue (mkForm x.q 26 [x.a] [])
    (fun s => .ok (s.modCore s.cur.core fun c =>
      (c.setSF x.n ((s.rd x.a).getLsbD 16)).setSem x.n ((s.rd x.a).extractLsb' 0 16))) s

/-! ### Arrival (R70, R126, R370) -/

/-- The slot of a core that holds the destination rank of a message. -/
def State.slotOf (s : State) (k : CoreId) (m : Msg) : Option (Fin 4) := s.rankSlot k m.vf m.launch m.dst

/-- A message whose trailer CRC fails (R370). -/
def State.crcFail (s : State) (k : CoreId) (m : Msg) : State :=
  if m.cls.val < 2 then
    let e := (s.core k).mem.tags[m.tag.toFin].word
    (s.modCore k fun c => c.tagErr m.tag).defer k (tagSlot e) 0x0F
      (m.src.setWidth 64 ||| (m.tag.setWidth 64 <<< 24))
  else s.notifyAll (s.partNum k) 0x0F 0

/-- The sequence number of a message is its pair's last (R370). -/
def State.noteSeq (s : State) (k : CoreId) (m : Msg) : State :=
  s.modCore k fun c => { c with seqIn := mset c.seqIn m.pair m.seq }

/-- The place of `n` bytes of a core in the overflow area (R306): the pieces after it, its piece, and the offset there. The core's
last piece takes them, or a new one in its own field (entry 57). -/
def PartCtx.overflowPlace (x : PartCtx) (k : CoreId) (n : Nat) : List (CoreId × Nat × Nat) × Nat × Nat :=
  let new := (x.pieces ++ [(k, fieldOf k, n)], x.pieces.length, 0)
  match (x.pieces.zipIdx.filter fun e => e.1.1 == k).getLast? with
  | none => new
  | some (e, i) => if e.2.2 + n ≤ 4096 then (x.pieces.set i (k, e.2.1, e.2.2 + n), i, e.2.2) else new

/-- A message written to the overflow area of its partition (R306, R307): its header and its payload. -/
def State.writeOverflow (s : State) (p : Nat) (k : CoreId) (m : Msg) : State :=
  let x := s.part p
  let l := (m.header :: m.payload).flatMap fun w => toBytes w.toNat 8
  let (ps, i, o) := x.ctx.overflowPlace k l.length
  let f := match ps[i]? with | some e => e.2.1 | none => fieldOf k
  let n := ((ps.take i).filter fun e => e.2.1 == f).length
  (s.modCtx p fun c => { c with overflow := c.overflow ++ [(k, m)], pieces := ps }).saveBytes x.ctx (qVf x.qcur)
    (s.saveBlock p (qVf x.qcur) f + 0x43000000 + 4096 * n + o) l 3

/-- An accepted message joins its class queue, or in phase 2 the overflow area where the queue is full (R306). -/
def State.accept (s : State) (k : CoreId) (m : Msg) : State :=
  let s := s.noteSeq k m
  let p := s.partNum k
  if s.phaseOf k == .drain2 && (decide (Config.arrivalDepth ≤ (s.core k).arr[m.cls].length) ||
      (s.part p).ctx.overflow.any fun e => e.1 == k && e.2.cls == m.cls) then
    s.writeOverflow p k m
  else (s.modCore k fun c => { c with arr := c.arr.set m.cls (c.arr[m.cls] ++ [m]) }).settleTags k

/-- Berth credit and opens are taken by the berths (R114). -/
def Msg.forBerth (m : Msg) : Bool :=
  match m.kind with
  | .berthFree _ _ _ => true
  | .berthOpen _ _ => true
  | _ => false

/-- A message delivered a second time (R370). -/
def State.duplicate (s : State) (k : CoreId) (m : Msg) : Bool := mget (s.core k).seqIn m.pair == some m.seq

/-- The first message of its flow on the mesh (R126). -/
def State.firstOfFlow (s : State) (i : Nat) (m : Msg) : Bool := (s.mesh.take i).all fun f => !f.msg.sameFlow m

/-- Whether message i of the mesh may arrive now: the first of its flow, over links that work, at a core that takes it. -/
def State.mayArrive (s : State) (i : Nat) (f : Flight) : Bool :=
  s.firstOfFlow i f.msg && s.routeOpen f.msg.from_ f.target && s.phaseOf f.target != .save3 && s.phaseOf f.target != .out

/-- MESSAGE_ARRIVAL: a message reaches its core, its trailer and its sequence number are checked (R370), and it joins its
class queue (R70), or the notices of free space (R113). `err` is what happened to its flits on the way; what the CRC does
not find does not happen (entry 86). A berth's credit and opens that pass are BERTH_CREDIT and BERTH_JOIN. -/
def execMessageArrival (i : Nat) (err : Nat) (s : State) : Host.Outcome State Fault Refusal :=
  event s
    (match s.mesh[i]? with
     | none => none
     | some f =>
       let m := f.msg
       let k := f.target
       let ok := trailerOk f.wire err
       if !s.mayArrive i f || (ok && err % 2 ^ (64 * f.wire.length) != 0) || (ok && m.forBerth && !s.duplicate k m) then none
       else
         let taken := fun (s : State) => State.count { s with mesh := s.mesh.eraseIdx i } k 5 (s.slotOf k m) m.flits
         if !ok then some ((taken s).crcFail k m)
         else if s.duplicate k m then some (taken s)
         else match m.kind with
           | .freeSpace ring n issued c =>
             some (((taken s).noteSeq k m).modCore k fun x => { x with notices := x.notices ++ [(ring, n, issued, c)] })
           | _ => ordered (s.orderAt k 1 m.cls.val m.logKey) fun s => (taken s).accept k m)

/-! ### Tag actions (R71 to R74) -/

/-- The head of class queue i that a tag names, when it may be acted on: its entry has action `a`, as it stands
now, also while a locked context is open for an entry that it has replaced (DESIGN CHOICE, entry 94). -/
def State.tagHead (s : State) (k : CoreId) (i a : Nat) : Option (Fin 4 × Msg × Word) :=
  let c := s.core k
  if 2 ≤ i || s.phaseOf k == .save3 || s.phaseOf k == .out then none
  else
    let q : Fin 4 := Fin.ofNat 4 i
    if c.queueHeld q then none
    else match c.arr[q] with
      | [] => none
      | m :: _ =>
        let e := c.mem.tags[m.tag.toFin].word
        if m.kind == .plain && tagAction e == a && !tagHopeless c m then some (q, m, e) else none

/-- A tag's action reads its entry, and may write it: an access to the tag table (R19, R389). -/
def State.orderTag (s : State) (k : CoreId) (m : Msg) : Except State State := s.orderAt k 2 (objTag m.tag.toNat) m.issuer

/-- The head of a class queue has been acted on. -/
def State.popArr (s : State) (k : CoreId) (q : Fin 4) : State :=
  let s := match (s.core k).arr[q] with | m :: _ => s.acted k m | [] => s
  (s.modCore k fun c => { c with arr := c.arr.set q (c.arr[q].drop 1) }).settleTags k

/-- The head of a class queue is discarded under R73. -/
def State.discard (s : State) (k : CoreId) (q : Fin 4) (t : BitVec 6) : State :=
  (s.modCore k fun c => Core.tagErr { c with arr := c.arr.set q (c.arr[q].drop 1) } t).settleTags k

/-- The action is complete: the head leaves, and the entry signals (R71, R178). -/
def State.tagFinish (s : State) (k : CoreId) (q : Fin 4) (e : Word) : State :=
  (s.popArr k q).tagDone k (tagSlot e) (tagSigen e) (tagSem e)

/-- DELIVER (R72): waits for the channel's presence to clear. -/
def execDeliver (k : CoreId) (i : Nat) (s : State) : Host.Outcome State Fault Refusal :=
  event s
    (match s.tagHead k i 1 with
     | none => none
     | some (q, m, e) =>
       let n : Fin 8 := Fin.ofNat 8 (e.extractLsb' 0 3).toNat
       if (s.slot k (tagSlot e)).r.pres.getLsbD n.val then none
       else ordered (s.orderTag k m) fun s => ((s.modRegs k (tagSlot e) fun r => r.wrC n (m.payload.headD 0)).tagFinish k q e))

/-- Bytes of a payload. -/
def payloadBytes (ws : List Word) : List Byte := ws.flatMap fun w => toBytes w.toNat 8

/-- The granules of a deposit (R72). -/
def depositGranules (e : Word) (base : BitVec 12) (n : Nat) : List Nat :=
  let g := (tagGran e).toNat
  let lim := (e.extractLsb' 13 12).toNat
  (List.range n).map fun i => if lim = 0 then g + i else base.toNat + (g - base.toNat + i) % lim

/-- GRAN after a deposit of n granules (R72). Without a ring it is a sum of 12 bits: past granule 0xFFF it is 0 again
(DESIGN CHOICE, entry 85: R72 states no value). -/
def depositNext (e : Word) (base : BitVec 12) (n : Nat) : BitVec 12 :=
  let g := (tagGran e).toNat
  let lim := (e.extractLsb' 13 12).toNat
  BitVec.ofNat 12 (if lim = 0 then g + n else base.toNat + (g - base.toNat + n) % lim)

/-- DEPOSIT (R72, R100). -/
def execDeposit (k : CoreId) (i : Nat) (s : State) : Host.Outcome State Fault Refusal :=
  event s
    (match s.tagHead k i 2 with
     | none => none
     | some (q, m, e) =>
       let t := (s.core k).mem.tags[m.tag.toFin]
       let bs := payloadBytes m.payload
       let n := (bs.length + 15) / 16
       let gs := depositGranules e t.base n
       if gs.any fun g => decide (4096 ≤ g) then ordered (s.orderTag k m) fun s => s.discard k q m.tag
       else ordered (s.orderAt k 8 (16 * (tagGran e).toNat) m.issuer) fun s =>
         let s := gs.zipIdx.foldl (fun s (g, j) =>
           let b := (bs.drop (16 * j)).take 16
           (s.sramPut k (16 * g) b.length (leBytes b)).setFull k g 1 true) s
         let t' := { t with word := e.extractLsb' 12 52 ++ depositNext e t.base n }
         let s := if e.getLsbD 12 then s.modMem k fun c => { c with tags := c.tags.set m.tag.toFin t' } else s
         s.tagFinish k q e)

/-- Blocks in an ADDBLOCK payload of L words (R72). -/
def addblockCount (pb4 : Bool) (l : Nat) : Option Nat :=
  (List.range (if pb4 then 8 else 5)).find? fun b =>
    b != 0 && (if pb4 then b else 2 * b) + (b + 3) / 4 == l

/-- Block b of a payload of nb blocks. -/
def payloadBlk (k : BlkTy) (nb : Nat) (ws : List Word) (b : Nat) : Blk :=
  let bits := leBytes (payloadBytes ws)
  let w := pbBits k
  blkOf k ((List.range 16).map fun i => bits / 2 ^ (w * (16 * b + i)) % 2 ^ w) (bits / 2 ^ (16 * w * nb + 16 * b))

/-- Element and header addresses of an ADDBLOCK entry. -/
def addblockAt (e : Word) : Nat × Nat := (16 * (tagGran e).toNat, 2 * (e.extractLsb' 12 15).toNat)
def addblockTy (e : Word) : BlkTy := if e.getLsbD 28 then .pb4 else .pb8

/-- The block in SRAM at element address `a` and header address `h`. -/
def State.sramBlk (s : State) (k : CoreId) (ty : BlkTy) (a h : Nat) : Blk :=
  let w := pbBits ty
  let v := s.sramLE k a (2 * w)
  blkOf ty ((List.range 16).map fun i => v / 2 ^ (w * i) % 2 ^ w) (s.sramLE k h 2)

def State.putBlk (s : State) (k : CoreId) (ty : BlkTy) (a h : Nat) (b : Blk) : State :=
  (s.sramPut k a (2 * pbBits ty) (packNat (pbBits ty) (b.codes ty))).sramPut k h 2 b.hdr

/-- Granules of `n` bytes from `a`. -/
def State.fullBytes (s : State) (k : CoreId) (a n : Nat) : State := s.setFull k (a / 16) ((a + n + 15) / 16 - a / 16) true

/-- A tag action that meets an uncorrectable word (R372). -/
def State.tagUe (s : State) (k : CoreId) (q : Fin 4) (m : Msg) (e : Word) (w : Nat) : State :=
  (s.discard k q m.tag).defer k (tagSlot e) 0x0F (localAddr w)

/-- ADDBLOCK with LOCK = 0 (R72, R36, R37). -/
def execAddblock (k : CoreId) (i : Nat) (s : State) : Host.Outcome State Fault Refusal :=
  event s
    (match s.tagHead k i 3 with
     | none => none
     | some (q, m, e) =>
       if e.getLsbD 27 then none
       else
         let ty := addblockTy e
         let (a, h) := addblockAt e
         let eb := 2 * pbBits ty
         match if m.block then addblockCount (isPb4 ty) m.payload.length else none with
         | none => ordered (s.orderTag k m) fun s => s.discard k q m.tag
         | some nb =>
           if 65536 < a + eb * nb || 65536 < h + 2 * nb then ordered (s.orderTag k m) fun s => s.discard k q m.tag
           else match ((s.core k).badWord a (eb * nb)).or ((s.core k).badWord h (2 * nb)) with
             | some w => ordered (s.orderTag k m) fun s => s.tagUe k q m e w
             | none =>
               ordered (s.orderAll k [fun s => s.orderAt k 8 a m.issuer, fun s => s.orderAt k 2 a m.issuer]) fun s =>
                 let s := s.modCore k fun c => (c.correct a (eb * nb)).correct h (2 * nb)
                 let r := (List.range nb).foldl (fun (r : State × BitVec 8) b =>
                   let y := addBlk ty (r.1.sramBlk k ty (a + eb * b) (h + 2 * b)) (payloadBlk ty nb m.payload b)
                   (r.1.putBlk k ty (a + eb * b) (h + 2 * b) y.1, r.2 ||| y.2)) (s, 0)
                 let s := (((r.1.fullBytes k a (eb * nb)).fullBytes k h (2 * nb)).setFlags k (tagSlot e) r.2).charge k (tagSlot e) 25 nb
                 s.tagFinish k q e)

/-- The handler context takes the INLINE message at the head of class queue i (R74), unless one runs, or has just finished
and a slot is READY (R68). -/
def State.inlineStart (s : State) (k : CoreId) (i : Nat) : Option State :=
  match s.tagHead k i 4 with
  | none => none
  | some (_, m, e) =>
    let c := s.core k
    if s.phaseOf k != .run || c.handler.isSome ||
        (c.handlerDone && c.slots.toList.any fun x => x.st == .ready) then none
    else
      let cl := (e.extractLsb' 0 3).toNat
      let nd := m.payload.length - cl
      let h : Handler :=
        { m := Vector.ofFn fun j : Fin 8 => if j.val < nd then m.payload.getD j.val 0 else 0,
          line := BitVec.ofNat 512 (leBytes (payloadBytes (m.payload.drop nd))), cl := cl, next := 0, slot := tagSlot e,
          tag := m.tag, sigen := tagSigen e, sem := tagSem e, msg := m }
      ordered (s.orderTag k m) fun s => s.modCore k fun c => { c with handler := some h }

/-- The handler that goes ahead of any slot in an issue turn (R68): where both tagged class queues have an INLINE message
at their head, class 0 first (DESIGN CHOICE, entry 85). -/
def State.inlineDue (s : State) (k : CoreId) : State :=
  let t := (s.inlineStart k 0).getD s
  (t.inlineStart k 1).getD t

/-- INLINE (R74, R68): the handler context takes the message. -/
def execInline (k : CoreId) (i : Nat) (s : State) : Host.Outcome State Fault Refusal :=
  event s (s.inlineStart k i)

/-- The WAITEV under which a slot sleeps retires, with EV cleared (R179), and the slot goes on at `to_` if given. -/
def State.wakeAt (s : State) (k : CoreId) (sl : Fin 4) (to_ : Option Word) : State :=
  let w := (s.slot k sl).slept.getD (0x5000, 0, (s.slot k sl).pc)
  let s := s.modSlot k sl fun x => { x with ev := false }
  State.retireHead { s with cur := ⟨k, sl, false, w.1, w.2.1, w.2.2⟩ } 1 to_

/-- Write words to c0 upward, setting presence for each. -/
def Regs.wrChans (r : Regs) (ws : List Word) : Regs :=
  ws.zipIdx.foldl (fun r (w, j) => if j < 8 then r.wrC (Fin.ofNat 8 j) w else r) r

/-- WAKE (R72, R73, R179). A sleeper whose EV is set wakes by that event first. -/
def execWake (k : CoreId) (i : Nat) (s : State) : Host.Outcome State Fault Refusal :=
  event s
    (match s.tagHead k i 5 with
     | none => none
     | some (q, m, e) =>
       let sl := tagSlot e
       let x := s.slot k sl
       let long := fun (s : State) => if 8 < m.payload.length then s.modCore k fun c => c.tagErr m.tag else s
       if x.st = .empty ∨ x.st = .halting then ordered (s.orderTag k m) fun s => s.discard k q m.tag
       else if x.st ≠ .sleep ∨ x.ev = true ∨ s.phaseOf k ≠ .run then none
       else match ((s.core k).mem.frames[(e.extractLsb' 0 4).toFin]).tag with
         | none => ordered (s.orderTag k m) fun s => s.discard k q m.tag
         | some t => ordered (s.orderTag k m) fun s =>
           let pc : Word := 0#4 ++ t ++ e.extractLsb' 4 5 ++ 0#1 ++ e.extractLsb' 9 5
           let s := (s.wakeAt k sl (some pc)).modRegs k sl fun r => r.wrChans (m.payload.take 8)
           let s := (long s).popArr k q
           let s := if tagSigen e then
               match (s.core k).addSem (tagSem e) 1 with
               | some c => s.setCore k c
               | none => s.defer k sl 0x0E ((tagSem e).setWidth 64)
             else s
           s.stepStop k sl)

end Sys2Proof.Machine
end

