-- ==== Sys2Proof/Machine/Berths.lean ====
section
/-! DEFINITION. Berths: OP 0x4C (09 R266) and their traffic (04 R114, R115). -/

namespace Sys2Proof.Machine

/-- The checks of an open (R266), then the berth is OPEN and its peer is told. -/
def berthOpenAct (out : Bool) (x : BerthF) (s : State) : Act :=
  let k := s.cur.core
  let a := s.rd x.a
  let peer := (s.rd x.b).extractLsb' 0 22
  let n := s.rankCount k s.me.gtid
  if !isBerth a then .trap 0x0A a
  else if n ≤ peer.toNat then .trap 0x09 (peer.setWidth 64)
  else
    let b := berthNo a
    if (s.core k).berths[b].st ≠ .closed then .trap 0x09 a
    else
      let pb : Fin 4 := Fin.ofNat 4 x.pb.toNat
      let own := gtidRank s.me.gtid
      let new : Berth := ⟨.opened, out, peer, pb, own, gtidLaunch s.me.gtid, [], 0, 0⟩
      let m := (s.core k).berthMsg k new (.berthOpen pb b) []
      .ok ((s.modCore k fun c => { c with berths := c.berths.set b new }).enqueueMsg m)

/-- BERTH.out (R266). -/
def execBerthOut (x : BerthF) (s : State) : Host.Outcome State Fault Refusal :=
  issue (mkForm x.q 26 [x.a, x.b] []) (berthOpenAct true x) s

/-- BERTH.in (R266). -/
def execBerthIn (x : BerthF) (s : State) : Host.Outcome State Fault Refusal :=
  issue (mkForm x.q 26 [x.a, x.b] []) (berthOpenAct false x) s

/-- A stream, a feed or a scan uses berth b. -/
def Core.berthUsed (c : Core) (b : Fin 4) : Bool :=
  let is := fun (a : Word) => isBerth a && berthNo a == b
  (c.streams.toList.any fun o => match o with | some t => is t.src.base || is t.dst.base | none => false) ||
  (c.unit.feeds.toList.any fun l => l.any fun f => is f.src) ||
  (c.unit.scans.any fun r => is r.x.base || is r.a.base || is r.bc.base || is r.y.base)

/-- BERTH.close (R114, R266): waits for the berth's users and its bytes in flight. -/
def execBerthClose (x : G1) (s : State) : Host.Outcome State Fault Refusal :=
  issue (mkForm x.q 26 [x.a] [])
    (fun s =>
      let k := s.cur.core
      let a := s.rd x.a
      if !isBerth a then .trap 0x0A a
      else
        let b := berthNo a
        let y := (s.core k).berths[b]
        if (s.core k).berthUsed b || (y.out && (!y.buf.isEmpty || y.flying != 0)) then .wait .berth id
        else
          let s' := s.modCore k fun c => { c with berths := c.berths.set b Berth.closed }
          if !y.out && !y.buf.isEmpty then
            .trapWith (fun s => s.modCore k fun c => { c with berths := c.berths.set b Berth.closed }) 0x09 a
          else .ok s') s

/-- The bytes of a berth message. -/
def berthBytes (ws : List Word) (n : Nat) : List Byte := (payloadBytes ws).take n

/-- BERTH_DATA_ARRIVAL (R115): berth data at the head of class queue 1 joins the IN berth's buffer and is acknowledged;
data for a berth that is not joined in that direction is discarded, and acknowledged. -/
def execBerthDataArrival (k : CoreId) (i : Nat) (s : State) : Host.Outcome State Fault Refusal :=
  event s
    (if i ≠ 1 || s.phaseOf k == .save3 || s.phaseOf k == .out || (s.core k).queueHeld 1 then none
     else match (s.core k).arr[1] with
      | [] => none
      | m :: _ =>
        match m.kind with
        | .berthData b mine n =>
          let c := s.core k
          let y := c.berths[b]
          let joined := c.berthReady b false
          let src : Berth := { y with peer := m.src, own := m.dst, launch := m.launch }
          let ack := c.berthMsg k src (.berthFree mine n (if joined then 0 else n)) []
          let s := s.modCore k fun c =>
            { c with inj := c.inj ++ [ack],
                     berths := if joined then c.berths.set b { y with buf := y.buf ++ berthBytes m.payload n } else c.berths }
          some ((s.popArr k 1).modCore k fun c => c.pullBerths k)
        | _ => none)

/-- A berth message at the head of its flow on the mesh, none of which waits in the class queue (R70, R126), and not a second
time (R370). -/
def State.berthFlight (s : State) (i : Nat) : Option (CoreId × Msg) :=
  match s.mesh[i]? with
  | none => none
  | some f =>
    if !s.mayArrive i f || s.duplicate f.target f.msg || (s.core f.target).arr[1].any (fun n => n.sameFlow f.msg) then none
    else some (f.target, f.msg)

/-- A berth message is taken from the mesh; its pair's last sequence number is noted (R370). -/
def State.dropFlight (s : State) (i : Nat) (k : CoreId) (m : Msg) : State :=
  State.noteSeq { s with mesh := s.mesh.eraseIdx i } k m

/-- BERTH_CREDIT (R114): acceptance and credit from the IN side reach the OUT side, which sends what it then may. -/
def execBerthCredit (i : Nat) (s : State) : Host.Outcome State Fault Refusal :=
  event s
    (match s.berthFlight i with
     | none => none
     | some (k, m) =>
       match m.kind with
       | .berthFree b ack n =>
         some ((s.dropFlight i k m).modCore k fun c =>
           let y := c.berths[b]
           if y.st = .joined ∧ y.out = true then
             Core.pumpOut { c with berths := c.berths.set b { y with flying := y.flying - ack, credit := y.credit + n } } k b
               (y.buf.length + 1)
           else c)
       | _ => none)

/-- The two berths name each other, in opposite directions (R114). -/
def Berth.matches (y z : Berth) (b : Fin 4) (own : BitVec 22) : Bool :=
  y.st == .opened && y.peer == own && y.peerBerth == b && y.out != z.out && y.launch == z.launch

/-- The credit an OUT berth starts with: the IN side's buffer (R114). -/
def Berth.join (y : Berth) : Berth := { y with st := .joined, credit := if y.out then 512 else 0 }

/-- BERTH_JOIN (R114): the word of an open reaches the peer's core; both berths become JOINED where they match. -/
def execBerthJoin (i : Nat) (s : State) : Host.Outcome State Fault Refusal :=
  event s
    (match s.berthFlight i with
     | none => none
     | some (k, m) =>
       match m.kind with
       | .berthOpen b mine =>
         let s := s.dropFlight i k m
         let k2 := match s.heldOf m.vf m.launch with | some h => (s.route h m.src.toNat).1 | none => m.from_
         let y := (s.core k).berths[b]
         let z := (s.core k2).berths[mine]
         if y.matches z mine z.own && z.matches y b y.own && y.own == m.dst && z.own == m.src then
           let s := s.modCore k fun c => { c with berths := c.berths.set b y.join }
           some (s.modCore k2 fun c => { c with berths := c.berths.set mine (c.berths[mine]).join })
         else some s
       | _ => none)

end Sys2Proof.Machine
end

