-- ==== Sys2Proof/Machine/Block.lean ====
section
/-! DEFINITION. Block instructions: OP 0x70 to 0x77 (07 R210 to R217). -/

namespace Sys2Proof.Machine

/-- `f b` in every active block, the previous block elsewhere (R190, R210). -/
def mapBlks (k : BlkTy) (m : BitVec 16) (v : VWord) (h : BitVec 128) (f : Nat → Blk × BitVec 8) :
    VWord × BitVec 128 × BitVec 8 :=
  let r := (List.range (pbCount k)).map fun b => if blkOn k m b then some (f b) else none
  let e := pbBits k * 16
  let bits := packNat e ((List.range (pbCount k)).map fun b =>
    match r.getD b none with
    | some x => packNat (pbBits k) (x.1.codes k)
    | none => v.toNat / 2 ^ (e * b))
  let hdr := packNat 16 ((List.range (pbCount k)).map fun b =>
    match r.getD b none with
    | some x => x.1.hdr
    | none => h.toNat / 2 ^ (16 * b))
  (BitVec.ofNat 512 bits, BitVec.ofNat 128 hdr, r.foldl (fun a x => match x with | some y => a ||| y.2 | none => a) 0)

/-- A blockwise operation. -/
def blockOp (q : Guard) (k : BlkTy) (d : Fin 16) (srcs : List (Fin 16)) (gs : List GOp)
    (f : State → Nat → Blk × BitVec 8) (s : State) : Host.Outcome State Fault Refusal :=
  issueMasked (vform q 15 (d :: srcs) gs) (anyBlk q k)
    (fun t => let r := mapBlks k (s.me.r.mask q) (t.rdV d) (t.rdH d) (f t); .ok (t.vop [.v d r.1 r.2.1] r.2.2)) s

/-- Block b of vN. -/
def State.blk (s : State) (k : BlkTy) (n : Fin 16) (b : Nat) : Blk := regBlk k (s.rdV n) (s.rdH n) b

/-- BADD (R211). -/
def execBadd (x : B3) (s : State) : Host.Outcome State Fault Refusal :=
  blockOp x.q x.k x.d [x.a, x.b] [] (fun t b => addBlk x.k (t.blk x.k x.a b) (t.blk x.k x.b b)) s

/-- BMUL (R211). -/
def execBmul (x : B3) (s : State) : Host.Outcome State Fault Refusal :=
  blockOp x.q x.k x.d [x.a, x.b] [] (fun t b => mulBlk x.k (t.blk x.k x.a b) (t.blk x.k x.b b)) s

/-- BFMA (R211). -/
def execBfma (x : B4) (s : State) : Host.Outcome State Fault Refusal :=
  blockOp x.q x.k x.d [x.a, x.b, x.c] []
    (fun t b => fmaBlk x.k (t.blk x.k x.a b) (t.blk x.k x.b b) (t.blk x.k x.c b)) s

/-- BNORM (R212). -/
def execBnorm (x : B2) (s : State) : Host.Outcome State Fault Refusal :=
  blockOp x.q x.k x.d [x.a] [] (fun t b => normBlk x.k (t.blk x.k x.a b)) s

/-- BRENORM (R213). -/
def execBrenorm (x : BrenormF) (s : State) : Host.Outcome State Fault Refusal :=
  blockOp x.q x.k x.d [x.a] [x.b]
    (fun t b => renormBlk x.k (min ((t.rd x.b).toNat % 256) 0xFE) (t.blk x.k x.a b)) s

/-- Blocks BQUANT writes (R214). -/
def quantBlocks : FpTy → Nat
  | .f16 => 2
  | .bf16 => 2
  | _ => 1

/-- The 16 exact values of group j of BQUANT's source lanes (R214). -/
def quantSrc (f : FpTy) (a b : VWord) (j : Nat) : List FV :=
  let F := fmtOf f
  match f with
  | .f64 => ((lanesOf 64 a) ++ (lanesOf 64 b)).map F.unpack
  | .f32 => (lanesOf 32 a).map F.unpack
  | _ => (((lanesOf 16 a).drop (16 * j)).take 16).map F.unpack

/-- The blocks that BQUANT writes begin at q × G (R214). -/
def quantPos (x : BquantF) (g : Word) : Nat :=
  g.toNat % (pbCount x.k / quantBlocks x.f) * quantBlocks x.f

/-- BQUANT's guard: some position it would write is active; gC is looked at only where it is there to read. -/
def quantHolds (x : BquantF) (s : State) : Bool :=
  let k := s.cur.core
  let late := s.me.r.absent [x.c] || ((s.core k).pendingRegs s.cur.slot).contains (gopReg x.c)
  let p := quantPos x (s.rd x.c)
  (List.range (pbCount x.k)).any fun b =>
    blkOn x.k (s.me.r.mask x.q) b && (late || (p ≤ b && b < p + quantBlocks x.f))

/-- BQUANT (R214): the flags of R35, and NF for a NaN block. -/
def execBquant (x : BquantF) (s : State) : Host.Outcome State Fault Refusal :=
  issueMasked (vform x.q 15 (if x.f = .f64 then [x.d, x.a, x.b] else [x.d, x.a]) [x.c]) (quantHolds x)
    (fun t =>
      let p := quantPos x (t.rd x.c)
      let m := s.me.r.mask x.q
      let on : BitVec 16 := BitVec.ofNat 16 (packNat 1 ((List.range 16).map fun j =>
        let b := if isPb4 x.k then j / 2 else j / 4
        if m.getLsbD j && p ≤ b && b < p + quantBlocks x.f then 1 else 0))
      let r := mapBlks x.k on (t.rdV x.d) (t.rdH x.d) fun b =>
        let y := quantise x.k (quantSrc x.f (t.rdV x.a) (t.rdV x.b) (b - p))
        (y.1, if y.1.isNan then y.2 ||| flagNF else y.2)
      .ok (t.vop [.v x.d r.1 r.2.1] r.2.2)) s

/-- One lane of BDEQ (R215, R48). -/
def deqLane (f : Fmt) (k : BlkTy) (b : Blk) (i : Nat) : Nat × BitVec 8 :=
  if b.isNan then (f.nan, flagNF) else f.withNF (f.roundV .rne (b.val k i))

/-- BDEQ (R215). -/
def execBdeq (x : BfgF) (s : State) : Host.Outcome State Fault Refusal :=
  let w := fpWidth x.f
  let e := 512 / w
  issueMasked (vform x.q 15 [x.d, x.a] [x.b]) (anyLane x.q w)
    (fun t =>
      let p := (t.rd x.b).toNat % (pbCount x.k * 16 / e)
      let r := mapLanes (s.me.r.mask x.q) w (t.rdV x.d) fun i =>
        deqLane (fmtOf x.f) x.k (t.blk x.k x.a ((p * e + i) / 16)) ((p * e + i) % 16)
      .ok (t.vop [.v x.d r.1 0] r.2)) s

/-- BSCALE by a float (R216). -/
def execBscale (x : BfgF) (s : State) : Host.Outcome State Fault Refusal :=
  blockOp x.q x.k x.d [x.a] [x.b]
    (fun t b => scaleBlk x.k ((fmtOf x.f).unpack ((t.rd x.b).toNat % 2 ^ fpWidth x.f)) (t.blk x.k x.a b)) s

/-- BSCALE by 2^k (R216). -/
def execBscalePow2 (x : BscaleKF) (s : State) : Host.Outcome State Fault Refusal :=
  blockOp x.q x.k x.d [x.a] [] (fun t b => scaleBlk x.k (.fin false 1 x.e.toInt) (t.blk x.k x.a b)) s

/-- Lanes of BDOT: b below the blocks of a register (R217). -/
def dotMask (k : BlkTy) (m : BitVec 16) : BitVec 16 := m &&& BitVec.ofNat 16 (2 ^ pbCount k - 1)

/-- BDOT (R217). -/
def execBdot (x : B3) (s : State) : Host.Outcome State Fault Refusal :=
  issueMasked (vform x.q 15 [x.d, x.a, x.b]) (fun s => dotMask x.k (s.me.r.mask x.q) != 0)
    (fun t =>
      let r := mapLanes (dotMask x.k (s.me.r.mask x.q)) 32 (t.rdV x.d) fun i =>
        dotLane x.k (t.blk x.k x.a i) (t.blk x.k x.b i) (lane 32 (t.rdV x.d) i)
      .ok (t.vop [.v x.d r.1 (t.rdH x.d)] r.2)) s

end Sys2Proof.Machine
end

