-- ==== Sys2Proof/Machine/Inbound.lean ====
section
/-! DEFINITION. Message records that arrive at a network quay: where they go, their injection, and what is held while a partition
is pre-empted (19 R402, R404). -/

namespace Sys2Proof.Machine

/-- Ranks of an image's launch (R25). -/
def Image.ranks (i : Image) : Nat := i.w * i.h * i.s

/-- VF of a quantum-table entry (R329). -/
def qtVf (e : Word) : Nat := (e.extractLsb' 32 9).toNat

/-- The partition that a VF's network traffic goes to: the one that runs it, else the lowest that names it in its quantum
table, else the one that last ran it. -/
def State.homePart (s : State) (vf : Nat) : Nat :=
  match s.parts.find? fun e => e.2.valid && e.2.current == some vf with
  | some e => e.1
  | none =>
    match s.parts.find? fun e => e.2.valid && e.2.qt.toList.any fun q => q.getLsbD 63 && qtVf q == vf with
    | some e => e.1
    | none => (s.vf vf).lastPart.toNat

/-- What became of a request: performed with its data, refused, discarded and counted, or asked for again later. -/
inductive NetRes where
  | done (s : State) (data : List Byte)
  | refused
  | discarded
  | later
  /-- Passed on to a third module: not answered yet. -/
  | wait (s : State)

/-- What a network quay holds for a partition (R404): packets and message records. -/
def Partition.netHolds (x : Partition) (q : Nat) : Nat :=
  (x.packets.filter fun e => e.1 == .net q).length + (x.netHeld.filter fun e => e.1 == q).length

/-- The partition in which a launch of a VF is resident (R328), else the one that the VF's traffic goes to. -/
def State.launchPart (s : State) (vf launch : Nat) : Nat :=
  match s.parts.find? fun e => e.2.launches.any fun l => l.vf == vf && l.num == launch with
  | some e => e.1
  | none => s.homePart vf

/-- Whether traffic for a VF is held at a partition's quays (R404): it does not run there. -/
def Partition.holdsFor (x : Partition) (vf : Nat) : Bool := x.phase != .run || x.current != some vf

/-- A message record injected (R402). One for a launch that has no core yet is taken once it has (DESIGN CHOICE, entry 90). -/
def State.netMessage (s : State) (q vf : Nat) (ws : List Word) (held : Bool) : NetRes :=
  let w := ws.headD 0
  let launch := (w.extractLsb' 34 16).toNat
  let dst := w.extractLsb' 0 22
  let len := (w.extractLsb' 28 4).toNat
  let p := s.launchPart vf launch
  let l := (s.part p).launches.find? fun l => l.vf == vf && l.num == launch
  if ws.length ≠ 8 ∨ 2 ≤ (w.extractLsb' 32 2).toNat then .refused
  else if !held && l.isSome && (s.part p).holdsFor vf then
    if 16 ≤ (s.part p).netHolds q then .later
    else .done (s.modPart p fun x => { x with netHeld := x.netHeld ++ [(q, vf, ws)] }) []
  else match l with
    | none => .discarded
    | some l =>
      if w.extractLsb' 50 14 ≠ 0 ∨ 7 < len ∨ l.img.ranks ≤ dst.toNat then .discarded
      else
        let key := (vf * 2 ^ 16 + launch) * 2 ^ 22 + dst.toNat
        let y := s.quay q
        match mget y.injSeq key, decide (65536 ≤ y.injSeq.length) with
        | none, true => .refused
        | old, _ =>
          match s.heldOf vf launch with
          | none => .later
          | some h =>
            let n := old.getD 0
            let m : Msg := { kind := .plain, vf := vf, launch := launch, dst := dst, src := BitVec.ofNat 22 (0x3FFFC0 + (q - 66)),
                             from_ := coreAt (fieldX (quayField q) * 96) (fieldY (quayField q) * 128),
                             cls := Fin.ofNat 4 (w.extractLsb' 32 2).toNat, tag := w.extractLsb' 22 6, block := false, seq := n,
                             payload := (ws.drop 1).take len, sample := none }
            if s.inTransit m then .later
            else
              let s := s.modQuay q fun y => { y with injSeq := mset y.injSeq key (n + 1) }
              .done (s.chargeQuay q vf 64 |> fun s => { s with mesh := s.mesh ++ [⟨m, (s.route h dst.toNat).1, m.wire⟩] }) []

/-- What a partition's quays hold is injected in order, each record as soon as it may be (R404): what R402 discards is counted,
and a record that must wait keeps those behind it from its quay waiting. -/
def State.releaseList (s : State) (p : Nat) (stuck : List Nat) : List (Nat × Nat × List Word) → State
  | [] => s
  | e :: l =>
    let keep := fun (s : State) => s.modPart p fun x => { x with netHeld := x.netHeld ++ [e] }
    if stuck.contains e.1 then (keep s).releaseList p stuck l
    else if (s.part p).holdsFor e.2.1 then (keep s).releaseList p (e.1 :: stuck) l
    else match s.netMessage e.1 e.2.1 e.2.2 true with
      | .done t _ => t.releaseList p stuck l
      | .discarded => (s.modVf e.2.1 fun v => { v with refused := v.refused + 1 }).releaseList p stuck l
      | .refused => (s.modVf e.2.1 fun v => { v with refused := v.refused + 1 }).releaseList p stuck l
      | _ => (keep s).releaseList p (e.1 :: stuck) l

def State.releaseNet (s : State) (p : Nat) : State :=
  let l := (s.part p).netHeld
  if l.isEmpty then s else (s.modPart p fun x => { x with netHeld := [] }).releaseList p [] l

end Sys2Proof.Machine
end

