-- ==== Sys2Proof/Machine/Laces.lean ====
section
/-! DEFINITION. Laces: LACE, UNLACE, RELACE and LACEQ (09 R271 to R273), forwarding, detaching and rejoining (03 R79 to
R86), and the timeouts of a lace. -/

namespace Sys2Proof.Machine

/-! ### The word of LACEQ (R273) -/

def laceCodeNo : LaceCode → BitVec 3
  | .solo => 0
  | .binding => 1
  | .leader => 2
  | .leaderWait => 3
  | .attached => 4
  | .detached => 5
  | .rejoining => 6

/-- LACEQ's word: zero in SOLO (R273). -/
def LaceSt.word (l : LaceSt) : Word :=
  if l.code = .solo then 0 else 0#29 ++ l.index ++ l.w ++ l.xl ++ 0#8 ++ laceCodeNo l.code

/-- Whether the slot is in a lace: bound and not SOLO (R79). -/
def LaceSt.inLace (l : LaceSt) : Bool := l.code != .solo && l.code != .binding || l.result.isSome && l.code == .binding

/-! ### Binding (R79, R80) -/

/-- Kernel column of a core, and the width of its kernel: 0 off the rectangle. -/
def Core.kernelX (c : Core) (k : CoreId) : Nat := match c.held with | some h => posX k - h.x0 | none => 0
def Core.kernelW (c : Core) (k : CoreId) : Nat :=
  match c.held with
  | some h => if h.x0 ≤ posX k && posX k < h.x0 + h.w && h.y0 ≤ posY k && posY k < h.y0 + h.h then h.w else 0
  | none => 0

/-- The slot of a core that waits in LACE, not yet bound. -/
def Core.binder (c : Core) : List (Fin 4) :=
  (List.finRange 4).filter fun n => (c.slot n).lace.code == .binding && (c.slot n).lace.result.isNone

def Core.laced (c : Core) : Bool := (List.finRange 4).any fun n => (c.slot n).lace.inLace

/-- The limits of R79 and R271. -/
def laceLimits (xl w e kx kw : Nat) : Bool :=
  2 ≤ w && w ≤ 64 && xl + w ≤ kw && xl ≤ kx && kx < xl + w && 10 ≤ e && e ≤ 30

/-- Frames of a leader copied into a follower (R80): those it has not got, into empty frames, in ascending order. -/
def copyFrames (src dst : CoreMem) : CoreMem :=
  (List.finRange 16).foldl (fun d i =>
    match src.frames[i].tag with
    | none => d
    | some t =>
      if d.frames.toList.any fun f => f.tag == some t then d
      else match (List.finRange 16).find? fun j => d.frames[j].tag.isNone with
        | none => d
        | some j => { d with frames := d.frames.set j src.frames[i] }) dst

/-- A member's LACE is decided. -/
def State.laceResult (s : State) (k : CoreId) (sl : Fin 4) (l : LaceSt) : State := s.modSlot k sl fun x => { x with lace := l }

/-- A LACE that fails changes no other state: a slot that was lost is still to be told (R79, R84). -/
def State.laceFails (s : State) (k : CoreId) (sl : Fin 4) : State :=
  s.laceResult k sl { LaceSt.solo with lost := (s.slot k sl).lace.lost, result := some 2 }

/-- Slots that wait in a LACE whose range takes in column `kx`, or whose column lies in `xl` to `xl + w - 1`, in the row
of core `k`. -/
def State.binders (s : State) (k : CoreId) (xl w kx : Nat) : List (CoreId × Fin 4) :=
  match (s.core k).held with
  | none => []
  | some h => (List.range h.w).flatMap fun x =>
      let j := k + x - kx
      ((s.core j).binder.filter fun n =>
        let l := (s.slot j n).lace
        (s.core j).held.map (·.launch) == some h.launch &&
        ((xl ≤ x && x < xl + w) || (l.xl.toNat ≤ kx && kx < l.xl.toNat + l.w.toNat))).map fun n => (j, n)

/-- Bind the lace, once a slot of every member waits (R79): the leader's result is 0, the followers' 1, and the followers
receive the leader's frames (R80). Heads still on the wire to a member are of an earlier lace (R82). -/
def State.laceBind (s : State) (lead : CoreId) (leadSl : Fin 4) (ms : List (CoreId × Fin 4)) : State :=
  let L := (s.slot lead leadSl).lace
  ms.foldl (fun s (j, n) =>
    let s := (s.dropWire (j, n)).laceResult j n { (s.slot j n).lace with
      e := L.e, leadCore := lead, leadSlot := leadSl, waited := 0, result := some (if j = lead then 0 else 1) }
    if j = lead then s else s.modMem j fun m => copyFrames (s.core lead).mem m) s

/-- A slot joins the wait of its LACE: all fail where parameters differ or a core has two, and the lace forms when every
member waits (R79). -/
def State.laceJoin (s : State) (k : CoreId) (sl : Fin 4) (xl w e : Nat) : State :=
  let kx := (s.core k).kernelX k
  let me : LaceSt := { LaceSt.solo with lost := (s.slot k sl).lace.lost, code := .binding, xl := BitVec.ofNat 11 xl, w := BitVec.ofNat 7 w,
                                        index := BitVec.ofNat 6 (kx - xl), e := BitVec.ofNat 5 e }
  let s := s.laceResult k sl me
  let ms := s.binders k xl w kx
  let same := ms.all fun m => (s.slot m.1 m.2).lace.xl == me.xl && (s.slot m.1 m.2).lace.w == me.w
  let single := ms.all fun m => (s.core m.1).binder.length == 1
  if !same || !single then ms.foldl (fun s m => s.laceFails m.1 m.2) s
  else if ms.length < w then s
  else
    let lead := k + xl - kx
    match ms.find? fun m => m.1 == lead with
    | some m => s.laceBind lead m.2 ms
    | none => s

/-- Lace codes after LACE returns 0 or 1 (R86). -/
def boundCode (r : BitVec 2) : LaceCode := if r = 0 then .leader else .attached

/-- The head has retired; the slot's lace state changes and its boundary is examined for a step stop. A slot bound anew is
no longer lost to an earlier lace (DEDUCED, entry 85). -/
def State.laceDone (s : State) (code : LaceCode) (joined : Bool := false) : State :=
  (s.retireHead 26).modMe
    (fun x => { x with lace := { x.lace with code := code, result := none, waited := 0, lost := false, joined := joined } })
    |>.stepStop s.cur.core s.cur.slot

/-- LACE (R271). -/
def laceAct (x : LaceF) (s : State) : Act :=
  let k := s.cur.core
  let sl := s.cur.slot
  let xl := (x.imm.extractLsb' 0 11).toNat
  let w := (x.imm.extractLsb' 11 7).toNat
  let e := (x.imm.extractLsb' 18 5).toNat
  match s.me.lace.result with
  | some r =>
    if r = 2 then writeG s x.d 2 fun s => .ok (s.modMe fun x => { x with lace := { x.lace with result := none } })
    else writeG s x.d (r.setWidth 64) fun s => .stay (s.laceDone (boundCode r))
  | none =>
    if s.me.lace.code = .binding then .wait .lace id
    else if !laceLimits xl w e ((s.core k).kernelX k) ((s.core k).kernelW k) || (s.core k).laced then writeG s x.d 2
    else
      let t := s.laceJoin k sl xl w e
      if (t.slot k sl).lace.result = some 2 then
        writeG (t.modSlot k sl fun x => { x with lace := s.me.lace }) x.d 2
      else .wait .lace fun _ => t

/-- LACE (R271). -/
def execLace (x : LaceF) (s : State) : Host.Outcome State Fault Refusal :=
  issue (mkForm x.q 26 [] [x.d]) (laceAct x) s

/-! ### UNLACE and LACEQ -/

/-- UNLACE acts under R85 after it has been forwarded. -/
def unlaceAct (s : State) : State :=
  let k := s.cur.core
  let sl := s.cur.slot
  ((s.retireHead 26).endLace k sl |>.modSlot k sl fun x => { x with buf := [] }).stepStop k sl

/-- UNLACE (R272). -/
def execUnlace (s : State) : Host.Outcome State Fault Refusal :=
  issue (mkForm Guard.always 26 [] []) (fun s => .stay (unlaceAct s)) s

/-- UNLACE gD (R272): the word of LACEQ as it stood before. -/
def execUnlaceStatus (x : GD) (s : State) : Host.Outcome State Fault Refusal :=
  issue (mkForm x.q 26 [] [x.d]) (fun s => writeG s x.d s.me.lace.word fun s => .stay (unlaceAct s)) s

/-- LACEQ (R273). -/
def execLaceq (x : GD) (s : State) : Host.Outcome State Fault Refusal :=
  issue (mkForm x.q 26 [] [x.d]) (fun s => writeG s x.d s.me.lace.word) s

/-! ### RELACE (R84) -/

/-- Followers of a leader that run on their own, detached or waiting at a RELACE. -/
def State.strays (s : State) (k : CoreId) (sl : Fin 4) : List (CoreId × Fin 4) :=
  (List.range (s.slot k sl).lace.w.toNat).flatMap fun i =>
    if i = 0 then [] else
    ((List.finRange 4).filter fun n =>
      let l := (s.slot (k + i) n).lace
      l.leadCore == k && l.leadSlot == sl && (l.code == .detached || (l.code == .rejoining && l.result.isNone))).map
        fun n => (k + i, n)

/-- Whether a stray waits at a RELACE at a code pointer. -/
def State.waitsAt (s : State) (pc : Word) (m : CoreId × Fin 4) : Bool :=
  (s.slot m.1 m.2).lace.code == .rejoining && (s.slot m.1 m.2).pc == pc

/-- Heads on the wire to a slot. -/
def State.flying (s : State) (k : CoreId) (sl : Fin 4) : Nat := (s.laces.filter fun f => f.core == k && f.slot == sl).length

/-- The leader is at the RELACE at which the strays `ms` wait: they re-attach, and their RELACE will return 2 (R84, R86).
Heads still on the wire to them are from before. -/
def State.rejoin (s : State) (ms : List (CoreId × Fin 4)) (joined : Bool) : State :=
  ms.foldl (fun s m =>
    (s.modSlot m.1 m.2 fun x =>
      { x with lace := { x.lace with code := .attached, result := some 2, waited := 0, joined := joined },
               buf := [] }).dropWire m) s

/-- The RELACE that a leader has just forwarded is the one at which a follower re-attached before it (R84): the follower
does not execute it a second time. -/
def State.dropRelace (s : State) (k : CoreId) (sl : Fin 4) : State :=
  (s.followers k sl).foldl (fun s m =>
    let x := s.slot m.1 m.2
    if !x.lace.joined then s
    else
      let t := if x.buf.isEmpty && s.flying m.1 m.2 == 1 then s.dropWire m else s
      t.modSlot m.1 m.2 fun x => { x with lace := { x.lace with joined := false } }) s

/-- The leader's RELACE: it waits until every stray waits at the same place. Those that do re-attach as it arrives. -/
def relaceLeader (d : GOp) (s : State) : Act :=
  let k := s.cur.core
  let sl := s.cur.slot
  let st := s.strays k sl
  if st.all (s.waitsAt s.me.pc) then
    let r : Word := if s.me.lace.lost then 3 else 1
    writeG s d r fun s =>
      let s := (s.retireHead 26).dropRelace k sl
      let s := s.rejoin st false
      let s := s.modMe fun x => { x with lace := { x.lace with code := .leader, lost := false, waited := 0 } }
      .stay (s.stepStop k sl)
  else .wait .relace fun s =>
    (s.rejoin (st.filter (s.waitsAt s.me.pc)) true).modMe fun x => { x with lace := { x.lace with code := .leaderWait } }

/-- The leader of a slot waits at a RELACE at a code pointer (R84). -/
def State.leaderAt (s : State) (l : LaceSt) (pc : Word) : Bool :=
  let m := s.slot l.leadCore l.leadSlot
  m.lace.code == .leaderWait && m.lace.xl == l.xl && m.lace.w == l.w && m.pc == pc

/-- RELACE (R84). -/
def relaceAct (d : GOp) (s : State) : Act :=
  let l := s.me.lace
  let solo := fun (s : State) => Act.ok (s.modMe fun x => { x with lace := LaceSt.solo })
  match l.result with
  | some r =>
    if l.code = .attached then writeG s d (r.setWidth 64) fun s => .stay (s.laceDone .attached l.joined)
    else writeG s d (r.setWidth 64) solo
  | none =>
    match l.code with
    | .attached => writeG s d 1
    | .detached =>
      if s.leaderAt l s.me.pc then
        writeG (s.dropWire (s.cur.core, s.cur.slot)) d 2 fun s => .stay (s.laceDone .attached true)
      else .wait .relace fun s => s.modMe fun x => { x with lace := { x.lace with code := .rejoining, waited := 0 } }
    | .rejoining => .wait .relace id
    | .leader => relaceLeader d s
    | .leaderWait => relaceLeader d s
    | .solo => writeG s d (if l.lost then 3 else 0) solo
    | .binding => writeG s d 0 solo

/-- RELACE (R273, R84). -/
def execRelace (x : GD) (s : State) : Host.Outcome State Fault Refusal :=
  issue (mkForm x.q 26 [] [x.d]) (relaceAct x.d) s

/-! ### Forwarded heads and timeouts -/

/-- LACE_FORWARD_HEAD (R81, R82): the first head on the wire to a follower reaches its buffer, or is discarded at one that
no longer follows. -/
def execLaceForwardHead (i : Nat) (s : State) : Host.Outcome State Fault Refusal :=
  event s
    (match s.laces[i]? with
     | none => none
     | some f =>
       if ((s.laces.take i).any fun g => g.core == f.core && g.slot == f.slot) || s.phaseOf f.core == .out then none
       else
         let s := { s with laces := s.laces.eraseIdx i }
         if (s.slot f.core f.slot).lace.follows then
           some (s.modSlot f.core f.slot fun x => { x with buf := x.buf ++ [f.head] })
         else some s)

/-- A follower leaves the lace LOST (R84): at the RELACE it waits at, or its next one. -/
def State.loseFollower (s : State) (m : CoreId × Fin 4) : State :=
  s.modSlot m.1 m.2 fun x =>
    if x.lace.code = .rejoining then { x with lace := { LaceSt.solo with result := some 3 } }
    else { x with lace := { LaceSt.solo with lost := true } }

/-- The timeout of a leader at its RELACE: strays elsewhere are lost (R84). -/
def State.leaderTimeout (s : State) (k : CoreId) (sl : Fin 4) : State :=
  let gone := (s.strays k sl).filter fun m => !s.waitsAt (s.slot k sl).pc m
  (gone.foldl State.loseFollower s).modSlot k sl fun x =>
    { x with lace := { x.lace with lost := x.lace.lost || !gone.isEmpty } }

/-- Whether a follower's full buffer holds its leader, which waits for it and for nothing else (R81). -/
def State.backPressures (s : State) (k : CoreId) (sl : Fin 4) : Bool :=
  let l := (s.slot k sl).lace
  let m := s.slot l.leadCore l.leadSlot
  m.st == .wait && m.wait == .laceBuffer && decide (8 ≤ (s.slot k sl).buf.length + s.flying k sl)

/-- LACE_TIMEOUT (R79, R81, R84): a member's wait has reached T steps. No timeout runs while the partition is out (R85), or
for a follower whose leader is trapped (R83) or does not wait for it. -/
def execLaceTimeout (k : CoreId) (sl : Fin 4) (s : State) : Host.Outcome State Fault Refusal :=
  let x := s.slot k sl
  let waiting := x.st == .wait
  event s
    (if s.phaseOf k == .out || x.lace.result.isSome then none
     else match x.lace.code with
      | .binding => if waiting then some (s.laceFails k sl) else none
      | .rejoining =>
        if waiting then some (s.modSlot k sl fun x => { x with lace := { LaceSt.solo with result := some 3 } }) else none
      | .leaderWait => if waiting then some (s.leaderTimeout k sl) else none
      | .attached =>
        if s.backPressures k sl then
          some (((s.modSlot k sl fun x => { x with buf := [], lace := { x.lace with code := .detached, joined := false } }).dropWire
            (k, sl)).count k 11 (some sl))
        else none
      | _ => none)

end Sys2Proof.Machine
end

