-- ==== Sys2Proof/Machine/Tasks.lean ====
section
/-! DEFINITION. TASKID, SPAWN and MIGRATE (09 R274 to R276), the rank exception table and RANKSET (13 R304, 16 R358), and
the moves of tasks (16 R357, R359, R360, 18 R386). -/

namespace Sys2Proof.Machine

/-! ### TASKID (R276) -/

/-- TASKID's value for a selector; the kernel position is the rank's by R25. -/
def taskidWord (k : CoreId) (sl : Fin 4) (gtid : Word) (h : Held) (sel : Nat) : Word :=
  let rank := (gtidRank gtid).toNat
  match sel with
  | 0 => gtid
  | 1 => 0#18 ++ BitVec.ofNat 22 h.ranks ++ BitVec.ofNat 3 h.s ++ BitVec.ofNat 10 h.h ++ BitVec.ofNat 11 h.w
  | 2 => 0#33 ++ BitVec.ofNat 7 (fieldOf k) ++ 0#1 ++ BitVec.ofNat 2 sl.val ++ packPos k
  | _ => 0#11 ++ packPos (coreAt h.x0 h.y0) ++ 0#9 ++ BitVec.ofNat 2 (rank % h.s) ++
      BitVec.ofNat 10 (rank / h.s / h.w) ++ BitVec.ofNat 11 (rank / h.s % h.w)

/-- The launch of a task, or a record of zeros where no core of it is held. -/
def State.launchD (s : State) (k : CoreId) (g : Word) : Held := (s.launchOf k g).getD ⟨0, 0, 0, 0, 0, 0, 0, 0⟩

/-- TASKID (R276). -/
def execTaskid (x : TaskidF) (s : State) : Host.Outcome State Fault Refusal :=
  issue (mkForm x.q 31 (r16Ops x.sel) [x.d])
    (fun s =>
      let sel := ((s.r16 x.sel).extractLsb' 0 2).toNat
      writeG s x.d (taskidWord s.cur.core s.cur.slot s.me.gtid (s.launchD s.cur.core s.me.gtid) sel)) s

/-! ### SPAWN (R274) -/

/-- The packet's bytes, read in one access (R274, R315). -/
def packetRead (s : State) (a : Word) (k : State → Nat → Act) : Act :=
  if isLocal a then localCheck a 64 fun o =>
    (readLocal s o 64 k).using fun t => t.modCore s.cur.core fun c => c.correct o 64 (some s.cur.slot)
  else globalCheck a 64 (xlate s a 9 true fun s d => k s (s.homeLE d 64))

/-- SPAWN (R274): FENCE .rel.dev, the read of the packet, and a wait for the dispatcher's answer. -/
def execSpawn (x : GG) (s : State) : Host.Outcome State Fault Refusal :=
  issue (mkForm x.q 31 [x.a] [x.d])
    (fun s =>
      let a := s.rd x.a
      match s.me.reply with
      | some (.value v) => writeG s x.d v
      | _ =>
        if s.me.asked then .wait .reply id
        else if !isGlobal a && !isLocal a then .trap 0x0A a
        else if !aligned a 64 then .trap 0x07 a
        else if !fenceDone (s.core s.cur.core) s.cur.slot .rel then .wait .fence id
        else packetRead s a fun _ v => .wait .reply fun s =>
          (s.modPart (s.partNum s.cur.core) fun x => { x with packets := x.packets ++
            [(.spawn s.cur.core s.cur.slot, gtidVf s.me.gtid, toBytes v 64)] }).modMe fun x => { x with asked := true }) s

/-! ### The rank exception table (R358) -/

/-- The table once every update on its way is complete. -/
def Partition.ranksAfter (x : Partition) : Vector Word 64 :=
  x.upds.foldl (fun r u => if u.stop then r else r.set (Fin.ofNat 64 u.entry) u.value) x.ctx.ranks

/-- The entry for a rank: its own, else the first that is free. -/
def takeEntry (r : Vector Word 64) (launch rank : Nat) : Option Nat :=
  let own := fun (i : Fin 64) => let e := rankEnt r[i]; e.v && e.launch == launch && e.rank == rank
  match (List.finRange 64).find? own with
  | some i => some i.val
  | none => ((List.finRange 64).find? fun i => !(rankEnt r[i]).v).map (·.val)

def State.pushUpd (s : State) (p : Nat) (u : TabUpd) : State := s.modPart p fun x => { x with upds := x.upds ++ [u] }

/-- RANKSET (R304, R358): retires when the update is complete, with the old entry. -/
def execRankset (x : GrpF) (s : State) : Host.Outcome State Fault Refusal :=
  issue (mkForm x.q 29 (x.a :: r16Ops x.n) [x.d] [] 1)
    (fun s =>
      let p := s.partNum s.cur.core
      let i := ((s.r16 x.n).extractLsb' 0 6).toFin
      let old := (s.part p).ranksAfter[i]
      match s.me.reply with
      | some (.value v) => writeG s x.d v
      | _ =>
        if s.me.asked then .wait .reply id
        else if old.getLsbD 62 || (s.rd x.a).getLsbD 62 then .trap 0x09 (s.rd x.a)
        else .wait .reply fun s =>
          (s.pushUpd p ⟨i.val, s.rd x.a &&& ~~~(1#64 <<< 23), some (s.cur.core, s.cur.slot), false⟩).modMe fun x => { x with asked := true }) s

/-! ### Moves: what may move and where (R275, R357 to R360) -/

/-- Each valid membership has OUT = 0 (R357). -/
def Slot.tideBoundary (x : Slot) : Bool :=
  x.r.gm.toList.all fun g => !g.getLsbD 63 || g.extractLsb' 8 2 == 0#2

/-- The move is between cores, and not of a core's only task to a core with none. -/
def State.slotOnly (s : State) (k : CoreId) (sl : Fin 4) (t : CoreId) : Bool :=
  k != t && !(((List.finRange 4).all fun n => n == sl || (s.slot k n).st == .empty) &&
    ((List.finRange 4).all fun n => (s.slot t n).st == .empty) &&
    !((s.part (s.partNum k)).moves.any fun m => m.toCore == t && m.gtid != (s.slot k sl).gtid))

/-- A claim on the target that the task's own claims meet (R360). -/
def State.claimClash (s : State) (k : CoreId) (sl : Fin 4) (t : CoreId) : Bool :=
  let u := (s.core k).unit
  let v := (s.core t).unit
  ((List.finRange 4).any fun i => u.tiles[i].owner == some sl && v.tiles[i].owner.isSome) ||
  (u.scanOwner == some sl && v.scanOwner.isSome)

/-- Statuses 3, 1, 2, 5 and 6 of R275 in their order; 0: the move may begin. -/
def State.moveStatus (s : State) (k : CoreId) (sl : Fin 4) (pos : BitVec 21) (tsl : Fin 4) : Nat :=
  let p := s.partNum k
  let x := s.slot k sl
  let h := s.launchD k x.gtid
  match unpackPos pos with
  | none => 3
  | some t =>
    if s.partOf t != s.partOf k || (t == k && tsl == sl) || decide (h.s ≤ tsl.val) then 3
    else if (s.slot t tsl).st != .empty || ((s.part p).moves.any fun m => m.toCore == t && m.toSlot == tsl) ||
        (match (s.core t).held with | some g => g.vf != h.vf || g.launch != h.launch | none => false) then 1
    else if !x.tideBoundary then 2
    else if (takeEntry (s.part p).ranksAfter (gtidLaunch x.gtid) (gtidRank x.gtid).toNat).isNone then 5
    else if s.slotOnly k sl t && s.claimClash k sl t then 6
    else 0

/-- Step 1 of R359: what a move waits for, and the issued vector operations (R192). Global accesses that are under way go with
the task. -/
def State.moveWaits (s : State) (k : CoreId) (sl : Fin 4) : Bool :=
  let c := s.core k
  let g := (c.slot sl).gtid
  (c.unit.runs.any fun r => r.slot == sl) || (c.unit.feeds.toList.any fun q => q.any fun f => f.slot == sl) ||
  (c.unit.scans.any fun r => r.slot == sl) ||
  (c.streams.toList.any fun o => match o with
    | some t => t.slot == sl && t.redirect.isNone && isLocal t.src.base
    | none => false) ||
  (c.vops.any fun o => o.slot == sl) ||
  (c.inj.any fun m => m.kind != .notice && m.src == gtidRank g && m.launch == gtidLaunch g && m.vf == gtidVf g)

/-- Step 2 of R359: an entry is taken with TRANSIT at the task's present place. -/
def State.beginMove (s : State) (k : CoreId) (sl : Fin 4) (t : CoreId) (tsl : Fin 4) (migt : Option (Fin 4))
    (issuer : Option (CoreId × Fin 4)) : State :=
  let p := s.partNum k
  let x := s.slot k sl
  let rank := (gtidRank x.gtid).toNat
  match takeEntry (s.part p).ranksAfter (gtidLaunch x.gtid) rank with
  | none => s
  | some e =>
    let s := s.pushUpd p ⟨e, rankWord ⟨true, true, gtidLaunch x.gtid, rank, sl, packPos k⟩, none, false⟩
    s.modPart p fun y => { y with moves := y.moves ++ [⟨k, sl, t, tsl, x.gtid, e, migt, issuer, .entry⟩] }

/-- MIGRATE (R275): statuses first, then the waits of R359, then the move. -/
def migrateAct (x : MigrateF) (s : State) : Act :=
  let k := s.cur.core
  let self := x.b == .g 0
  let pos := (s.rd x.a).extractLsb' 0 21
  let tsl : Fin 4 := Fin.ofNat 4 ((s.rd x.a).extractLsb' 21 2).toNat
  match s.me.reply with
  | some .moved => writeG s x.d 0
  | some (.value v) => writeG s x.d v
  | _ =>
    if s.me.asked then .wait .reply id
    else if s.slimRefuses x.d 0 then .trap 0x0B 0
    else
      let task := if self then some (k, s.cur.slot)
        else (s.findTask (s.rd x.b)).filter fun t => s.partOf t.1 == s.partOf k && (s.slot t.1 t.2).st == .trapped
      match task with
      | none => writeG s x.d 4
      | some (tk, tn) =>
        if s.moving tk tn then .wait .commands id
        else
          let st := s.moveStatus tk tn pos tsl
          if st ≠ 0 then writeG s x.d (BitVec.ofNat 64 st)
          else if s.moveWaits tk tn then .wait .commands id
          else
            let to_ := (unpackPos pos).getD 0
            if self then .wait .moved fun s => s.beginMove tk tn to_ tsl none none
            else .wait .reply fun s =>
              (s.beginMove tk tn to_ tsl none (some (k, s.cur.slot))).modMe fun x => { x with asked := true }

/-- MIGRATE (R275). -/
def execMigrate (x : MigrateF) (s : State) : Host.Outcome State Fault Refusal :=
  issue (mkForm x.q 31 [x.a, x.b] [x.d] [] (if x.b = .g 0 then 0 else 1)) (migrateAct x) s

/-- A MIGTn value with V clear, DONE set and a status (R357). -/
def migtDone (v : Word) (st : Nat) : Word :=
  0#1 ++ 1#1 ++ 0#3 ++ BitVec.ofNat 3 st ++ 0#33 ++ v.extractLsb' 0 23

/-- A register MIGTn is changed. -/
def State.modMigt (s : State) (k : CoreId) (n : Fin 4) (f : Word → Word) : State :=
  s.modCoreRegs k fun r => { r with migt := r.migt.set n (f r.migt[n]) }

/-- The moves of a partition without those of a task. -/
def State.dropMove (s : State) (p : Nat) (g : Word) : State :=
  s.modPart p fun x => { x with moves := x.moves.filter fun n => n.gtid != g }

/-- A MIGTn request that waits for step 1 of R359. -/
def State.migtWaiting (s : State) (k : CoreId) (n : Fin 4) : Option Move :=
  (s.part (s.partNum k)).moves.find? fun m => m.core == k && m.slot == n && m.step == .waits

/-- The reason for which a move that has waited fails after all (R360): no entry is left, or the target core's claims clash. -/
def State.lateStatus (s : State) (m : Move) : Nat :=
  if (takeEntry (s.part (s.partNum m.core)).ranksAfter (gtidLaunch m.gtid) (gtidRank m.gtid).toNat).isNone then 5
  else if s.slotOnly m.core m.slot m.toCore && s.claimClash m.core m.slot m.toCore then 6
  else 0

/-- MIGT_REQUEST_ACT (R357): at a tide boundary of the task the request is taken up and V is cleared; a failed one leaves the
task running where it is. One whose waits are not met holds the task, and then begins (R359), or fails (R360). -/
def execMigtRequestAct (k : CoreId) (n : Fin 4) (s : State) : Host.Outcome State Fault Refusal :=
  let x := s.slot k n
  let p := s.partNum k
  event s
    (match s.migtWaiting k n with
     | some m =>
       if s.moveWaits k n then none
       else
         let t := s.dropMove p x.gtid
         if s.lateStatus m ≠ 0 then
           some ((t.modMigt k n fun w => migtDone w (s.lateStatus m)).modSlot k n fun x => { x with st := .ready, wait := .none, readyAt := s.now })
         else some (t.beginMove k n m.toCore m.toSlot (some n) none)
     | none =>
       let v := (s.core k).regs.migt[n]
       if !v.getLsbD 63 || x.st != .ready || !x.tideBoundary || s.moving k n then none
       else
         let pos := v.extractLsb' 0 21
         let tsl : Fin 4 := Fin.ofNat 4 (v.extractLsb' 21 2).toNat
         let to_ := (unpackPos pos).getD 0
         let st := s.moveStatus k n pos tsl
         if st ≠ 0 then some (s.modMigt k n fun w => migtDone w st)
         else
           let t := (s.modMigt k n fun w => w &&& ~~~(1#64 <<< 63)).modSlot k n fun x => { x with st := .wait, wait := .moved }
           if s.moveWaits k n then
             some (t.modPart p fun y => { y with moves := y.moves ++ [⟨k, n, to_, tsl, x.gtid, 0, some n, none, .waits⟩] })
           else some (t.beginMove k n to_ tsl (some n) none))

/-! ### The flush (R359 step 3) -/

/-- A message of a launch to a rank. -/
def Msg.isTo (m : Msg) (g : Word) : Bool :=
  m.vf == gtidVf g && m.launch == gtidLaunch g && m.dst == gtidRank g

/-- Earlier messages and answers for a task are not all acted on yet. -/
def State.unflushed (s : State) (k : CoreId) (g : Word) : Bool :=
  (s.mesh.any fun f => f.target == k && f.msg.isTo g) ||
  ((s.core k).arr.toList.any fun q => q.any fun m => m.isTo g) ||
  (match (s.core k).handler with | some h => h.msg.isTo g | none => false) ||
  ((s.part (s.partNum k)).ctx.hub.any fun m => match m with | .answer g' _ => g' == g | _ => false)

/-- The move at a core that is at a step. -/
def State.moveAt (s : State) (k : CoreId) (st : MoveStep) : Option Move :=
  (s.part (s.partNum k)).moves.find? fun m => m.core == k && m.step == st

def State.setStep (s : State) (p : Nat) (m : Move) (st : MoveStep) : State :=
  s.modPart p fun x => { x with moves := x.moves.map fun n => if n.gtid = m.gtid then { n with step := st } else n }

/-- MOVE_FLUSH_MARKER (R359 step 3): the old core has acted on every message ahead of the markers, and on the markers. -/
def execMoveFlushMarker (k : CoreId) (s : State) : Host.Outcome State Fault Refusal :=
  event s
    (match s.moveAt k .flush with
     | none => none
     | some m => if s.unflushed k m.gtid then none else some (s.setStep (s.partNum k) m .copy))

/-! ### The copy (R359 steps 4 and 5) -/

/-- A slot number in a claim, renamed. -/
def renameSlot (a b : Fin 4) (n : Fin 4) : Fin 4 := if n = a then b else n

def Units.rename (u : Units) (a b : Fin 4) : Units :=
  { u with tiles := u.tiles.map (fun t => { t with owner := t.owner.map (renameSlot a b) }),
           scanOwner := u.scanOwner.map (renameSlot a b) }

/-- Tag entries whose SLOT names the old slot name the new one. -/
def TagEnt.rename (t : TagEnt) (a b : Fin 4) : TagEnt :=
  if tagSlot t.word = a then
    { t with word := t.word.extractLsb' 61 3 ++ BitVec.ofNat 2 b.val ++ t.word.extractLsb' 0 59 }
  else t

/-- Frames after a whole-core move: each tagged frame in its own place, and no tag twice. -/
def mergeFrames (src dst : Vector Frame 16) : Vector Frame 16 :=
  Vector.ofFn fun i : Fin 16 =>
    if src[i].tag.isSome then src[i]
    else if (src.toList.any fun f => f.tag.isSome && f.tag == dst[i].tag) then Frame.empty
    else dst[i]

/-- The sequence counters of a rank: of the pairs that it sends on, or receives on (R253). -/
def pairFrom (g : Word) (key : Nat) : Bool :=
  key % 2 ^ 23 == (gtidRank g).toNat && key / 2 ^ 45 == gtidVf g * 2 ^ 16 + gtidLaunch g
def pairTo (g : Word) (key : Nat) : Bool :=
  key / 2 ^ 23 % 2 ^ 22 == (gtidRank g).toNat && key / 2 ^ 45 == gtidVf g * 2 ^ 16 + gtidLaunch g

def mmerge {α : Type} (l : List (Nat × α)) (l' : List (Nat × α)) : List (Nat × α) := l'.foldl (fun a e => mset a e.1 e.2) l

/-- The sequence counters of a rank go with it. -/
def Core.takeSeqs (t o : Core) (g : Word) : Core :=
  { t with seqOut := mmerge t.seqOut (o.seqOut.filter fun e => pairFrom g e.1),
           seqIn := mmerge t.seqIn (o.seqIn.filter fun e => pairTo g e.1) }
def Core.dropSeqs (o : Core) (g : Word) : Core :=
  { o with seqOut := o.seqOut.filter fun e => !pairFrom g e.1, seqIn := o.seqIn.filter fun e => !pairTo g e.1 }

/-- Shared state of a core that holds only the moving task, as it arrives at the target: everything R307 saves. -/
def Core.arriveWhole (t o : Core) (a b : Fin 4) (h : Option Held) : Core :=
  { t with
    mem := { o.mem with tags := o.mem.tags.map (fun e => e.rename a b), frames := mergeFrames o.mem.frames t.mem.frames,
                        semQ := [] },
    unit := { o.unit.rename a b with tokens := t.unit.tokens, starved := t.unit.starved, stalls := t.unit.stalls,
                                     wanted := t.unit.wanted },
    berths := o.berths, locks := o.locks.map (fun l => { l with slot := renameSlot a b l.slot }),
    arr := Vector.ofFn fun i : Fin 4 => o.arr[i] ++ t.arr[i], held := match t.held with | some x => some x | none => h,
    regs := { t.regs with ce := [], ue := o.regs.ue } }

/-- What a whole-core move leaves: the old core's engines that still run, and its SRAM until it is freed. -/
def Core.leaveWhole (o : Core) : Core :=
  { o with
    mem := { o.mem with semQ := [] },
    unit := { o.unit with tiles := o.unit.tiles.map fun t => { t with owner := none }, scanOwner := none,
                          queues := Vector.replicate 4 [] },
    berths := Vector.replicate 4 Berth.closed, locks := [], arr := Vector.replicate 4 [],
    regs := { o.regs with ue := [], ce := [] } }

/-- Tiles and the scan unit that the task claims, copied into the same places (R359). -/
def Units.takeClaims (v u : Units) (a b : Fin 4) : Units :=
  { v with tiles := Vector.ofFn fun i : Fin 4 =>
             if u.tiles[i].owner = some a then { u.tiles[i] with owner := some b } else v.tiles[i],
           scanOwner := if u.scanOwner = some a then some b else v.scanOwner,
           scanCfg := if u.scanOwner = some a then u.scanCfg else v.scanCfg,
           scanH := if u.scanOwner = some a then u.scanH else v.scanH }

def Core.arriveSlot (t o : Core) (a b : Fin 4) (h : Option Held) : Core :=
  { t with mem := copyFrames o.mem t.mem, unit := t.unit.takeClaims o.unit a b,
           held := match t.held with | some x => some x | none => h }

/-- A stream of core `e` after a move of slot `sl` of core `k`: redirected, again where it was redirected before; within one
core it only takes the new slot. -/
def Stream.redirectFor (x : Stream) (e k : CoreId) (sl : Fin 4) (t : CoreId) (tsl : Fin 4) : Stream :=
  if x.redirect = some (k, sl) then { x with redirect := some (t, tsl) }
  else if e = k ∧ x.slot = sl ∧ x.redirect = none then
    (if t = k then { x with slot := tsl } else { x with redirect := some (t, tsl) })
  else x

/-- COPYs of the task are redirected to its new place (R359 step 5). -/
def State.redirectStreams (s : State) (k : CoreId) (sl : Fin 4) (t : CoreId) (tsl : Fin 4) : State :=
  { s with cores := s.cores.map fun e =>
    (e.1, { e.2 with streams := e.2.streams.map fun o => o.map fun x => x.redirectFor e.1 k sl t tsl }) }

/-- Streams of the task that end at a berth, which a whole-core move takes along. -/
def Core.berthStreams (o : Core) (sl : Fin 4) : List (Fin 8) :=
  (List.finRange 8).filter fun n => match o.streams[n] with
    | some t => t.slot == sl && t.redirect.isNone && (isBerth t.src.base || isBerth t.dst.base)
    | none => false

/-- Free-space notices of a ring that has gone to another core find it there (R113). -/
def Core.renameRing (c : Core) (k t : CoreId) (n : Fin 8) : Core :=
  let msg := fun (m : Msg) => match m.kind with
    | .freeSpace r i at_ x => if r = k ∧ i = n then { m with kind := .freeSpace t i at_ x } else m
    | _ => m
  { c with notices := c.notices.map (fun e => if e.1 == k && e.2.1 == n then (t, e.2) else e),
           inj := c.inj.map msg, arr := c.arr.map fun q => q.map msg }

def State.renameRing (s : State) (k t : CoreId) (n : Fin 8) : State :=
  { s with cores := s.cores.map (fun e => (e.1, e.2.renameRing k t n)),
           mesh := s.mesh.map fun f => match f.msg.kind with
             | .freeSpace r i at_ x => if r = k ∧ i = n then { f with msg := { f.msg with kind := .freeSpace t i at_ x } } else f
             | _ => f }

/-- A miss of a stream that goes to another core, and its walk, go with it (R317). -/
def renameWalk (k t : CoreId) (n : Fin 8) (q : CoreId × Miss) : CoreId × Miss :=
  if q.1 = k ∧ q.2.stream = some n then (t, q.2) else q

def WalkReq.rename (w : WalkReq) (k t : CoreId) (n : Fin 8) : WalkReq :=
  { w with core := (renameWalk k t n (w.core, w.miss)).1, waiters := w.waiters.map (renameWalk k t n) }

/-- What is on its way to a stream finds it at its new core: the credits of its ring (R113), the answer of its walk (R317), and
the answers of network peers (R116, R403). -/
def State.renameStream (s : State) (k t : CoreId) (n : Fin 8) : State :=
  let ms := (s.core k).misses.filter fun m => m.stream == some n
  let s := (s.modCore k fun c => { c with misses := c.misses.filter fun m => m.stream != some n }).modCore t fun c =>
    { c with misses := c.misses ++ ms }
  State.renameRing
    { s with fields := s.fields.map (fun e => (e.1, { e.2 with walks := e.2.walks.map fun w => w.rename k t n })),
             quays := s.quays.map fun e =>
               (e.1, { e.2 with outst := e.2.outst.map fun o => if o.ofStream k n then { o with core := t } else o }) } k t n

/-- They keep their numbers, with their fault records and what is on its way to them. -/
def State.takeStreams (s : State) (k : CoreId) (t : CoreId) (tsl : Fin 4) (ns : List (Fin 8)) : State :=
  ns.foldl (fun (s : State) (n : Fin 8) =>
    let o := s.core k
    let s := s.modCore t fun c => { c with
      streams := c.streams.set n (o.streams[n].map fun x => { x with slot := tsl }),
      regs := { c.regs with strflt := c.regs.strflt.set n o.regs.strflt[n], sfdet := c.regs.sfdet.set n o.regs.sfdet[n] } }
    (s.modCore k fun c => { c with streams := c.streams.set n none }).renameStream k t n) s

def bankOwner (w : Word) : BitVec 2 := w.extractLsb' 16 2
/-- A bank with SLOT and LENT replaced. -/
def Bank.lent (b : Bank) : Bank := { b with ctl := b.ctl ||| (1#64 <<< 63) }
def Bank.forSlot (b : Bank) (n : Fin 4) : Bank :=
  { b with ctl := b.ctl.extractLsb' 11 53 ++ BitVec.ofNat 2 n.val ++ b.ctl.extractLsb' 0 9 }

/-- A bank held or frozen in task mode for a slot. -/
def Bank.isOf (b : Bank) (sl : Fin 4) : Bool :=
  bankOwner b.ctl != 0 && b.ctl.getLsbD 8 && Fin.ofNat 4 (b.ctl.extractLsb' 9 2).toNat == sl

/-- The sessions of a core's bank: the one that counts, and those that are frozen, in the order in which they resume. -/
def CoreRegs.sessions (r : CoreRegs) : List Bank :=
  (if bankOwner r.bank.ctl = 0 then [] else [r.bank]) ++ r.bankShadow.toList ++ r.bankFrozen

def CoreRegs.setSessions (r : CoreRegs) (l : List Bank) : CoreRegs :=
  { r with bank := l.headD Bank.zero, bankShadow := l.tail.head?, bankFrozen := l.drop 2 }

/-- A session that arrives among those of a bank: behind every claim of its level or above. -/
def joinSession (b : Bank) : List Bank → List Bank
  | [] => [b]
  | x :: l => if (bankOwner x.ctl).toNat < (bankOwner b.ctl).toNat then b :: x :: l else x :: joinSession b l

/-- Every session but the first is frozen, with LENT set. -/
def freezeRest : List Bank → List Bank
  | [] => []
  | x :: l => x :: l.map Bank.lent

/-- A task-mode bank is a session of its task and moves with it, whether it counts or is frozen; at the target the claim of higher
level counts, and at equal levels the one already there (R386). -/
def State.moveBank (s : State) (k : CoreId) (sl : Fin 4) (t : CoreId) (tsl : Fin 4) : State :=
  let l := (s.core k).regs.sessions
  let mine := (l.filter fun b => b.isOf sl).map fun b => b.forSlot tsl
  if mine.isEmpty then s
  else if t = k then s.modCoreRegs k fun r => r.setSessions (l.map fun b => if b.isOf sl then b.forSlot tsl else b)
  else
    (s.modCoreRegs k fun r => r.setSessions (l.filter fun b => !b.isOf sl)).modCoreRegs t fun r =>
      r.setSessions (freezeRest (mine.foldl (fun a b => joinSession b a) r.sessions))

/-- Commands that CTXLD has loaded for the task, part of its slot image, go with it (R301, R304; DEDUCED, entry 95: they do not run
and are not waited for). -/
def State.carryParked (s : State) (k : CoreId) (sl : Fin 4) (t : CoreId) (tsl : Fin 4) : State :=
  let mine := (s.core k).parked.filter fun e => e.1 == sl
  (s.modCore k fun c => { c with parked := c.parked.filter fun e => e.1 != sl }).modCore t fun c =>
    { c with parked := c.parked ++ mine.map fun e => (tsl, e.2) }

/-- The task's slot image is set down, and its old slot is EMPTY. -/
def State.carrySlot (s : State) (k : CoreId) (sl : Fin 4) (t : CoreId) (tsl : Fin 4) : State :=
  let x := s.slot k sl
  (s.modSlot k sl fun _ => Slot.wiped).modSlot t tsl fun _ => x

/-- The task's global accesses under way go with it, and the answers of network peers find them there (DEDUCED, entry 87: the
image of R301 holds those that are pending). -/
def State.carryAccs (s : State) (k : CoreId) (sl : Fin 4) (t : CoreId) (tsl : Fin 4) : State :=
  let mine := (s.core k).gaccs.filter fun a => a.slot == sl
  let move := fun (q : Nat) (o : NetOut) =>
    if o.core = k ∧ o.what = .access ∧ mine.any (fun a => a.net == some o.id && s.quayOf a.dpa == q) then { o with core := t } else o
  let u := (s.modCore k fun c => { c with gaccs := c.gaccs.filter fun a => a.slot != sl }).modCore t fun c =>
    { c with gaccs := c.gaccs ++ mine.map fun a => { a with slot := tsl } }
  { u with quays := u.quays.map fun e => (e.1, { e.2 with outst := e.2.outst.map (move e.1) }) }

/-- Steps 4 and 5 of R359. -/
def State.copyTask (s : State) (k : CoreId) (sl : Fin 4) (t : CoreId) (tsl : Fin 4) : State :=
  let s := ((((s.endWatch k sl 4).endLace k sl).endCount k sl).carryAccs k sl t tsl).carryParked k sl t tsl
  let g := (s.slot k sl).gtid
  let h := s.launchOf k g
  let only := s.slotOnly k sl t
  let o := s.core k
  let s := s.moveBank k sl t tsl
  if t = k then
    ((s.redirectStreams k sl t tsl).modUnits k fun u => u.rename sl tsl).carrySlot k sl t tsl
  else
    let s := if only then s else s.takeStreams k t tsl (o.berthStreams sl)
    let s := s.redirectStreams k sl t tsl
    let s := (s.modCore t fun c => c.takeSeqs o g).modCore k fun c => c.dropSeqs g
    let s := s.modCore t fun c => if only then c.arriveSlot o sl tsl h else c.arriveWhole o sl tsl h
    let s := s.modCore k fun c => if only then { c with unit := c.unit.release sl } else c.leaveWhole
    (s.carrySlot k sl t tsl).freeLeft k

/-- Whether the target has the streams free that a whole-core move takes along. -/
def State.copyReady (s : State) (m : Move) : Bool :=
  m.core == m.toCore || s.slotOnly m.core m.slot m.toCore ||
  ((s.core m.core).berthStreams m.slot).all fun n => (s.core m.toCore).streams[n].isNone

/-- The entry after the move (R359 step 6): V is 0 where the target is the rank's own place (R358). -/
def State.releaseWord (s : State) (m : Move) : Word :=
  let rank := (gtidRank m.gtid).toNat
  let own := (s.launchD m.toCore m.gtid).home rank == (m.toCore, m.toSlot)
  rankWord ⟨!own, false, gtidLaunch m.gtid, rank, m.toSlot, packPos m.toCore⟩

/-- A move that stays where it is: its entry is released at the task's present place. -/
def Move.stay (m : Move) : Move := { m with toCore := m.core, toSlot := m.slot, step := .failed }

/-- MOVE_COPY (R359 steps 4 to 6): the copy, the redirection of streams, and the update that releases the rank. Where a task of
the target core has claimed meanwhile what the copy would overwrite, nothing moves (R360; DEDUCED, entry 95). -/
def execMoveCopy (k : CoreId) (s : State) : Host.Outcome State Fault Refusal :=
  event s
    (match s.moveAt k .copy with
     | none => none
     | some m =>
       if !s.copyReady m then none
       else
         let p := s.partNum k
         if s.slotOnly k m.slot m.toCore && s.claimClash k m.slot m.toCore then
           some ((s.modPart p fun x => { x with moves := x.moves.map fun n => if n.gtid = m.gtid then m.stay else n }).pushUpd p
             ⟨m.entry, s.releaseWord m.stay, none, false⟩)
         else
         let s := s.copyTask k m.slot m.toCore m.toSlot
         let s := s.setStep p m .release
         some (s.pushUpd p ⟨m.entry, s.releaseWord m, none, false⟩))

/-! ### Updates of the tables, and the end of a move (R358, R359 steps 6 and 7, R380) -/

/-- Register n of the target core after a MIGT request that has moved its task (R357): DONE, STATUS 0 and, where no request
is armed there, the SLOT and POS that the request named, as the run of chapter 16 reads it (DEDUCED, entry 32). -/
def migtMoved (w : Word) (t : CoreId) (tsl : Fin 4) : Word :=
  if w.getLsbD 63 then 1#1 ++ 1#1 ++ 0#6 ++ w.extractLsb' 0 56
  else migtDone (0#41 ++ BitVec.ofNat 2 tsl.val ++ packPos t) 0

/-- Step 7 of R359: the task enters the state it left; a self-move retires, and the issuer, or the target core's register of
the number that was armed (R357), learns the status. Records held at a quay for the rank are injected (R358, R402). -/
def State.finishMove (s : State) (p : Nat) (m : Move) : State :=
  let s := s.dropMove p m.gtid
  let self := m.migt.isNone && m.issuer.isNone
  let s := s.modSlot m.toCore m.toSlot fun x =>
    let x := if x.st = .wait ∧ x.wait = .moved then { x with st := .ready, wait := .none, readyAt := s.now } else x
    if self then { x with reply := some .moved } else x
  let s := match m.issuer with
    | some (k, sl) => s.modSlot k sl fun x => { x with reply := some (.value 0) }
    | none => s
  (match m.migt with
   | some n => s.modMigt m.toCore n fun w => migtMoved w m.toCore m.toSlot
   | none => s).releaseNet p

/-- A move that has failed with status 6 ends (R360): the task goes on where it is. -/
def State.failMove (s : State) (p : Nat) (m : Move) : State :=
  let s := s.dropMove p m.gtid
  let s := s.modSlot m.core m.slot fun x =>
    let x := if x.st = .wait ∧ x.wait = .moved then { x with st := .ready, wait := .none, readyAt := s.now } else x
    if m.migt.isNone && m.issuer.isNone then { x with reply := some (.value 6) } else x
  let s := match m.issuer with
    | some (k, sl) => s.modSlot k sl fun x => { x with reply := some (.value 6) }
    | none => s
  (match m.migt with
   | some n => s.modMigt m.core n fun w => migtDone w 6
   | none => s).releaseNet p

/-- A stop register takes its value (R380): STOP0 to 7, STOPPC0 to 7, STOPOWN. -/
def PartCtx.setStop (c : PartCtx) (r : Nat) (v : Word) : PartCtx :=
  if r < 8 then { c with stop := c.stop.set (Fin.ofNat 8 r) v }
  else if r < 16 then { c with stoppc := c.stoppc.set (Fin.ofNat 8 (r - 8)) v }
  else { c with stopown := v }

/-- RANK_TABLE_UPDATE_ACK (R358, R380): every copy has taken an update, the oldest for its entry. -/
def execRankTableUpdateAck (p i : Nat) (s : State) : Host.Outcome State Fault Refusal :=
  let us := (s.part p).upds
  event s
    (match us[i]? with
     | none => none
     | some u =>
       if (us.take i).any fun v => v.stop == u.stop && v.entry == u.entry then none
       else
         let old := (s.part p).ctx.ranks[Fin.ofNat 64 u.entry]
         let s := s.modPart p fun x => { x with upds := x.upds.eraseIdx i }
         let s := s.modCtx p fun c =>
           if u.stop then c.setStop u.entry u.value else { c with ranks := c.ranks.set (Fin.ofNat 64 u.entry) u.value }
         match u.issuer with
         | some (k, sl) => some (s.modSlot k sl fun x => { x with reply := some (.value (if u.stop then 0 else old)) })
         | none =>
           match (s.part p).moves.find? fun m => !u.stop && m.entry == u.entry && m.step != .waits with
           | none => some s
           | some m => match m.step with
             | .entry => some (s.setStep p m .flush)
             | .release => some (s.finishMove p m)
             | .failed => some (s.failMove p m)
             | _ => some s)

end Sys2Proof.Machine
end

