-- ==== Sys2Proof/Machine/Tides.lean ====
section
/-! DEFINITION. Tides and chunk scheduling: groups and memberships (03 R87 to R89), the home (03 R90 to R94, 02 R62, R64,
11 R285, R286), OP 0x50 to 0x53 (09 R267 to R270) and the TIDE tag action (03 R406). -/

namespace Sys2Proof.Machine

/-! ### Group entries (R87, R88) -/

def geV (e : BitVec 192) : Bool := e.getLsbD 191
def geHome (e : BitVec 192) : Nat := (e.extractLsb' 184 7).toNat
def geLaunch (e : BitVec 192) : Nat := (e.extractLsb' 168 16).toNat
def geLag (e : BitVec 192) : BitVec 32 := (e.extractLsb' 164 4).setWidth 32
/-- 0 FULL, 1 HALF, 2 DROP, 3 EXACT. -/
def geLate (e : BitVec 192) : Nat := (e.extractLsb' 162 2).toNat
/-- 0 sum, 1 min, 2 max, 3 or, 4 and, 5 block-sum. -/
def geOp (e : BitVec 192) : Nat := (e.extractLsb' 159 3).toNat
/-- 0 scalar, 1 vector, 2 block vector. -/
def geShape (e : BitVec 192) : Nat := (e.extractLsb' 157 2).toNat
def geType (e : BitVec 192) : Nat := (e.extractLsb' 153 4).toNat
def geChk (e : BitVec 192) : Bool := e.getLsbD 152
def geN (e : BitVec 192) : Nat := (e.extractLsb' 106 22).toNat
def geK (e : BitVec 192) : Nat := (e.extractLsb' 84 22).toNat
def geList (e : BitVec 192) : Nat := (e.extractLsb' 0 60).toNat

/-- The combinations of R88. -/
def geCombo (e : BitVec 192) : Bool :=
  let op := geOp e
  let ty := geType e
  (op ≤ 5) && (match geShape e with
    | 0 => op != 5 && ty ≤ 2 && (op != 3 && op != 4 || ty == 1)
    | 1 => op != 5 && ty ≤ 7 && (op != 3 && op != 4 || ty == 1)
    | 2 => op == 5 && (ty == 8 || ty == 9)
    | _ => false)

/-- Ascending ranks, none twice, below the rank count, with clear upper bits (R88). -/
def membersOk (n : Nat) : List Nat → Bool
  | [] => true
  | [a] => a < n
  | a :: b :: l => a < b && membersOk n (b :: l)

/-- An entry that may be made valid, with its member list, in a launch of `n` ranks (R88). -/
def geOk (e : BitVec 192) (ms : List Nat) (n : Nat) : Bool :=
  e.extractLsb' 128 24 == 0#24 && e.extractLsb' 60 24 == 0#24 && e.extractLsb' 0 6 == 0#6 && geCombo e && geN e != 0 &&
  (geLate e == 3 || (geK e != 0 && geK e ≤ geN e)) && ms.length == geN e && membersOk n ms

/-- An entry with its reserved bits clear (R7, R87). -/
def geClear (e : BitVec 192) : BitVec 192 :=
  e.extractLsb' 152 40 ++ 0#24 ++ e.extractLsb' 84 44 ++ 0#24 ++ e.extractLsb' 6 54 ++ 0#6

/-- A valid entry at its home, before its first round (R90): K reads as N under EXACT. -/
def newGroup (e : BitVec 192) (ms : List Nat) : Group :=
  let e := if geLate e = 3 then e.extractLsb' 106 86 ++ BitVec.ofNat 22 (geN e) ++ e.extractLsb' 0 84 else e
  { entry := e, rho := 0, members := ms.map fun r => ⟨BitVec.ofNat 22 r, BitVec.allOnes 32, true⟩, incl := [], early := [],
    results := [], chunk := ⟨0, 0, 0, false⟩, hubsAsked := [] }

def Group.unset : Group :=
  { entry := 0, rho := 0, members := [], incl := [], early := [], results := [], chunk := ⟨0, 0, 0, false⟩,
    hubsAsked := [] }

def State.group (s : State) (p g : Nat) : Group := (mget (s.part p).ctx.groups g).getD Group.unset
def State.setGroup (s : State) (p g : Nat) (x : Group) : State := s.modCtx p fun c => { c with groups := mset c.groups g x }

/-! ### Membership registers (R89) -/

def gmV (w : Word) : Bool := w.getLsbD 63
def gmRound (w : Word) : BitVec 32 := w.extractLsb' 24 32
def gmOut (w : Word) : BitVec 2 := w.extractLsb' 8 2
def gmGroup (w : Word) : Nat := (w.extractLsb' 0 8).toNat
def gmWord (g : Nat) (round : BitVec 32) (out : BitVec 2) : Word :=
  1#1 ++ 0#7 ++ round ++ 0#14 ++ out ++ BitVec.ofNat 8 g

/-! ### The combine (R62, R64, R286) -/

/-- The lane type of a group. -/
def geMod (e : BitVec 192) : VMod :=
  match geType e with
  | 0 => .int .i64 | 1 => .int .n64 | 2 => .fp .f64 .rne | 3 => .fp .f32 .rne | 4 => .fp .f16 .rne
  | 5 => .fp .bf16 .rne | 6 => .int .i32 | _ => .int .n32

def geRed (e : BitVec 192) : VRedOp :=
  match geOp e with
  | 0 => .sum | 1 => .min | 2 => .max | 3 => .or | _ => .and

/-- Lanes of a contribution. -/
def geLanes (e : BitVec 192) : Nat := if geShape e = 0 then 64 / vtyWidth (vmodTy (geMod e)) else 512 / vtyWidth (vmodTy (geMod e))

/-- One lane weighted by 2^-n (R64). -/
def halveLane (m : VMod) (n x : Nat) : Nat :=
  match m with
  | .int t => (intOf t x / (2 : Int) ^ n % (2 : Int) ^ tyWidth t).toNat
  | .fp f r =>
    let F := fmtOf f
    match F.nanOf [x] with
    | some y => y.1
    | none => match F.unpack x with
      | .fin a mm e => if mm = 0 then x else (F.round r a mm (e - n)).1
      | _ => x

/-- `n` shifts of one place each. -/
def shiftRne (x : Int) : Nat → Int
  | 0 => x
  | n + 1 => shiftRne (rneShiftInt x 1) n

/-- A block weighted by 2^-n (R64). -/
def Blk.halve (b : Blk) (n : Nat) : Blk :=
  if b.isNan then b else ⟨b.e - n, b.d, b.el.map fun x => shiftRne x (n - b.e)⟩

/-- One contribution with the weight of its lag. -/
def weigh (e : BitVec 192) (lag : Nat) (c : Contrib) : VWord × BitVec 128 :=
  if geLate e ≠ 1 ∨ lag = 0 then (c.lanes, c.hdr)
  else if geOp e = 5 then
    let k : BlkTy := if geType e = 9 then .pb4 else .pb8
    packBlks k ((List.range (pbCount k)).map fun b => (regBlk k c.lanes c.hdr b).halve lag)
  else if geOp e = 0 then
    let w := vtyWidth (vmodTy (geMod e))
    (packL w ((List.range (geLanes e)).map fun i => halveLane (geMod e) lag (lane w c.lanes i)), 0)
  else (c.lanes, c.hdr)

/-- One addition of the combine. -/
def combine2 (e : BitVec 192) (x y : VWord × BitVec 128) : VWord × BitVec 128 :=
  if geShape e = 2 then
    let k : BlkTy := if geType e = 9 then .pb4 else .pb8
    packBlks k ((List.range (pbCount k)).map fun b => (addBlk k (regBlk k x.1 x.2 b) (regBlk k y.1 y.2 b)).1)
  else
    let w := vtyWidth (vmodTy (geMod e))
    (packL w ((List.range (geLanes e)).map fun i => (redNode (geRed e) (geMod e) (lane w x.1 i) (lane w y.1 i)).1), 0)

/-- Order of R62: field, rank, tag. -/
def contribLe (rho : BitVec 32) (a b : Contrib) : Bool :=
  let ra := (gtidRank a.gtid).toNat
  let rb := (gtidRank b.gtid).toNat
  a.field < b.field || (a.field == b.field &&
    (ra < rb || (ra == rb && decide ((a.tag - rho).toInt ≤ (b.tag - rho).toInt))))

def insertBy {α : Type} (le : α → α → Bool) (x : α) : List α → List α
  | [] => [x]
  | y :: l => if le x y then x :: y :: l else y :: insertBy le x l

/-- Left to right within each field, then the field partials left to right. -/
def combineFields (e : BitVec 192) (wt : Contrib → VWord × BitVec 128) :
    List Contrib → List (Nat × (VWord × BitVec 128))
  | [] => []
  | c :: l => match combineFields e wt l with
    | (f, v) :: r => if f = c.field then (f, combine2 e v (wt c)) :: r else (c.field, wt c) :: (f, v) :: r
    | [] => [(c.field, wt c)]

/-- The result of a round. -/
def combineAll (e : BitVec 192) (rho : BitVec 32) (l : List Contrib) : VWord × BitVec 128 :=
  let sorted := l.foldr (insertBy (contribLe rho)) []
  let parts := (combineFields e (fun c => weigh e (rho - c.tag).toNat c) sorted.reverse).reverse
  match parts with
  | [] => (0, 0)
  | p :: ps => ps.foldl (fun a x => combine2 e a x.2) p.2

/-! ### The home (R90 to R93) -/

/-- N′. -/
def Group.nPrime (x : Group) : Nat := (x.members.filter (·.present)).length

/-- Contributions included in the open round. -/
def Group.included (x : Group) : List Contrib := x.incl.filter fun c => !c.dropped

def Group.has (x : Group) (r : BitVec 22) : Bool := x.included.any fun c => gtidRank c.gtid == r

/-- Whether the open round may close (R91). -/
def Group.closes (x : Group) : Bool :=
  let e := x.entry
  let mandatory := fun (m : Member) => geLate e == 3 || decide ((m.last - (x.rho - geLag e)).toInt < 0)
  let ranks := (x.included.map fun c => gtidRank c.gtid).eraseDups.length
  geV e && x.nPrime != 0 && (geLate e == 3 || decide (min (geK e) x.nPrime ≤ ranks)) &&
  x.members.all fun m => !m.present || !mandatory m || x.has m.rank

/-- The status word of R93. -/
def tideStatus (incl : BitVec 32) (flags : BitVec 16) (lag : Nat) (kind : BitVec 2) (old : Bool) : Word :=
  incl ++ flags ++ BitVec.ofNat 8 (min lag 255) ++ kind ++ BitVec.ofBool old ++ 0#5

def Contrib.answer (c : Contrib) (rho incl : BitVec 32) (r : TideRes) (old : Bool) : HubMsg :=
  let lag := if (c.tag - rho).toInt < 0 then (rho - c.tag).toNat else 0
  let kind : BitVec 2 := if c.dropped then 2 else if lag = 0 then 0 else 1
  .answer c.gtid ⟨c.gm, c.tag, r.lanes, r.hdr, tideStatus incl r.flag lag kind old⟩

/-- The round closes: the group with the next round open, and the answers (R91, R93). -/
def Group.close (x : Group) : Group × List HubMsg :=
  let v := combineAll x.entry x.rho x.included
  let res : TideRes := ⟨x.rho, v.1, v.2, x.included.foldl (fun a c => a ||| c.flag) 0⟩
  let out := (x.incl.filter fun c => !c.answered).map fun c => c.answer x.rho x.rho res (c.tag != x.rho)
  let next := x.rho + 1
  ({ x with rho := next, results := (res :: x.results).take 16,
            members := x.members.map fun m => if x.has m.rank then { m with last := x.rho } else m,
            incl := x.early.filter fun c => c.tag == next, early := x.early.filter fun c => c.tag != next }, out)

/-- Close as many rounds as may close: the contributions held for the next round become on time together as it opens, and it is
tested once with all of them (DESIGN CHOICE, entry 94: R91 does not say whether it is tested after each). -/
def Group.test (x : Group) : Nat → Group × List HubMsg
  | 0 => (x, [])
  | fuel + 1 =>
    if x.closes then
      let y := x.close
      if y.1.incl.isEmpty then y
      else
        let z := Group.test y.1 fuel
        (z.1, y.2 ++ z.2)
    else (x, [])

def Group.result (x : Group) (tag : BitVec 32) : Option TideRes := x.results.find? fun r => r.round == tag

/-- A contribution is classed (R90) and, where its tag's round is retained, answered at once (R93). -/
def Group.take (x : Group) (c : Contrib) : Group × List HubMsg :=
  let d := (c.tag - x.rho).toInt
  if 0 < d then ({ x with early := x.early ++ [c] }, [])
  else
    let c := { c with dropped := decide (d < 0) && geLate x.entry == 2 }
    match if d < 0 then x.result c.tag else none with
    | some r =>
      (if c.dropped then x else { x with incl := x.incl ++ [{ c with answered := true }] }, [c.answer x.rho x.rho r false])
    | none => ({ x with incl := x.incl ++ [c] }, [])

/-- Fuel of `Group.test`. -/
def Group.fuel (x : Group) : Nat := x.early.length + 1

/-! ### Sending a contribution (R90, R267) -/

/-- The field of a task's rank under R25 in its launch (R64). -/
def State.rankField (s : State) (k : CoreId) (g : Word) : Nat :=
  match s.launchOf k g with
  | some h => fieldOf (h.home (gtidRank g).toNat).1
  | none => fieldOf k

/-- Words of a contribution or an answer of a group, with its header, flag or status word and trailer. -/
def geFlits (e : BitVec 192) : Nat := match geShape e with | 0 => 4 | 1 => 11 | _ => 13

/-- Slot `sl` of core `k` contributes on membership `n`: tag ROUND, then ROUND and OUT rise. -/
def State.contribute (s : State) (k : CoreId) (sl : Fin 4) (n : Fin 4) (lanes : VWord) (hdr : BitVec 128)
    (flag : BitVec 16) : State :=
  let x := s.slot k sl
  let w := x.r.gm[n]
  let g := gmGroup w
  let p := s.partNum k
  let c : Contrib := ⟨x.gtid, s.rankField k x.gtid, n, gmRound w, lanes, hdr, flag, false, false⟩
  let s := s.modRegs k sl fun r => { r with gm := r.gm.set n (gmWord g (gmRound w + 1) (gmOut w + 1)) }
  let s := s.modCtx p fun y => { y with hub := y.hub ++ [.contrib g c] }
  (s.charge k sl 27 (geFlits (s.group p g).entry)).count k 10 (some sl)

/-- Class V reading of a field that is class G or class V (R267). -/
def asV (a : GOp) : Option (Fin 16) :=
  match a with
  | .g n => if h : n.val < 16 then some ⟨n.val, h⟩ else none
  | .c _ => none

/-- The shape of the group of a valid membership of the issuing slot. -/
def State.gmShape (s : State) (n : Fin 4) : Option Nat :=
  let w := s.me.r.gm[n]
  if gmV w then some (geShape (s.group (s.partNum s.cur.core) (gmGroup w)).entry) else none

def vRegs (a : GOp) : List Reg := match asV a with | some v => [.v v] | none => []

/-- TIDE (R267). -/
def execTide (x : TideF) (s : State) : Host.Outcome State Fault Refusal :=
  let sh := s.gmShape x.gm
  issue (mkForm x.q 31 ((if sh = some 0 then [x.a] else []) ++ r16Ops x.fl) []
      (if sh.isSome && sh != some 0 then vRegs x.a else []))
    (fun s =>
      let flag := (s.r16 x.fl).extractLsb' 0 16
      let out := gmOut s.me.r.gm[x.gm]
      let send := fun l h => if out = 2#2 then .wait .tideOut id
                             else .ok (s.contribute s.cur.core s.cur.slot x.gm l h flag)
      match s.gmShape x.gm with
      | none => .trap 0x09 (BitVec.ofNat 64 x.gm.val)
      | some 0 => send ((s.rd x.a).setWidth 512) 0
      | some sh => match asV x.a with
        | none => .trap 0x03 s.headWord
        | some v => send (s.rdV v) (if sh = 2 then s.rdH v else 0)) s

/-! ### Waiting for answers (R93, R268) -/

/-- gm after an answer is taken. -/
def gmAfter (w : Word) (a : TideAns) : Word :=
  let out := gmOut w - 1
  let next := a.status.extractLsb' 32 32 + 1
  let dropped := a.status.extractLsb' 6 2 == 2#2
  let round := if out = 0#2 && !dropped && decide (0 < (next - gmRound w).toInt) then next else gmRound w
  gmWord (gmGroup w) round out

/-- TIDEWAIT (R268). -/
def execTidewait (x : TidewaitF) (s : State) : Host.Outcome State Fault Refusal :=
  let sh := s.gmShape x.gm
  issue (mkForm x.q 31 [] (x.a :: (if sh = some 0 then [x.d] else []))
      (if sh.isSome && sh != some 0 then vRegs x.d else []))
    (fun s =>
      let w := s.me.r.gm[x.gm]
      let tag := gmRound w - (gmOut w).setWidth 32
      match s.gmShape x.gm with
      | none => .trap 0x09 (BitVec.ofNat 64 x.gm.val)
      | some sh =>
        if gmOut w = 0#2 then .trap 0x09 (BitVec.ofNat 64 x.gm.val)
        else if sh ≠ 0 ∧ asV x.d = none then .trap 0x03 s.headWord
        else
          let mine := fun (a : TideAns) => a.gm == x.gm && a.tag == tag
          match s.me.answers.find? mine with
          | none => if x.nb = some true then writeG s x.a 0xC0 else .wait .tide id
          | some a =>
            let t := s.modMe fun y => { y with answers := y.answers.eraseP mine,
                                               r := { y.r with gm := y.r.gm.set x.gm (gmAfter w a) } }
            match sh, asV x.d with
            | 0, _ => writeG t x.d (a.lanes.setWidth 64) fun t => writeG t x.a a.status
            | _, some v => writeG (t.wrV v a.lanes a.hdr) x.a a.status
            | _, none => .trap 0x03 s.headWord) s

/-! ### Requests to the home (R269, R270, R94) -/

/-- Ask the home once, and wait for its reply, which `k` gets. -/
def askHome (s : State) (m : HubMsg) (k : State → Word → Act) : Act :=
  match s.me.reply with
  | some (.value v) => k s v
  | _ => .wait .reply fun s =>
    if s.me.asked then s
    else (s.modCtx (s.partNum s.cur.core) fun c => { c with hub := c.hub ++ [m] }).modMe fun x => { x with asked := true }

/-- TIDEQ (R269). -/
def execTideq (x : TideqF) (s : State) : Host.Outcome State Fault Refusal :=
  issue (mkForm x.q 31 (r16Ops x.sel) [x.d])
    (fun s =>
      let sel := (s.r16 x.sel).toNat % 8
      let w := s.me.r.gm[x.gm]
      let e := (s.group (s.partNum s.cur.core) (gmGroup w)).entry
      if 4 < sel then .trap 0x09 (BitVec.ofNat 64 sel)
      else if sel = 3 then writeG s x.d w
      else if !gmV w then .trap 0x09 (BitVec.ofNat 64 x.gm.val)
      else if sel < 3 then writeG s x.d (e.extractLsb' (64 * sel) 64)
      else askHome s (.query (gmGroup w) (gtidRank s.me.gtid) s.cur.core s.cur.slot) fun s v => writeG s x.d v) s

/-- ACCESS for an invalid membership or a group with no chunk counter (R270). -/
def chunkCheck (s : State) (gm : Fin 4) (k : Nat → Act) : Act :=
  let w := s.me.r.gm[gm]
  if gmV w && geChk (s.group (s.partNum s.cur.core) (gmGroup w)).entry then k (gmGroup w)
  else .trap 0x09 (BitVec.ofNat 64 gm.val)

/-- CHUNKINIT (R270). -/
def execChunkinit (x : ChunkinitF) (s : State) : Host.Outcome State Fault Refusal :=
  issue (mkForm x.q 31 (x.a :: r16Ops x.sz) [])
    (fun s => chunkCheck s x.gm fun g =>
      let sz := s.r16 x.sz
      let guided := match x.sz with | .reg _ => sz.getLsbD 16 | .imm _ => false
      askHome s (.chunkInit g (gtidRank s.me.gtid) s.cur.core s.cur.slot ((s.rd x.a).extractLsb' 0 48) (sz.extractLsb' 0 16)
        guided) fun s _ => .ok s) s

/-- GETCHUNK (R270). -/
def execGetchunk (x : GetchunkF) (s : State) : Host.Outcome State Fault Refusal :=
  issue (mkForm x.q 31 [] [x.d])
    (fun s => chunkCheck s x.gm fun g =>
      askHome s (.getChunk g (gtidRank s.me.gtid) s.cur.core s.cur.slot (x.cap.getD 0)) fun s v => writeG s x.d v) s

/-- The claim of a GETCHUNK (R94): c items. -/
def chunkClaim (c : Chunk) (n' : Nat) (cap : Nat) : Nat :=
  let m := c.total.toNat - c.next.toNat
  let sz := c.size.toNat
  let g := if c.guided then min (min m 65535) (max sz ((m + 2 * n' - 1) / (2 * n'))) else min m (if sz = 0 then 1 else sz)
  if cap = 0 then g else min g cap

/-! ### The traffic of homes -/

def HubMsg.group : HubMsg → Option (Nat × BitVec 22)
  | .contrib g c => some (g, gtidRank c.gtid)
  | .withdraw g r _ => some (g, r)
  | .query g r _ _ => some (g, r)
  | .chunkInit g r _ _ _ _ _ => some (g, r)
  | .getChunk g r _ _ _ => some (g, r)
  | .answer _ _ => none

/-- Message i of a partition's hub traffic, first of its membership's order (R285). -/
def State.hubHead (s : State) (p i : Nat) : Option HubMsg :=
  let x := s.part p
  if x.phase == .save3 || x.phase == .out then none
  else match x.ctx.hub[i]? with
    | none => none
    | some m => if m.group.isSome && (x.ctx.hub.take i).any fun n => n.group == m.group then none else some m

def State.hubPop (s : State) (p i : Nat) : State := s.modCtx p fun c => { c with hub := c.hub.eraseIdx i }

/-- The place of a group's home in the order log: the north-west core of its field. -/
def homePlace (e : BitVec 192) : Nat := placeCore (coreAt (fieldX (geHome e) * 96) (fieldY (geHome e) * 128))

/-- A choice at a group's home: its object is the group, with the open round for KIND 5 (R389). -/
def State.orderHome (s : State) (p g kind choice : Nat) : Except State State :=
  let x := s.group p g
  s.order p (homePlace x.entry) ((s.part p).segOf (geHome x.entry)) kind (g + if kind = 5 then 256 * x.rho.toNat else 0) choice

/-- A request for a reduction slot at a hub: 16 are granted, and the 17th is answered BUSY (R343). -/
def State.askSlot (s : State) (p g f : Nat) : State :=
  s.modField f fun x => if x.redSlots.length < 16 then { x with redSlots := x.redSlots ++ [p * 256 + g] } else x

/-- The hubs that form a partial for the open round: the home's, and those of its contributions' fields (R343). -/
def Group.hubs (x : Group) : List Nat :=
  if x.included.isEmpty then [] else (geHome x.entry :: x.included.map (·.field)).eraseDups

/-- The open round asks at each hub that its first contribution has reached, once (R343). -/
def State.askSlots (s : State) (p g : Nat) : State :=
  let x := s.group p g
  let new := x.hubs.filter fun f => !x.hubsAsked.contains f
  (new.foldl (fun s f => s.askSlot p g f) s).setGroup p g { x with hubsAsked := x.hubsAsked ++ new }

def State.freeSlots (s : State) (p g : Nat) : State :=
  { s with fields := s.fields.map fun f => (f.1, { f.2 with redSlots := f.2.redSlots.filter (· != p * 256 + g) }) }

/-- Groups that go free the slots that their rounds hold (R343). -/
def State.freeAll (s : State) (p : Nat) (gone : List (Nat × Group)) : State := gone.foldl (fun s g => s.freeSlots p g.1) s

/-- Test a group after an arrival or a withdrawal, and send the answers. A round that closes releases its slots, and the
next one asks again (R343). -/
def State.testGroup (s : State) (p g : Nat) (x : Group) (out : List HubMsg) : State :=
  let s := (s.setGroup p g x).askSlots p g
  let y := (s.group p g).test x.fuel
  let s := s.modCtx p fun c => { c with hub := c.hub ++ out ++ y.2 }
  if y.1.rho = x.rho then s.setGroup p g y.1
  else ((s.freeSlots p g).setGroup p g { y.1 with hubsAsked := [] }).askSlots p g

/-- TIDE_CONTRIBUTION_ARRIVAL (R90, R91, R343). -/
def execTideContributionArrival (p : Nat) (i : Nat) (s : State) : Host.Outcome State Fault Refusal :=
  event s
    (match s.hubHead p i with
     | some (.contrib g c) =>
       ordered (s.orderHome p g 5 (gtidRank c.gtid).toNat) fun s =>
         let x := s.group p g
         let y := x.take c
         (s.hubPop p i).testGroup p g y.1 y.2
     | _ => none)

/-- TIDE_WITHDRAWAL (R92). It may fix the included set, so it is a choice of KIND 5 (R278); bit 22 of the choice tells it
from a contribution (DESIGN CHOICE, entry 87). One that finds its group freed or taken by another launch changes nothing. -/
def execTideWithdrawal (p : Nat) (i : Nat) (s : State) : Host.Outcome State Fault Refusal :=
  event s
    (match s.hubHead p i with
     | some (.withdraw g r l) =>
       if !geV (s.group p g).entry || geLaunch (s.group p g).entry != l then some (s.hubPop p i)
       else ordered (s.orderHome p g 5 (2 ^ 22 + r.toNat)) fun s =>
         let x := s.group p g
         (s.hubPop p i).testGroup p g
           { x with members := x.members.map fun m => if m.rank = r then { m with present := false } else m } []
     | _ => none)

/-- A reply for the head that waits for it. -/
def State.homeReply (s : State) (k : CoreId) (sl : Fin 4) (v : Word) : State :=
  s.modSlot k sl fun x => if x.st = .wait ∧ x.wait = .reply ∧ x.asked then { x with reply := some (.value v) } else x

/-- HOME_QUERY_REQUEST (R269, R285): ρ and N′. -/
def execHomeQueryRequest (p : Nat) (i : Nat) (s : State) : Host.Outcome State Fault Refusal :=
  event s
    (match s.hubHead p i with
     | some (.query g _ k sl) =>
       let x := s.group p g
       some ((s.hubPop p i).homeReply k sl (0#10 ++ BitVec.ofNat 22 x.nPrime ++ x.rho))
     | _ => none)

/-- CHUNK_REQUEST (R94, R270): a CHUNKINIT or a GETCHUNK is served. -/
def execChunkRequest (p : Nat) (i : Nat) (s : State) : Host.Outcome State Fault Refusal :=
  event s
    (match s.hubHead p i with
     | some (.chunkInit g r k sl total size guided) =>
       ordered (s.orderHome p g 6 r.toNat) fun s =>
         let x := s.group p g
         ((s.hubPop p i).setGroup p g { x with chunk := ⟨0, total, size, guided⟩ }).homeReply k sl 0
     | some (.getChunk g r k sl cap) =>
       ordered (s.orderHome p g 6 r.toNat) fun s =>
         let x := s.group p g
         let c := chunkClaim x.chunk x.nPrime cap.toNat
         ((s.hubPop p i).setGroup p g
           { x with chunk := { x.chunk with next := x.chunk.next + BitVec.ofNat 48 c } }).homeReply k sl
             (BitVec.ofNat 16 c ++ x.chunk.next)
     | _ => none)

/-- TIDE_ANSWER_ARRIVAL (R93, R178): an answer reaches its member's core. -/
def execTideAnswerArrival (p : Nat) (i : Nat) (s : State) : Host.Outcome State Fault Refusal :=
  event s
    (match s.hubHead p i with
     | some (.answer g a) =>
       let s := s.hubPop p i
       match s.findTask g with
       | none => some s
       | some (k, sl) =>
         let w := (s.slot k sl).r.gm[a.gm]
         let s := s.modSlot k sl fun x => { x with answers := x.answers ++ [a] }
         some ((s.charge k sl 27 (geFlits (s.group p (gmGroup w)).entry)).setEv k sl)
     | _ => none)

/-! ### The TIDE action (R72, R406) -/

/-- Contribution, header lane and flag word of a payload, or `none` where R406 does not accept it. -/
def tidePayload (e : BitVec 192) (ws : List Word) : Option (VWord × BitVec 128 × BitVec 16) :=
  let lanes := BitVec.ofNat 512 (leBytes (payloadBytes (ws.take 8)))
  let flag := fun (i : Nat) =>
    match ws[i]? with
    | none => some 0
    | some w => if w.extractLsb' 16 48 = 0#48 then some (w.extractLsb' 0 16) else none
  match geShape e with
  | 0 => if ws.length = 1 ∨ ws.length = 2 then (flag 1).map fun f => ((ws.headD 0).setWidth 512, 0, f) else none
  | 1 => if ws.length = 8 ∨ ws.length = 9 then (flag 8).map fun f => (lanes, 0, f) else none
  | _ => if geType e = 8 ∧ ws.length = 9 then some (lanes, (ws.getD 8 0).setWidth 128, 0) else none

/-- TIDE_ACTION (R72, R73, R406). -/
def execTideAction (k : CoreId) (i : Nat) (s : State) : Host.Outcome State Fault Refusal :=
  event s
    (match s.tagHead k i 6 with
     | none => none
     | some (q, m, e) =>
       let sl := tagSlot e
       let n : Fin 4 := Fin.ofNat 4 (e.extractLsb' 0 2).toNat
       let x := s.slot k sl
       let w := x.r.gm[n]
       if x.st = .empty ∨ x.st = .halting ∨ gmV w = false then ordered (s.orderTag k m) fun s => s.discard k q m.tag
       else match tidePayload (s.group (s.partNum k) (gmGroup w)).entry m.payload with
         | none => ordered (s.orderTag k m) fun s => s.discard k q m.tag
         | some (l, h, f) =>
           if gmOut w = 2#2 then none else ordered (s.orderTag k m) fun s => ((s.contribute k sl n l h f).tagFinish k q e))

end Sys2Proof.Machine
end

