-- ==== Sys2Proof/Machine/Registers.lean ====
section
/-! DEFINITION. System registers: which exist, who may read and write them (13 R291 to R294, 14 R313, 15 R329, 16 R350, 17
R366, 18 R380), the value a read returns, and what a write does, with the checks of R292 to R296, R300, R330, R350, R351,
R366, R373, R380, R384 and R390, and the wipe of a field (R374). -/

namespace Sys2Proof.Machine

/-! ### Numbers and levels -/

/-- Lowest levels that may read and write a register (4: none may), and whether it belongs to a slot or to a core, and so
to the one that TSEL names under `.t` (R292, R303). -/
structure RegInfo where
  rd : Nat
  wr : Nat
  slot : Bool := false
  core : Bool := false
  deriving DecidableEq, Repr

/-- The registers of R292, R313, R329, R350, R366 and R380; `none` is a reserved number. -/
def regInfo (n : Nat) : Option RegInfo :=
  if n ≤ 0x005 then some ⟨1, 1, true, false⟩
  else if n ≤ 0x008 then some ⟨0, 1, true, false⟩
  else if n ≤ 0x00B then some ⟨0, 4, true, false⟩
  else if n ≤ 0x00F then some ⟨0, 1, true, false⟩
  else if n ≤ 0x015 then some ⟨0, 0, true, false⟩
  else if n = 0x016 then some ⟨1, 4, true, false⟩
  else if n = 0x020 then some ⟨1, 2, false, true⟩
  else if n = 0x021 then some ⟨2, 3, false, true⟩
  else if n = 0x022 then some ⟨1, 1, false, true⟩
  else if n = 0x027 then some ⟨4, 1, false, true⟩
  else if 0x028 ≤ n ∧ n ≤ 0x02F then some ⟨1, 4, false, true⟩
  else if n = 0x040 then some ⟨1, 1, false, false⟩
  else if n = 0x041 then some ⟨2, 2, false, false⟩
  else if n = 0x042 then some ⟨1, 4, true, false⟩
  else if n = 0x043 then some ⟨1, 4, false, false⟩
  else if 0x048 ≤ n ∧ n ≤ 0x04F then some ⟨1, 4, false, true⟩
  else if n = 0x080 ∨ n = 0x081 ∨ n = 0x083 ∨ (0x090 ≤ n ∧ n ≤ 0x09F) then some ⟨1, 2, false, false⟩
  else if n = 0x082 then some ⟨1, 4, false, false⟩
  else if 0x0A0 ≤ n ∧ n ≤ 0x0A8 then some ⟨1, 4, false, true⟩
  else if n = 0x0B0 ∨ n = 0x0B1 then some ⟨2, 2, false, false⟩
  else if n = 0x0B2 then some ⟨1, 4, false, false⟩
  else if n = 0x0C0 ∨ n = 0x0C1 ∨ n = 0x0C5 then some ⟨1, 1, false, false⟩
  else if n = 0x0C2 then some ⟨1, 2, false, false⟩
  else if n = 0x0C3 ∨ n = 0x0C6 then some ⟨1, 4, false, false⟩
  else if n = 0x0C4 then some ⟨1, 4, false, true⟩
  else if 0x0C8 ≤ n ∧ n ≤ 0x0CC then some ⟨1, 1, false, true⟩
  else if n = 0x100 then some ⟨1, 3, false, false⟩
  else if n = 0x101 then some ⟨2, 3, false, false⟩
  else if 0x102 ≤ n ∧ n ≤ 0x104 then some ⟨2, 2, false, false⟩
  else if n = 0x105 then some ⟨1, 4, false, false⟩
  else if n = 0x106 then some ⟨1, 2, false, true⟩
  else if n = 0x107 then some ⟨1, 4, false, true⟩
  else if (0x110 ≤ n ∧ n ≤ 0x116) ∨ (0x118 ≤ n ∧ n ≤ 0x11F) then some ⟨1, 4, false, false⟩
  else if 0x140 ≤ n ∧ n ≤ 0x150 then some ⟨1, 1, false, false⟩
  else if n = 0x151 then some ⟨0, 4, false, false⟩
  else if n = 0x152 ∨ (0x154 ≤ n ∧ n ≤ 0x15B) ∨ n = 0x160 then some ⟨1, 1, false, true⟩
  else if n = 0x161 then some ⟨1, 1, false, false⟩
  else if n = 0x162 then some ⟨1, 4, false, false⟩
  else if n = 0x168 then some ⟨1, 1, false, false⟩
  else if n = 0x169 then some ⟨1, 4, false, false⟩
  else if 0x170 ≤ n ∧ n ≤ 0x173 then some ⟨1, 2, false, false⟩
  else none

/-! ### Slot registers (R292 to R294) -/

/-- Bits of a code pointer that are not reserved (R132, R7). -/
def cpMask (p : Word) : Word := p &&& 0x0FFFFFFFFFFFFFDF#64

def slotStNo : SlotSt → BitVec 3
  | .empty => 0
  | .ready => 1
  | .wait => 2
  | .sleep => 3
  | .trapped => 4
  | .halting => 5

/-- SLOTSTAT (R294). -/
def Slot.stat (x : Slot) : Word :=
  0#48 ++ x.watch.ended.getD 0 ++ BitVec.ofBool x.watch.armed ++ slotStNo x.st ++ BitVec.ofBool x.ev ++ x.r.pres

/-- A loop counter's register (R292). -/
def LoopCtr.word (l : LoopCtr) : Word := l.count ++ l.value

def Slot.rdReg (x : Slot) (part : Nat) (n : Nat) : Word :=
  match n with
  | 0x000 => x.t.tpc | 0x001 => x.tstRead | 0x002 => x.t.tcause | 0x003 => x.t.taddr | 0x004 => x.t.tvec
  | 0x005 => x.t.tsel | 0x006 => x.t.sbase | 0x007 => x.t.slim | 0x008 => x.r.flags.setWidth 64
  | 0x009 => x.gtid | 0x00A => BitVec.ofNat 64 (gtidVf x.gtid) | 0x00B => BitVec.ofNat 64 part
  | 0x00C => x.r.gm[0] | 0x00D => x.r.gm[1] | 0x00E => x.r.gm[2] | 0x00F => x.r.gm[3]
  | 0x010 => x.r.lc[0].word | 0x011 => x.r.lc[0].start | 0x012 => x.r.lc[0].fin
  | 0x013 => x.r.lc[1].word | 0x014 => x.r.lc[1].start | 0x015 => x.r.lc[1].fin
  | 0x016 => x.stat | 0x042 => x.t.xinfo
  | _ => 0

/-! ### Rails and sensors -/

/-- Sensors of a rail (R349, R355): the blocks of its 32 rows and 96 columns. -/
def railSensors (r : Nat) : List Nat :=
  let f := r / 4
  (List.range 8).flatMap fun j => (List.range 24).map fun i =>
    (fieldY f * 32 + r % 4 * 8 + j) * 288 + fieldX f * 24 + i

/-- The field of a sensor. -/
def sensorField (n : Nat) : Nat := (n / 288 / 32) * 12 + n % 288 / 24

def State.rail (s : State) (r : Nat) : Rail := (s.field (r / 4)).rails[Fin.ofNat 4 (r % 4)]

def State.modRail (s : State) (r : Nat) (g : Rail → Rail) : State :=
  s.modField (r / 4) fun f => { f with rails := f.rails.set (Fin.ofNat 4 (r % 4)) (g f.rails[Fin.ofNat 4 (r % 4)]) }

/-- The hottest sensor of a rail. -/
def State.hottest (s : State) (r : Nat) : BitVec 10 :=
  (railSensors r).foldl (fun m n => if m < (s.sensor n).temp then (s.sensor n).temp else m) 0

/-- RAILSTAT (R351). -/
def State.railStat (s : State) (r : Nat) : Word :=
  let x := s.rail r
  BitVec.ofBool x.trip ++ 0#5 ++ x.state ++ x.target ++ x.setpt ++ s.hottest r ++ 0#26

/-! ### Reads -/

/-- The partition instance of the issuing core's partition; a core in no partition has none, and reads zeros. -/
def State.rdPart (s : State) (k : CoreId) (f : Partition → Word) : SysRes :=
  .ok s (match s.partOf k with | some p => f (s.part p) | none => 0)

def bankNo (lvl : BitVec 2) : BitVec 2 := if lvl = 1 then 1 else 2

/-- A read of a unit at level S while H holds it (R384): the frozen shadow with LENT = 1, or ACCESS. -/
def unitRead (s : State) (lvl : BitVec 2) (tsel : Word) (owner : BitVec 2) (now : Word) (shadow : Option Word) (ctl : Bool) :
    SysRes :=
  if lvl.toNat ≤ 1 ∧ owner = 2 then
    match shadow with
    | some w => .ok s (if ctl then w ||| (1#64 <<< 63) else w)
    | none => .trap 0x09 tsel
  else .ok s now

/-- A read of ECCSTAT has retired (R366, R6): CE is cleared. -/
def State.eccRead (s : State) (k : CoreId) : State :=
  s.modCoreRegs k fun r => { r with eccstat := (r.eccstat.extractLsb' 0 48).setWidth 64 }

/-- Spare wires in use on a link (R366). -/
def linkSpares (w : Word) (l : Fin 4) : Nat := (w.toNat / 2 ^ (4 * l.val)) % 16
def setLinkSpares (w : Word) (l : Fin 4) (n : Nat) : Word :=
  (w &&& ~~~(0xF#64 <<< (4 * l.val))) ||| (BitVec.ofNat 64 (n % 16) <<< (4 * l.val))

/-- The quays of a field (R392). -/
def fieldQuays (f : Nat) : List Nat := (List.range 130).filter fun q => quayField q == f

/-- SPARES of a hub (R366): the wires and rows left are the least over its links and its banks. -/
def State.sparesWord (s : State) (f : Nat) : Word :=
  let cs := s.cores.filter fun e => fieldOf e.1 == f
  let least := fun (m : Nat) (l : List Nat) => l.foldl min m
  let wires := least 4 (cs.flatMap fun e => (List.finRange 4).map fun i => 4 - linkSpares e.2.regs.linkstat i)
  let rows := least 8 (cs.map fun e => 8 - e.2.regs.rowsUsed)
  let quays := match fieldQuays f with | [] => 0 | l => least 15 (l.map fun q => (s.quay q).laneSpares)
  let lanes := least 2 ((s.field f).hubLanes.toList.map fun n => 2 - n)
  BitVec.ofNat 40 0 ++ BitVec.ofNat 4 quays ++ BitVec.ofNat 4 lanes ++ BitVec.ofNat 8 rows ++ BitVec.ofNat 8 wires

/-- The value a read returns: `k` issues at `lvl`, and the register is core `tk`'s or slot `tsl`'s there. -/
def regRead (s : State) (k : CoreId) (lvl : BitVec 2) (tk : CoreId) (tsl : Fin 4) (n : Nat) : SysRes :=
  let c := s.core tk
  let f := s.field (fieldOf k)
  let at8 := fun (v : Vector Word 8) => v[Fin.ofNat 8 (n % 8)]
  let num := BitVec.ofNat 64 n
  if n ≤ 0x016 ∨ n = 0x042 then .ok s ((c.slot tsl).rdReg (s.partNum tk) n)
  else if n = 0x020 then .ok s c.regs.supr
  else if n = 0x021 then .ok s c.regs.hsupr
  else if n = 0x022 then .ok s c.regs.wdog
  else if 0x028 ≤ n ∧ n ≤ 0x02F then .ok s (at8 c.regs.strflt)
  else if n = 0x040 then s.rdPart k fun p => p.ctx.s1root
  else if n = 0x041 then s.rdPart k fun p => p.ctx.s2root
  else if n = 0x043 then
    let st := (f.walks.filter (·.started)).length
    .ok s (BitVec.ofNat 64 (min st 511 + 65536 * min (f.walks.length - st) 65535))
  else if 0x048 ≤ n ∧ n ≤ 0x04F then .ok s (at8 c.regs.sfdet)
  else if n = 0x080 then .ok s f.partdef
  else if n = 0x081 then .ok s s.regs.vfcbase
  else if n = 0x082 then s.rdPart k fun p => p.qcur
  else if n = 0x083 then s.rdPart k fun p => p.rollp
  else if 0x090 ≤ n ∧ n ≤ 0x09F then s.rdPart k fun p => p.qt[Fin.ofNat 16 (n % 16)]
  else if 0x0A0 ≤ n ∧ n ≤ 0x0A7 then
    let e := fun (i : Nat) => c.regs.cal[Fin.ofNat 32 (4 * (n - 0x0A0) + i)]
    .ok s (e 3 ++ e 2 ++ e 1 ++ e 0)
  else if n = 0x0A8 then .ok s (BitVec.ofNat 64 (s.mscale tk))
  else if n = 0x0B0 then .ok s s.regs.qshsel
  else if n = 0x0B1 then
    let q := s.quay (s.regs.qshsel.extractLsb' 0 6).toNat
    .ok s ((mget q.share (s.regs.qshsel.extractLsb' 8 7).toNat).getD 0x10000)
  else if n = 0x0B2 then
    let q := s.quay (s.regs.qshsel.extractLsb' 0 6).toNat
    .ok s (0#47 ++ BitVec.ofBool q.throttled ++ BitVec.ofNat 16 q.b)
  else if n = 0x0C0 then s.rdPart k fun p => p.ctx.rvote
  else if n = 0x0C1 then .ok s s.regs.railsel
  else if n = 0x0C2 ∨ n = 0x0C3 then
    let r := s.regs.railsel.toNat
    if lvl = 1 ∧ (s.partOfField (r / 4) = none ∨ s.partOfField (r / 4) ≠ s.partOf k) then .trap 0x09 num
    else .ok s (if n = 0x0C2 then (s.rail r).ctl else s.railStat r)
  else if n = 0x0C4 then
    .ok s (c.unit.stalls ++ 0#15 ++ BitVec.ofBool c.unit.starved ++ 0#4 ++ BitVec.ofNat 12 c.unit.tokens)
  else if n = 0x0C5 then .ok s s.regs.thsel
  else if n = 0x0C6 then
    let t := s.regs.thsel.toNat
    if lvl = 1 ∧ (s.partOfField (sensorField t) = none ∨ s.partOfField (sensorField t) ≠ s.partOf k) then .trap 0x09 num
    else .ok s (0#46 ++ (s.sensor t).level ++ 0#6 ++ (s.sensor t).temp)
  else if 0x0C8 ≤ n ∧ n ≤ 0x0CB then .ok s c.regs.migt[Fin.ofNat 4 (n % 4)]
  else if n = 0x0CC then .ok s c.regs.nextid
  else if n = 0x100 then .ok s (s.regs.lcstate.setWidth 64)
  else if n = 0x101 then .ok s s.regs.moderr
  else if n = 0x102 then .ok s f.repsel
  else if n = 0x103 then .ok s ((mget f.staged f.repsel.toNat).getD 0xFFFF)
  else if n = 0x104 then .ok s f.repctl
  else if n = 0x105 then .ok s (s.sparesWord (fieldOf k))
  else if n = 0x106 then .ok s c.regs.eccstat
  else if n = 0x107 then .ok s c.regs.linkstat
  else if 0x110 ≤ n ∧ n ≤ 0x115 then .ok s s.regs.idkey[Fin.ofNat 6 (n - 0x110)]
  else if n = 0x116 then .ok s s.regs.idtype
  else if 0x118 ≤ n ∧ n ≤ 0x11F then .ok s (at8 s.regs.meas)
  else if 0x140 ≤ n ∧ n ≤ 0x147 then s.rdPart k fun p => at8 p.ctx.stop
  else if 0x148 ≤ n ∧ n ≤ 0x14F then s.rdPart k fun p => at8 p.ctx.stoppc
  else if n = 0x150 then s.rdPart k fun p => p.ctx.stopown
  else if n = 0x151 then .ok s s.regs.evver
  else if n = 0x152 then unitRead s lvl num (bankOwner c.regs.bank.ctl) c.regs.bank.ctl (c.regs.bankShadow.map (·.ctl)) true
  else if 0x154 ≤ n ∧ n ≤ 0x157 then
    let i : Fin 4 := Fin.ofNat 4 (n % 4)
    unitRead s lvl num (bankOwner c.regs.bank.ctl) c.regs.bank.ev[i] (c.regs.bankShadow.map (·.ev[i])) false
  else if 0x158 ≤ n ∧ n ≤ 0x15B then
    let i : Fin 4 := Fin.ofNat 4 (n % 4)
    unitRead s lvl num (bankOwner c.regs.bank.ctl) c.regs.bank.val[i] (c.regs.bankShadow.map (·.val[i])) false
  else if n = 0x160 then unitRead s lvl num (bankOwner c.regs.samp) c.regs.samp (c.regs.sampShadow.map (·.1)) true
  else if n = 0x161 then s.rdPart k fun p => p.ctx.sampbase
  else if n = 0x162 then s.rdPart k fun p => p.ctx.sampdrop
  else if n = 0x168 then .ok s s.regs.skewsel
  else if n = 0x169 then .ok s (s.field s.regs.skewsel.toNat).skew
  else if n = 0x170 then s.rdPart k fun p => p.ctx.ologctl
  else if n = 0x171 then s.rdPart k fun p => p.ctx.ologbase
  else if n = 0x172 then s.rdPart k fun p => p.ctx.ologsize
  else if n = 0x173 then s.rdPart k fun p => p.ctx.ologstat
  else .ok s 0

/-! ### Writes of slot registers -/

/-- A write of LC0 or LC1: value and count as written; the counter acts with the start and end it holds (R292). -/
def writeLc (s : State) (k : CoreId) (sl : Fin 4) (ctr : Fin 2) (v : Word) : SysRes :=
  .ok (s.modRegs k sl fun r =>
    let l := { r.lc[ctr] with value := v.extractLsb' 0 32, count := v.extractLsb' 32 32 }
    { r with lc := r.lc.set ctr l }) 0

/-- A write of SBASE or SLIM (R292, R103). -/
def writeStack (s : State) (k : CoreId) (sl : Fin 4) (lim : Bool) (v : Word) : SysRes :=
  let t := (s.slot k sl).t
  if !(isLocal v || (!lim && v == 0xE000000000010000#64)) then .trap 0x09 v
  else if (if lim then decide (t.sbase < v) else decide (v < t.slim)) then .trap 0x09 v
  else .ok (s.modTrap k sl fun t => if lim then { t with slim := v } else { t with sbase := v }) 0

/-- TST with its writable fields replaced: MORE, ORIGIN, DEFER, SUPV and LVL (R293). -/
def tstMerge (old v : Word) : Word := (old &&& ~~~0x20D3#64) ||| (v &&& 0x20D3#64)

/-- A write of TST: PRIVILEGE where it would raise LVL above the issuer's or, below H, change SUPV (R293). -/
def writeTst (s : State) (k : CoreId) (sl : Fin 4) (lvl : BitVec 2) (v : Word) : SysRes :=
  let old := (s.slot k sl).t.tst
  if lvl < v.extractLsb' 0 2 ∨ (lvl.toNat < 2 ∧ v.getLsbD 4 ≠ old.getLsbD 4) then .trap 0x04 0x001
  else .ok (s.modTrap k sl fun t => { t with tst := tstMerge old v }) 0

/-- A write of gm0 to gm3 (R292): V = 1 names a valid entry. -/
def writeGm (s : State) (k : CoreId) (sl : Fin 4) (i : Fin 4) (v : Word) : SysRes :=
  let g := (v.extractLsb' 0 8).toNat
  if v.getLsbD 63 && !geV (s.group (s.partNum k) g).entry then .trap 0x09 v
  else .ok (s.modRegs k sl fun r => { r with gm := r.gm.set i (v &&& 0x80FFFFFFFF0003FF#64) }) 0

def writeSlotReg (s : State) (lvl : BitVec 2) (k : CoreId) (sl : Fin 4) (n : Nat) (v : Word) : SysRes :=
  let t := fun (f : TrapRegs → TrapRegs) => SysRes.ok (s.modTrap k sl f) 0
  let l := fun (f : Regs → Regs) => SysRes.ok (s.modRegs k sl f) 0
  match n with
  | 0x000 => t fun t => { t with tpc := cpMask v }
  | 0x001 => writeTst s k sl lvl v
  | 0x002 => t fun t => { t with tcause := v &&& 0xFF }
  | 0x003 => t fun t => { t with taddr := v }
  | 0x004 => if v.extractLsb' 0 5 = 31#5 then .trap 0x09 v
             else t fun t => { t with tvec := v &&& 0x8FFFFFFFFFFFFFDF#64 }
  | 0x005 => t fun t => { t with tsel := v &&& 0x807FFFFF#64 }
  | 0x006 => writeStack s k sl false v
  | 0x007 => writeStack s k sl true v
  | 0x008 => l fun r => { r with flags := v.extractLsb' 0 8 }
  | 0x00C => writeGm s k sl 0 v
  | 0x00D => writeGm s k sl 1 v
  | 0x00E => writeGm s k sl 2 v
  | 0x00F => writeGm s k sl 3 v
  | 0x010 => writeLc s k sl 0 v
  | 0x011 => l fun r => { r with lc := r.lc.set 0 { r.lc[0] with start := cpMask v } }
  | 0x012 => l fun r => { r with lc := r.lc.set 0 { r.lc[0] with fin := cpMask v } }
  | 0x013 => writeLc s k sl 1 v
  | 0x014 => l fun r => { r with lc := r.lc.set 1 { r.lc[1] with start := cpMask v } }
  | 0x015 => l fun r => { r with lc := r.lc.set 1 { r.lc[1] with fin := cpMask v } }
  | _ => .ok s 0

/-! ### Wipes and partitions (R330, R374) -/

/-- Whether a staged repair map is consistent (R366): every borrow has its lend, and every lend its borrow. -/
def repairOk (row : Nat → Word) : Bool :=
  (List.range 128).all fun y =>
    let w := row y
    (match (w.extractLsb' 16 2).toNat with
     | 0 => true
     | 1 => y != 0 && (row (y - 1)).extractLsb' 18 2 == 2#2
     | _ => y != 127 && (row (y + 1)).extractLsb' 18 2 == 1#2) &&
    (match (w.extractLsb' 18 2).toNat with
     | 0 => true
     | 1 => y != 0 && (row (y - 1)).extractLsb' 16 2 == 2#2
     | _ => y != 127 && (row (y + 1)).extractLsb' 16 2 == 1#2)

/-- The repair word of a row in a map (R364). -/
def rowWord (m : List (Nat × Word)) (y : Nat) : Word := (mget m y).getD 0xFFFF

/-- At a wipe: the whole staged map, as REPROW shows it, goes into the fuses if it is consistent, or is refused with BAD (R366);
then the repair registers are loaded from the fuses (R362). -/
def Field.applyRepair (f : Field) : Field :=
  let g := if !f.repctl.getLsbD 0 then f
    else if repairOk (rowWord f.staged) then { f with fuses := f.staged }
    else { f with repctl := f.repctl ||| 2 }
  { g with rows := g.fuses }

/-! ### The physical cores of a field (R362 to R364) -/

/-- The good physical columns of a row: those that its word does not skip, and without the spare that it lends. -/
def goodCols (w : Word) : List Nat :=
  (List.range 97).filter fun c =>
    c != (w.extractLsb' 0 8).toNat && c != (w.extractLsb' 8 8).toNat && !(c == 96 && w.extractLsb' 18 2 != 0#2)

/-- The physical row and column of logical column x of row y (R364). -/
def physCore (m : List (Nat × Word)) (y x : Nat) : Option (Nat × Nat) :=
  let w := rowWord m y
  if x = 95 ∧ w.extractLsb' 16 2 ≠ 0#2 then some (if w.extractLsb' 16 2 = 1#2 then y - 1 else y + 1, 96)
  else ((goodCols w)[x]?).map fun c => (y, c)

/-- No position of the field maps to a dead core, and none lies outside: it is logically complete (R362), unless a core has
failed to confirm its wipe (R374). -/
def Field.complete (f : Field) : Bool :=
  !f.fenced && (List.range 128).all fun y => (List.range 96).all fun x =>
    match physCore f.rows y x with
    | some (r, c) => !f.dead.contains (97 * r + c)
    | none => false

/-- The word of a row with its dead columns, where it takes a neighbour's spare from `bo` and lends its own to `le`. -/
def repairWord (cols : List Nat) (bo le : BitVec 2) : Word :=
  0#44 ++ le ++ bo ++ BitVec.ofNat 8 (cols.getD 1 0xFF) ++ BitVec.ofNat 8 (cols.getD 0 0xFF)

/-- The fixed rule that assigns borrowed spares (R363): rows in ascending order, the north neighbour before the south one;
`lent` holds the rows that have lent their spare, with the row they lend to. `none`: the field cannot be repaired. -/
def lendSpares (cols : Nat → List Nat) : List Nat → List (Nat × Nat) → Option (List (Nat × Nat))
  | [], lent => some lent
  | y :: ys, lent =>
    if (cols y).length ≤ 1 then lendSpares cols ys lent
    else if 3 ≤ (cols y).length then none
    else if y ≠ 0 ∧ cols (y - 1) = [] ∧ mget lent (y - 1) = none then lendSpares cols ys (mset lent (y - 1) y)
    else if y ≠ 127 ∧ cols (y + 1) = [] then lendSpares cols ys (mset lent (y + 1) y)
    else none

/-- The repair map of a field with given dead cores, or `none` where the rule finds none (R363). -/
def repairMap (dead : List Nat) : Option (List (Nat × Word)) :=
  let cols := fun (y : Nat) => (List.range 97).filter fun c => dead.contains (97 * y + c)
  (lendSpares cols (List.range 128) []).map fun lent =>
    (List.range 128).map fun y =>
      let bo : BitVec 2 := if (cols y).length ≤ 1 then 0 else if y ≠ 0 ∧ mget lent (y - 1) = some y then 1 else 2
      let le : BitVec 2 := match mget lent y with | none => 0 | some r => if r < y then 1 else 2
      (y, repairWord (cols y) bo le)

/-- Registers of a core that fuses and hardware hold, and a wipe leaves: calibration, LINKSTAT, spare rows in use. -/
def CoreRegs.afterWipe (r : CoreRegs) : CoreRegs :=
  { CoreRegs.wiped with cal := r.cal, linkstat := r.linkstat, rowsUsed := r.rowsUsed, stuck := r.stuck }

/-- A wiped core (R374). -/
def Core.wipe (c : Core) : Core := { Core.wiped with regs := c.regs.afterWipe }

/-- A field that needs a spare of a kind that it has used up is retired (R367). -/
def State.retireField (s : State) (f : Nat) : State :=
  (s.modField f fun x => { x with repctl := x.repctl ||| (1#64 <<< 63) }).moduleError (BitVec.ofNat 8 f) 7

/-- Spare wires and rows brought in for those marked in a field (R367). -/
def State.bringSpares (s : State) (f : Nat) : State :=
  let s := (s.field f).marked.foldl (fun (s : State) m =>
    let w := (s.core m.1).regs.linkstat
    if linkSpares w m.2.1 < 4 then
      s.modCoreRegs m.1 fun r => { r with linkstat := setLinkSpares r.linkstat m.2.1 (linkSpares w m.2.1 + 1) }
    else s.retireField f) s
  let s := (s.field f).markedRows.foldl (fun (s : State) m =>
    if (s.core m.1).regs.rowsUsed < 8 then s.modCoreRegs m.1 fun r => { r with rowsUsed := r.rowsUsed + 1 }
    else s.retireField f) s
  s.modField f fun x => { x with marked := [], markedRows := [] }

/-- Groups whose home is a wiped field's hub are gone, whether valid or not (R374). -/
def PartCtx.dropHomes (c : PartCtx) (f : Nat) : PartCtx :=
  { c with groups := c.groups.filter fun e => !(geHome e.2.entry == f) }

/-- What a wipe takes from the meters of a field's cores is still charged at the next boundary (R345, R374). -/
def State.carried (s : State) (f : Nat) : List (Nat × Nat) :=
  (s.cores.filter fun e => fieldOf e.1 == f).foldl (fun l e =>
    e.2.regs.meter.foldl (fun l m =>
      let n := meterInc e.2.regs.meter e.2.regs.metered m.1
      if n = 0 then l else madd l (512 * bandOf e.1 + m.1) n) l) (s.field f).carry

/-- FIELD_WIPE (R374): the field's cores, the flits that their links keep, and its hub's state, its walk cache and group homes with
it; the last interval of the cores' meters is kept for the hub to reconcile. A staged repair map is
applied and marked spares are brought in, but a retired field is not wiped into service (R367). A core that does not confirm
is fenced off: MODERR code 8. -/
def State.wipeField (s : State) (f : Nat) : State :=
  let t : State :=
    { s with cores := s.cores.map fun e => if fieldOf e.1 = f then (e.1, e.2.wipe) else e,
             parts := s.parts.map fun e => (e.1, { e.2 with ctx := e.2.ctx.dropHomes f }),
             mesh := s.mesh.filter fun m => fieldOf m.target != f,
             links := s.links.map fun e => if fieldOf (e.1 / 4) = f then (e.1, { e.2 with sent := [] }) else e,
             laces := s.laces.filter fun l => fieldOf l.core != f,
             watches := s.watches.filter fun w => fieldOf w.core != f,
             cntwaits := s.cntwaits.filter fun w => fieldOf w.core != f,
             sys := s.sys.filter fun a => fieldOf a.core != f }
  let clear := fun (x : Field) => { x with walks := [], cache := [], redSlots := [], carry := s.carried f }
  let stuck := s.cores.any fun e => fieldOf e.1 == f && e.2.regs.stuck
  let u := if (s.field f).repctl.getLsbD 63 then t.modField f clear
    else (t.modField f fun x => { clear x.applyRepair with fenced := stuck }).bringSpares f
  if stuck then u.moduleError (BitVec.ofNat 8 f) 8 else u

/-- The rectangle that a PARTDEF value describes holds the field, lies on the grid of fields, and holds no retired field
(R330, R367); a module in RETURNED has no partitions (R373; DEDUCED, entry 95: the write is refused). -/
def State.partdefOk (s : State) (f : Nat) (v : Word) : Bool :=
  let fx := (v.extractLsb' 0 4).toNat
  let fy := (v.extractLsb' 4 3).toNat
  let w := (v.extractLsb' 7 4).toNat
  let h := (v.extractLsb' 11 3).toNat
  s.regs.lcstate != 3 && fx ≤ fieldX f && fieldX f < fx + w && fy ≤ fieldY f && fieldY f < fy + h && fx + w ≤ 12 && fy + h ≤ 7 &&
  ((List.range h).all fun j => (List.range w).all fun i => !(s.field ((fy + j) * 12 + fx + i)).repctl.getLsbD 63)

/-- The field's partition is in use: a resident launch, a current VF or a saved context (R330). -/
def State.fieldInUse (s : State) (f : Nat) : Bool :=
  match s.partOfField f with
  | none => false
  | some p => !(s.part p).launches.isEmpty || !(s.part p).qcur.getLsbD 4 || !(s.part p).saved.isEmpty

/-- A partition as PARTDEF defines it. -/
def Partition.define (v : Word) : Partition :=
  { Partition.absent with valid := true, fx0 := (v.extractLsb' 0 4).toNat, fy0 := (v.extractLsb' 4 3).toNat,
                          fw := (v.extractLsb' 7 4).toNat, fh := (v.extractLsb' 11 3).toNat }

/-- The geometry of a partition agrees with a PARTDEF value. -/
def Partition.matches (x : Partition) (v : Word) : Bool :=
  let y := Partition.define v
  x.valid && x.fx0 == y.fx0 && x.fy0 == y.fy0 && x.fw == y.fw && x.fh == y.fh

/-- A write of PARTDEF (R330): a changed value wipes the field. -/
def writePartdef (s : State) (f : Nat) (v : Word) : SysRes :=
  let v := v &&& 0x80000000001FFFFF#64
  let old := (s.field f).partdef
  if s.fieldInUse f || (pdValid v && !s.partdefOk f v) then .trap 0x09 v
  else
    let s := s.modField f fun x => { x with partdef := v }
    let s := if v = old then s else s.wipeField f
    let s := if pdValid v && !(s.part (pdNum v)).matches v then s.modPart (pdNum v) fun _ => Partition.define v else s
    let gone := pdValid old && !((List.range 84).any fun g => s.partOfField g == some (pdNum old))
    .ok (if gone then s.modPart (pdNum old) fun _ => Partition.absent else s) 0

/-- Transitions of the life cycle (R373). -/
def lcMay (old new : Nat) (returns : Nat) : Bool :=
  (old == 0 && new == 1) || (old == 1 && new == 2) || (old == 2 && new == 3) ||
  (old == 3 && new == 1 && decide (returns < 8)) || new == 4

/-- A new identity key (R376): its public words are free values (entry 5). -/
def State.newKey (s : State) : State :=
  let ws : Vector Word 6 := Vector.ofFn fun i => Config.word (s.free + i.val)
  { s.modMod fun m => { m with idkey := ws, idtype := 3#32 ++ 7#32, leaf := 0, fusedCtr := 0, keyLive := true } with
    free := s.free + 6 }

/-- The wipe of the whole module at a life-cycle change (R374): no field belongs to a partition after it. -/
def State.wipeModule (s : State) : State :=
  let t : State := (List.range 84).foldl (fun (s : State) (f : Nat) => s.wipeField f) s
  { t with fields := t.fields.map (fun (e : Nat × Field) => (e.1, { e.2 with partdef := 0 })), parts := [], deps := [] }

/-- A write of LCSTATE (R373). -/
def writeLcstate (s : State) (v : Word) : SysRes :=
  let old := s.regs.lcstate.toNat
  let new := (v.extractLsb' 0 3).toNat
  if !lcMay old new s.regs.returns then .trap 0x09 v
  else
    let s := s.modMod fun m => { m with lcstate := v.extractLsb' 0 3, returns := if old = 3 ∧ new = 1 then m.returns + 1 else m.returns }
    let s := s.wipeModule
    .ok (if new = 1 then s.newKey else if new = 4 then s.modMod fun m => { m with keyLive := false } else s) 0

/-- The checks of a row repair word (R366). -/
def reprowBad (v : Word) : Bool :=
  let s0 := (v.extractLsb' 0 8).toNat
  let s1 := (v.extractLsb' 8 8).toNat
  let bo := (v.extractLsb' 16 2).toNat
  let le := (v.extractLsb' 18 2).toNat
  (s0 != 255 && 97 ≤ s0) || (s1 != 255 && 97 ≤ s1) || (s1 != 255 && s1 ≤ s0) ||
  (bo != 0 && (s0 == 255 || s1 == 255)) || (bo != 0 && le != 0) || bo == 3 || le == 3

/-- A write of REPROW (R366). -/
def writeReprow (s : State) (f : Nat) (v : Word) : SysRes :=
  if reprowBad v then .trap 0x09 v
  else .ok (s.modField f fun x => { x with staged := mset x.staged x.repsel.toNat (v &&& 0xFFFFF) }) 0

/-! ### Writes of partition registers -/

def State.wrPart (s : State) (k : CoreId) (g : Partition → Partition) (v : Word) : SysRes :=
  match s.partOf k with
  | some p => .ok (s.modPart p g) 0
  | none => .trap 0x09 v

def State.wrCtx (s : State) (k : CoreId) (g : PartCtx → PartCtx) (v : Word) : SysRes :=
  s.wrPart k (fun x => { x with ctx := g x.ctx }) v

/-- A write of RVOTE (R350): 0, or 320 to 550 mV. -/
def writeRvote (s : State) (p : Nat) (v : Word) : SysRes :=
  let n := (v.extractLsb' 0 10).toNat
  if (1 ≤ n ∧ n ≤ 319) ∨ 550 < n then .trap 0x09 v
  else .ok (s.modCtx p fun c => { c with rvote := v &&& 0x3FF }) 0

/-- A write of QTn (R330). -/
def writeQt (s : State) (k : CoreId) (i : Fin 16) (v : Word) : SysRes :=
  if v.getLsbD 63 && v.extractLsb' 0 24 == 0#24 then .trap 0x09 v
  else s.wrPart k (fun x => { x with qt := x.qt.set i (v &&& 0x800001FF00FFFFFF#64) }) v

/-- A stop register as it is stored (R380). -/
def stopMask (r : Nat) (v : Word) : Word :=
  if r < 8 then v &&& 0xF0007FFFFFFFFFFF#64
  else if r < 16 then cpMask v
  else v &&& 0x80007FFFFFFFFFFF#64

/-- STOPn at level S names the current VF (R380). -/
def stopRefused (x : Partition) (lvl : BitVec 2) (r : Nat) (v : Word) : Bool :=
  r < 8 && lvl == 1 && gtidVf v != (x.qcur.extractLsb' 32 9).toNat

/-- Resident launches: those that have not completed. -/
def Partition.resident (x : Partition) : Bool := !x.launches.isEmpty

/-- A write of OLOGCTL (R390): MODE changes only while no launch is resident; the choices are numbered from 0 again. -/
def writeOlogctl (s : State) (p : Nat) (v : Word) : SysRes :=
  let x := s.part p
  let new := v.extractLsb' 62 2
  if new = 3 ∨ (new ≠ x.ctx.ologctl.extractLsb' 62 2 ∧ x.resident = true) then .trap 0x09 v
  else .ok (s.modCtx p fun c =>
    if new = c.ologctl.extractLsb' 62 2 then c else { c with ologctl := new ++ 0#62, seqs := [], segs := [] }) 0

/-! ### Counter banks and sampling units (R384) -/

/-- What a write of OWNER does. -/
inductive OwnerAct where | refuse | claim | keep | release | lend | restore
  deriving DecidableEq, Repr

/-- The table of R384; a write that names neither the writer's own claim nor a release is refused. -/
def ownerAct (lvl : BitVec 2) (now write : BitVec 2) (shadow : Bool) : OwnerAct :=
  if lvl.toNat ≤ 1 then
    match now.toNat, write.toNat with
    | 0, 1 => .claim
    | 1, 1 => .keep
    | 1, 0 => if shadow then .restore else .release
    | _, _ => .refuse
  else
    match now.toNat, write.toNat with
    | 0, 2 => .claim
    | 0, 0 => .release
    | 2, 2 => .keep
    | 2, 0 => if shadow then .restore else .release
    | 1, 2 => .lend
    | _, _ => .refuse

/-- The control word as written: LENT is write-1-to-clear. -/
def ctlWord (mask old v : Word) : Word := (v &&& mask) ||| (old &&& ~~~v &&& (1#64 <<< 63))

/-- A write of CNTCTL (R384). -/
def writeCntctl (s : State) (k : CoreId) (lvl : BitVec 2) (v : Word) : SysRes :=
  let r := (s.core k).regs
  let w := ctlWord 0x3070F r.bank.ctl v
  let new : Bank := { Bank.zero with ctl := v &&& 0x3070F, ver := s.regs.evver.extractLsb' 0 16 }
  let put := fun (b : Bank) (l : List Bank) =>
    SysRes.ok (s.modCoreRegs k fun r => { r with bank := b, bankShadow := l.head?, bankFrozen := l.tail }) 0
  match ownerAct lvl (bankOwner r.bank.ctl) (bankOwner v) r.bankShadow.isSome with
  | .refuse => .trap 0x09 v
  | .claim => put new []
  | .keep => put { r.bank with ctl := w } (r.bankShadow.toList ++ r.bankFrozen)
  | .release => put Bank.zero []
  | .lend => put new (r.bank.lent :: (r.bankShadow.toList ++ r.bankFrozen))
  | .restore => put (r.bankShadow.getD Bank.zero) r.bankFrozen

/-- A write of SAMPCTL (R384). -/
def writeSampctl (s : State) (k : CoreId) (lvl : BitVec 2) (v : Word) : SysRes :=
  let r := (s.core k).regs
  let w := ctlWord 0x3FFFE r.samp v
  let put := fun (b : Word × Nat) (sh : Option (Word × Nat)) =>
    SysRes.ok (s.modCoreRegs k fun r => { r with samp := b.1, sampShadow := sh, sampCount := b.2 }) 0
  match ownerAct lvl (bankOwner r.samp) (bankOwner v) r.sampShadow.isSome with
  | .refuse => .trap 0x09 v
  | .claim => put (v &&& 0x3FFFE, 0) none
  | .keep => .ok (s.modCoreRegs k fun r => { r with samp := w }) 0
  | .release => put (0, 0) none
  | .lend => put (v &&& 0x3FFFE, 0) (some (r.samp ||| (1#64 <<< 63), r.sampCount))
  | .restore => put (r.sampShadow.getD (0, 0)) none

/-- A write of CNTEVn or CNTVALn by the holder (R384, R385). -/
def writeCounter (s : State) (k : CoreId) (lvl : BitVec 2) (i : Fin 4) (val : Bool) (v : Word) : SysRes :=
  let b := (s.core k).regs.bank
  if bankOwner b.ctl ≠ bankNo lvl then .trap 0x09 v
  else if val then
    let w := (b.val[i] &&& (1#64 <<< 63)) ||| (b.val[i] &&& ~~~v &&& (1#64 <<< 62)) ||| (v &&& 0xFFFFFFFFFFFF)
    .ok (s.modCoreRegs k fun r => { r with bank := { r.bank with val := r.bank.val.set i w } }) 0
  else if 13 < (v.extractLsb' 0 8).toNat then .trap 0x09 v
  else .ok (s.modCoreRegs k fun r => { r with bank := { r.bank with
    ev := r.bank.ev.set i (v &&& 0xFF), ver := s.regs.evver.extractLsb' 0 16, val := r.bank.val.set i (r.bank.val[i] &&& ~~~(1#64 <<< 63)) } }) 0

/-! ### Writes of core registers -/

/-- A write of WDOG (R296): the limit; every slot's count restarts. -/
def writeWdog (s : State) (k : CoreId) (v : Word) : SysRes :=
  .ok (s.modCoreRegs k fun r => { r with wdog := v &&& 0xFFFFFFFF }) 0

/-- STRCTL (R300). -/
def writeStrctl (s : State) (k : CoreId) (v : Word) : SysRes :=
  let n : Fin 8 := Fin.ofNat 8 (v.extractLsb' 0 3).toNat
  let r := match (v.extractLsb' 8 2).toNat with
    | 1 => s.restartStream k n
    | 2 => s.endStream k n
    | _ => none
  if v &&& ~~~0x307#64 ≠ 0 then .trap 0x09 v
  else match r with
    | some s => .ok s 0
    | none => .trap 0x09 v

/-- A write of MIGTn (R351, R357): V, SLOT and POS, DONE cleared; a request for an EMPTY slot is dropped. -/
def writeMigt (s : State) (k : CoreId) (n : Fin 4) (v : Word) : SysRes :=
  let v' := BitVec.ofBool (v.getLsbD 63 && (s.slot k n).st != .empty)
  .ok (s.modCoreRegs k fun r =>
    let w : Word := v' ++ 0#4 ++ r.migt[n].extractLsb' 56 3 ++ 0#33 ++ v.extractLsb' 0 23
    { r with migt := r.migt.set n w }) 0

/-- A write of RAILCTL (R351). -/
def writeRailctl (s : State) (v : Word) : SysRes :=
  let lo := (v.extractLsb' 0 10).toNat
  let hi := (v.extractLsb' 10 10).toNat
  if lo < 320 ∨ 550 < hi ∨ hi < lo then .trap 0x09 v
  else .ok (s.modRail s.regs.railsel.toNat fun r => { r with ctl := v &&& 0xFFFFFFFFFF0FFFFF#64 }) 0

/-- QSHARE (R329, R330): a WEIGHT of 0 is stored as 1. -/
def writeQshare (s : State) (v : Word) : SysRes :=
  let q := (s.regs.qshsel.extractLsb' 0 6).toNat
  let p := (s.regs.qshsel.extractLsb' 8 7).toNat
  let w := if v.extractLsb' 16 16 = 0#16 then 1#16 else v.extractLsb' 16 16
  .ok (s.modQuay q fun x => { x with share := mset x.share p (0#32 ++ w ++ v.extractLsb' 0 16) }) 0

def okMod (s : State) (g : ModRegs → ModRegs) : SysRes := .ok (s.modMod g) 0

/-- What a write does, for every register but the stop registers: `k` issues at `lvl`, and the register is core `tk`'s or
slot `tsl`'s there. Bits of a GTID above bit 46 are reserved (R27, R7). RAILSEL, THSEL and SKEWSEL take the whole value for
the number: a non-zero bit above the field makes it out of range, and raises ACCESS (DESIGN CHOICE, entry 87). -/
def regWrite (s : State) (k : CoreId) (lvl : BitVec 2) (tk : CoreId) (tsl : Fin 4) (n : Nat) (v : Word) : SysRes :=
  let f := fieldOf k
  let coreReg := fun (g : CoreRegs → CoreRegs) => SysRes.ok (s.modCoreRegs tk g) 0
  if n ≤ 0x016 then writeSlotReg s lvl tk tsl n v
  else if n = 0x020 then coreReg fun r => { r with supr := v &&& 0x00007FFFFFFFFFFF#64 }
  else if n = 0x021 then coreReg fun r => { r with hsupr := v &&& 0x00007FFFFFFFFFFF#64 }
  else if n = 0x022 then writeWdog s tk v
  else if n = 0x027 then writeStrctl s tk v
  else if n = 0x040 then s.wrCtx k (fun c => { c with s1root := v &&& 0x8FFFFFFFFFFFC000#64 }) v
  else if n = 0x041 then s.wrCtx k (fun c => { c with s2root := v &&& 0x8FFFFFFFFFFFC000#64 }) v
  else if n = 0x080 then writePartdef s f v
  else if n = 0x081 then okMod s fun m => { m with vfcbase := v &&& 0x0FFFFFFFFFFFFFC0#64 }
  else if n = 0x083 then s.wrPart k (fun x => { x with rollp := v &&& 0xFFFF }) v
  else if 0x090 ≤ n ∧ n ≤ 0x09F then writeQt s k (Fin.ofNat 16 (n % 16)) v
  else if n = 0x0B0 then okMod s fun m => { m with qshsel := v &&& 0x7F3F }
  else if n = 0x0B1 then writeQshare s v
  else if n = 0x0C0 then (match s.partOf k with | some p => writeRvote s p v | none => .trap 0x09 v)
  else if n = 0x0C1 then (if 335 < v.toNat then .trap 0x09 v else okMod s fun m => { m with railsel := v })
  else if n = 0x0C2 then writeRailctl s v
  else if n = 0x0C5 then (if 64511 < v.toNat then .trap 0x09 v else okMod s fun m => { m with thsel := v })
  else if 0x0C8 ≤ n ∧ n ≤ 0x0CB then writeMigt s tk (Fin.ofNat 4 (n % 4)) v
  else if n = 0x0CC then coreReg fun r => { r with nextid := v &&& 0x80007FFFFFFFFFFF#64 }
  else if n = 0x100 then writeLcstate s v
  else if n = 0x101 then okMod s fun m => { m with moderr := m.moderr &&& ~~~(v &&& (1#64 <<< 63)) }
  else if n = 0x102 then .ok (s.modField f fun x => { x with repsel := v &&& 0x7F }) 0
  else if n = 0x103 then writeReprow s f v
  else if n = 0x104 then
    .ok (s.modField f fun x => { x with repctl := (x.repctl &&& (1#64 <<< 63)) ||| (x.repctl &&& ~~~v &&& 2) ||| (v &&& 1) }) 0
  else if n = 0x106 then coreReg fun r => { r with eccstat := r.eccstat &&& ~~~(v &&& (1#64 <<< 47)) }
  else if n = 0x152 then writeCntctl s tk lvl v
  else if 0x154 ≤ n ∧ n ≤ 0x157 then writeCounter s tk lvl (Fin.ofNat 4 (n % 4)) false v
  else if 0x158 ≤ n ∧ n ≤ 0x15B then writeCounter s tk lvl (Fin.ofNat 4 (n % 4)) true v
  else if n = 0x160 then writeSampctl s tk lvl v
  else if n = 0x161 then
    (if v.extractLsb' 0 12 = 0#12 then .trap 0x09 v
     else s.wrCtx k (fun c => { c with sampbase := v &&& 0x0FFFFFFFFFFFFFFF#64 }) v)
  else if n = 0x168 then (if 83 < v.toNat then .trap 0x09 v else okMod s fun m => { m with skewsel := v })
  else if n = 0x170 then (match s.partOf k with | some p => writeOlogctl s p v | none => .trap 0x09 v)
  else if n = 0x171 then s.wrCtx k (fun c => { c with ologbase := v &&& 0x0FFFFFFFFFFF0000#64 }) v
  else if n = 0x172 then
    (if v.extractLsb' 16 16 = 0#16 then .trap 0x09 v
     else s.wrCtx k (fun c => { c with ologsize := v &&& 0xFFFF0000#64 }) v)
  else if n = 0x173 then s.wrCtx k (fun c => { c with ologstat := 0 }) v
  else .ok s 0

end Sys2Proof.Machine
end

