-- ==== Sys2Proof/Machine/Sys.lean ====
section
/-! DEFINITION. The SYS instruction, OP 0x7E (13 R300 to R304, 14 R323, R324, R327, 16 R358): system registers, contexts,
SRAM clearing, code frames, translations, groups; accesses to other cores; the register writes that are steps of their own;
and the watchdog (13 R296). -/

namespace Sys2Proof.Machine

/-! ### MFS and MTS (R302 to R304) -/

/-- The register number and `.t` of a form. -/
def srNum (w : Word) : Nat := (w.extractLsb' 0 12).toNat
def srDot (w : Word) : Bool := w.getLsbD 15

/-- A read at its target. -/
def accMfs (k : CoreId) (lvl : BitVec 2) (w : Word) (tk : CoreId) (tsl : Fin 4) (s : State) : SysRes :=
  regRead s k lvl tk tsl (srNum w)

/-- A write at its target: a slot that `.t` selects must be TRAPPED, but for the core-scope registers (R304). -/
def accMts (k : CoreId) (lvl : BitVec 2) (tsel w v : Word) (tk : CoreId) (tsl : Fin 4) (s : State) : SysRes :=
  let slotReg := match regInfo (srNum w) with | some r => r.slot | none => false
  if srDot w && slotReg && (s.slot tk tsl).st != .trapped then .trap 0x09 tsel
  else regWrite s k lvl tk tsl (srNum w) v

/-- Reserved numbers raise ILLEGAL_FORM (R291) and too low a level PRIVILEGE, with the number in TADDR (R292, R295); then
the register's place (R303). -/
def sysPlace (s : State) (w : Word) (write : Bool) (k : CoreId → Fin 4 → Act) : Act :=
  match regInfo (srNum w) with
  | none => .trap 0x03 s.headWord
  | some r =>
    if (lvlOf s.me).toNat < (if write then r.wr else r.rd) then .trap 0x04 (BitVec.ofNat 64 (srNum w))
    else if !srDot w then k s.cur.core s.cur.slot
    else match s.selected with
      | none => .trap 0x09 s.me.t.tsel
      | some t => if r.slot || r.core then k t.1 t.2 else k s.cur.core s.cur.slot

/-- MFS (R304). A read of ECCSTAT clears CE as the MFS retires (R6). -/
def execMfs (x : MfsF) (s : State) : Host.Outcome State Fault Refusal :=
  issue (mkForm x.q 29 (r16Ops x.sr) [x.d])
    (fun s =>
      let w := s.r16 x.sr
      sysPlace s w false fun tk tsl =>
        viaTarget s (.mfs x) tk w 0 (accMfs s.cur.core (lvlOf s.me) w tk tsl) fun s v =>
          writeG (if srNum w = 0x106 then s.eccRead tk else s) x.d v) s

/-- MTS of a stop register: it retires once every core has its value (R380). -/
def mtsStop (s : State) (r : Nat) (v : Word) : Act :=
  match s.me.reply with
  | some (.value _) => .ok s
  | _ =>
    if s.me.asked then .wait .reply id
    else match s.partOf s.cur.core with
      | none => .trap 0x09 v
      | some p =>
        if stopRefused (s.part p) (lvlOf s.me) r v then .trap 0x09 v
        else .wait .reply fun s =>
          (s.pushUpd p ⟨r, stopMask r v, some (s.cur.core, s.cur.slot), true⟩).modMe fun x => { x with asked := true }

/-- The end of an MTS: one whose slot a wipe of its field has emptied (R330, R373, R374) has no next head. -/
def mtsDone (s : State) : Act := if s.me.st = .empty then .stay s else .ok s

/-- MTS (R304, R292 to R294). -/
def execMts (x : MtsF) (s : State) : Host.Outcome State Fault Refusal :=
  issue (mkForm x.q 29 (x.a :: r16Ops x.sr) [])
    (fun s =>
      let w := s.r16 x.sr
      let v := s.rd x.a
      sysPlace s w true fun tk tsl =>
        if 0x140 ≤ srNum w ∧ srNum w ≤ 0x150 then mtsStop s (srNum w - 0x140) v
        else viaTarget s (.mts x) tk w v (accMts s.cur.core (lvlOf s.me) s.me.t.tsel w v tk tsl) fun s _ => mtsDone s) s

/-! ### Memory of the SYS minors -/

/-- One byte of the CRC-32C of R368. -/
def crc32Byte (c : BitVec 32) (b : Byte) : BitVec 32 :=
  (List.range 8).foldl (fun c _ => if c.getLsbD 0 then (c >>> 1) ^^^ 0x82F63B78#32 else c >>> 1) (c ^^^ b.setWidth 32)

/-- CRC-32C (R368): Castagnoli, reflected, initial value and final XOR of all ones. -/
def crc32c (l : List Byte) : BitVec 32 := l.foldl crc32Byte 0xFFFFFFFF#32 ^^^ 0xFFFFFFFF#32

/-- What a SYS minor's own access meets. -/
inductive SysErr where
  | trap (cause : BitVec 8) (taddr : Word)
  | fault (f : XFault)
  deriving DecidableEq, Repr

def SysErr.res : SysErr → SysRes
  | .trap c t => .trap c t
  | .fault f => .fault f

/-- DPAs of the aligned `w`-byte pieces of `n` bytes at a global address, translated for a slot. -/
def State.pieces (s : State) (k : CoreId) (sl : Fin 4) (a : Word) (w : Nat) (acc : BitVec 8) : Nat → Except XFault (List Nat)
  | 0 => .ok []
  | n + 1 =>
    match s.translateFor k sl a acc false with
    | .error f => .error f
    | .ok d => match s.pieces k sl (addOff a (BitVec.ofNat 64 w)) w acc n with
      | .error f => .error f
      | .ok l => .ok (d :: l)

/-- Read `n` pieces of `w` bytes at a local or global address for a slot (R304). -/
def State.sysRead (s : State) (k : CoreId) (sl : Fin 4) (a : Word) (w n : Nat) (acc : BitVec 8 := 0) : Except SysErr (List Byte) :=
  if isLocal a then
    if 65536 < offOf a + w * n then .error (.trap 0x07 a)
    else match (s.core k).badWord (offOf a) (w * n) with
      | some o => .error (.trap 0x0F (localAddr o))
      | none => .ok ((s.core k).mem.sram.readBytes (offOf a) (w * n))
  else match s.pieces k sl a w acc n with
    | .error f => .error (.fault f)
    | .ok ds => .ok (ds.flatMap fun d => toBytes (s.homeLE d w) w)

/-- The slot's own accesses that are under way have been performed: those of a SYS minor come after them (R122, R123). -/
def State.ownDone (s : State) (k : CoreId) (sl : Fin 4) : Bool :=
  (s.core k).gaccs.all fun a => a.slot != sl || a.performed || a.kind == .counterAdd

/-- An access of a slot to another module is sent to its network peer (R400). -/
def State.postRemote (s : State) (k : CoreId) (sl : Fin 4) (kind : GOpKind) (va : Word) (d n : Nat) (v : VWord) : State :=
  s.modCore k fun c => { c with gaccs := c.gaccs ++
    [{ GAcc.base { s with cur := { s.cur with core := k, slot := sl } } kind va d n with
       data := v, mask := BitVec.allOnes 64, op := .add, ty := .n64, rel := true }] }

/-- Write a list of 64-byte pieces at DPAs for a slot. -/
def State.putPieces (s : State) (k : CoreId) (sl : Fin 4) (va : Word) : List Nat → List Byte → State
  | [], _ => s
  | d :: ds, l =>
    let t := if isRemote d then s.postRemote k sl .store va d 64 (BitVec.ofNat 512 (leBytes (l.take 64)))
      else s.gwriteBytes d (l.take 64)
    t.putPieces k sl (addOff va 64) ds (l.drop 64)

/-- Write bytes in 64-byte pieces at a local or global address for a slot (R304). -/
def State.sysWrite (s : State) (k : CoreId) (sl : Fin 4) (a : Word) (n : Nat) (l : List Byte) : Except SysErr State :=
  if isLocal a then
    if 65536 < offOf a + 64 * n then .error (.trap 0x07 a)
    else .ok (s.modCore k fun c =>
      { c.overwrite (offOf a) (64 * n) with mem := { c.mem with sram := c.mem.sram.writeBytes (offOf a) l } })
  else match s.pieces k sl a 64 1 n with
    | .error f => .error (.fault f)
    | .ok ds => .ok (s.putPieces k sl a ds l)

/-- Window and alignment of a SYS minor's operand: local or global. -/
def sysAddr (a : Word) (n : Nat) (k : Act) : Act :=
  if !isLocal a && !isGlobal a then .trap 0x0A a else if !aligned a n then .trap 0x07 a else k

/-! ### The slot context image (R301) -/

def wordBytes (w : Word) : List Byte := toBytes w.toNat 8

/-- Lace state as the image has it. -/
def LaceSt.imageWord (l : LaceSt) : Word := 0#32 ++ l.e ++ l.index ++ l.w ++ l.xl ++ laceCodeNo l.code

/-- The image with given command records, from 0x700. -/
def Slot.image (x : Slot) (rec : List Byte) : List Byte :=
  ((0#64 :: (x.r.g.toList.drop 1)) ++ x.r.c.toList ++
    [x.stat, x.t.tpc, x.tstRead, x.t.tcause, x.t.taddr, x.t.tvec, x.t.tsel, x.t.sbase, x.t.slim, x.r.flags.setWidth 64,
     x.r.lc[0].word, x.r.lc[0].start, x.r.lc[0].fin, x.r.lc[1].word, x.r.lc[1].start, x.r.lc[1].fin] ++
    x.r.gm.toList ++ [x.lace.imageWord, x.lace.waited]).flatMap wordBytes ++
  ((List.finRange 8).flatMap fun i => toBytes (x.r.rdP i).toNat 2) ++
  ((List.finRange 16).flatMap fun i => toBytes x.r.v[i].toNat 64 ++ toBytes x.r.hdr[i].toNat 16) ++ rec

/-- Command records with V = 0. -/
def noRecords : List Byte := List.replicate 256 0

/-- A word of an image. -/
def imgW (l : List Byte) (o : Nat) : Word := BitVec.ofNat 64 (leBytes ((l.drop o).take 8))

/-- Records with V = 1 whose CRC holds, or with V = 0 and no other byte (R301, R304). -/
def recordsOk (l : List Byte) : Bool :=
  let h := imgW l 0x700
  if h.getLsbD 63 then
    h.extractLsb' 8 55 == 0#55 && imgW l 0x7F8 == (crc32c ((l.drop 0x700).take 0xF8)).setWidth 64
  else (l.drop 0x700).all (· == 0)

/-- Reserved fields and illegal values of an image (R304). -/
def imageBad (s : State) (k : CoreId) (l : List Byte) : Bool :=
  let cpBadBits := fun (o : Nat) => imgW l o &&& ~~~(0x0FFFFFFFFFFFFFDF#64) != 0
  let sb := imgW l 0x178
  let sl := imgW l 0x180
  let gmBad := fun (i : Nat) =>
    let g := imgW l (0x1C0 + 8 * i)
    g &&& ~~~(0x80FFFFFFFF0003FF#64) != 0 || g.extractLsb' 8 2 == 3#2 ||
    (g.getLsbD 63 && !geV (s.group (s.partNum k) (g.extractLsb' 0 8).toNat).entry)
  imgW l 0x140 &&& ~~~(0xFFFF#64) != 0 || cpBadBits 0x148 || imgW l 0x150 &&& ~~~(0x3FD3#64) != 0 ||
  imgW l 0x158 &&& ~~~(0xFF#64) != 0 || imgW l 0x168 &&& ~~~(0x8FFFFFFFFFFFFFDF#64) != 0 ||
  (imgW l 0x168).extractLsb' 0 5 == 31#5 || imgW l 0x170 &&& ~~~(0x807FFFFF#64) != 0 ||
  !(isLocal sb || sb == 0xE000000000010000#64) || !(isLocal sl || sl == 0xE000000000010000#64) || decide (sb < sl) ||
  imgW l 0x188 &&& ~~~(0xFF#64) != 0 || cpBadBits 0x198 || cpBadBits 0x1A0 || cpBadBits 0x1B0 || cpBadBits 0x1B8 ||
  gmBad 0 || gmBad 1 || gmBad 2 || gmBad 3 || (imgW l 0x1E0).extractLsb' 32 32 != 0#32 ||
  (imgW l 0x1E0).extractLsb' 0 3 == 7#3 || (imgW l 0x140).extractLsb' 13 3 == 7#3 || !recordsOk l

def laceCodeOf (n : Nat) : LaceCode :=
  match n with
  | 1 => .binding | 2 => .leader | 3 => .leaderWait | 4 => .attached | 5 => .detached | 6 => .rejoining | _ => .solo

/-- Lace state of an image; its leader's core is INDEX columns west. -/
def laceOfImage (s : State) (k : CoreId) (old : LaceSt) (l : List Byte) : LaceSt :=
  let w := imgW l 0x1E0
  let idx := w.extractLsb' 21 6
  let lead := k - idx.toNat
  let ls := (List.finRange 4).find? fun n => (s.slot lead n).lace.code == .leader || (s.slot lead n).lace.code == .leaderWait
  { old with code := laceCodeOf (w.extractLsb' 0 3).toNat, xl := w.extractLsb' 3 11, w := w.extractLsb' 14 7, index := idx,
             e := w.extractLsb' 27 5, leadCore := lead, leadSlot := ls.getD old.leadSlot, waited := imgW l 0x1E8,
             result := none, joined := false }

/-- The watch that an image's WARM and WCAUSE leave (R301). -/
def WatchSt.load (w : WatchSt) (st : Word) : WatchSt :=
  let c := st.extractLsb' 13 3
  { w with armed := st.getLsbD 12,
           ended := if st.getLsbD 12 then none else if c ≠ 0 then some c else if w.ended = some 0 then some 0 else none }

/-- The slot that an image describes (R304): TRAPPED; its task, deferred causes and answers stay its own. -/
def Slot.load (x : Slot) (l : List Byte) (lace : LaceSt) : Slot :=
  let lc := fun (o : Nat) =>
    (⟨(imgW l o).extractLsb' 0 32, (imgW l o).extractLsb' 32 32, imgW l (o + 8), imgW l (o + 16)⟩ : LoopCtr)
  { x with
    r := { g := Vector.ofFn fun i : Fin 32 => if i = 0 then 0 else imgW l (8 * i.val)
           c := Vector.ofFn fun i : Fin 8 => imgW l (0x100 + 8 * i.val)
           pres := (imgW l 0x140).extractLsb' 0 8
           v := Vector.ofFn fun i : Fin 16 => BitVec.ofNat 512 (leBytes ((l.drop (0x200 + 80 * i.val)).take 64))
           hdr := Vector.ofFn fun i : Fin 16 => BitVec.ofNat 128 (leBytes ((l.drop (0x240 + 80 * i.val)).take 16))
           p := Vector.ofFn fun i : Fin 8 => if i = 0 then 0 else BitVec.ofNat 16 (leBytes ((l.drop (0x1F0 + 2 * i.val)).take 2))
           lc := Vector.ofFn fun i : Fin 2 => lc (0x190 + 24 * i.val)
           gm := Vector.ofFn fun i : Fin 4 => imgW l (0x1C0 + 8 * i.val)
           flags := (imgW l 0x188).extractLsb' 0 8 }
    t := { tpc := imgW l 0x148, tst := imgW l 0x150 &&& 0x20D3#64, tcause := imgW l 0x158, taddr := imgW l 0x160,
           tvec := imgW l 0x168, tsel := imgW l 0x170, sbase := imgW l 0x178, slim := imgW l 0x180, xinfo := x.t.xinfo }
    st := .trapped, wait := .none, ev := (imgW l 0x140).getLsbD 8, watch := x.watch.load (imgW l 0x140), lace := lace,
    grant := none, reply := none, asked := false, slept := none }

/-- CTXSV waits for the slot's commands, loads and vector operations (R304, R192); a load that has come back bad has
returned. -/
def Core.slotBusy (c : Core) (sl : Fin 4) : Bool :=
  (c.unit.runs.any fun r => r.slot == sl) || (c.unit.feeds.toList.any fun q => q.any fun f => f.slot == sl && !f.told) ||
  (c.unit.scans.any fun r => r.slot == sl) || (c.parked.any fun e => e.1 == sl) || (c.vops.any fun o => o.slot == sl) ||
  (c.gaccs.any fun a => a.slot == sl && (a.kind == .load || a.kind == .amog) && a.bad == 0)

/-- CTXLD waits for what would still write the registers that it loads (R192): vector operations, and loads of the slot
(DEDUCED, entry 87). -/
def Core.writing (c : Core) (sl : Fin 4) : Bool :=
  (c.vops.any fun o => o.slot == sl) || (c.gaccs.any fun a => a.slot == sl && a.dest.isSome && a.bad == 0)

/-- CTXSV at its target (R304): the image goes to the issuer's memory. -/
def accCtxsv (k : CoreId) (sl : Fin 4) (tsel a : Word) (tk : CoreId) (tsl : Fin 4) (s : State) : SysRes :=
  if (s.slot tk tsl).st != .trapped then .trap 0x09 tsel
  else if (s.core tk).slotBusy tsl || !s.ownDone k sl then .later
  else match s.sysWrite k sl a 32 ((s.slot tk tsl).image noRecords) with
    | .error e => e.res
    | .ok s => .ok s 0

/-- The commands of an image's records are kept for the slot until it next issues (R304). -/
def State.loadCmds (s : State) (k : CoreId) (sl : Fin 4) (l : List Byte) : State :=
  if !(imgW l 0x700).getLsbD 63 then s
  else match s.records.find? fun e => e.1 == (l.drop 0x708).take 240 with
    | none => s
    | some e => s.modCore k fun c => { c with parked := c.parked ++ [(sl, e.2)] }

/-- CTXLD at its target (R304, R293, R360). A core that no launch holds becomes held by the launch of the task that comes to it,
as at a move (R359; DEDUCED, entry 87). -/
def accCtxld (k : CoreId) (sl : Fin 4) (lvl : BitVec 2) (tsel a hd : Word) (tk : CoreId) (tsl : Fin 4) (s : State) : SysRes :=
  let x := s.slot tk tsl
  let id := (s.core tk).regs.nextid
  let g : Word := 0#1 ++ id.extractLsb' 0 63
  if x.st != .trapped && x.st != .empty then .trap 0x09 tsel
  else if x.st == .empty && (!id.getLsbD 63 || (match s.findTask g with | some t => s.partOf t.1 == s.partOf k | none => false)) then
    .trap 0x09 tsel
  else if (s.core tk).writing tsl || !s.ownDone k sl then .later
  else match s.sysRead k sl a 64 32 with
    | .error e => e.res
    | .ok l =>
      let st := imgW l 0x150
      if imageBad s tk l then .trap 0x09 a
      else if lvl < st.extractLsb' 0 2 ∨ (lvl.toNat < 2 ∧ st.getLsbD 4 ≠ x.t.tst.getLsbD 4) then .trap 0x04 hd
      else
        let lace := laceOfImage s tk x.lace l
        let s := s.modSlot tk tsl fun x => x.load l lace
        let s := if !(imgW l 0x140).getLsbD 12 then
            { s with watches := s.watches.filter fun w => !(w.core == tk && w.slot == tsl) } else s
        let s := if x.st == .empty then
            let t := (s.modSlot tk tsl fun x => { x with gtid := g }).modCoreRegs tk fun r =>
              { r with nextid := 0#1 ++ r.nextid.extractLsb' 0 63 }
            t.modCore tk fun c => { c with held := match c.held with | some h => some h | none => s.launchOf tk g }
          else s
        .ok (s.loadCmds tk tsl l) 0

/-- CTXSV retires when its writes are performed (R304); those to another module are on their way until then. -/
def ctxsvDone (s : State) : Act := if s.ownDone s.cur.core s.cur.slot then .ok s else .wait .fence id

/-- CTXSV (R304). -/
def execCtxsv (x : G1) (s : State) : Host.Outcome State Fault Refusal :=
  issue (mkForm x.q 29 [x.a] [] [] 1)
    (fun s => match s.selected with
      | none => .trap 0x09 s.me.t.tsel
      | some (tk, tsl) =>
        let acc := accCtxsv s.cur.core s.cur.slot s.me.t.tsel (s.rd x.a) tk tsl
        if s.me.reply.isSome && tk == s.cur.core then ctxsvDone s
        else sysAddr (s.rd x.a) 64 (viaTarget s (.ctxsv x) tk (s.rd x.a) 0 acc (fun t _ =>
          if tk = s.cur.core ∧ t.ownDone s.cur.core s.cur.slot = false then
            .wait .fence fun s => match acc s with
              | .ok u _ => u.modMe fun x => { x with reply := some .fenced }
              | _ => s
          else ctxsvDone t) 1)) s

/-- CTXLD (R304). -/
def execCtxld (x : G1) (s : State) : Host.Outcome State Fault Refusal :=
  issue (mkForm x.q 29 [x.a] [] [] 1)
    (fun s => match s.selected with
      | none => .trap 0x09 s.me.t.tsel
      | some (tk, tsl) => sysAddr (s.rd x.a) 64
          (viaTarget s (.ctxld x) tk (s.rd x.a) s.headWord
            (accCtxld s.cur.core s.cur.slot (lvlOf s.me) s.me.t.tsel (s.rd x.a) s.headWord tk tsl) (fun s _ => .ok s) 0)) s

/-! ### SRAMCLR, code frames -/

/-- Granules that SRAMCLR has cleared so far, held with the slot. -/
def Slot.progress (x : Slot) : Nat := match x.reply with | some (.value v) => v.toNat | _ => 0

/-- SRAMCLR (R304): one granule at a time, in ascending order, each as one access; it retires with the last. Taken again from
its start where a trap ends it before. -/
def sramclrAct (a b : Word) (s : State) : Act :=
  let n := b.toNat
  if !isLocal a then .trap 0x0A a
  else if !aligned a 16 || n % 16 != 0 || decide (65536 < offOf a + n) then .trap 0x07 a
  else
    let i := s.me.progress
    let clear := fun (s : State) =>
      (s.sramPut s.cur.core (offOf a + 16 * i) 16 0 (some s.cur.slot)).setFull s.cur.core (offOf a / 16 + i) 1 false
    if n ≤ 16 * i then .ok s
    else if n ≤ 16 * (i + 1) then .ok (clear s)
    else .again fun s => (clear s).modMe fun x => { x with reply := some (.value (BitVec.ofNat 64 (i + 1))) }

/-- SRAMCLR (R304). -/
def execSramclr (x : G2) (s : State) : Host.Outcome State Fault Refusal :=
  issue (mkForm x.q 29 [x.a, x.b] [] [] 1) (fun s => sramclrAct (s.rd x.a) (s.rd x.b) s) s

/-- The 32 lines of a code block at a DPA. -/
def State.codeLines (s : State) (d : Nat) : Vector Line 32 :=
  Vector.ofFn fun i : Fin 32 => BitVec.ofNat 512 (s.homeLE (d + 64 * i.val) 64)

/-- A frame loaded on a core in one access (R21, R304), its lines charged (R344). -/
def State.putFrame (s : State) (k : CoreId) (sl : Fin 4) (n : Fin 16) (va : Word) (ls : Vector Line 32) : State :=
  (s.modMem k fun m => { m with frames := m.frames.set n ⟨some (va.extractLsb' 11 49), ls, lvlOf (s.slot k sl) == 0⟩ }).charge k sl 30 32

/-- FRMLD at its target (R304, R315, R322, R327): translated for the selected slot's VF and level. -/
def accFrmld (a : Word) (n : Fin 16) (tk : CoreId) (tsl : Fin 4) (s : State) : SysRes :=
  match s.translateFor tk tsl a 6 false with
  | .error f => .fault f
  | .ok d => .ok (s.putFrame tk tsl n a (s.codeLines d)) 0

/-- Frame number of a form. -/
def frameNo (w : Word) : Fin 16 := (w.extractLsb' 0 4).toFin

/-- FRMLD (R304). -/
def execFrmld (x : FrmldF) (s : State) : Host.Outcome State Fault Refusal :=
  issue (mkForm x.q 29 (x.a :: r16Ops x.n) [] [] 1)
    (fun s => match s.selected with
      | none => .trap 0x09 s.me.t.tsel
      | some (tk, tsl) => globalCheck (s.rd x.a) 2048
          (viaTarget s (.frmld x) tk (s.rd x.a) (s.r16 x.n) (accFrmld (s.rd x.a) (frameNo (s.r16 x.n)) tk tsl)
            (fun s _ => .ok s))) s

/-- FRMINV at its target (R304). -/
def accFrminv (n : Fin 16) (tk : CoreId) (s : State) : SysRes :=
  .ok (s.modMem tk fun m => { m with frames := m.frames.set n { m.frames[n] with tag := none } }) 0

/-- FRMINV (R304). -/
def execFrminv (x : FrminvF) (s : State) : Host.Outcome State Fault Refusal :=
  issue (mkForm x.q 29 (r16Ops x.n) [] [] 1)
    (fun s => match s.selected with
      | none => .trap 0x09 s.me.t.tsel
      | some (tk, _) => viaTarget s (.frminv x) tk (s.r16 x.n) 0 (accFrminv (frameNo (s.r16 x.n)) tk) fun s _ => .ok s) s

/-! ### GRPSET (R304, R87, R88) -/

/-- The member list at a global address, translated for a VF of a partition: N words of 32 bits. -/
def State.readMembers (s : State) (p vf a : Nat) : Nat → Option (List Nat)
  | 0 => some []
  | n + 1 =>
    match s.translateNow p vf (BitVec.ofNat 64 a) 0 false false with
    | .error _ => none
    | .ok (d, _) => (s.readMembers p vf (a + 4) n).map fun l => s.homeLE d 4 :: l

/-- The members of an entry: with MLIST zero and N the rank count, every rank (R335). -/
def State.entryMembers (s : State) (p vf ranks : Nat) (e : BitVec 192) : Option (List Nat) :=
  if geList e = 0 ∧ geN e = ranks then some (List.range ranks)
  else s.readMembers p vf (geList e) (min (geN e) (ranks + 1))

/-- Ranks of a resident launch. -/
def State.launchRanks (s : State) (p vf launch : Nat) : Option Nat :=
  ((s.part p).launches.find? fun l => l.vf == vf && l.num == launch).map fun l => l.img.w * l.img.h * l.img.s

/-- The entry that GRPSET writes, when it is accepted (R87, R88): an open round keeps all but V = 0 out. -/
def State.grpAccept (s : State) (p g : Nat) (vf : Nat) (e : BitVec 192) : Option Group :=
  let old := s.group p g
  if !geV e then some { Group.unset with entry := geClear e }
  else if geV old.entry && !(old.incl.isEmpty && old.early.isEmpty) then none
  else if !(s.part p).fields.contains (geHome e) then none
  else match s.launchRanks p vf (geLaunch e) with
    | none => none
    | some n => match s.entryMembers p vf n e with
      | none => none
      | some ms => if geOk e ms n then some (newGroup e ms) else none

/-- GRPSET (R304): gD := 0 where the entry is accepted, 1 where it is refused. -/
def execGrpset (x : GrpF) (s : State) : Host.Outcome State Fault Refusal :=
  issue (mkForm x.q 29 (x.a :: r16Ops x.n) [x.d] [] 1)
    (fun s =>
      let a := s.rd x.a
      let g := ((s.r16 x.n).extractLsb' 0 8).toNat
      sysAddr a 8 (if !s.ownDone s.cur.core s.cur.slot then .wait .fence id else
        match s.sysRead s.cur.core s.cur.slot a 8 3 with
        | .error (.trap c t) => .trap c t
        | .error (.fault f) => .xtrap f 0
        | .ok l =>
          match s.partOf s.cur.core with
          | none => writeG s x.d 1
          | some p => match s.grpAccept p g (gtidVf s.me.gtid) (BitVec.ofNat 192 (leBytes l)) with
            | none => writeG s x.d 1
            | some n => writeG s x.d 0 fun s => .ok ((s.freeSlots p g).setGroup p g n))) s

/-! ### INVAL (R323, R324) -/

/-- The partition that an INVAL acts on: at level H the one that holds TSEL.POS. -/
def State.invalPart (s : State) : Option Nat :=
  if (lvlOf s.me).toNat ≤ 1 then s.partOf s.cur.core
  else if !s.me.t.tsel.getLsbD 31 then none
  else match unpackPos (s.me.t.tsel.extractLsb' 0 21) with
    | none => none
    | some k => s.partOf k

/-- INVAL (R323): FENCE .rel.dev, the drop, and a wait for its counter add. -/
def invalAct (kind : Fin 4) (x : G2) (s : State) : Act :=
  let a := s.rd x.a
  let b := s.rd x.b
  match s.me.reply with
  | some (.value _) => if s.ownDone s.cur.core s.cur.slot then .ok s else .wait .inval id
  | some (.fault f) => .xtrap f 5
  | _ =>
    if s.me.asked then .wait .inval id
    else if (kind == 0 || kind == 2) && !isGlobal a then .trap 0x0A a
    else globalCheck b 8
      (match s.invalPart with
       | none => .trap 0x09 s.me.t.tsel
       | some p =>
         if !fenceDone (s.core s.cur.core) s.cur.slot .rel then .wait .inval id
         else .wait .inval fun s =>
          State.modMe { s with drops := s.drops ++
            [⟨p, ((s.part p).qcur.extractLsb' 32 9).toNat, kind, a, b, (s.cur.core, s.cur.slot), none⟩] }
            fun x => { x with asked := true })

def invalForm (x : G2) (lvl : BitVec 2) : Form := mkForm x.q 29 [x.a, x.b] [] [] lvl

/-- INVAL, kind 0 (R323). -/
def execInvalS1Page (x : G2) (s : State) : Host.Outcome State Fault Refusal := issue (invalForm x 1) (invalAct 0 x) s
/-- INVAL, kind 1 (R323). -/
def execInvalS1All (x : G2) (s : State) : Host.Outcome State Fault Refusal := issue (invalForm x 1) (invalAct 1 x) s
/-- INVAL, kind 2 (R323). -/
def execInvalS2Page (x : G2) (s : State) : Host.Outcome State Fault Refusal := issue (invalForm x 2) (invalAct 2 x) s
/-- INVAL, kind 3 (R323). -/
def execInvalS2All (x : G2) (s : State) : Host.Outcome State Fault Refusal := issue (invalForm x 2) (invalAct 3 x) s

/-- Entries that a drop matches (R323). -/
def Drop.hits (d : Drop) (e : TEntry) : Bool :=
  e.vf == d.vf &&
  (match d.kind with
   | 0 => e.covers d.vf d.addr.toNat
   | 2 => d.addr.toNat % 2 ^ 60 / 2 ^ e.gbits == e.gpa / 2 ^ e.gbits
   | _ => true)

/-- Walk-cache entries that a drop matches (R323): on the path of its address, in the stage that its kind names, or every one
of that stage. -/
def Drop.hitsCache (d : Drop) (e : CacheEnt) : Bool :=
  let a := d.addr.toNat % 2 ^ 60
  match e with
  | .pte vf stage2 level tag _ => vf == d.vf && stage2 == decide (2 ≤ d.kind.val) && (d.kind % 2 == 1 || a / 2 ^ (60 - 11 * level) == tag)
  | .trans vf bits tag _ _ _ => vf == d.vf && (d.kind == 3 || (d.kind == 2 && a / 2 ^ bits == tag))

/-- A drop at a core: its port entries and stream entries, and what a stream has had of an entry for its next tile. -/
def Core.drop (c : Core) (d : Drop) : Core :=
  { c with ports := c.ports.filter fun e => !d.hits e,
           streams := c.streams.map fun o => o.map fun t =>
             { t with ent := match t.ent with | some e => if d.hits e then none else some e | none => none,
                      addrs := if gtidVf t.gtid == d.vf then [] else t.addrs } }

/-- Accesses under way that a drop waits for (R323, R324): the VF's that were issued before it. One that has come back bad has
returned. -/
def Drop.waits (d : Drop) (t : Nat) (a : GAcc) : Bool :=
  decide (a.at_ ≤ t) && gtidVf a.gtid == d.vf && a.bad == 0 &&
    !(a.performed && (a.kind == .store || a.kind == .counterAdd))

/-- Writes of the VF's streams that a network peer has not answered. -/
def State.framesOf (s : State) (p vf : Nat) : Bool :=
  s.quays.any fun e => e.2.outst.any fun o => s.partOf o.core == some p &&
    match o.what with
    | .tile n _ => (match (s.core o.core).streams[n] with | some t => gtidVf t.gtid == vf | none => false)
    | _ => false

/-- INVAL_DROP (R323): first the drop reaches every hub and core; then, with no matched access left and every stale walk
restarted, the counter add is made and the issuer goes on. -/
def execInvalDrop (i : Nat) (s : State) : Host.Outcome State Fault Refusal :=
  event s
    (match s.drops[i]? with
     | none => none
     | some d =>
       let fs := (s.part d.part).fields
       match d.dropped with
       | none =>
         let t : State :=
           { s with cores := s.cores.map (fun e => if s.partOf e.1 == some d.part then (e.1, e.2.drop d) else e),
                    fields := s.fields.map (fun e => if fs.contains e.1 then (e.1, { e.2 with
                      cache := e.2.cache.filter fun x => !d.hitsCache x,
                      walks := e.2.walks.map fun w => if w.started && w.miss.vf == d.vf then { w with stale := true } else w }) else e),
                    drops := s.drops.set i { d with dropped := some s.now } }
         some t
       | some t =>
         let busy := (s.cores.any fun e => s.partOf e.1 == some d.part && e.2.gaccs.any (d.waits t)) || s.framesOf d.part d.vf
         let stale := fs.any fun f => (s.field f).walks.any fun w => w.stale && w.miss.vf == d.vf
         if busy || stale then none
         else
           let u : State := { s with drops := s.drops.eraseIdx i }
           let k := d.issuer.1
           let sl := d.issuer.2
           match u.translateFor k sl d.ctr 5 false with
           | .error f => some (u.modSlot k sl fun x => { x with reply := some (.fault f) })
           | .ok a =>
             let v := if isRemote a then u.postRemote k sl .amog d.ctr a 8 1 else u.gwrite a 8 ((u.gmem.readLE a 8 + 1) % 2 ^ 64)
             some (v.modSlot k sl fun x => { x with reply := some (.value 0) }))

/-! ### Accesses to other cores (R303) -/

/-- What a SYS access does at its target, from the values that it carries. -/
def SysAcc.run (q : SysAcc) (tk : CoreId) (tsl : Fin 4) (s : State) : SysRes :=
  let lvl := lvlOf (s.slot q.core q.slot)
  match q.instr with
  | .eret => accEret q.tsel tk tsl s
  | .mfs _ => accMfs q.core lvl q.a tk tsl s
  | .mts _ => accMts q.core lvl q.tsel q.a q.b tk tsl s
  | .ctxsv _ => accCtxsv q.core q.slot q.tsel q.a tk tsl s
  | .ctxld _ => accCtxld q.core q.slot lvl q.tsel q.a q.b tk tsl s
  | .frmld _ => accFrmld q.a (frameNo q.b) tk tsl s
  | .frminv _ => accFrminv (frameNo q.a) tk s
  | _ => .later

/-- The reply reaches the waiting issuer. -/
def State.sysReply (s : State) (q : SysAcc) (r : Reply) : State :=
  s.modSlot q.core q.slot fun x => if x.asked && x.pc == q.pc then { x with reply := some r } else x

/-- SYS_REMOTE_ACCESS (R303): the access is made in the target core's order, and its reply returns. -/
def execSysRemoteAccess (i : Nat) (s : State) : Host.Outcome State Fault Refusal :=
  event s
    (match s.sys[i]? with
     | none => none
     | some q =>
       let t : State := { s with sys := s.sys.eraseIdx i }
       match s.selOf q.core q.tsel with
       | none => some (t.sysReply q (.trap 0x09 q.tsel))
       | some (tk, tsl) => match q.run tk tsl t with
         | .later => none
         | .ok u v => some (u.sysReply q (.value v))
         | .trap c a => some (t.sysReply q (.trap c a))
         | .fault f => some (t.sysReply q (.fault f)))

/-! ### Register writes as steps (R292, R293, R296, R330, R350, R351, R366, R373, R380, R384, R390) -/

/-- A write that is refused changes nothing. -/
def regEvent (s : State) (r : SysRes) : Host.Outcome State Fault Refusal :=
  event s (match r with | .ok s _ => some s | _ => none)

/-- LC_WRITE (R292). -/
def execLcWrite (k : CoreId) (sl : Fin 4) (ctr : Fin 2) (v : Word) (s : State) : Host.Outcome State Fault Refusal :=
  regEvent s (writeLc s k sl ctr v)
/-- STACK_REG_WRITE (R292). -/
def execStackRegWrite (k : CoreId) (sl : Fin 4) (lim : Bool) (v : Word) (s : State) : Host.Outcome State Fault Refusal :=
  regEvent s (writeStack s k sl lim v)
/-- TST_WRITE (R293), by an issuer at a level. -/
def execTstWrite (k : CoreId) (sl : Fin 4) (lvl : Fin 4) (v : Word) (s : State) : Host.Outcome State Fault Refusal :=
  regEvent s (writeTst s k sl (BitVec.ofFin lvl) v)
/-- WDOG_WRITE (R296). -/
def execWdogWrite (k : CoreId) (v : Word) (s : State) : Host.Outcome State Fault Refusal :=
  regEvent s (writeWdog s k v)
/-- PARTDEF_WRITE (R330, R374). -/
def execPartdefWrite (f : Nat) (v : Word) (s : State) : Host.Outcome State Fault Refusal :=
  regEvent s (writePartdef s f v)
/-- RVOTE_WRITE (R350). -/
def execRvoteWrite (p : Nat) (v : Word) (s : State) : Host.Outcome State Fault Refusal :=
  regEvent s (writeRvote s p v)
/-- MIGT_WRITE (R351). -/
def execMigtWrite (k : CoreId) (n : Fin 4) (v : Word) (s : State) : Host.Outcome State Fault Refusal :=
  regEvent s (writeMigt s k n v)
/-- LCSTATE_WRITE (R373). -/
def execLcstateWrite (v : Word) (s : State) : Host.Outcome State Fault Refusal :=
  regEvent s (writeLcstate s v)
/-- REPROW_WRITE (R366). -/
def execReprowWrite (f : Nat) (v : Word) (s : State) : Host.Outcome State Fault Refusal :=
  regEvent s (writeReprow s f v)
/-- STOP_ENTRY_WRITE (R380): the value is broadcast to every core of the partition, as from level S. -/
def execStopEntryWrite (p : Nat) (r : Fin 17) (v : Word) (s : State) : Host.Outcome State Fault Refusal :=
  event s
    (if stopRefused (s.part p) 1 r.val v then none else some (s.pushUpd p ⟨r.val, stopMask r.val v, none, true⟩))
/-- OWNER_WRITE (R384): of CNTCTL, or of SAMPCTL. -/
def execOwnerWrite (k : CoreId) (samp : Bool) (lvl : Fin 4) (v : Word) (s : State) : Host.Outcome State Fault Refusal :=
  regEvent s (if samp then writeSampctl s k (BitVec.ofFin lvl) v else writeCntctl s k (BitVec.ofFin lvl) v)
/-- OLOGCTL_WRITE (R390). -/
def execOlogctlWrite (p : Nat) (v : Word) (s : State) : Host.Outcome State Fault Refusal :=
  regEvent s (writeOlogctl s p v)
/-- ECCSTAT_READ (R366). -/
def execEccstatRead (k : CoreId) (s : State) : Host.Outcome State Fault Refusal :=
  event s (some (s.eccRead k))

/-! ### The watchdog (R296) -/

/-- TADDR of WATCHDOG: the slot state and the units waited. -/
def Core.wdogAddr (c : Core) (sl : Fin 4) : Word :=
  c.regs.wdog.extractLsb' 0 32 ++ 0#29 ++ slotStNo (c.slot sl).st

/-- WATCHDOG (R296): a slot's count reaches WDOG × 1,024 in WAIT or SLEEP, and the cause is deferred; in HALTING a notice
names its task. -/
def execWatchdog (k : CoreId) (sl : Fin 4) (s : State) : Host.Outcome State Fault Refusal :=
  let c := s.core k
  let x := c.slot sl
  event s
    (if c.regs.wdog = 0 || s.phaseOf k == .out then none
     else match x.st with
      | .wait => some (s.defer k sl 0x26 (c.wdogAddr sl))
      | .sleep => some (s.defer k sl 0x26 (c.wdogAddr sl))
      | .halting => some (s.defer k sl 0x26 (c.wdogAddr sl))
      | _ => none)

end Sys2Proof.Machine
end

