-- ==== Sys2Proof/Machine/Launches.lean ====
section
/-! DEFINITION. Launches: VF control blocks (15 R331), packets and their validation (R332 to R334), images (01 R22, 05 R147,
15 R335), dependences, placement and completion (R336 to R339, 13 R408), floors (R348), the launch aperture (19 R396). -/

namespace Sys2Proof.Machine

/-! ### Control blocks (R331) -/

def State.balance (s : State) (vf : Nat) : Int := (s.cbWord vf 0).toInt
def State.cbFlags (s : State) (vf : Nat) : Word := s.cbWord vf 0x20
/-- V, with every reserved field zero. -/
def State.cbValid (s : State) (vf : Nat) : Bool :=
  let w := s.cbFlags vf
  w.getLsbD 63 && w.extractLsb' 41 22 == 0#22 && s.cbWord vf 0x30 == 0 && s.cbWord vf 0x38 == 0
def State.floorOf (s : State) (vf : Nat) : Nat :=
  ((s.cbFlags vf).extractLsb' 25 16).toNat
def State.maxCores (s : State) (vf : Nat) : Nat := ((s.cbFlags vf).extractLsb' 5 20).toNat

/-! ### QCUR (R329) -/

def qLeft (q : Word) : Nat := (q.extractLsb' 8 24).toNat
def qEntry (q : Word) : Nat := (q.extractLsb' 0 4).toNat
def qWord (vf left : Nat) (idle : Bool) (entry : Nat) : Word :=
  0#23 ++ BitVec.ofNat 9 vf ++ BitVec.ofNat 24 left ++ 0#3 ++ BitVec.ofBool idle ++ BitVec.ofNat 4 entry
/-- The registers that a VF has in a partition: in force while it is current, else saved (R313, R334). -/
def Partition.vfCtx (x : Partition) (vf : Nat) : PartCtx :=
  if x.current = some vf then x.ctx
  else match mget x.saved vf with
    | some y => y.1
    | none => if qIdle x.qcur then x.ctx else PartCtx.reset

/-! ### Reading through a VF's translation -/

/-- `n` bytes at a VA, page by page; the user's permissions apply (a launch runs at level U). -/
def State.vread (s : State) (c : PartCtx) (vf : Nat) (acc : BitVec 8) (va n : Nat) : Nat → Except XFault (List Byte)
  | 0 => .ok []
  | fuel + 1 =>
    if n = 0 then .ok []
    else match s.translateIn c vf (BitVec.ofNat 64 va) acc true false with
      | .error f => .error f
      | .ok (d, _) =>
        let m := min n (65536 - va % 65536)
        match s.vread c vf acc (va + m) (n - m) fuel with
        | .error f => .error f
        | .ok l => .ok ((if isRemote d then toBytes (s.homeLE d m) m else s.gmem.readBytes d m) ++ l)

/-- The quays charge what is read or written of `n` bytes at a VA (R344). -/
def State.chargeVa (s : State) (c : PartCtx) (vf : Nat) (acc : BitVec 8) (va n : Nat) : Nat → State
  | 0 => s
  | fuel + 1 =>
    if n = 0 then s
    else match s.translateIn c vf (BitVec.ofNat 64 va) acc true false with
      | .error _ => s
      | .ok (d, _) =>
        let m := min n (65536 - va % 65536)
        (s.chargeQuay (s.quayOf d) vf m).chargeVa c vf acc (va + m) (n - m) fuel

def State.chargeVas (s : State) (c : PartCtx) (vf : Nat) (acc : BitVec 8) (l : List (Nat × Nat)) : State :=
  l.foldl (fun s e => s.chargeVa c vf acc e.1 e.2 (e.2 / 65536 + 2)) s

/-- Little-endian field of a byte list. -/
def fieldLE (l : List Byte) (o n : Nat) : Nat := leBytes ((l.drop o).take n)

/-! ### Packets (R332) -/

structure Packet where
  image : Word
  args : Word
  ctl : Word
  taskp : Word
  depaddr : Word
  deptgt : Word
  doneaddr : Word
  stataddr : Word
  deriving DecidableEq, Repr

def packetOf (w : Vector Word 8) : Packet := ⟨w[0], w[1], w[2], w[3], w[4], w[5], w[6], w[7]⟩
def packetWords (l : List Byte) : Vector Word 8 := Vector.ofFn fun i : Fin 8 => BitVec.ofNat 64 (fieldLE l (8 * i.val) 8)

def Packet.staten (p : Packet) : Bool := p.ctl.getLsbD 26
def Packet.doneen (p : Packet) : Bool := p.ctl.getLsbD 25
def Packet.depen (p : Packet) : Bool := p.ctl.getLsbD 24
def Packet.pri (p : Packet) : Nat := (p.ctl.extractLsb' 22 2).toNat
def Packet.any (p : Packet) : Bool := p.ctl.getLsbD 21
def Packet.y0 (p : Packet) : Nat := (p.ctl.extractLsb' 11 10).toNat
def Packet.x0 (p : Packet) : Nat := (p.ctl.extractLsb' 0 11).toNat
def Packet.stride (p : Packet) : Nat := (p.ctl.extractLsb' 32 32).toNat

/-- Check 1 (R334). -/
def Packet.malformed (p : Packet) : Bool :=
  let bad := fun (a : Word) (n : Nat) => !isGlobal a || !aligned a n
  p.ctl.extractLsb' 27 5 != 0#5 || bad p.image 64 || bad p.args 64 || !isGlobal p.taskp ||
  (p.depen && bad p.depaddr 8) || (p.doneen && bad p.doneaddr 8) || (p.staten && bad p.stataddr 8) ||
  (p.any && (p.x0 != 0 || p.y0 != 0))

/-- Check 2 (R334). -/
def State.notPermitted (s : State) (vf : Nat) (src : PktSrc) (p : Packet) : Bool :=
  let w := s.cbFlags vf
  !s.cbValid vf ||
  !(match src with | .host => w.getLsbD 2 | .net _ => w.getLsbD 3 | .spawn _ _ => w.getLsbD 4) ||
  decide ((w.extractLsb' 0 2).toNat < p.pri) || decide (p.image < s.cbWord vf 0x10) || decide (s.cbWord vf 0x18 < p.image)

/-! ### Images (R147, R335) -/

/-- A section header: type, flags, address, offset, size. -/
structure Sect where
  type : Nat
  flags : Nat
  addr : Nat
  off : Nat
  size : Nat
  deriving DecidableEq, Repr

def sectOf (l : List Byte) : Sect := ⟨fieldLE l 4 4, fieldLE l 8 8, fieldLE l 16 8, fieldLE l 24 8, fieldLE l 32 8⟩

/-- The ELF header that R147 asks of an image. -/
def elfBad (l : List Byte) : Bool :=
  fieldLE l 0 4 != 0x464C457F || fieldLE l 4 1 != 2 || fieldLE l 5 1 != 1 || fieldLE l 7 1 != 0 || fieldLE l 16 2 != 2 ||
  fieldLE l 18 2 != 0x5348 || fieldLE l 48 4 != 1 || fieldLE l 58 2 != 64

/-- The section headers. -/
def State.sections (s : State) (c : PartCtx) (vf va : Nat) : Nat → Except XFault (List Sect)
  | 0 => .ok []
  | n + 1 => match s.vread c vf 0 va 64 2 with
    | .error f => .error f
    | .ok l => match s.sections c vf (va + 64) n with
      | .error f => .error f
      | .ok r => .ok (sectOf l :: r)

/-- Bytes of the first section of a type, at most `cap` of them, with its size. -/
def State.sectBytes (s : State) (c : PartCtx) (vf base type cap : Nat) (l : List Sect) : Except XFault (Option (Nat × List Byte)) :=
  match l.find? fun x => x.type == type with
  | none => .ok none
  | some x => match s.vread c vf 0 (base + x.off) (min x.size cap) (cap / 65536 + 2) with
    | .error f => .error f
    | .ok b => .ok (some (x.size, b))

/-- A list cut into pieces of n bytes. -/
def cutBytes (n : Nat) (l : List Byte) : Nat → List (List Byte)
  | 0 => []
  | m + 1 => l.take n :: cutBytes n (l.drop n) m

def tagRecord (l : List Byte) : BitVec 6 × Word := (BitVec.ofNat 6 (fieldLE l 0 1), BitVec.ofNat 64 (fieldLE l 8 8))
def tagRecordBad (l : List Byte) : Bool :=
  decide (64 ≤ fieldLE l 0 1) || fieldLE l 1 7 != 0 || tagBad (BitVec.ofNat 64 (fieldLE l 8 8))
def groupRecord (l : List Byte) : Nat × Bool × BitVec 192 :=
  (fieldLE l 0 1, fieldLE l 1 1 % 2 == 1, BitVec.ofNat 192 (fieldLE l 8 24))
def groupRecordBad (l : List Byte) : Bool :=
  decide (1 < fieldLE l 1 1) || fieldLE l 2 6 != 0 || (BitVec.ofNat 192 (fieldLE l 8 24)).extractLsb' 168 24 != 0#24

/-- What was read of an image; whether its sections were well formed, its `.text` was, and its shape and group records were. -/
structure ImageRead where
  img : Image
  ok : Bool
  text : Bool
  lists : Bool
  deriving DecidableEq, Repr

/-- The image from its sections' bytes. -/
def imageFrom (entry : Word) (text : Option Sect) (shape tags groups sram : Option (Nat × List Byte)) : ImageRead :=
  let sh := (shape.getD (0, [])).2
  let w0 := BitVec.ofNat 64 (fieldLE sh 0 8)
  let w := (w0.extractLsb' 0 16).toNat
  let h := (w0.extractLsb' 16 16).toNat
  let n := (w0.extractLsb' 32 8).toNat
  let stack := (w0.extractLsb' 40 17).toNat
  let t := tags.getD (0, [])
  let g := groups.getD (0, [])
  let b := sram.getD (0, [])
  let ts := cutBytes 16 t.2 (t.2.length / 16)
  let gs := cutBytes 32 g.2 (g.2.length / 32)
  let x := text.getD ⟨0, 0, 0, 0, 0⟩
  let shapeOk := shape.map (·.1) == some 16 && w0.extractLsb' 57 7 == 0#7 && 1 ≤ w && w ≤ 1152 && 1 ≤ h && h ≤ 896 &&
    1 ≤ n && n ≤ 4 && stack % 16 == 0 && n * stack ≤ 65536
  let textOk := text.isSome && x.addr % 2048 == 0 && x.size % 2048 == 0 && x.addr ≤ entry.toNat / 64 * 64 &&
    entry.toNat < x.addr + x.size && entry &&& ~~~(0x0FFFFFFFFFFFFFDF#64) == 0
  let groupsOk := g.1 % 32 == 0 && g.1 ≤ 32 * 256 && !(gs.any groupRecordBad)
  { img := { entry := entry, text := BitVec.ofNat 64 x.addr, textSize := x.size, tags := ts.map tagRecord,
             groups := gs.map groupRecord, sram := b.2, w := w, h := h, s := n, stack := stack,
             gp := BitVec.ofNat 64 (fieldLE sh 8 8) }
    text := textOk
    lists := shapeOk && groupsOk
    ok := shapeOk && textOk && t.1 % 16 == 0 && t.1 ≤ 16 * 64 && !(ts.any tagRecordBad) && groupsOk && b.1 ≤ 65536 - n * stack }

/-- Frames in the order of R22: the entry's block, the later ones, then the earlier ones, at most 16. -/
def Image.blocks (i : Image) : List Nat :=
  let n := i.textSize / 2048
  let e := (i.entry.toNat - i.text.toNat) / 2048
  (List.range (min n 16)).map fun b => i.text.toNat + 2048 * ((e + b) % n)

/-- The fault of a block that cannot be read with the checks of FRMLD (R22). -/
def State.blockFault (s : State) (c : PartCtx) (vf b : Nat) : Option XFault :=
  match s.translateIn c vf (BitVec.ofNat 64 b) 6 true false with
  | .error f => some f
  | .ok _ => none

/-- What the blocks' faults refuse a launch with: 4 where the entry's block alone lacks X permission, else 3 (R22, R334). -/
def blocksCode : List (Option XFault) → Option Nat
  | [] => none
  | f :: l =>
    if l.any Option.isSome then some 3
    else f.map fun x => if x.kind = 4 then 4 else 3

/-- Read an image (R334 checks 3 and 4): refusal code, or what it holds. Check 3 comes before check 4: what a malformed header or
section leaves to be read is read first. -/
def State.readImage (s : State) (c : PartCtx) (vf : Nat) (p : Packet) : Except Nat ImageRead :=
  let base := p.image.toNat
  match s.vread c vf 0 base 64 2, if p.args = 0 then .ok [] else s.vread c vf 0 p.args.toNat 64 2 with
  | .error _, _ => .error 3
  | .ok _, .error _ => .error 3
  | .ok hd, .ok _ =>
    if elfBad hd then .error 4
    else match s.sections c vf (base + fieldLE hd 40 8) (fieldLE hd 60 2) with
      | .error _ => .error 3
      | .ok l =>
        let get := fun (ty cap : Nat) => s.sectBytes c vf base ty cap l
        match get 0x70000002 16, get 0x70000003 1024, get 0x70000004 8192, get 0x70000001 65536 with
        | .ok sh, .ok t, .ok g, .ok b =>
          let text := l.find? fun x => x.type == 1 && x.flags / 4 % 2 == 1
          let r := imageFrom (BitVec.ofNat 64 (fieldLE hd 24 8)) text sh t g b
          match if r.text then blocksCode (r.img.blocks.map (s.blockFault c vf)) else none with
          | some n => .error n
          | none => .ok r
        | _, _, _, _ => .error 3

/-- What the dispatcher reads of a packet's launch: the argument block, the headers and the sections. -/
def State.imageReads (s : State) (c : PartCtx) (vf : Nat) (p : Packet) : List (Nat × Nat) :=
  let base := p.image.toNat
  (if p.args = 0 then [] else [(p.args.toNat, 64)]) ++ (base, 64) ::
    match s.vread c vf 0 base 64 2 with
    | .error _ => []
    | .ok hd =>
      let at_ := base + fieldLE hd 40 8
      (at_, 64 * fieldLE hd 60 2) :: match s.sections c vf at_ (fieldLE hd 60 2) with
        | .error _ => []
        | .ok l => [(0x70000002, 16), (0x70000003, 1024), (0x70000004, 8192), (0x70000001, 65536)].filterMap fun e =>
          (l.find? fun x => x.type == e.1).map fun x => (base + x.off, min x.size e.2)

/-! ### Groups of a launch (R87, R88, R335) -/

/-- An entry with N filled in where ALL = 1. -/
def allEntry (all : Bool) (n : Nat) (e : BitVec 192) : BitVec 192 :=
  if all then e.extractLsb' 128 64 ++ BitVec.ofNat 22 n ++ e.extractLsb' 60 46 ++ 0#60 else e

/-- The templates with their members: `none` where a member list cannot be read. -/
def State.templates (s : State) (c : PartCtx) (vf n : Nat) :
    List (Nat × Bool × BitVec 192) → Option (List (Nat × BitVec 192 × List Nat))
  | [] => some []
  | (g, all, e) :: l =>
    let e' := allEntry all n e
    let cnt := min (geN e') (n + 1)
    let ms := if all then some (List.range n)
      else match s.vread c vf 0 (geList e') (4 * cnt) (4 * cnt / 65536 + 2) with
        | .ok b => some ((cutBytes 4 b cnt).map leBytes)
        | .error _ => none
    match ms, s.templates c vf n l with
    | some m, some r => some ((g, e', m) :: r)
    | _, _ => none

/-- An entry made valid for a launch: HOME is the field of the lowest-ranked member's core (R146), LAUNCH its number. -/
def launchEntry (e : BitVec 192) (home num : Nat) : BitVec 192 :=
  1#1 ++ BitVec.ofNat 7 home ++ BitVec.ofNat 16 num ++ e.extractLsb' 0 168

/-- Memberships of a rank: its groups in ascending number, gm0 upward (R335). -/
def gmOf (ts : List (Nat × BitVec 192 × List Nat)) (rank : Nat) : Vector Word 4 :=
  let gs := (List.range 256).filter fun g => ts.any fun t => t.1 == g && t.2.2.contains rank
  Vector.ofFn fun i : Fin 4 => match gs[i.val]? with | some g => gmWord g 0 0 | none => 0

/-- Groups that hold a rank. -/
def groupsOfRank (ts : List (Nat × BitVec 192 × List Nat)) (rank : Nat) : Nat :=
  (ts.filter fun t => t.2.2.contains rank).length

/-- Check 6 (R334). -/
def templatesBad (c : PartCtx) (n : Nat) (ts : List (Nat × BitVec 192 × List Nat)) : Bool :=
  ts.any (fun t => !geOk t.2.1 t.2.2 n || geV ((mget c.groups t.1).getD Group.unset).entry ||
    1 < (ts.filter fun u => u.1 == t.1).length) ||
  (4 < ts.length && (List.range n).any fun r => 4 < groupsOfRank ts r)

/-! ### Floors (R348) -/

/-- Length that two intervals share. -/
def shared (a n b m : Nat) : Nat := min (a + n) (b + m) - max a b

/-- Rows of logical cores that a rail feeds: whether a core is on rail r (R349). -/
def onRail (r : Nat) (k : CoreId) : Bool := fieldOf k == r / 4 && (bandOf k).val == r % 4

/-- Cores of a rectangle on a rail (R349). -/
def railCores (r x0 y0 w h : Nat) : Nat :=
  let f := r / 4
  shared x0 w (fieldX f * 96) 96 * shared y0 h (fieldY f * 128 + r % 4 * 32) 32

/-- A launch holds its cores from its placement to its completion (R336 to R339). -/
def Launch.holding (l : Launch) : Bool := l.st == .loading || l.st == .running || l.st == .completing

/-- Cores that a VF's launches hold in a partition, where it runs or where it has been saved; a move takes a core and frees one
(R337, R359). -/
def State.vfHeld (s : State) (p vf : Nat) : List CoreId :=
  ((s.cores ++ ((mget (s.part p).saved vf).map (·.2)).getD []).filter fun e =>
    e.2.held.any fun h => h.part == p && h.vf == vf).map (·.1)

/-- A partition's floor on a rail, in µW, with one more rectangle held by a VF. -/
def State.railFloor (s : State) (p r : Nat) (more : Option (Nat × Nat × Nat × Nat × Nat)) : Nat :=
  let x := s.part p
  let vs := (x.launches.map (·.vf) ++ (more.map (·.1)).toList).eraseDups
  (vs.map fun v =>
    let add := match more with
      | some (v', x0, y0, w, h) => if v' = v then railCores r x0 y0 w h else 0
      | none => 0
    s.floorOf v * (((s.vfHeld p v).filter (onRail r)).length + add)).foldl max 0

/-- The admission test: the sum of all floors within 21 kW, and each rail's within its sustained limit. -/
def State.admits (s : State) (p vf x0 y0 w h : Nat) : Bool :=
  let rails := fun (x : Partition) => x.fields.flatMap fun f => (List.range 4).map fun b => 4 * f + b
  let more := some (vf, x0, y0, w, h)
  let own := (rails (s.part p)).map fun r => (r, s.railFloor p r more)
  let others := (s.parts.filter fun e => e.1 != p && e.2.valid).map fun e =>
    ((rails e.2).map fun r => s.railFloor e.1 r none).sum
  (own.map (·.2)).sum + others.sum ≤ 21000000000 &&
  own.all fun e => e.2 ≤ ((s.rail e.1).ctl.extractLsb' 24 16).toNat * 10000

/-! ### Validation (R334) -/

/-- The rectangle of a partition in cores. -/
def Partition.holdsRect (x : Partition) (x0 y0 w h : Nat) : Bool :=
  x.fx0 * 96 ≤ x0 && x0 + w ≤ (x.fx0 + x.fw) * 96 && x.fy0 * 128 ≤ y0 && y0 + h ≤ (x.fy0 + x.fh) * 128

/-- Check 5. -/
def State.shapeBad (s : State) (p vf : Nat) (k : Packet) (i : Image) : Bool :=
  let x := s.part p
  (if k.any then !(i.w ≤ x.fw * 96 && i.h ≤ x.fh * 128) else !x.holdsRect k.x0 k.y0 i.w i.h) ||
  decide (x.fw * 96 * (x.fh * 128) < i.w * i.h) || decide (s.maxCores vf < (s.vfHeld p vf).length + i.w * i.h)

/-- Resident launches of a VF in the module. -/
def State.vfLaunches (s : State) (vf : Nat) : List Nat :=
  s.parts.flatMap fun e => (e.2.launches.filter fun l => l.vf == vf).map (·.num)

/-- Check 7. -/
def State.full (s : State) (p vf : Nat) : Bool :=
  decide (1024 ≤ ((s.part p).launches.filter fun l => l.st == .held || l.st == .queued).length) ||
  decide (65535 ≤ (s.vfLaunches vf).length)

/-- Every check in order: the code of the first that fails, or the image. -/
def State.validate (s : State) (p vf : Nat) (src : PktSrc) (k : Packet) : Except Nat Image :=
  let c := (s.part p).vfCtx vf
  if k.malformed then .error 1
  else if s.notPermitted vf src k then .error 2
  else match s.readImage c vf k with
    | .error n => .error n
    | .ok r =>
      match (if r.lists then s.templates c vf r.img.ranks r.img.groups else some []) with
      | none => .error 3
      | some ts =>
        if !r.ok then .error 4
        else if s.shapeBad p vf k r.img then .error 5
        else if templatesBad c r.img.ranks ts then .error 6
        else if s.full p vf then .error 7
        else if !k.any && !s.admits p vf k.x0 k.y0 r.img.w r.img.h then .error 8
        else .ok r.img

/-- The next launch number of a VF (R27). -/
def nextNumber (held : List Nat) (last : Nat) : Nat → Nat
  | 0 => 0
  | fuel + 1 =>
    let n := (last + 1) % 65536
    if n = 0 ∨ held.contains n then nextNumber held n fuel else n

/-- The status word (R274). -/
def statusWord (code num : Nat) : Word :=
  if code = 0 then BitVec.ofNat 64 num else 1#1 ++ 0#7 ++ BitVec.ofNat 8 code ++ 0#48

/-- A hub's own write of 8 bytes; one to another module's window is performed there (R401). -/
def State.hubWrite (s : State) (p d v : Nat) : State :=
  if !isRemote d then s.gwrite d 8 v
  else if s.peerDown d then s
  else s.sendFrame (coreAt ((s.part p).fx0 * 96) ((s.part p).fy0 * 128)) d .post

/-- The status store (R334): one that faults is dropped. -/
def State.writeStatus (s : State) (p : Nat) (c : PartCtx) (vf : Nat) (k : Packet) (w : Word) : State :=
  if !k.staten || !isGlobal k.stataddr || !aligned k.stataddr 8 then s
  else match s.translateIn c vf k.stataddr 1 true false with
    | .error _ => s
    | .ok (d, _) => (s.hubWrite p d w.toNat).chargeQuay (s.quayOf d) vf 8

/-- SPAWN's answer (R274), for the slot that waits for it. -/
def State.answerSpawn (s : State) (src : PktSrc) (w : Word) : State :=
  match src with
  | .spawn k sl => s.modSlot k sl fun x => if x.asked then { x with reply := some (.value w) } else x
  | _ => s

/-- The launch of an accepted packet (R336). -/
def State.newLaunch (s : State) (p vf num : Nat) (ws : Vector Word 8) (img : Image) : Launch :=
  let k := packetOf ws
  let args := match s.vread ((s.part p).vfCtx vf) vf 0 k.args.toNat 64 2 with
    | .ok l => if k.args = 0 then Vector.replicate 8 0 else packetWords l
    | .error _ => Vector.replicate 8 0
  { vf := vf, num := num, st := if k.depen then .held else .queued, packet := ws, args := args, img := img,
    x0 := k.x0, y0 := k.y0, loaded := false, met := false,
    order := (((s.part p).launches.map (·.order)).foldl max 0) + 1 }

/-- A held launch watches its counter (R336). -/
def State.watchDep (s : State) (p vf num : Nat) (k : Packet) : State :=
  if !k.depen then s
  else match s.translateIn ((s.part p).vfCtx vf) vf k.depaddr 0 true false with
    | .error _ => s
    | .ok (d, _) => { s with deps := s.deps ++ [⟨p, vf, num, d, k.deptgt.toNat⟩] }

def State.dropDep (s : State) (p vf num : Nat) : State :=
  { s with deps := s.deps.filter fun w => !(w.part == p && w.vf == vf && w.num == num) }

/-- The packet is taken: accepted under a number, or refused with a code. -/
def State.takePacket (s : State) (p : Nat) (src : PktSrc) (vf : Nat) (bytes : List Byte) : State :=
  let ws := packetWords bytes
  let k := packetOf ws
  let c := (s.part p).vfCtx vf
  let r := s.validate p vf src k
  let s := if k.malformed || s.notPermitted vf src k then s else s.chargeVas c vf 0 (s.imageReads c vf k)
  match r with
  | .error n =>
    ((s.modVf vf fun v => { v with refused := v.refused + 1 }).writeStatus p c vf k (statusWord n 0)).answerSpawn src
      (statusWord n 0)
  | .ok img =>
    let num := nextNumber (s.vfLaunches vf) (s.vf vf).lastLaunch 65536
    let l := s.newLaunch p vf num ws img
    let s := s.modVf vf fun v => { v with accepted := v.accepted + 1, lastLaunch := num }
    let s := (s.modPart p fun x => { x with launches := x.launches ++ [l] }).watchDep p vf num k
    (s.writeStatus p c vf k (statusWord 0 num)).answerSpawn src (statusWord 0 num)

def PktSrc.isSpawn : PktSrc → Bool
  | .spawn _ _ => true
  | _ => false

/-- Packets that the host quay of a VF holds for a partition (R395, R397). -/
def Partition.hostHolds (x : Partition) (vf : Nat) : Nat := (x.packets.filter fun q => q.1 == .host && q.2.1 / 256 == vf / 256).length

/-- The packet that the dispatcher looks at next: the first one; in a switch, when those of the quays are held (R305, R308), the
first of a SPAWN (R333). -/
def Partition.packetDue (x : Partition) : Option Nat :=
  match x.phase with
  | .run => if x.packets.isEmpty then none else some 0
  | _ => x.packets.findIdx? fun q => q.1.isSpawn

/-- LAUNCH_PACKET (R333, R334). -/
def execLaunchPacket (p : Nat) (s : State) : Host.Outcome State Fault Refusal :=
  event s
    (let x := s.part p
     if !x.valid then none
     else x.packetDue.bind fun i => x.packets[i]?.map fun q =>
       (s.modPart p fun x => { x with packets := x.packets.eraseIdx i }).takePacket p q.1 q.2.1 q.2.2)

/-- LAUNCH_APERTURE_WRITE (R333, R396): a whole aligned write is a packet for the dispatcher of a partition; at most 16
packets are held for it at the quay while it is out, and a further one is not taken until then (R397); any other write to the
aperture is discarded and counted; the counts and the reserved offsets beyond it take no write. -/
def execLaunchApertureWrite (vf part off : Nat) (bytes : List Byte) (s : State) : Host.Outcome State Fault Refusal :=
  event s
    (let x := s.part part
     if !x.valid || 512 ≤ vf || (x.phase != .run && off < 0x40 && 16 ≤ x.hostHolds vf) then none
     else if 0x40 ≤ off then some s
     else if off != 0 || bytes.length != 64 then some (s.modVf vf fun v => { v with refused := v.refused + 1 })
     else some (s.modPart part fun x => { x with packets := x.packets ++ [(.host, vf, bytes)] }))

/-! ### Dependences and placement (R336, R337) -/

def State.modLaunch (s : State) (p vf num : Nat) (f : Launch → Launch) : State :=
  s.modPart p fun x => { x with launches := x.launches.map fun l => if l.vf == vf && l.num == num then f l else l }

/-- DEPENDENCE_SATISFIED (R336): a held launch whose counter, read as unsigned, has reached its target, now or at a write since
it was accepted. -/
def execDependenceSatisfied (p i : Nat) (s : State) : Host.Outcome State Fault Refusal :=
  event s
    (match (s.part p).launches[i]? with
     | none => none
     | some l =>
       let k := packetOf l.packet
       let go := (s.modLaunch p l.vf l.num fun l => { l with st := .queued }).dropDep p l.vf l.num
       if l.st != .held then none
       else if l.met then some go
       else match s.translateIn ((s.part p).vfCtx l.vf) l.vf k.depaddr 0 true false with
         | .error _ => none
         | .ok (d, _) =>
           if k.deptgt.toNat ≤ s.homeLE d 8 then some go else none)

/-- The cores of a rectangle. -/
def rectCores (x0 y0 w h : Nat) : List CoreId := (List.range h).flatMap fun j => (List.range w).map fun i => coreAt (x0 + i) (y0 + j)

/-- A core that no launch holds and no move is bound for, on a rail that has not tripped, and not fenced off (R374). -/
def State.coreFree (s : State) (p : Nat) (k : CoreId) : Bool :=
  let c := s.core k
  c.held.isNone && !c.regs.stuck && (c.slots.toList.all fun x => x.st == .empty) && (c.streams.toList.all Option.isNone) &&
  !((s.part p).moves.any fun m => m.toCore == k) && !((s.field (fieldOf k)).rails[bandOf k]).trip

def State.rectFree (s : State) (p x0 y0 w h : Nat) : Bool :=
  (s.part p).holdsRect x0 y0 w h && (rectCores x0 y0 w h).all (s.coreFree p)

/-- A goes before B in the queue (R337). -/
def Launch.before (a b : Launch) : Bool :=
  (packetOf b.packet).pri < (packetOf a.packet).pri || ((packetOf b.packet).pri == (packetOf a.packet).pri && a.order < b.order)

/-- The head of the queue of the current VF. -/
def Partition.queueHead (x : Partition) : Option Launch :=
  ((x.launches.filter fun l => l.st == .queued && some l.vf == x.current)).foldl
    (fun b l => match b with | none => some l | some m => if l.before m then some l else some m) none

/-- The first corner for an ANY launch, in ascending Y0 and then X0. -/
def State.anyCorner (s : State) (p w h : Nat) : Option (Nat × Nat) :=
  let x := s.part p
  (List.range (x.fh * 128 + 1 - h)).findSome? fun j =>
    ((List.range (x.fw * 96 + 1 - w)).find? fun i => s.rectFree p (x.fx0 * 96 + i) (x.fy0 * 128 + j) w h).map fun i =>
      (x.fx0 * 96 + i, x.fy0 * 128 + j)

/-- Where the head of the queue goes, if it can be placed now. -/
def State.cornerFor (s : State) (p : Nat) (l : Launch) : Option (Nat × Nat) :=
  let k := packetOf l.packet
  if k.any then
    match s.anyCorner p l.img.w l.img.h with
    | none => none
    | some (x, y) => if s.admits p l.vf x y l.img.w l.img.h then some (x, y) else none
  else if s.rectFree p k.x0 k.y0 l.img.w l.img.h then some (k.x0, k.y0) else none

/-! ### Loading (R338) -/

/-- The frames of a launch, loaded through its translation; a block that cannot be read leaves its frame empty. -/
def State.launchFrames (s : State) (c : PartCtx) (vf : Nat) (i : Image) : List Frame :=
  i.blocks.map fun b => match s.translateIn c vf (BitVec.ofNat 64 b) 6 true false with
    | .ok (d, _) => ⟨some ((BitVec.ofNat 64 b).extractLsb' 11 49), s.codeLines d, true⟩
    | .error _ => Frame.empty

/-- Step 3 takes the tag templates and the SRAM initialisation from the image as it then is; where it no longer reads as a valid
image with as many bytes, as validation had them (DESIGN CHOICE, entry 88). -/
def State.imageNow (s : State) (c : PartCtx) (vf : Nat) (k : Packet) (i : Image) : Image :=
  match s.readImage c vf k with
  | .ok r => if r.ok ∧ r.img.sram.length = i.sram.length then { i with tags := r.img.tags, sram := r.img.sram } else i
  | .error _ => i

/-- A core loaded for a launch (R20 to R24, R28, R338 steps 1 and 3): its shared state is at its launch values. -/
def Core.load (c : Core) (ms : Nat) (h : Held) (i : Image) (frames : List Frame) : Core :=
  let touched := (i.sram.length + 15) / 16
  { c with
    held := some h
    mem := { sram := (Memory.writeBytes [] 0 i.sram), full := setFullRun 0 0 touched true,
             frames := Vector.ofFn fun n : Fin 16 => frames.getD n.val Frame.empty,
             sem := Vector.replicate 256 0, sf := 0, semQ := [],
             tags := i.tags.foldl (fun (v : Vector TagEnt 64) t => v.set t.1.toFin (TagEnt.write ⟨0, 0, 0⟩ t.2))
               (Vector.replicate 64 ⟨0, 0, 0⟩),
             shapes := Vector.replicate 8 0 }
    unit := { Units.wiped with tokens := c.unit.tokens, stalls := c.unit.stalls }
    parked := []
    berths := Vector.replicate 4 Berth.closed
    arr := c.arr.map fun q => q.filter fun m => m.kind == .notice || m.kind == .sysmsg
    seqOut := [], seqIn := [], locks := [], vops := [], gaccs := [], notices := [], heldAdds := [], handler := none
    regs := { c.regs with ce := [], ue := [], strflt := Vector.replicate 8 0, sfdet := Vector.replicate 8 0 }.charge ms h.vf 30
      (32 * frames.length) }

/-- The group-table entries of a launch (R338 step 2). -/
def State.putGroups (s : State) (p : Nat) (h : Held) (ts : List (Nat × BitVec 192 × List Nat)) : State :=
  ts.foldl (fun s t =>
    let lowest := t.2.2.headD 0
    s.setGroup p t.1 (newGroup (launchEntry t.2.1 (fieldOf (h.home lowest).1) h.launch) t.2.2)) s

/-- LAUNCH_PLACE (R337, R338 steps 1 to 4): the head of the current VF's queue is placed, and its cores are loaded. -/
def execLaunchPlace (p : Nat) (s : State) : Host.Outcome State Fault Refusal :=
  event s
    (if (s.part p).phase != .run then none
     else match (s.part p).queueHead with
       | none => none
       | some l => match s.cornerFor p l with
         | none => none
         | some (x0, y0) =>
           let place := placeCore (coreAt ((s.part p).fx0 * 96) ((s.part p).fy0 * 128))
           let any := (packetOf l.packet).any
           match (if any then s.order p place 0 10 l.num (packPos (coreAt x0 y0)).toNat else .ok s) with
           | .error s => some s
           | .ok s =>
             let c := (s.part p).ctx
             let h : Held := ⟨p, l.vf, l.num, x0, y0, l.img.w, l.img.h, l.img.s⟩
             let img := s.imageNow c l.vf (packetOf l.packet) l.img
             let fs := s.launchFrames c l.vf l.img
             let s := (s.chargeVas c l.vf 0 (s.imageReads c l.vf (packetOf l.packet))).chargeVas c l.vf 6 (l.img.blocks.map fun b => (b, 2048))
             let s := s.putGroups p h ((s.templates c l.vf l.img.ranks l.img.groups).getD [])
             let s := (rectCores x0 y0 l.img.w l.img.h).foldl (fun s k => s.modCore k fun c => c.load (s.mscale k) h img fs) s
             some ((s.modLaunch p l.vf l.num fun l => { l with st := .loading, img := img, x0 := x0, y0 := y0, loaded := true }).releaseNet p))

/-! ### Starting (R28, R338 steps 5 and 6) -/

/-- Launch values of a slot (R28, R338). -/
def launchSlot (l : Launch) (rank : Nat) (sl : Nat) (gm : Vector Word 4) (now : Nat) : Slot :=
  let k := packetOf l.packet
  let sbase : Word := 0xE000000000010000#64 - BitVec.ofNat 64 (sl * l.img.stack)
  let taskp : Word := if k.taskp = 0 then 0 else BitVec.ofNat 64 ((k.taskp.toNat + rank * k.stride) % 2 ^ 60)
  let g := Vector.ofFn fun i : Fin 32 =>
    if i.val = 2 then sbase
    else if 4 ≤ i.val ∧ i.val ≤ 11 then l.args[i.val - 4]?.getD 0
    else if i.val = 28 then l.img.gp
    else if i.val = 29 then taskp
    else 0
  { Slot.wiped with
    r := { Regs.zero with g := g, p := Vector.ofFn fun i : Fin 8 => if i = 0 then 0xFFFF else 0, gm := gm },
    t := { TrapRegs.zero with sbase := sbase, slim := sbase - BitVec.ofNat 64 l.img.stack },
    st := .ready, pc := l.img.entry, readyAt := now,
    gtid := mkGtid l.vf l.num (BitVec.ofNat 22 rank) }

/-- The eight words at ARGS as step 5 finds them; where they can no longer be read, as validation had them (DESIGN CHOICE,
entry 88). -/
def State.argsNow (s : State) (c : PartCtx) (l : Launch) : Vector Word 8 :=
  let k := packetOf l.packet
  if k.args = 0 then Vector.replicate 8 0
  else match s.vread c l.vf 0 k.args.toNat 64 2 with
    | .ok b => packetWords b
    | .error _ => l.args

/-- The tasks of one core start. -/
def State.startCore (s : State) (l : Launch) (h : Held) (ts : List (Nat × BitVec 192 × List Nat)) (k : CoreId) : State :=
  ((List.finRange 4).filter fun n => decide (n.val < l.img.s)).foldl (fun s n =>
    let rank := h.rankAt k n
    s.modSlot k n fun _ => launchSlot l rank n.val (gmOf ts rank) s.now) s

/-- LAUNCH_START (R338 steps 5 and 6): every core is loaded, and the tasks start. -/
def execLaunchStart (p i : Nat) (s : State) : Host.Outcome State Fault Refusal :=
  event s
    (match (s.part p).launches[i]? with
     | none => none
     | some l =>
       if l.st != .loading || !l.loaded || (s.part p).phase != .run || some l.vf != (s.part p).current then none
       else
         let h : Held := ⟨p, l.vf, l.num, l.x0, l.y0, l.img.w, l.img.h, l.img.s⟩
         let l := { l with args := s.argsNow (s.part p).ctx l }
         let ts := (s.part p).ctx.groups.filterMap fun e =>
           if geV e.2.entry && geLaunch e.2.entry == l.num then some (e.1, e.2.entry, e.2.members.map fun m => m.rank.toNat) else none
         let s := (rectCores l.x0 l.y0 l.img.w l.img.h).foldl (fun s k => s.startCore l h ts k) s
         some (s.modLaunch p l.vf l.num fun y => { y with st := .running, args := l.args }))

/-! ### Completion (R339) -/

/-- Whether a launch has a task, or an access or operation of one still under way. -/
def Core.busyFor (c : Core) (vf num : Nat) : Bool :=
  let mine := fun (g : Word) => gtidVf g == vf && gtidLaunch g == num
  (c.slots.toList.any fun x => x.st != .empty && mine x.gtid) || (c.gaccs.any fun a => mine a.gtid) ||
  (c.streams.toList.any fun o => match o with | some t => mine t.gtid | none => false) ||
  c.heldAdds.any fun a => mine a.2.2.2.2.2

/-- A core that a launch held is free. -/
def Core.free (c : Core) (vf num : Nat) : Core :=
  match c.held with
  | some h => if h.vf = vf ∧ h.launch = num then { c with held := none } else c
  | none => c

/-- SUPR and HSUPR that name a task of the launch are 0 (R408). -/
def CoreRegs.forget (r : CoreRegs) (vf num : Nat) : CoreRegs :=
  let clr := fun (w : Word) => if w ≠ 0 ∧ gtidVf w = vf ∧ gtidLaunch w = num then 0 else w
  { r with supr := clr r.supr, hsupr := clr r.hsupr }

/-- A withdrawal by a task of a launch. -/
def HubMsg.withdraws (m : HubMsg) (num : Nat) : Bool := match m with | .withdraw _ _ l => l == num | _ => false

/-- Hub traffic of a partition without what names a group that has gone. -/
def PartCtx.dropHub (c : PartCtx) (gone : List (Nat × Group)) : PartCtx :=
  { c with hub := c.hub.filter fun m => match m.group with | some (g, _) => (mget gone g).isNone | none => true }

/-- The launch leaves the machine: its cores, its group-table entries with what their rounds hold (R343), its network counters
(R402) and the launch. -/
def State.endLaunch (s : State) (p vf num : Nat) : State :=
  let s : State := { s with
    cores := s.cores.map fun e =>
      let c := e.2.free vf num
      (e.1, { c with regs := c.regs.forget vf num })
    quays := s.quays.map fun e => (e.1, { e.2 with injSeq := e.2.injSeq.filter fun q => q.1 / 2 ^ 22 != vf * 2 ^ 16 + num }) }
  let mine := fun (g : Nat × Group) => geV g.2.entry && geLaunch g.2.entry == num
  let gone := (s.part p).ctx.groups.filter mine
  let s := (s.freeAll p gone).modCtx p fun c => { c.dropHub gone with groups := c.groups.filter fun g => !mine g }
  (s.dropDep p vf num).modPart p fun x => { x with launches := x.launches.filter fun l => !(l.vf == vf && l.num == num) }

/-- The completion add (R339); where it faults it is dropped and the device manager is told. -/
def State.doneAdd (s : State) (p vf : Nat) (k : Packet) : State :=
  if !k.doneen then s
  else match s.translateIn (s.part p).ctx vf k.doneaddr 5 true false with
    | .error f => s.plainNotice (coreAt ((s.part p).fx0 * 96) ((s.part p).fy0 * 128)) 0 f.cause k.doneaddr
    | .ok (d, _) => (s.hubWrite p d ((s.gmem.readLE d 8 + 1) % 2 ^ 64)).chargeQuay (s.quayOf d) vf 8

/-- LAUNCH_COMPLETE (R339): every task is EMPTY, every access and command of them is performed, and their withdrawals have reached
their homes (R92, R289; DEDUCED, entry 95); the cores and groups are freed and the completion add is made. -/
def execLaunchComplete (p i : Nat) (s : State) : Host.Outcome State Fault Refusal :=
  event s
    (match (s.part p).launches[i]? with
     | none => none
     | some l =>
       if l.st != .running || (s.part p).phase != .run || some l.vf != (s.part p).current then none
       else if s.cores.any fun e => s.partOf e.1 == some p && e.2.busyFor l.vf l.num then none
       else if (s.part p).ctx.hub.any fun m => m.withdraws l.num then none
       else some ((s.endLaunch p l.vf l.num).doneAdd p l.vf (packetOf l.packet)))

end Sys2Proof.Machine
end

