-- ==== Sys2Proof/Machine/Tensor.lean ====
section
/-! DEFINITION. The arithmetic and the flow of the tensor unit: sums of R56 into accumulators by R57, operand flits and
tokens (08 R219 to R222, 10 R282), and faults in a run (R231). -/

namespace Sys2Proof.Machine

/-! ### Exact sums into an accumulator (R56, R57, R405) -/

/-- The exact sum of a group's products. -/
inductive TSum where
  | nan (nv : Bool)
  | inf (neg : Bool)
  | fin (i : Int) (e : Int) (negZero : Bool)

/-- An exact product of two operands (R56). -/
def prodOf (x y : FV) : TSum :=
  if x.isNan || y.isNan then .nan (x.isSig || y.isSig)
  else match x.mul y with
    | none => .nan true
    | some (.inf a) => .inf a
    | some (.fin a m e) => .fin (sgn a m) e (a && m == 0)
    | some (.nan _ _) => .nan false

/-- A zero sum is −0 only when every term is −0 (R405). -/
def TSum.add : TSum → TSum → TSum
  | .nan a, .nan b => .nan (a || b)
  | .nan a, _ => .nan a
  | _, .nan b => .nan b
  | .inf a, .inf b => if a = b then .inf a else .nan true
  | .inf a, _ => .inf a
  | _, .inf b => .inf b
  | .fin i e z, .fin j g w => let (k, h) := dyAdd i e j g; .fin k h (z && w)

def TSum.sum : List TSum → TSum
  | [] => .fin 0 0 false
  | [x] => x
  | x :: l => x.add (TSum.sum l)

def fltMax (neg : Bool) : Nat := signOf fmtF32 neg + fmtF32.top

/-- The finite path of R57: T, then s = c + T, each saturating at FLT_MAX. -/
def accFin (c : Nat) (i : Int) (e : Int) (nz : Bool) : Nat × BitVec 8 :=
  let neg := decide (i < 0) || nz
  let r := fmtF32.roundInt .rne i e nz
  let big := decide ((2 ^ 24 - 1) * 2 ^ (104 - e).toNat < i.natAbs * 2 ^ (e - 104).toNat)
  let small := i != 0 && r.1 % 2 ^ 31 == 0
  let (t, f) : (Int × Int × Bool) × BitVec 8 :=
    if big then ((sgn neg (2 ^ 24 - 1), 104, false), flagAOV)
    else if small then ((0, 0, neg), flagUF)
    else ((i, e, nz), 0)
  match fmtF32.unpack c with
  | .nan _ sig => (fmtF32.quiet c, f ||| flagNF ||| (if sig then flagNV else 0))
  | .inf a => (fltMax a, f ||| flagAOV)
  | .fin a m g =>
    let (s, h) := dyAdd (sgn a m) g t.1 t.2.1
    let (x, fl) := fmtF32.roundInt .rne s h (s == 0 && m == 0 && a && t.1 == 0 && t.2.2)
    if fl &&& flagOF != 0 then (fltMax (decide (s < 0)), f ||| flagAOV)
    else
      let sub := x % 2 ^ 31 != 0 && decide (x % 2 ^ 31 < 2 ^ 23)
      (x, f ||| (if sub && fl &&& flagNX != 0 then flagUF else 0))

/-- Add a group's sum into an accumulator element (R57). A T that is NaN from an operand's NaN gives the default NaN where c
is none (DESIGN CHOICE, entry 89: the spec gives T no payload). -/
def accAdd (c : Nat) (t : TSum) : Nat × BitVec 8 :=
  match t with
  | .fin i e nz => accFin c i e nz
  | .nan nv => fmtF32.withNF ((fmtF32.nanOf [c]).getD (fmtF32.nan, 0) |> fun r => (r.1, r.2 ||| (if nv then flagNV else 0)))
  | .inf a => fmtF32.withNF ((fmtF32.nanOf [c]).getD (fmtF32.addV .rne (fmtF32.unpack c) (.inf a)))

/-- A scale of 0xFF in the group (R57). -/
def accNan : Nat × BitVec 8 := (fmtF32.nan, flagNV ||| flagNF)

/-! ### Formats (R219, R220) -/

/-- Operand flits of a block in each direction. -/
def flitsOf : FullTy → Nat
  | .pb4 => 8
  | .mx4 => 16
  | .pb8 => 16
  | .f16 => 64
  | .bf16 => 64
  | _ => 32

/-- Flits of a fused group (R56). -/
def groupFlits : FullTy → Nat
  | .pb8 => 16
  | _ => 8

/-- k-steps that a run's count must be a multiple of (R230). -/
def kMultiple : FullTy → Nat
  | .pb4 => 16
  | .pb8 => 16
  | .mx4 => 16
  | .f16 => 4
  | .bf16 => 4
  | _ => 8

def is16 : FullTy → Bool
  | .f16 => true
  | .bf16 => true
  | _ => false
def is4 : FullTy → Bool
  | .pb4 => true
  | .mx4 => true
  | _ => false
def isPb : FullTy → Bool
  | .pb4 => true
  | .pb8 => true
  | _ => false

/-- k-steps completed by taking flit number `n` of a block (from 0). -/
def kOfFlit (t : FullTy) (n : Nat) : Nat := if is4 t then 2 else if is16 t then n % 2 else 1

/-- Bytes of one k of a fragment (R229). -/
def fragBytes (t : FullTy) : Nat := if is4 t then 4 else if is16 t then 16 else 8

/-- Header or scale bytes of a block (R229). -/
def scaleBytes (t : FullTy) : Nat := if isPb t then 16 else if isMx t then 8 else 0

/-- Energy class of a pair of flits (R344). -/
def tensorClass (t : FullTy) : Fin 32 := if is4 t then 16 else if is16 t then 18 else 17

/-- The codes and d bits of row or column r over the k of some flits (R220). -/
def fragOf (t : FullTy) (fl : List (Word × BitVec 8)) (r : Nat) : List (Nat × Nat) :=
  let bit := fun (a : BitVec 8) => if a.getLsbD r then 1 else 0
  if is4 t then fl.flatMap fun f => [(f.1.toNat / 2 ^ (4 * r) % 16, bit f.2), (f.1.toNat / 2 ^ (4 * (8 + r)) % 16, bit f.2)]
  else if is16 t then
    (List.range (fl.length / 2)).map fun j => ((fl.getD (2 * j + r / 4) (0, 0)).1.toNat / 2 ^ (16 * (r % 4)) % 2 ^ 16, 0)
  else fl.map fun f => (f.1.toNat / 2 ^ (8 * r) % 256, bit f.2)

/-- The value of an operand element (R32, R45, R56). -/
def operandVal (t : FullTy) (code d scale : Nat) : FV :=
  match t with
  | .pb4 => let v := elemOf .pb4 code; .fin (decide (v < 0)) v.natAbs (scale - 127 - 2 - d)
  | .pb8 => let v := elemOf .pb8 code; .fin (decide (v < 0)) v.natAbs (scale - 127 - 6 - d)
  | .f16 => fmtF16.unpack code
  | .bf16 => fmtBf16.unpack code
  | .e4 => fmtE4.unpack code
  | .e5 => fmtE5.unpack code
  | t => mxValue t code scale

/-- The scale of row or column r in a token's word 0. -/
def scaleOf (w : Word) (r : Nat) : Nat := w.toNat / 2 ^ (8 * r) % 256

/-- Whether the formats of a type carry scales. -/
def scaled (t : FullTy) : Bool := isPb t || isMx t

/-- One element's T over a group (R56), then R57. -/
def elemAcc (t : FullTy) (sa sb : Word) (g : List (Word × BitVec 8 × Word × BitVec 8)) (c : Nat) (i : Nat) :
    Nat × BitVec 8 :=
  let r := i / 8
  let q := i % 8
  let x := scaleOf sa r
  let y := scaleOf sb q
  if scaled t && (x == 0xFF || y == 0xFF) then accNan
  else
    let as := fragOf t (g.map fun f => (f.1, f.2.1)) r
    let bs := fragOf t (g.map fun f => (f.2.2.1, f.2.2.2)) q
    accAdd c (TSum.sum ((as.zip bs).map fun p => prodOf (operandVal t p.1.1 p.1.2 x) (operandVal t p.2.1 p.2.2 y)))

/-- A whole group into the working copy. -/
def groupAcc (t : Tile) : Tile :=
  let rs := (List.range 64).map fun i =>
    elemAcc t.ty (t.flow[0]).scales (t.flow[1]).scales t.group (t.work.toList.getD i 0).toNat i
  { t with work := Vector.ofFn fun i : Fin 64 => BitVec.ofNat 32 (rs.getD i.val (0, 0)).1, group := [],
           flags := t.flags ||| orFlags rs }

/-! ### Tokens (R221, R222) -/

/-- The CRC over an operand flit: its data bytes, then its aux bits. -/
def crcFlit (c : BitVec 16) (w : Word) (aux : BitVec 8) : BitVec 16 :=
  crcByte ((List.range 8).foldl (fun c i => crcByte c (w.extractLsb' (8 * i) 8)) c) aux

/-- MARK of a token. -/
def markOf (w : Word) : BitVec 2 := w.extractLsb' 16 2
/-- LAST or STOP. -/
def closes (w : Word) : Bool := markOf w == 2 || markOf w == 3

/-- Word 1 of a token (R221). -/
def tokenWord (block : BitVec 24) (t : FullTy) (mark : BitVec 2) (crc : BitVec 16) : Word :=
  0#17 ++ block ++ encFull t ++ mark ++ crc

/-- The checks of R222. -/
def tokenOk (t : Tile) (f : FlowSt) (w : Word) : Bool :=
  w.extractLsb' 47 17 == 0#17 && w.extractLsb' 18 5 == encFull t.ty && w.extractLsb' 23 24 == f.index &&
  ((markOf w == 0) != f.isOpen) && (markOf w == 0 || w.extractLsb' 0 16 == f.crc)

/-- A flow after a token that passes (R222, R282). -/
def FlowSt.token (f : FlowSt) (scales w : Word) : FlowSt :=
  if closes w then { f with isOpen := false, crc := 0xFFFF, seen := true }
  else { scales := scales, isOpen := true, index := f.index + 1, crc := 0xFFFF, seen := true }

/-- The token that follows the block has passed in both directions: commit (R222). -/
def Tile.commit (t : Tile) (taken : Nat) : Tile :=
  { t with acc := t.work, flits := 0, done := BitVec.ofNat 24 taken, group := [],
           flow := t.flow.map fun f => { f with seen := false } }

/-- The tile's expected index follows the two flows once both have opened a block (R228). -/
def Tile.reindex (t : Tile) : Tile :=
  if (t.flow[0]).index = (t.flow[1]).index then { t with index := (t.flow[0]).index } else t

/-! ### Queues and links (R218, R219) -/

def Flit.len : Flit → Nat
  | .data _ _ => 1
  | .token _ _ => 2

def qLen (q : List Flit) : Nat := q.foldl (fun n f => n + f.len) 0

/-- An operand flit or a scale token on a link, with its sideband (R17, R220, R221). -/
def Flit.wire : Flit → List WireFlit
  | .data w aux => [wireFlit w 0 aux]
  | .token sc w => [wireFlit sc 1 0, wireFlit w 1 0]

/-- The queue a tile takes a direction from: its link, or the core's own feed (R218, R225). -/
def Tile.queue (t : Tile) (e : Fin 2) : Fin 4 :=
  if e = 0 then (if t.cfg.getLsbD 0 then 2 else 0) else (if t.cfg.getLsbD 1 then 3 else 1)

def Tile.forwards (t : Tile) (e : Fin 2) : Bool := t.cfg.getLsbD (2 + e.val)

/-- The neighbour a direction is forwarded to: east, or south. -/
def nextCore (k : CoreId) (e : Fin 2) : CoreId := if e = 0 then k + 1 else k + 1152

def State.queueRoom (s : State) (k : CoreId) (q : Fin 4) : Nat := 16 - qLen (s.core k).unit.queues[q]

def State.pushFlit (s : State) (k : CoreId) (q : Fin 4) (f : Flit) : State :=
  s.modUnits k fun u => { u with queues := u.queues.set q (u.queues[q] ++ [f]) }

/-- Room to forward a flit or token, over a link that has not stopped (R369). -/
def State.fwdRoom (s : State) (k : CoreId) (t : Tile) (e : Fin 2) (n : Nat) : Bool :=
  !t.forwards e ||
    (decide (n ≤ s.queueRoom (nextCore k e) (if e = 0 then 0 else 1)) && !(s.wireLink (linkTo k (nextCore k e))).stopped)

/-- A flit or token crosses the link to the next core: its sender keeps it for a replay (R369) and charges its hop (R344). -/
def State.sendFlit (s : State) (k : CoreId) (e : Fin 2) (f : Flit) : State :=
  (((s.cross (linkTo k (nextCore k e)) f.wire).modCoreRegs k fun r => r.charge (s.mscale k) (s.vfOn k 0) 24 f.len)).pushFlit
    (nextCore k e) (if e = 0 then 0 else 1) f

/-- Take the head of a tile's queue and forward it. -/
def State.takeFlit (s : State) (k : CoreId) (t : Tile) (e : Fin 2) : State :=
  match (s.core k).unit.queues[t.queue e] with
  | [] => s
  | f :: l =>
    let s := s.modUnits k fun u => { u with queues := u.queues.set (t.queue e) l }
    if t.forwards e then s.sendFlit k e f else s

def Units.headOf (u : Units) (t : Tile) (e : Fin 2) : Option Flit := (u.queues[t.queue e]).head?

/-! ### Runs (R230, R231) -/

def Units.setTile (u : Units) (n : Fin 4) (t : Tile) : Units := { u with tiles := u.tiles.set n t }

/-- A run comes to the head of the unit: it starts from the tile's committed state. -/
def Units.startRun (u : Units) : Units :=
  match u.runs with
  | [] => u
  | r :: _ => u.setTile r.tile { u.tiles[r.tile] with done := 0, work := (u.tiles[r.tile]).acc }

/-- Whether a direction has nothing left to drain (R231). -/
def FlowSt.drained (f : FlowSt) : Bool := f.seen && !f.isOpen

/-- A run has taken its count. -/
def Run.full (r : Run) : Bool := decide (r.count ≤ r.taken)

/-- A pair of flits may be taken now: of one k, into a block that has room. -/
def Units.pairReady (u : Units) (r : Run) : Option ((Word × BitVec 8) × (Word × BitVec 8)) :=
  let t := u.tiles[r.tile]
  match u.headOf t 0, u.headOf t 1 with
  | some (.data a x), some (.data b y) =>
    if !r.drain && !r.full && decide (t.flits < flitsOf t.ty) then some ((a, x), (b, y)) else none
  | _, _ => none

/-- A token of a direction may be taken now: before a block, or where flits precede it, once in each direction; a run that
has its count takes only the tokens that follow its last block. -/
def Units.tokenReady (u : Units) (r : Run) (e : Fin 2) : Option (Word × Word) :=
  let t := u.tiles[r.tile]
  match u.headOf t e with
  | some (.token a b) =>
    if r.drain then (if (t.flow[e]).drained then none else some (a, b))
    else if r.full && t.flits != flitsOf t.ty then none
    else if t.flits = 0 || !(t.flow[e]).seen then some (a, b)
    else none
  | _ => none

/-- Steps begin with the tokens at hand; those that the last of them lack are owed (R353). -/
def Units.payT (u : Units) (n : Nat) : Units :=
  { u with tokens := u.tokens - n, owedT := n - u.tokens, wanted := true, starved := decide (u.tokens < n) }

def Units.payS (u : Units) (n : Nat) : Units :=
  { u with tokens := u.tokens - n, owedS := n - u.tokens, wanted := true, starved := decide (u.tokens < n) }

/-- A step may begin: the last one has its tokens, and there is one more (R353). -/
def Units.mayT (u : Units) : Bool := u.owedT == 0 && u.tokens != 0
def Units.mayS (u : Units) : Bool := u.owedS == 0 && u.tokens != 0

/-- TADDR of the CHECK of a failed token (R231): the block whose flits precede it, or the tile's expected index. -/
def failAddr (n : Fin 4) (t : Tile) (f : FlowSt) (w : Word) : Word :=
  let i := if f.isOpen && markOf w != 0 && t.flits != 0 && !f.seen then f.index - 1 else t.index
  0#16 ++ i ++ 0#22 ++ BitVec.ofNat 2 n.val

/-- R231: the run stops committing and drains its flows. -/
def Run.failed (r : Run) (t : Tile) (e : Fin 2) (w : Word) : Run × Tile :=
  let f := t.flow[e]
  ({ r with drain := true, fail := failAddr r.tile t f w },
   { t with err := true, fault := true, work := t.acc, group := [],
            flow := t.flow.set e { f with isOpen := !closes w, seen := true } })

end Sys2Proof.Machine
end

