-- ==== Sys2Proof/Machine/Matrix.lean ====
section
/-! DEFINITION. The matrix instructions: OP 0x78 to 0x7B (08 R223 to R232), and the events of the tensor unit and the feed
channels. -/

namespace Sys2Proof.Machine

def State.unit (s : State) (k : CoreId) : Units := (s.core k).unit

/-- ACCESS unless the issuing slot holds the tile (R24, R228). -/
def heldTile (s : State) (n : Fin 4) (k : Tile → Act) : Act :=
  let t := (s.unit s.cur.core).tiles[n]
  if t.owner = some s.cur.slot then k t else .trap 0x09 (BitVec.ofNat 64 n.val)

def Units.tileRuns (u : Units) (n : Fin 4) : Bool := u.runs.any fun r => r.tile == n
def Units.tileFeeds (u : Units) (n : Fin 4) : Bool := u.feeds.toList.any fun q => q.any fun f => f.tile == n

/-- Whether a place lies in a launch's rectangle. -/
def Held.spans (h : Held) (x y : Nat) : Bool :=
  decide (h.x0 ≤ x) && decide (x < h.x0 + h.w) && decide (h.y0 ≤ y) && decide (y < h.y0 + h.h)

/-- Whether a core has a neighbour west, north, east or south in its launch's rectangle; a moved task's core may itself lie
outside it (R359). -/
def Core.hasWest (c : Core) (k : CoreId) : Bool := posX k != 0 && c.held.any fun h => h.spans (posX k - 1) (posY k)
def Core.hasNorth (c : Core) (k : CoreId) : Bool := posY k != 0 && c.held.any fun h => h.spans (posX k) (posY k - 1)
def Core.hasEast (c : Core) (k : CoreId) : Bool := c.held.any fun h => h.spans (posX k + 1) (posY k)
def Core.hasSouth (c : Core) (k : CoreId) : Bool := c.held.any fun h => h.spans (posX k) (posY k + 1)

/-- A tile as MCFG leaves it: its values stay (R225). -/
def Tile.config (t : Tile) (sl : Fin 4) (ty : FullTy) (cfg : BitVec 5) : Tile :=
  { t with owner := some sl, ty := ty, cfg := cfg, index := 0, feedIdx := Vector.replicate 2 0, done := 0, err := false,
           fault := false, work := t.acc, flow := t.flow.map fun f => { FlowSt.idle with scales := f.scales },
           group := [], flits := 0, flags := 0 }

/-- MCFG (R225). -/
def execMcfg (x : McfgF) (s : State) : Host.Outcome State Fault Refusal :=
  issue (mkForm x.q 1 [] [])
    (fun s =>
      let k := s.cur.core
      let c := s.core k
      let t := c.unit.tiles[x.d]
      let rel := x.flags.getLsbD 4
      let no := Act.trap 0x09 (BitVec.ofNat 64 x.d.val)
      if t.owner.isSome && t.owner != some s.cur.slot then no
      else if rel && t.owner != some s.cur.slot then no
      else if (x.flags.getLsbD 2 && !c.hasEast k) || (x.flags.getLsbD 3 && !c.hasSouth k) then no
      else if c.unit.tileRuns x.d || c.unit.tileFeeds x.d then .wait .tile id
      else .ok (s.modUnits k fun u => u.setTile x.d
        (if rel then { t with owner := none } else t.config s.cur.slot x.t (x.flags.extractLsb' 0 5)))) s

/-- MRUN (R230). -/
def execMrun (x : MrunF) (s : State) : Host.Outcome State Fault Refusal :=
  issue (mkForm x.q 1 (ctrOps x.ctr) [])
    (fun s => heldTile s x.d fun t =>
      let k := s.cur.core
      let c := s.core k
      let count := (x.imm.extractLsb' 0 24).toNat
      let unit := x.imm.getLsbD 24
      if (!t.cfg.getLsbD 0 && !c.hasWest k) || (!t.cfg.getLsbD 1 && !c.hasNorth k) then
        .trap 0x09 (BitVec.ofNat 64 x.d.val)
      else if unit && count % kMultiple t.ty != 0 then .trap 0x03 s.headWord
      else counterWord s x.ctr fun ctr =>
        syncIssue s x.sync .unit (decide (c.unit.runs.length < 4)) fun s =>
          let r : Run := { tile := x.d, slot := s.cur.slot, unit := unit, count := count, taken := 0, drain := false,
                           fail := 0, done := syncDone x.sync ctr }
          .ok (s.modUnits k fun u =>
            let u' := { u with runs := u.runs ++ [r] }
            if u.runs.isEmpty then u'.startRun else u')) s

/-- The sources of MFEED are checked (R229). -/
def feedCheck (t : Tile) (gd ga : Word) (a : GOp) (nb : Nat) (s : State) (k : Act) : Act :=
  let sb := scaleBytes t.ty
  let len := nb * (flitsOf t.ty * 8)
  if !isLocal gd && !isBerth gd then .trap 0x0A gd
  else if (isBerth gd || sb == 0) && a != .g 0 then .trap 0x03 s.headWord
  else if isLocal gd && sb != 0 && !isLocal ga then .trap 0x0A ga
  else if !aligned gd 16 then .trap 0x06 gd
  else if isLocal gd && sb != 0 && !aligned ga sb then .trap 0x06 ga
  else if isLocal gd && 65536 < offOf gd + len then .trap 0x06 gd
  else if isLocal gd && sb != 0 && 65536 < offOf ga + nb * sb then .trap 0x06 ga
  else k

def edgeOf (b : Bool) : Fin 2 := if b then 1 else 0

/-- MFEED (R229). -/
def execMfeed (x : MfeedF) (s : State) : Host.Outcome State Fault Refusal :=
  issue (mkForm x.q 1 (x.d :: x.a :: ctrOps x.ctr) [])
    (fun s => heldTile s x.b fun t =>
      let e := edgeOf (x.imm.getLsbD 24)
      let nb := (x.imm.extractLsb' 0 24).toNat
      if !t.cfg.getLsbD e.val then .trap 0x09 (BitVec.ofNat 64 x.b.val)
      else feedCheck t (s.rd x.d) (s.rd x.a) x.a nb s
        (counterWord s x.ctr fun ctr =>
          syncIssue s x.sync .unit (decide (((s.unit s.cur.core).feeds[e]).length < 2)) fun t =>
            let f : Feed := { tile := x.b, slot := t.cur.slot, src := s.rd x.d, scale := s.rd x.a, nb := nb, blk := 0,
                              isOpen := false, crc := 0, pend := [], told := false, done := syncDone x.sync ctr }
            .ok (t.modUnits t.cur.core fun u => { u with feeds := u.feeds.set e (u.feeds[e] ++ [f]) }))) s

/-- MZERO (R226). -/
def execMzero (x : MzeroF) (s : State) : Host.Outcome State Fault Refusal :=
  issue (mkForm x.q 19 [] [])
    (fun s => heldTile s x.d fun t =>
      if (s.unit s.cur.core).tileRuns x.d then .wait .tile id
      else .ok (s.modUnits s.cur.core fun u =>
        u.setTile x.d { t with acc := Vector.replicate 64 0, work := Vector.replicate 64 0 })) s

/-- A binary32 value as a T of R57 on its finite-operand path (R226). -/
def loadT (v : Nat) (c : Nat) : Nat × BitVec 8 :=
  match fmtF32.unpack v with
  | .nan _ _ => accNan
  | .inf a => ((accFin c (sgn a 1) 200 false).1, (accFin c (sgn a 1) 200 false).2)
  | .fin a m e => accFin c (sgn a m) e (a && m == 0)

/-- MLOAD (R226). The form that does not add sets no flag, not even NF for an infinity or a NaN that it loads (DESIGN CHOICE, entry
94: R54 could ask for it). -/
def execMload (x : MloadF) (s : State) : Host.Outcome State Fault Refusal :=
  issue (mkForm x.q 19 [x.a, x.b] [])
    (fun s => heldTile s x.d fun t => areaCheck (s.rd x.a) 256 fun o =>
      if (s.unit s.cur.core).tileRuns x.d then .wait .tile id
      else readLocal s o 256 fun t' v =>
        let vs := (List.range 64).map fun i => v / 2 ^ (32 * i) % 2 ^ 32
        let rs := if (s.rd x.b).getLsbD 0 then (vs.zip t.acc.toList).map fun p => loadT p.1 p.2.toNat
                  else vs.map fun v => (v, 0)
        let acc : Vector (BitVec 32) 64 := Vector.ofFn fun i : Fin 64 => BitVec.ofNat 32 (rs.getD i.val (0, 0)).1
        .ok ((t'.modUnits s.cur.core fun u => u.setTile x.d { t with acc := acc, work := acc }).setMyFlags (orFlags rs))) s

/-- MDRAIN to a vector register (R227). -/
def execMdrainVector (x : MdrainVF) (s : State) : Host.Outcome State Fault Refusal :=
  issue (mkForm x.q 19 [x.b] [] [.v x.d])
    (fun s => heldTile s x.a fun t =>
      let g := s.rd x.b
      let q := (g.extractLsb' 0 2).toNat
      let v := packL 32 ((List.range 16).map fun i => (t.acc.toList.getD (16 * q + i) 0).toNat)
      let acc : Vector (BitVec 32) 64 := Vector.ofFn fun i : Fin 64 => if i.val / 16 = q then 0 else t.acc[i]
      let s' := s.wrV x.d v 0
      .ok (if g.getLsbD 2 then s'.modUnits s.cur.core fun u => u.setTile x.a { t with acc := acc } else s')) s

/-- MDRAIN to SRAM (R227). -/
def execMdrainSram (x : MdrainSF) (s : State) : Host.Outcome State Fault Refusal :=
  issue (mkForm x.q 19 [x.b, x.c] [])
    (fun s => heldTile s x.a fun t => areaCheck (s.rd x.c) 256 fun o =>
      let g := s.rd x.b
      let k := s.cur.core
      let s' := s.sramPut k o 256 (packNat 32 (t.acc.toList.map (·.toNat))) (some s.cur.slot)
      let s' := if g.getLsbD 3 then s'.setFull k (o / 16) 16 true else s'
      .ok (if g.getLsbD 2 then s'.modUnits k fun u => u.setTile x.a { t with acc := Vector.replicate 64 0 } else s')) s

/-- STATE of MSTAT (R228): 0 IDLE, 1 RUNNING, 2 WAITING, 3 FAULT. -/
def Units.tileState (u : Units) (n : Fin 4) : BitVec 2 :=
  let t := u.tiles[n]
  if t.fault then 3
  else if !u.tileRuns n then 0
  else match u.runs with
    | [] => 0
    | r :: _ =>
      if r.tile != n || u.owedT != 0 then 2
      else if r.full && t.flits != flitsOf t.ty then 1
      else if (u.tokenReady r 0).isSome || (u.tokenReady r 1).isSome then 1
      else if (u.pairReady r).isSome && u.mayT then 1
      else 2

/-- MSTAT (R228). -/
def execMstat (x : MstatF) (s : State) : Host.Outcome State Fault Refusal :=
  issue (mkForm x.q 1 [] [x.d])
    (fun s => heldTile s x.a fun t =>
      writeG s x.d (t.index ++ t.done ++ encFull t.ty ++ (s.unit s.cur.core).tileState x.a ++ BitVec.ofBool t.err ++
        BitVec.ofNat 2 s.cur.slot.val ++ 0#1 ++ t.cfg)) s

/-! ### Feeds (R220, R221, R229) -/

/-- The flits of a block from its element bytes and its headers (R220). -/
def blockFlits (t : FullTy) (els : List Byte) (hd : List Byte) : List Flit :=
  let d := fun (r p : Nat) => if isPb t then ((hd.getD (2 * r + 1) 0).getLsbD p) else false
  (List.range (flitsOf t)).map fun i =>
    let p := if t = .pb8 then i / 2 else i
    .data (BitVec.ofNat 64 (leBytes ((els.drop (8 * i)).take 8)))
      (BitVec.ofNat 8 (pairBits fun r => isPb t && d r p))

/-- Word 0 of a block's token: E of the PB headers, or the scales. -/
def tokenScales (t : FullTy) (hd : List Byte) : Word :=
  if isPb t then BitVec.ofNat 64 (leBytes ((List.range 8).map fun r => hd.getD (2 * r) 0))
  else if isMx t then BitVec.ofNat 64 (leBytes (hd.take 8)) else 0

def crcFlits (l : List Flit) : BitVec 16 :=
  l.foldl (fun c f => match f with | .data w a => crcFlit c w a | .token _ _ => c) 0xFFFF

/-- A command's source has an uncorrectable word (R300): it ends as R231 does. The cause arises before the completion, with
which a HALTING slot may become EMPTY (R298, R69). -/
def State.sourceFails (s : State) (k : CoreId) (sl : Fin 4) (d : Done) (o : Nat) : State :=
  ((s.modCore k fun c => c.setSF d.faultSem true).defer k sl 0x0F (localAddr o)).complete k sl 0 d

def State.setFeeds (s : State) (k : CoreId) (e : Fin 2) (l : List Feed) : State :=
  s.modUnits k fun u => { u with feeds := u.feeds.set e l }

/-- LAST, where a feed is open (R221, R282). -/
def State.closeFeed (s : State) (k : CoreId) (e : Fin 2) (f : Feed) (mark : BitVec 2) : State :=
  let t := (s.unit k).tiles[f.tile]
  if f.isOpen then s.pushFlit k (if e = 0 then 2 else 3) (.token 0 (tokenWord t.feedIdx[e] t.ty mark f.crc)) else s

/-- The block's token and flits are formed (R221). -/
def Feed.block (f : Feed) (t : Tile) (e : Fin 2) (els hd : List Byte) : Feed :=
  let fl := blockFlits t.ty els hd
  let tok := Flit.token (tokenScales t.ty hd)
    (tokenWord t.feedIdx[e] t.ty (if f.isOpen then 1 else 0) (if f.isOpen then f.crc else 0))
  { f with blk := f.blk + 1, isOpen := true, crc := crcFlits fl, pend := tok :: fl }

/-- A feed channel's turn (R229): the next flit or token is injected, LAST after the last block, or the next block is read from
its source, an access of the feed's engine (R19); from phase 1 of a pre-emption no block is begun (R305). -/
def State.feedTurn (s : State) (k : CoreId) (e : Fin 2) : Option State :=
  let q : Fin 4 := if e = 0 then 2 else 3
  match (s.unit k).feeds[e] with
  | [] => none
  | f :: l =>
    if s.phaseOf k != .run && f.pend.isEmpty && f.blk < f.nb then none
    else match f.pend with
    | x :: p => if s.queueRoom k q < x.len then none else some ((s.setFeeds k e ({ f with pend := p } :: l)).pushFlit k q x)
    | [] =>
      if s.queueRoom k q < 2 then none
      else if f.nb ≤ f.blk then if f.told then some ((s.closeFeed k e f 2).setFeeds k e l) else none
      else
        let t := (s.unit k).tiles[f.tile]
        let sb := scaleBytes t.ty
        let n := flitsOf t.ty * 8
        let next := fun (s : State) (els hd : List Byte) =>
          (s.setFeeds k e (f.block t e els hd :: l)).modUnits k fun u =>
            u.setTile f.tile { u.tiles[f.tile] with feedIdx := (u.tiles[f.tile]).feedIdx.set e (t.feedIdx[e] + 1) }
        if isBerth f.src then
          let b := berthNo f.src
          let c := s.core k
          if !c.berthReady b false || c.berths[b].buf.length < sb + n then none
          else
            let (bs, c) := c.berthTake k b (sb + n)
            some (next (s.setCore k c) (bs.drop sb) (bs.take sb))
        else
          let o := offOf f.src + f.blk * n
          let h := offOf f.scale + f.blk * sb
          let c := s.core k
          let bad := match c.badWord o n with
            | some w => some w
            | none => if sb = 0 then none else c.badWord h sb
          match bad with
          | some w => some (((s.closeFeed k e f 2).setFeeds k e l).sourceFails k f.slot f.done w)
          | none => ordered (s.orderEngine k o (10 + e.val)) fun s =>
            let s := s.modCore k fun c => (c.correct o n (some f.slot)).correct h sb (some f.slot)
            next s (c.mem.sram.readBytes o n) (if sb = 0 then [] else c.mem.sram.readBytes h sb)

/-- MFEED_COMPLETE (R229): its last source byte has been read, and the completion is made; its flits and LAST follow. -/
def execMfeedComplete (k : CoreId) (e : Edge) (s : State) : Host.Outcome State Fault Refusal :=
  let i : Fin 2 := match e with | .west => 0 | .north => 1
  event s
    (match (s.unit k).feeds[i] with
     | [] => none
     | f :: l =>
       if s.phaseOf k == .save3 || s.phaseOf k == .out || f.blk < f.nb || f.told then none
       else ordered (s.orderSignal k f.done (10 + i.val)) fun s =>
         (s.setFeeds k i ({ f with told := true } :: l)).complete k f.slot 0 f.done)

/-! ### Runs (R218, R222, R230, R231) -/

/-- The run at the head of the unit. -/
def State.headRun (s : State) (k : CoreId) : Option (Run × List Run) :=
  match (s.unit k).runs with
  | [] => none
  | r :: l => some (r, l)

/-- A tile after a pair of flits (R56, R230). The working copy is taken at a block's first flit, so that a commit puts back what an
MDRAIN has drained in the middle of the block (DESIGN CHOICE, entry 94). -/
def Tile.pair (t : Tile) (a b : Word × BitVec 8) : Tile :=
  let t := if t.flits = 0 then { t with work := t.acc } else t
  let fl := t.flow.mapFinIdx fun i f _ =>
    { f with seen := false, crc := if i = 0 then crcFlit f.crc a.1 a.2 else crcFlit f.crc b.1 b.2 }
  let t := { t with flow := fl, flits := t.flits + 1, group := t.group ++ [(a.1, a.2, b.1, b.2)] }
  if t.group.length = groupFlits t.ty then groupAcc t else t

/-- OPERAND_PAIR_TAKE (R218, R353): the unit takes the pair of flits at its queues and forwards them; a draining run takes
flits without computing (R231). -/
def execOperandPairTake (k : CoreId) (s : State) : Host.Outcome State Fault Refusal :=
  event s
    (match s.headRun k with
     | none => none
     | some (r, l) =>
       let u := s.unit k
       let t := u.tiles[r.tile]
       if s.phaseOf k != .run && s.phaseOf k != .stop1 && s.phaseOf k != .drain2 then none
       else if r.drain then
         let can := fun (e : Fin 2) => !(t.flow[e]).drained && s.fwdRoom k t e 1 &&
           (match u.headOf t e with | some (.data _ _) => true | _ => false)
         if can 0 || can 1 then
           let s1 := if can 0 then s.takeFlit k t 0 else s
           some (if can 1 then s1.takeFlit k t 1 else s1)
         else none
       else
         match u.pairReady r with
         | none => none
         | some (a, b) =>
           if !u.mayT || !s.fwdRoom k t 0 1 || !s.fwdRoom k t 1 1 then none
           else
             let t' := t.pair a b
             let ks := kOfFlit t.ty t.flits
             let got := if r.unit then ks else if t'.flits = flitsOf t.ty then 1 else 0
             let s := (s.takeFlit k t 0).takeFlit k t 1
             let s := s.modUnits k fun u => { (u.payT 2).setTile r.tile t' with runs := { r with taken := r.taken + got } :: l }
             some ((s.charge k r.slot (tensorClass t.ty) 2).count k 6 (some r.slot) ks))

/-- SCALE_TOKEN_TAKE (R222): the token at the head of a direction is checked, forwarded and latched; when tokens have passed in
both directions after the same flits, the block that these form is committed, an access to the tile (R19). -/
def execScaleTokenTake (k : CoreId) (e : Edge) (s : State) : Host.Outcome State Fault Refusal :=
  let i : Fin 2 := match e with | .west => 0 | .north => 1
  event s
    (match s.headRun k with
     | none => none
     | some (r, l) =>
       let t := (s.unit k).tiles[r.tile]
       match (s.unit k).tokenReady r i with
       | none => none
       | some (sc, w) =>
         if !s.fwdRoom k t i 2 || (!r.drain && (s.unit k).owedT != 0) ||
            (s.phaseOf k != .run && s.phaseOf k != .stop1 && s.phaseOf k != .drain2) then none
         else
           let put := fun (s : State) (r : Run) (t' : Tile) =>
             (s.takeFlit k t i).modUnits k fun u => { u.setTile r.tile t' with runs := r :: l }
           let f := t.flow[i]
           if r.drain then some (put s r { t with flow := t.flow.set i { f with isOpen := !closes w, seen := true } })
           else if !tokenOk t f w then some (put s (r.failed t i w).1 (r.failed t i w).2)
           else
             let t1 := Tile.reindex { t with flow := t.flow.set i (f.token sc w) }
             if t.flits != 0 && (t1.flow[0]).seen && (t1.flow[1]).seen then
               ordered (s.orderEngine k (objTile r.tile) 8) fun s => (put s r (t1.commit r.taken)).charge k r.slot 19
             else some (put s r t1))

/-- Whether a run is done: all taken and committed, or drained. -/
def Run.ready (r : Run) (t : Tile) : Bool :=
  if r.drain then t.flow.toList.all FlowSt.drained else r.full && t.flits != flitsOf t.ty

/-- MRUN_COMPLETE (R230, R231): the run commits a part block, sets DONE and signals; a run that failed sets SF and raises
CHECK. -/
def execMrunComplete (k : CoreId) (s : State) : Host.Outcome State Fault Refusal :=
  event s
    (match s.headRun k with
     | none => none
     | some (r, l) =>
       let t := (s.unit k).tiles[r.tile]
       if !r.ready t || (s.unit k).owedT != 0 then none
       else ordered (s.orderAll k [fun s => s.orderEngine k (objTile r.tile) 8, fun s => s.orderSignal k r.done 8]) fun s =>
         let t' := if r.drain then { t with flits := 0, flags := 0, flow := t.flow.map fun f => { f with seen := false } }
                   else { t with acc := if t.flits = 0 then t.acc else t.work, done := BitVec.ofNat 24 r.taken, flags := 0 }
         let s := s.modUnits k fun u => ({ u.setTile r.tile t' with runs := l }).startRun
         let s := s.setFlags k r.slot t.flags
         let s := if r.drain then (s.modCore k fun c => c.setSF r.done.faultSem true).defer k r.slot 0x0D r.fail
                  else if t.flits = 0 then s else s.charge k r.slot 19
         s.complete k r.slot 0 r.done)

end Sys2Proof.Machine
end

