-- ==== Sys2Proof/Machine/Preempt.lean ====
section
/-! DEFINITION. Pre-emption: the three phases of a switch and the resumption (13 R305 to R308, 14 R325, 08 R232), the choice of
the next VF (15 R340), launches ended by a lost rail or link (16 R356, 17 R369). -/

namespace Sys2Proof.Machine

/-! ### The next entry (R340) -/

def qtQuantum (e : Word) : Nat := (e.extractLsb' 0 24).toNat

/-- An entry that may run: valid, its VF with a positive balance and a launch in the partition. -/
def State.eligible (s : State) (p : Nat) (e : Word) : Bool :=
  e.getLsbD 63 && decide (0 < s.balance (qtVf e)) && (s.part p).launches.any fun l => l.vf == qtVf e

/-- A slice boundary: what has been written to QTn takes effect (R330). -/
def State.latchQt (s : State) (p : Nat) : State := s.modPart p fun x => { x with qtNow := x.qt }

/-- The first entry that may run after ENTRY, cyclically, with its value (R330). -/
def State.nextEntry (s : State) (p : Nat) : Option (Fin 16 × Word) :=
  let x := s.part p
  (((List.range 16).map fun i => Fin.ofNat 16 (qEntry x.qcur + 1 + i)).find? fun i => s.eligible p x.qtNow[i]).map fun i =>
    (i, x.qtNow[i])

/-! ### Beginning -/

/-- The north-west field of a partition. -/
def Partition.first (x : Partition) : Nat := x.fy0 * 12 + x.fx0

/-- The vote of a VF that leaves stays in force on the partition's rails (R352). -/
def Rail.holdVote (r : Rail) (vf : Nat) (vote : BitVec 10) : Rail :=
  if vote = 0 then r else { r with holds := (r.holds.filter fun h => h.1 != vf) ++ [(vf, vote, none)] }

def State.modRails (s : State) (p : Nat) (g : Rail → Rail) : State :=
  (s.part p).fields.foldl (fun s f => s.modField f fun x => { x with rails := x.rails.map g }) s

/-- Phase 1 begins (R305, R340): `next` is the entry to run afterwards, `why` the TADDR of the PREEMPT notices. -/
def State.beginPreempt (s : State) (p : Nat) (next : Option (Fin 16 × Word)) (why : Option Word) : State :=
  let x := s.part p
  if x.phase != .run || qIdle x.qcur then s
  else
    let s := s.modRails p fun r => r.holdVote (qVf x.qcur) (x.ctx.rvote.extractLsb' 0 10)
    (s.modPart p fun x => { x with phase := .stop1, next := next }).modCtx p fun c =>
      { c with began := why.getD (s.field x.first).time }

/-! ### Phase 1 (R305) -/

/-- A feed channel has stopped (R232, R305): no feed, or one at the end of a block, with room for STOP where it is open; after its
last block a feed ends with LAST. Where nothing can ever take its flits phase 1 goes on waiting (DESIGN CHOICE, entry 94). -/
def State.feedStopped (s : State) (k : CoreId) (e : Fin 2) : Bool :=
  match (s.unit k).feeds[e] with
  | [] => true
  | f :: _ => f.pend.isEmpty && decide (f.blk < f.nb) && (!f.isOpen || decide (2 ≤ s.queueRoom k (if e = 0 then 2 else 3)))

/-- STOP, where a feed stands open (R232). -/
def State.stopFeed (s : State) (k : CoreId) (e : Fin 2) : State :=
  match (s.unit k).feeds[e] with
  | [] => s
  | f :: l => if f.isOpen then (s.closeFeed k e f 3).setFeeds k e ({ f with isOpen := false } :: l) else s

/-- A core may report: its vector operations are complete, its feeds have stopped, and the step begun by its scan unit has its
tokens (R192, R232, R240). -/
def State.mayReport (s : State) (k : CoreId) : Bool :=
  (s.core k).vops.isEmpty && s.feedStopped k 0 && s.feedStopped k 1 && (s.unit k).owedS == 0

/-- PREEMPT_PHASE1 (R305): from a running partition it begins, for the device manager's own purposes; once begun, it ends when
every core and hub has reported. A move that has not passed step 1 of R359 has not begun (entry 55). -/
def execPreemptPhase1 (p : Nat) (s : State) : Host.Outcome State Fault Refusal :=
  event s
    (let x := s.part p
     match x.phase with
     | .run => if qIdle x.qcur || !x.valid then none else some (s.beginPreempt p (s.nextEntry p) none)
     | .stop1 =>
       if (x.moves.any fun m => m.step != .waits) || !x.upds.isEmpty || !((s.coresOf p).all s.mayReport) then none
       else some (((s.coresOf p).foldl (fun s k => (s.stopFeed k 0).stopFeed k 1) s).modPart p fun x => { x with phase := .drain2 })
     | _ => none)

/-! ### Phase 2 (R306) -/

/-- Whether an event does something in a state. -/
def State.does (s : State) (r : Host.Outcome State Fault Refusal) : Bool := match r with | .next t => t != s | _ => false

/-- The tensor unit of a core still takes flits or tokens, as soon as it has the power tokens for it (R232, R353). -/
def State.flowing (s : State) (k : CoreId) : Bool :=
  let t := s.modUnits k fun u => { u with tokens := 2048, owedT := 0 }
  (s.unit k).owedT != 0 || t.does (execOperandPairTake k t) || t.does (execScaleTokenTake k .west t) ||
    t.does (execScaleTokenTake k .north t)

/-- A core of the partition has nothing on its way: no global access, no flow up to a STOP, no INVAL that waits (R232, R324). -/
def State.coreQuiet (s : State) (k : CoreId) : Bool :=
  ((s.core k).gaccs.all fun a => a.bad != 0) && !s.flowing k &&
  ((s.core k).slots.toList.all fun x => !(x.st == .wait && x.wait == .inval))

/-- A message of the partition on the mesh, on a route that no stopped link cuts (R369); one that a stopped link holds is lost
(DEDUCED, entry 90). -/
def State.carries (s : State) (p : Nat) (f : Flight) (open_ : Bool) : Bool :=
  (s.partOf f.target == some p || s.partOf f.msg.from_ == some p) && s.routeOpen f.msg.from_ f.target == open_

/-- Nothing of the partition is left on a link, at a hub, a network interface or a quay path. An access to another core that waits
there for what only running slots can bring is on no link. -/
def State.quiet (s : State) (p : Nat) : Bool :=
  let x := s.part p
  !(s.mesh.any fun f => s.carries p f true) &&
  !(s.laces.any fun f => s.partOf f.core == some p) && !(s.quays.any fun e => e.2.outst.any fun o => s.partOf o.core == some p) &&
  x.ctx.hub.isEmpty && x.upds.isEmpty &&
  (x.packets.all fun q => !q.1.isSpawn) && (s.coresOf p).all s.coreQuiet &&
  x.fields.all (fun f => (s.field f).walks.isEmpty) && !(s.drops.any fun d => d.part == p) &&
  !(s.samples.any fun a => a.part == p) &&
  !(s.sys.zipIdx.any fun a => s.partOf a.1.core == some p && s.does (execSysRemoteAccess a.2 s))

/-- Notices that a core has formed and not yet sent: they are the device's, and outlast the VF (R297, R355). -/
def Core.ownNotices (c : Core) : List Msg := c.inj.filter fun m => m.kind == .notice

/-- What a launch that ends without completing leaves on a core (R356). -/
def Core.kill (c : Core) (vf num : Nat) : Core :=
  let mine := match c.held with | some h => h.vf == vf && h.launch == num | none => false
  if mine then
    { Core.wiped with
      inj := c.ownNotices
      regs := { c.regs with ce := [], ue := [] }
      slots := c.slots.map fun x => if gtidVf x.gtid == vf && gtidLaunch x.gtid == num then Slot.wiped else x }
  else c

/-- A launch ends with no completion add (R356). -/
def State.killLaunch (s : State) (p vf num : Nat) : State :=
  let t : State := { s with cores := s.cores.map fun e => (e.1, e.2.kill vf num) }
  t.endLaunch p vf num

/-- Launches that lost a rail or a link end (R356, R369). -/
def State.killEnded (s : State) (p : Nat) : State :=
  ((s.part p).ended.foldl (fun s e => s.killLaunch p e.1 e.2) s).modPart p fun x => { x with ended := [] }

/-- Every armed watch of the partition ends with PREEMPT. -/
def State.endWatches (s : State) (p : Nat) : State :=
  (s.coresOf p).foldl (fun s k => (List.finRange 4).foldl (fun s n => s.endWatch k n 3) s) s

/-- PREEMPT_PHASE2 (R306): the partition is quiescent; watches end, misses not yet walked are forgotten, and launches that
lost a rail or a link end. -/
def execPreemptPhase2 (p : Nat) (s : State) : Host.Outcome State Fault Refusal :=
  event s
    (let x := s.part p
     if x.phase != .drain2 || !s.quiet p then none
     else
       let s := State.endWatches { s with mesh := s.mesh.filter fun f => !s.carries p f false } p
       let s := (s.coresOf p).foldl (fun s k => s.modCore k fun c => { c with misses := [] }) s
       some ((s.killEnded p).modPart p fun x => { x with phase := .save3 }))

/-! ### Phase 3 (R307) -/

/-- `n` bytes in a layout that the spec keeps to the device (R307): free values. -/
def State.freeBytes (s : State) (n : Nat) : List Byte := (List.range n).map fun i => BitVec.ofNat 8 (Config.word (s.free + i)).toNat

/-- The commands of a slot for its command records (R301), those included that CTXLD has loaded. -/
def Core.cmdsOf (c : Core) (sl : Fin 4) : SlotCmds :=
  let ps := (c.parked.filter fun e => e.1 == sl).map (·.2)
  { runs := (c.unit.runs.filter fun r => r.slot == sl) ++ ps.flatMap (·.runs)
    feeds := Vector.ofFn fun i : Fin 2 => (c.unit.feeds[i].filter fun f => f.slot == sl) ++ ps.flatMap fun x => x.feeds[i]
    scans := (c.unit.scans.filter fun r => r.slot == sl) ++ ps.flatMap (·.scans) }

def SlotCmds.count (x : SlotCmds) : Nat := x.runs.length + x.feeds[0].length + x.feeds[1].length + x.scans.length

/-- Command records (R301): V, a count, the device's own bytes and their CRC-32C; V = 0 with none. -/
def recordBytes (n : Nat) (own : List Byte) : List Byte :=
  if n = 0 then noRecords
  else
    let l := wordBytes (1#1 ++ 0#55 ++ BitVec.ofNat 8 n) ++ own
    l ++ wordBytes ((crc32c l).setWidth 64)

/-- The images of a core's slots, noting their command records. -/
def State.slotImages (s : State) (c : Core) : List (Fin 4) → State × List Byte
  | [] => (s, [])
  | n :: l =>
    let cmds := c.cmdsOf n
    let own := s.freeBytes 240
    let s1 : State := if cmds.count = 0 then s else { s with free := s.free + 240, records := (own, cmds) :: s.records }
    let r := s1.slotImages c l
    (r.1, (c.slot n).image (recordBytes cmds.count own) ++ r.2)

/-- The shared state of a core as the save area has it (R307), up to the part that only the device reads. -/
def CoreMem.image (m : CoreMem) : List Byte :=
  ((List.finRange 256).flatMap fun i => toBytes (m.sem[i].toNat + if m.sf.getLsbD i.val then 65536 else 0) 4) ++
  toBytes m.full.toNat 512 ++ (m.tags.toList.flatMap fun t => wordBytes t.word) ++
  (m.shapes.toList.flatMap fun x => toBytes x.toNat 32) ++
  (m.frames.toList.flatMap fun f => wordBytes (match f.tag with | some t => 1#1 ++ 0#3 ++ t ++ 0#11 | none => 0))

/-- Where a core's context stands in the save area (R307). -/
def State.saveAt (s : State) (p vf : Nat) (k : CoreId) : Nat :=
  s.saveBlock p vf (fieldOf k) + (posY k % 128 * 96 + posX k % 96) * 0x16000

/-- A core context written to its place. -/
def State.saveCore (s : State) (p vf : Nat) (c : PartCtx) (k : CoreId) : State :=
  let y := s.core k
  let va := s.saveAt p vf k
  let r := s.slotImages y (List.finRange 4)
  let own := r.1.freeBytes 13952
  let s : State := { r.1 with free := r.1.free + 13952 }
  s.saveBytes c vf va (y.mem.sram.readBytes 0 65536 ++ r.2 ++ y.mem.image ++ own) 4

/-- A field's hub state written to its place, in the hub's own layout. -/
def State.saveHub (s : State) (p vf : Nat) (c : PartCtx) (f : Nat) : State :=
  let n := 2 ^ 24
  State.saveBytes { s with free := s.free + n } c vf (s.saveBlock p vf f + 0x42000000) (s.freeBytes n) 258

/-- Every core of a partition. -/
def Partition.allCores (x : Partition) : List CoreId := rectCores (x.fx0 * 96) (x.fy0 * 128) (x.fw * 96) (x.fh * 128)

/-- Flags of commands that an interruption point leaves unfinished join their slots' words (R55). -/
def State.flushFlags (s : State) (k : CoreId) : State :=
  let u := s.unit k
  let s := match u.runs with
    | [] => s
    | r :: _ => (s.setFlags k r.slot (u.tiles[r.tile]).flags).modUnits k fun u =>
        u.setTile r.tile { u.tiles[r.tile] with flags := 0 }
  let s := u.scans.foldl (fun s r => s.setFlags k r.slot r.flags) s
  let s := s.modUnits k fun u => { u with scans := u.scans.map fun r => { r with flags := 0 } }
  let s := (s.core k).streams.toList.foldl (fun s o => match o with
    | some t => let q := t.redirect.getD (k, t.slot); s.setFlags q.1 q.2 t.flags
    | none => s) s
  s.modCore k fun c => { c with streams := c.streams.map fun o => o.map fun t => { t with flags := 0 } }

/-- Registers of a core that stay with the core when a VF leaves: calibration, link, error and repair counts; the meters, which
are kept by VF, need not move to be the VF's own again when it returns (R346). -/
def CoreRegs.stay (r : CoreRegs) : CoreRegs :=
  { CoreRegs.wiped with cal := r.cal, linkstat := r.linkstat, eccstat := r.eccstat, scrub := r.scrub, meter := r.meter,
                        metered := r.metered, corrected := r.corrected, stuck := r.stuck, rowErrs := r.rowErrs,
                        rowsUsed := r.rowsUsed }

/-- A core after its context has been saved. -/
def Core.leave (c : Core) : Core :=
  { Core.wiped with
    unit := { Units.wiped with tokens := c.unit.tokens, stalls := c.unit.stalls }
    regs := c.regs.stay }

/-- A core's context as it is kept: with no translations (R325). -/
def Core.context (c : Core) : Core :=
  { c with ports := [], misses := [], streams := c.streams.map fun o => o.map fun t => { t with ent := none, addrs := [] } }

/-- What phase 3 does not save is asked for again: accesses to other cores that have not been made, moves whose step 1 has not
ended (R357), and the places of counter waits (R117). -/
def State.dropWaits (s : State) (p : Nat) : State :=
  let own := fun (k : CoreId) => s.partOf k == some p
  let s := (s.sys.filter fun a => own a.core).foldl (fun s a => s.modSlot a.core a.slot fun x => { x with asked := false }) s
  let s := (s.part p).moves.foldl (fun s m => match m.migt with
    | some n => s.modCoreRegs m.core fun r => { r with migt := r.migt.set n (r.migt[n] ||| (1#64 <<< 63)) }
    | none => s) s
  { s.modPart p fun x => { x with moves := [] } with
    sys := s.sys.filter fun a => !own a.core, cntwaits := s.cntwaits.filter fun w => !own w.core }

/-- The contexts of a partition are saved, and its cores and fields are left, their reduction slots free (R307, R325, R343). -/
def State.saveAll (s : State) (p : Nat) : State :=
  let x := s.part p
  let vf := qVf x.qcur
  let ks := x.allCores
  let s := (ks.foldl State.flushFlags s).dropWaits p
  let s := ks.foldl (fun s k => s.saveCore p vf x.ctx k) s
  let s := x.fields.foldl (fun s f => s.saveHub p vf x.ctx f) s
  let kept := ks.map fun k => (k, (s.core k).context)
  let s := ks.foldl (fun s k => s.modCore k Core.leave) s
  let slots := x.fields.flatMap fun f => (s.field f).redSlots.map fun g => (f, g)
  let s := x.fields.foldl (fun s f => s.modField f fun y => { y with lastVf := some vf, cache := [], redSlots := [] }) s
  let s := s.modRails p fun r => { r with holds := r.holds.map fun h => if h.1 == vf then (h.1, h.2.1, some 20) else h }
  s.modPart p fun x =>
    { x with phase := .out, qcur := qWord 0 0 true (qEntry x.qcur), saved := mset x.saved vf ({ x.ctx with redSlots := slots }, kept),
             ctx := { PartCtx.reset with ologstat := x.ctx.ologstat } }

/-- PREEMPT_PHASE3 (R307): core and hub contexts are saved and the VF has left; the hold of its vote runs for 20 µs (R352). -/
def execPreemptPhase3 (p : Nat) (s : State) : Host.Outcome State Fault Refusal :=
  event s (if (s.part p).phase != .save3 then none else some ((s.killEnded p).saveAll p))

/-! ### Resumption (R308) -/

/-- The registers of a slot as its image has them; what the image has no place for is the device's own (entry 57). -/
def Slot.restore (x : Slot) (l : List Byte) : Slot :=
  let w := imgW l 0x1E0
  let y := x.load l { x.lace with code := laceCodeOf (w.extractLsb' 0 3).toNat, xl := w.extractLsb' 3 11,
                                  w := w.extractLsb' 14 7, index := w.extractLsb' 21 6, e := w.extractLsb' 27 5,
                                  waited := imgW l 0x1E8 }
  { x with r := { y.r with p := y.r.p.set 0 x.r.p[0] }, t := { y.t with tst := y.t.tst ||| (x.t.tst &&& ~~~(0x20D3#64)) },
           ev := y.ev, watch := y.watch, lace := y.lace }

/-- The shared state of a core from its image (R307). -/
def CoreMem.restore (m : CoreMem) (l : List Byte) : CoreMem :=
  let at_ := fun (o n : Nat) => leBytes ((l.drop o).take n)
  { m with
    sem := Vector.ofFn fun i : Fin 256 => BitVec.ofNat 16 (at_ (4 * i.val) 2)
    sf := (List.finRange 256).foldl (fun b i => if at_ (4 * i.val + 2) 1 % 2 = 1 then b ||| (1#256 <<< i.val) else b) 0
    full := BitVec.ofNat 4096 (at_ 0x400 512)
    tags := Vector.ofFn fun i : Fin 64 => { m.tags[i] with word := BitVec.ofNat 64 (at_ (0x600 + 8 * i.val) 8) }
    shapes := Vector.ofFn fun i : Fin 8 => BitVec.ofNat 256 (at_ (0x800 + 32 * i.val) 32)
    frames := Vector.ofFn fun i : Fin 16 =>
      let w := BitVec.ofNat 64 (at_ (0x900 + 8 * i.val) 8)
      if w.getLsbD 63 then { m.frames[i] with tag := some (w.extractLsb' 11 49) } else Frame.empty }

/-- A core's context read back from the save area (R308): its SRAM, its slots and its shared state; a part that cannot be read is
as it was saved. -/
def State.readBack (s : State) (p vf : Nat) (c : PartCtx) (k : CoreId) (y : Core) : Core :=
  let va := s.saveAt p vf k
  let y := match s.loadBytes c vf va 65536 3 with
    | some l => { y with mem := { y.mem with sram := Memory.writeBytes [] 0 l } }
    | none => y
  let y := match s.loadBytes c vf (va + 0x10000) 0x2000 3 with
    | some l => { y with slots := y.slots.mapFinIdx fun i x _ => x.restore ((l.drop (0x800 * i)).take 0x800) }
    | none => y
  match s.loadBytes c vf (va + 0x12000) 0x980 3 with
  | some l => { y with mem := y.mem.restore l }
  | none => y

/-- A frame reloaded from its address on a resume (R307), with the checks of FRMLD for the
level that it was loaded for (DEDUCED, entry 95); one that fails them is empty. -/
def State.reloadFrame (s : State) (c : PartCtx) (vf : Nat) (f : Frame) : Frame :=
  match f.tag with
  | none => f
  | some t =>
    match s.translateIn c vf (0#4 ++ t ++ 0#11) 6 f.user false with
    | .ok (d, _) => ⟨some t, s.codeLines d, f.user⟩
    | .error _ => Frame.empty

/-- A session as its VF arrives: under another event-set version than the module's, a counter whose code the module does not define
reads ABSENT, its count frozen (R386). -/
def Bank.arrive (b : Bank) (evver : Word) : Bank :=
  if b.ver = evver.extractLsb' 0 16 then b
  else { b with val := Vector.ofFn fun i : Fin 4 =>
           if 13 < (b.ev[i].extractLsb' 0 8).toNat then b.val[i] ||| (1#64 <<< 63) else b.val[i] }

def CoreRegs.arrive (r : CoreRegs) (evver : Word) : CoreRegs :=
  { r with bank := r.bank.arrive evver, bankShadow := r.bankShadow.map (·.arrive evver),
           bankFrozen := r.bankFrozen.map (·.arrive evver) }

/-- A core's context back on the core, with the notices that the core has formed meanwhile. -/
def Core.enter (now : Core) (c : Core) : Core :=
  let r := now.regs
  { c with
    inj := now.ownNotices ++ c.inj
    unit := { c.unit with tokens := now.unit.tokens, stalls := now.unit.stalls }
    regs := { c.regs with cal := r.cal, linkstat := r.linkstat, eccstat := r.eccstat, scrub := r.scrub, meter := r.meter,
                          metered := r.metered, corrected := r.corrected, stuck := r.stuck, rowErrs := r.rowErrs,
                          rowsUsed := r.rowsUsed } }

/-- Overflow messages join their cores' arrival queues in the order in which they were written; a head that R73 discards is
discarded as it stands there. -/
def State.appendOverflow (s : State) (p : Nat) : State :=
  let s := (s.part p).ctx.overflow.foldl (fun s e => s.modCore e.1 fun c =>
    Core.settle { c with arr := c.arr.set e.2.cls (c.arr[e.2.cls] ++ [e.2]) }) s
  s.modCtx p fun c => { c with overflow := [], pieces := [] }

/-- Notices of a resumption: those that the VF is owed (R342, R347), then PREEMPT. -/
def State.resumeNotices (s : State) (p vf : Nat) : State :=
  let x := s.part p
  let s := (x.owed.filter fun n => n.1 == vf).foldl (fun s n => s.notifyAll p n.2.1 n.2.2) s
  (s.notifyAll p 0x20 x.ctx.began).modPart p fun x => { x with owed := x.owed.filter fun n => n.1 != vf }

/-- A VF's context is loaded, under the entry that was chosen for it (R330). -/
def State.enterVf (s : State) (p vf : Nat) (e : Fin 16 × Word) : State :=
  let x := s.part p
  let back := (mget x.saved vf).isSome
  let ctx := match mget x.saved vf with
    | some y => { y.1 with ologstat := 0 }
    | none => x.ctx
  let cores : List (Nat × Core) := match mget x.saved vf with
    | some y => y.2.map fun (z : Nat × Core) => (z.1, s.readBack p vf ctx z.1 z.2)
    | none => []
  let s := s.modPart p fun x => { x with
    phase := .run, ctx := ctx, saved := x.saved.filter (fun y => y.1 != vf), next := none, exhausted := false,
    qcur := qWord vf (qtQuantum e.2) false e.1.val }
  let s := cores.foldl (fun s y => s.modCore y.1 fun c => c.enter { y.2 with regs := y.2.regs.arrive s.regs.evver }) s
  let s := cores.foldl (fun s y => s.modMem y.1 fun m => { m with frames := m.frames.map (s.reloadFrame ctx vf) }) s
  let s := ctx.redSlots.foldl (fun s e => s.modField e.1 fun y => { y with redSlots := y.redSlots ++ [e.2] }) s
  let s := (s.part p).fields.foldl (fun s f => s.modField f fun y =>
    { y with occ := if y.occ.contains vf then y.occ else y.occ ++ [vf] }) s
  let s := s.modVf vf fun v => { v with lastPart := BitVec.ofNat 7 p }
  let s := (s.appendOverflow p).releaseNet p
  if back then s.resumeNotices p vf else s

/-- PREEMPT_RESUME (R308, R340): the chosen entry's VF is loaded, when no rail of the partition is cut off (R356). -/
def execPreemptResume (p vf : Nat) (s : State) : Host.Outcome State Fault Refusal :=
  event s
    (let x := s.part p
     let tripped := x.fields.any fun f => (s.field f).rails.toList.any fun r => r.trip
     match x.next with
     | none => none
     | some e =>
       if !x.valid || tripped || !(x.phase == .out || (x.phase == .run && qIdle x.qcur)) || qtVf e.2 != vf ||
           x.ctx.ologstat.getLsbD 63 then none
       else some (s.enterVf p vf e))

end Sys2Proof.Machine
end

