-- ==== Sys2Proof/Machine/ScanUnit.lean ====
section
/-! DEFINITION. The scan unit: OP 0x7C and 0x7D (08 R233 to R240), its exact arithmetic and its events. -/

namespace Sys2Proof.Machine

/-! ### Exact values with ratios (R236) -/

/-- A NaN, quiet, as its binary32 code; an infinity; or (−1)^neg × p / q × 2^e with q not 0. -/
inductive RVal where
  | nan (x : Nat)
  | inf (neg : Bool)
  | rat (neg : Bool) (p q : Nat) (e : Int)

/-- The default NaN (R44). -/
def RVal.invalid : RVal := .nan fmtF32.nan

/-- A product: the first NaN of its factors (R44), with NV for 0 × ∞. -/
def RVal.mul : RVal → RVal → RVal × BitVec 8
  | .nan x, _ => (.nan x, 0)
  | _, .nan x => (.nan x, 0)
  | .inf a, .inf b => (.inf (a != b), 0)
  | .inf a, .rat b p _ _ => if p = 0 then (.invalid, flagNV) else (.inf (a != b), 0)
  | .rat a p _ _, .inf b => if p = 0 then (.invalid, flagNV) else (.inf (a != b), 0)
  | .rat a p q e, .rat b r t f => (.rat (a != b) (p * r) (q * t) (e + f), 0)

/-- A sum: the first NaN of its terms (R44), with NV for ∞ − ∞; a zero is −0 only when both terms are (R405). -/
def RVal.add : RVal → RVal → RVal × BitVec 8
  | .nan x, _ => (.nan x, 0)
  | _, .nan x => (.nan x, 0)
  | .inf a, .inf b => if a = b then (.inf a, 0) else (.invalid, flagNV)
  | .inf a, _ => (.inf a, 0)
  | _, .inf b => (.inf b, 0)
  | .rat a p q e, .rat b r t f =>
    let (i, g) := if q = t then dyAdd (sgn a p) e (sgn b r) f else dyAdd (sgn a (p * t)) e (sgn b (r * q)) f
    (.rat (if i = 0 then a && b && p == 0 && r == 0 else decide (i < 0)) i.natAbs (if q = t then q else q * t) g, 0)

def RVal.sum : List RVal → RVal × BitVec 8
  | [] => (.rat false 0 1 0, 0)
  | [x] => (x, 0)
  | x :: l =>
    let (y, f) := RVal.sum l
    let (z, g) := x.add y
    (z, f ||| g)

/-- `rne` of R236, in binary32. -/
def RVal.rne : RVal → Nat × BitVec 8
  | .nan x => (x, flagNF)
  | .inf a => (signOf fmtF32 a + fmtF32.inf, flagNF)
  | .rat a p q e =>
    if p = 0 then (signOf fmtF32 a, 0)
    else
      let sh := 30 + Nat.log2 q
      fmtF32.withNF (fmtF32.roundEx .rne a (p * 2 ^ sh / q, e - sh, p * 2 ^ sh % q == 0))

/-- A signalling NaN among some operands. -/
def sigNV (l : List Nat) : BitVec 8 := if l.any fun x => (fmtF32.unpack x).isSig then flagNV else 0

/-- The value of a binary32 code; a NaN is made quiet (R44). The formulas of R236 and R237 name no operand fields inside one
result: the first NaN is the first in the order in which they are written (DEDUCED, entry 89). -/
def rv (x : Nat) : RVal :=
  match fmtF32.unpack x with
  | .nan _ _ => .nan (fmtF32.quiet x)
  | .inf a => .inf a
  | .fin a m e => .rat a m 1 e

/-- A product of several values. -/
def RVal.prod : List RVal → RVal × BitVec 8
  | [] => (.rat false 1 1 0, 0)
  | [x] => (x, 0)
  | x :: l =>
    let (y, f) := RVal.prod l
    let (z, g) := x.mul y
    (z, f ||| g)

/-- An exact dot product. -/
def dotR (a b : List Nat) : RVal × BitVec 8 :=
  let ps := (a.zip b).map fun p => (rv p.1).mul (rv p.2)
  let (s, f) := RVal.sum (ps.map (·.1))
  (s, ps.foldl (fun g p => g ||| p.2) f)

/-- Inputs of one step for one channel: x, the decay, B and C. -/
structure ScanIn where
  x : Nat
  a : Nat
  b : List Nat
  c : List Nat

/-- al[0] to al[Q] (R236). -/
def decayProds (a : List Nat) : List Nat × BitVec 8 :=
  a.foldl (fun (l, f) x => let (y, g) := fmtF32.mul .rne (l.getLastD 0x3F800000) x; (l ++ [y], f ||| g)) ([0x3F800000], 0)

/-- r(t, s) of R236, where 1 ≤ s ≤ t. -/
def ratioOf (a al : List Nat) (t s : Nat) : RVal × BitVec 8 :=
  let d := al.getD s 0
  let n := al.getD t 0
  match fmtF32.unpack n, fmtF32.unpack d with
  | .fin u p e, .fin v q f =>
    if q ≠ 0 then (.rat (u != v) p q (e - f), 0)
    else
      let (r, g) := ((a.drop s).take (t - s)).foldl (fun (r, g) x => let (y, h) := fmtF32.mul .rne r x; (y, g ||| h)) (0x3F800000, 0)
      (rv r, g)
  | _, _ =>
    let (r, g) := ((a.drop s).take (t - s)).foldl (fun (r, g) x => let (y, h) := fmtF32.mul .rne r x; (y, g ||| h)) (0x3F800000, 0)
    (rv r, g)

/-- A chunk for one channel (R236): the y of its steps and the state after it. The y of a padded step is formed and sets flags,
though it is not written (DESIGN CHOICE, entry 94). -/
def chunkChannel (h : List Nat) (ins : List ScanIn) : List Nat × List Nat × BitVec 8 :=
  let as := ins.map (·.a)
  let (al, f0) := decayProds as
  let q := ins.length
  let nth := fun (i : Nat) => ins.getD (i - 1) ⟨0, 0, [], []⟩
  let ys := (List.range q).map fun i =>
    let t := i + 1
    let terms := (List.range t).map fun j =>
      let s := j + 1
      let (d, g) := dotR (nth t).c (nth s).b
      let (r, g') := ratioOf as al t s
      let (p, g'') := RVal.prod [d, rv (nth s).x, r]
      (p, g ||| g' ||| g'')
    let (d, g) := dotR (nth t).c h
    let (p, g') := d.mul (rv (al.getD t 0))
    let (s, g'') := RVal.sum (terms.map (·.1) ++ [p])
    let (y, g3) := s.rne
    (y, terms.foldl (fun f e => f ||| e.2) (g ||| g' ||| g'' ||| g3))
  let he := h.mapIdx fun n hn =>
    let (p, g) := (rv (al.getD q 0)).mul (rv hn)
    let terms := (List.range q).map fun j =>
      let s := j + 1
      let (r, g') := ratioOf as al q s
      let (p, g'') := RVal.prod [r, rv (nth s).x, rv ((nth s).b.getD n 0)]
      (p, g' ||| g'')
    let (s, g2) := RVal.sum (p :: terms.map (·.1))
    let (y, g3) := s.rne
    (y, terms.foldl (fun f e => f ||| e.2) (g ||| g2 ||| g3))
  let sig := sigNV (h ++ ins.flatMap fun i => i.x :: i.a :: i.b ++ i.c)
  (ys.map (·.1), he.map (·.1), f0 ||| orFlags ys ||| orFlags he ||| sig)

/-- A stepwise step for one channel (R237): y and the state after it. -/
def stepChannel (h : List Nat) (i : ScanIn) : Nat × List Nat × BitVec 8 :=
  let hs := h.mapIdx fun n hn =>
    let (p, f) := (rv i.a).mul (rv hn)
    let (q, g) := (rv i.x).mul (rv (i.b.getD n 0))
    let (s, g') := p.add q
    let (y, g'') := s.rne
    (y, f ||| g ||| g' ||| g'')
  let h' := hs.map (·.1)
  let pr := h'.mapIdx fun n x => fmtF32.mul .rne (i.c.getD n 0) x
  let (y, f) := redTree .sum (.fp .f32 .rne) ((List.range 64).map fun n => if n < h.length then some (pr.getD n (0, 0)).1 else none) 6
  (y.getD 0, h', orFlags hs ||| orFlags pr ||| f ||| sigNV (i.x :: i.a :: i.b ++ h))

/-! ### Instructions -/

def Units.scanN (u : Units) : Nat := (u.scanCfg.extractLsb' 0 7).toNat
def Units.scanP (u : Units) : Nat := (u.scanCfg.extractLsb' 7 4).toNat + 1
def Units.scanAF (u : Units) : Bool := u.scanCfg.getLsbD 11

/-- SCANCFG (R233). -/
def execScancfg (x : ScancfgF) (s : State) : Host.Outcome State Fault Refusal :=
  issue (mkForm x.q 1 (r16Ops x.src) [])
    (fun s =>
      let v := (s.r16 x.src).extractLsb' 0 16
      let u := s.unit s.cur.core
      let rel := v.getLsbD 15
      if !scanCfgWf v then .trap 0x03 s.headWord
      else if (u.scanOwner.isSome || rel) && u.scanOwner != some s.cur.slot then .trap 0x09 0
      else if !u.scans.isEmpty then .wait .unit id
      else .ok (s.modUnits s.cur.core fun u =>
        if rel then { u with scanOwner := none }
        else
          let u := { u with scanOwner := some s.cur.slot, scanCfg := v }
          { u with scanH := List.replicate (u.scanP * u.scanN) 0 })) s

/-- The checks of R234 on a record that holds `n` elements of 2^es bytes. -/
def scanRec (h : Shp) (es n : Nat) (k : Act) : Act :=
  if !isLocal h.base && !isBerth h.base then .trap 0x0A h.base
  else if h.conv != 0 || h.esCode != es || h.total < n then .trap 0x06 h.base
  else k

/-- SCAN (R234). -/
def execScan (x : ScanF) (s : State) : Host.Outcome State Fault Refusal :=
  issue (mkForm x.q 1 (ctrOps x.ctr) [])
    (fun s =>
      let c := s.core s.cur.core
      let u := c.unit
      let n := x.len.toNat
      let p := u.scanP
      let y := c.mem.shapes[x.d]
      let a := c.mem.shapes[x.a]
      let b := c.mem.shapes[x.b]
      let bc := c.mem.shapes[x.c]
      if u.scanOwner != some s.cur.slot then .trap 0x09 0
      else scanRec a 2 (n * p) (scanRec b (if u.scanAF then 1 else 2) (n * p) (scanRec bc 2 (n * 2 * u.scanN) (scanRec y 2 (n * p)
        (counterWord s x.ctr fun ctr =>
          syncIssue s x.sync .unit (decide (u.scans.length < 3)) fun s =>
            let r : Scan := { slot := s.cur.slot, form := x.form, x := a, a := b, bc := bc, y := y, len := n, at_ := 0,
                              stage := Vector.replicate 3 [], flags := 0, done := syncDone x.sync ctr }
            .ok (s.modCore s.cur.core fun c =>
              Core.pullBerths { c with unit := { c.unit with scans := c.unit.scans ++ [r] } } s.cur.core)))))) s

/-- The checks of SCANST, then the offset (R239). -/
def scanstArea (a : Word) (s : State) (k : Nat → Nat → Act) : Act :=
  let u := s.unit s.cur.core
  let n := u.scanP * u.scanN
  if u.scanOwner != some s.cur.slot then .trap 0x09 0
  else areaCheck a (4 * n) fun o => if !u.scans.isEmpty then .wait .unit id else k o n

/-- SCANST.save (R239). -/
def execScanstSave (x : G1) (s : State) : Host.Outcome State Fault Refusal :=
  issue (mkForm x.q 1 [x.a] [])
    (fun s => scanstArea (s.rd x.a) s fun o n =>
      .ok (s.sramPut s.cur.core o (4 * n) (packNat 32 ((s.unit s.cur.core).scanH.map (·.toNat))) (some s.cur.slot))) s

/-- SCANST.load (R239). -/
def execScanstLoad (x : G1) (s : State) : Host.Outcome State Fault Refusal :=
  issue (mkForm x.q 1 [x.a] [])
    (fun s => scanstArea (s.rd x.a) s fun o n =>
      readLocal s o (4 * n) fun s v =>
        .ok (s.modUnits s.cur.core fun u => { u with scanH := (List.range n).map fun i => BitVec.ofNat 32 (v / 2 ^ (32 * i)) })) s

/-! ### Events -/

/-- An element of a record: from SRAM, or from the bytes taken from its berth. -/
def State.scanElem (s : State) (k : CoreId) (r : Scan) (i : Fin 3) (per t j : Nat) : Nat :=
  let h := r.rec_ i
  if isLocal h.base then s.sramLE k ((offOf h.base : Int) + h.off (t * per + j)).toNat h.es
  else leBytes ((r.stage[i].drop (((t - r.at_) * per + j) * h.es)).take h.es)

/-- Offsets of the local elements that `m` steps read. -/
def scanOffs (h : Shp) (per t m : Nat) : List Nat :=
  if isLocal h.base then (List.range (m * per)).map fun j => ((offOf h.base : Int) + h.off (t * per + j)).toNat else []

/-- Inputs of step t for channel p. -/
def State.scanIn (s : State) (k : CoreId) (r : Scan) (t p : Nat) : ScanIn × BitVec 8 :=
  let u := s.unit k
  let n := u.scanN
  let a := s.scanElem k r 1 u.scanP t p
  let (a, f) := if u.scanAF then cvtIeee fmtBf16 fmtF32 .rne a else (a, 0)
  (⟨s.scanElem k r 0 u.scanP t p, a, (List.range n).map fun j => s.scanElem k r 2 (2 * n) t j,
    (List.range n).map fun j => s.scanElem k r 2 (2 * n) t (n + j)⟩, f)

/-- Whether the berths of a SCAN have what its next `m` steps need, and room for y (R114, R234). -/
def State.scanFed (s : State) (k : CoreId) (r : Scan) : Bool :=
  let c := s.core k
  ((List.finRange 3).all fun i =>
    let h := r.rec_ i
    isLocal h.base || r.next * c.unit.scanPer i * h.es ≤ (r.stage[i]).length) &&
  (isLocal r.y.base || (c.berthReady (berthNo r.y.base) true && (c.berths[berthNo r.y.base]).buf.isEmpty))

/-- Write the y of step t for every channel. -/
def State.putY (s : State) (k : CoreId) (r : Scan) (t : Nat) (ys : List Nat) : State :=
  if isLocal r.y.base then
    (ys.mapIdx fun p y => (p, y)).foldl (fun (s : State) (e : Nat × Nat) =>
      s.sramPut k ((offOf r.y.base : Int) + r.y.off (t * ys.length + e.1)).toNat 4 e.2 (some r.slot)) s
  else s.modCore k fun c => c.berthOut k (berthNo r.y.base) (ys.flatMap fun y => toBytes y 4)

/-- After `m` steps: state, flags and records' places. -/
def State.scanAfter (s : State) (k : CoreId) (r : Scan) (rest : List Scan) (m cost : Nat) (h : List Nat) (fl : BitVec 8) : State :=
  s.modCore k fun c =>
    let u := c.unit
    let r' := { r with at_ := r.at_ + m, flags := r.flags ||| fl,
                       stage := r.stage.mapFinIdx fun i l hi => l.drop (m * u.scanPer ⟨i, hi⟩ * (r.rec_ ⟨i, hi⟩).es) }
    Core.pullBerths { c with unit := { u.payS cost with scans := r' :: rest, scanH := h.map (BitVec.ofNat 32) } } k

/-- The next `m` steps of a SCAN: their inputs are read, or an uncorrectable word ends it (R300), with the flags that it has
raised (R55). -/
def State.scanRun (s : State) (k : CoreId) (r : Scan) (rest : List Scan) (m cost : Nat) (cls : Fin 32) (per : Nat)
    (f : List Nat → List ScanIn → List Nat × List Nat × BitVec 8) : State :=
  let u := s.unit k
  let c := s.core k
  let offs := (List.finRange 3).flatMap fun i => (scanOffs (r.rec_ i) (u.scanPer i) r.at_ m).map fun o => (o, (r.rec_ i).es)
  match offs.findSome? fun o => c.badWord o.1 o.2 with
  | some w => ((s.modUnits k fun u => { u with scans := rest }).setFlags k r.slot r.flags).sourceFails k r.slot r.done w
  | none =>
    let s := s.modCore k fun c => offs.foldl (fun c o => c.correct o.1 o.2 (some r.slot)) c
    let chans := (List.range u.scanP).map fun p =>
      let ins := (List.range m).map fun i => s.scanIn k r (r.at_ + i) p
      let (ys, h, fl) := f ((List.range u.scanN).map fun n => (u.scanH.getD (p * u.scanN + n) 0).toNat) (ins.map (·.1))
      (ys, h, ins.foldl (fun (a : BitVec 8) (e : ScanIn × BitVec 8) => a ||| e.2) fl)
    let s := (List.range m).foldl (fun s i => s.putY k r (r.at_ + i) (chans.map fun c => c.1.getD i 0)) s
    let fl := chans.foldl (fun a c => a ||| c.2.2) 0
    (s.scanAfter k r rest m cost (chans.flatMap fun c => c.2.1) fl).charge k r.slot cls
      (u.scanP * ((u.scanN + per - 1) / per))

/-- What the next steps of a SCAN read and write in SRAM: accesses of its engine, one for each local record (R19, R389). -/
def State.scanOrder (s : State) (k : CoreId) (r : Scan) : Except State State :=
  let at_ := fun (h : Shp) (n : Nat) => ((offOf h.base : Int) + h.off (r.at_ * n)).toNat
  s.orderAll k
    (((List.finRange 3).filter fun i => isLocal (r.rec_ i).base).map (fun i s => s.orderEngine k (at_ (r.rec_ i) ((s.unit k).scanPer i)) 9) ++
     (if isLocal r.y.base then [fun s => s.orderEngine k (at_ r.y (s.unit k).scanP) 9] else []))

/-- Steps of the next chunk; a padded chunk has fewer (R235). -/
def Scan.chunked (r : Scan) : Bool := r.form == .chk || (r.form == .byRule && decide (16 ≤ r.len - r.at_))

/-- A padding step (R235). -/
def padIn (n : Nat) : ScanIn := ⟨0, 0x3F800000, List.replicate n 0, List.replicate n 0⟩

/-- SCAN_CHUNK (R236, R353). -/
def execScanChunk (k : CoreId) (s : State) : Host.Outcome State Fault Refusal :=
  event s
    (match (s.unit k).scans with
     | [] => none
     | r :: rest =>
       let u := s.unit k
       if r.len ≤ r.at_ || !r.chunked || !u.mayS || s.phaseOf k != .run || !s.scanFed k r then none
       else ordered (s.scanOrder k r) fun s => s.scanRun k r rest r.next 16 20 8 fun h ins =>
         chunkChannel h (ins ++ List.replicate (16 - ins.length) (padIn u.scanN)))

/-- SCAN_STEP (R237, R353). -/
def execScanStep (k : CoreId) (s : State) : Host.Outcome State Fault Refusal :=
  event s
    (match (s.unit k).scans with
     | [] => none
     | r :: rest =>
       if r.len ≤ r.at_ || r.chunked || !(s.unit k).mayS || s.phaseOf k != .run || !s.scanFed k r then none
       else ordered (s.scanOrder k r) fun s => s.scanRun k r rest 1 1 21 4 fun h ins =>
         let (y, h', f) := stepChannel h (ins.headD (padIn 0))
         ([y], h', f))

/-- SCAN_COMPLETE (R234): after the last y the flags, signal and counter add are made. -/
def execScanComplete (k : CoreId) (s : State) : Host.Outcome State Fault Refusal :=
  event s
    (match (s.unit k).scans with
     | [] => none
     | r :: rest =>
       if r.at_ < r.len || (s.unit k).owedS != 0 then none
       else ordered (s.orderSignal k r.done 9) fun s =>
         let s := s.modCore k fun c => Core.pullBerths { c with unit := { c.unit with scans := rest } } k
         (s.setFlags k r.slot r.flags).complete k r.slot 0 r.done)

end Sys2Proof.Machine
end

