-- ==== Sys2Proof/Machine/Energy.lean ====
section
/-! DEFINITION. Metering and quotas (15 R340, R344 to R347), the shares of the memory quays (R341, R342, 19 R398), votes and
set-points (16 R352), tokens (R353, R354), heat (R355, R356). -/

namespace Sys2Proof.Machine

/-! ### Metering (R345, R346) -/

/-- VFs that a core's or hub's meters name. -/
def meterVfs (now : List (Nat × Nat)) : List Nat := now.map (·.1)

/-- Meter increases of a VF on a rail: its cores, what a wipe has taken from their meters (R374), and one quarter of the hub. -/
def State.railInc (s : State) (r vf : Nat) : Nat :=
  ((s.cores.filter fun e => onRail r e.1).map fun e => meterInc e.2.regs.meter e.2.regs.metered vf).sum +
    (mget (s.field (r / 4)).carry (512 * (r % 4) + vf)).getD 0 + meterInc (s.field (r / 4)).meter (s.field (r / 4)).meterAt vf / 4

/-- Ascending numbers without repeats. -/
def insertNat (x : Nat) : List Nat → List Nat
  | [] => [x]
  | y :: l => if x < y then x :: y :: l else if x = y then y :: l else y :: insertNat x l
def sortNat (l : List Nat) : List Nat := l.foldr insertNat []

/-- VFs that a field's meters have charged or that have occupied it. -/
def State.meteredVfs (s : State) (f : Nat) : List Nat :=
  sortNat ((s.field f).occ ++
    ((s.cores.filter fun e => fieldOf e.1 == f).flatMap fun e =>
      (meterVfs e.2.regs.meter).filter fun v => meterInc e.2.regs.meter e.2.regs.metered v != 0) ++
    (meterVfs (s.field f).carry).map (· % 512) ++
    ((meterVfs (s.field f).qmeter).filter fun v => (mget (s.field f).qmeter v).getD 0 != 0))

/-- Core-times of the occupying VFs: what happened when is left open, so they are free and positive (entry 5). -/
def State.coreTimes (s : State) (vs : List Nat) : List (Nat × Nat) :=
  vs.mapIdx fun i v => (v, (Config.word (s.free + i)).toNat + 1)

/-- The first `n` VFs in ascending number receive 1 pJ more. -/
def giveOne : List (Nat × Int) → Nat → List (Nat × Int)
  | [], _ => []
  | (v, x) :: l, 0 => (v, x) :: l
  | (v, x) :: l, n + 1 => (v, x + 1) :: giveOne l n

/-- The shares of a residual (R345). -/
def shares (res : Int) (ts : List (Nat × Nat)) : List (Nat × Int) :=
  let total : Nat := (ts.map (·.2)).sum
  let fl := ts.map fun t => (t.1, Int.fdiv (res * t.2) total)
  giveOne fl (res - (fl.map (·.2)).sum).toNat

/-- What a rail charges: residual shares of the occupying VFs and every VF's own increases, in pJ. -/
def State.railCharges (s : State) (r : Nat) (energy : Nat) (vs : List Nat) : List (Nat × Int) :=
  let occ := sortNat (s.field (r / 4)).occ
  let m := (vs.map (s.railInc r)).sum / 256
  let sh := shares ((energy : Int) - m) (s.coreTimes occ)
  vs.map fun v => (v, (s.railInc r v / 256 : Int) + ((sh.find? fun x => x.1 == v).map (·.2)).getD 0)

/-- Charges of a field by VF over its four rails and its quays (R345). -/
def State.fieldCharges (s : State) (f : Nat) (energy : List Nat) (vs : List Nat) : List (Nat × Int) :=
  let per := (List.range 4).map fun b => s.railCharges (4 * f + b) (energy.getD b 0) vs
  vs.map fun v => (v, (per.map fun l => ((l.find? fun x => x.1 == v).map (·.2)).getD 0).sum +
    ((mget (s.field f).qmeter v).getD 0 / 256 : Int))

/-- Every meter of a field reads as at a boundary. -/
def State.markMeters (s : State) (f : Nat) : State :=
  let t : State := { s with
    cores := s.cores.map fun e =>
      if fieldOf e.1 = f then (e.1, { e.2 with regs := { e.2.regs with metered := e.2.regs.meter } }) else e }
  t.modField f fun x => { x with meterAt := x.meter, qmeter := [], carry := [] }

/-- A charge summed over the roll-up period, modulo 2^64. -/
def rollUp (l : List (Nat × Nat)) (cs : List (Nat × Int)) : List (Nat × Nat) :=
  cs.foldl (fun l c => mset l c.1 ((((mget l c.1).getD 0 : Int) + c.2) % 2 ^ 64).toNat) l

/-- The hub's adds of one boundary (R346): BALANCE at every one, CONSUMED once every ROLLP for every VF charged since. A field in
no partition has no ROLLP and adds at every boundary (DESIGN CHOICE, entry 90). -/
def State.hubAdds (s : State) (f : Nat) (cs : List (Nat × Int)) : State :=
  let x := s.field f
  let p := s.partOfField f
  let period := match p with
    | some p => max 1 ((s.part p).rollp.extractLsb' 0 16).toNat
    | none => 1
  let rolled := rollUp x.rolled cs
  let roll := period ≤ x.rollAt + 1
  let adds := (if roll then rolled.map (·.1) else cs.map (·.1)).map fun v =>
    ({ field := f, part := p, vf := v, charge := (cs.find? fun c => c.1 == v).map (·.2),
       consumed := if roll then some (((mget rolled v).getD 0 : Nat) : Int) else none } : BalAdd)
  let s := s.modField f fun x => { x with rolled := if roll then [] else rolled, rollAt := if roll then 0 else x.rollAt + 1 }
  { s with adds := s.adds ++ adds }

/-- The VF that time goes to after the boundary: the current VF, else the one whose save ended last (R345). -/
def State.occupant (s : State) (f : Nat) : List Nat :=
  match s.partOfField f with
  | none => []
  | some p => match (s.part p).current with
    | some v => [v]
    | none => match (s.field f).lastVf with | some v => [v] | none => []

/-- What the hub and express network charge, until the field's next boundary, to the VF that occupies it (R344): the price of class
24 at the field's north-west core for each flit-hop. Which flits take that network, and over how many links, the spec leaves
open, so their number is free (entry 69). -/
def State.hubFlits (s : State) (f : Nat) : State :=
  match s.occupant f with
  | [] => s
  | v :: _ =>
    let w := s.fresh
    let k := coreAt (fieldX f * 96) (fieldY f * 128)
    let e := (s.core k).regs.cal[(24 : Fin 32)].toNat * s.mscale k / 4096 * (w.1.extractLsb' 0 32).toNat
    if e = 0 then w.2
    else w.2.modField f fun x => { x with meter := mset x.meter v (((mget x.meter v).getD 0 + e) % 2 ^ 56) }

/-- The slice of a partition at a boundary (R340). -/
def State.sliceBoundary (s : State) (p : Nat) : State :=
  let x := s.part p
  if qIdle x.qcur then
    (if x.next.isNone then
       let s := s.latchQt p
       s.modPart p fun y => { y with next := s.nextEntry p }
     else s)
  else if x.phase != .run then s
  else
    let left := qLeft x.qcur - 1
    let set := fun (s : State) (n : Nat) (e : Nat) => s.modPart p fun y => { y with qcur := qWord (qVf y.qcur) n false e }
    if left ≠ 0 then set s left (qEntry x.qcur)
    else
      let s := s.latchQt p
      match s.nextEntry p with
      | none => set s 0 (qEntry x.qcur)
      | some e =>
        if qtVf e.2 = qVf x.qcur then set s (qtQuantum e.2) e.1.val
        else (set s 0 (qEntry x.qcur)).beginPreempt p (some e) none

/-- METERING_BOUNDARY (R345, R346, R340): a field's hub reconciles its four rails with the energies measured and charges the
VFs; the north-west field's boundary is the partition's. -/
def execMeteringBoundary (f : Nat) (energy : List Nat) (s : State) : Host.Outcome State Fault Refusal :=
  event s
    (if 84 ≤ f || energy.length != 4 then none
     else
       let t := BitVec.ofNat 64 (((s.field f).time.toNat / 10000 + 1) * 10000)
       let vs := s.meteredVfs f
       let cs := s.fieldCharges f energy vs
       let n := (s.field f).occ.length
       let s : State := if n ≤ 1 then s else { s with free := s.free + n }
       let s := s.markMeters f
       let s := s.hubAdds f cs
       let s := (s.modField f fun x => { x with time := t, occ := s.occupant f }).hubFlits f
       match s.partOfField f with
       | none => some s
       | some p => some (if f = (s.part p).first then s.sliceBoundary p else s))

/-- The slice of a partition ends because the VF is exhausted (R347), whether it runs, or leaves, or is the one chosen to run
next, which then must not: another is chosen (DEDUCED, entry 70). -/
def State.exhaust (s : State) (vf : Nat) (bal : Word) (p : Nat) : State :=
  let x := s.part p
  let mine := x.current == some vf
  let named := x.next.any fun e => qtVf e.2 == vf
  if (mine && !x.exhausted) || (!mine && named) then
    let s := s.modPart p fun x => { x with
      qtNow := x.qt, exhausted := x.exhausted || mine, owed := x.owed ++ [(vf, 0x21, bal)] }
    let next := (((List.range 16).map fun i => Fin.ofNat 16 (qEntry x.qcur + 1 + i)).find? fun i =>
      qtVf x.qt[i] != vf && s.eligible p x.qt[i]).map fun i => (i, x.qt[i])
    if mine && x.phase == .run then s.beginPreempt p next none
    else if named then s.modPart p fun x => { x with next := next }
    else s
  else s

/-- BALANCE_ADD_RETURN (R346, R347): a hub's adds are performed at the control block, and BALANCE returns; where it
is 0 or below, the slice of the VF ends in the partition that runs it, whichever field's hub made the add. -/
def execBalanceAddReturn (i : Nat) (s : State) : Host.Outcome State Fault Refusal :=
  event s
    (match s.adds[i]? with
     | none => none
     | some a =>
       let d := s.cbAddr a.vf
       let s : State := { s with adds := s.adds.eraseIdx i }
       let s := match a.consumed with
         | some c => s.gwrite (d + 8) 8 (s.cbWord a.vf 8 + BitVec.ofInt 64 c).toNat
         | none => s
       match a.charge with
       | none => some s
       | some c =>
         let bal := s.cbWord a.vf 0 - BitVec.ofInt 64 c
         let s := s.gwrite d 8 bal.toNat
         some (if bal.toInt ≤ 0 then (s.parts.map (·.1)).foldl (fun s p => s.exhaust a.vf bal p) s else s))

/-! ### Shares of the memory quays (R341, R342, R398) -/

/-- A partition's share at a quay: FLOOR and WEIGHT (R329). -/
def Quay.shareOf (q : Quay) (p : Nat) : Nat × Nat :=
  let w := (mget q.share p).getD 0x10000
  ((w.extractLsb' 0 16).toNat, max 1 (w.extractLsb' 16 16).toNat)

/-- A claimant of a window: partition, grant so far, demand, weight. -/
structure Claim where
  part : Nat
  got : Nat
  demand : Nat
  weight : Nat
  deriving DecidableEq, Repr

/-- Spread `r` bytes in proportion to weight, never beyond a demand; what a claimant cannot take is spread again. -/
def spread : Nat → Nat → List Claim → List Claim
  | 0, _, cs => cs
  | fuel + 1, r, cs =>
    let open_ := fun (c : Claim) => decide (c.got < c.demand)
    let w := ((cs.filter open_).map (·.weight)).sum
    let sated := fun (c : Claim) => open_ c && decide ((c.demand - c.got) * w ≤ r * c.weight)
    if w = 0 then cs
    else if cs.any sated then
      spread fuel (r - ((cs.filter sated).map fun c => c.demand - c.got).sum)
        (cs.map fun c => if sated c then { c with got := c.demand } else c)
    else cs.map fun c => if open_ c then { c with got := c.got + r * c.weight / w } else c

/-- Bytes that rounding leaves go one each in ascending partition number. -/
def leaveOver : Nat → List Claim → List Claim
  | _, [] => []
  | 0, l => l
  | n + 1, c :: l => if c.got < c.demand then { c with got := c.got + 1 } :: leaveOver n l else c :: leaveOver (n + 1) l

/-- The grants of a window of B bytes (R341); claims in ascending partition number. -/
def windowGrants (b : Nat) (cs : List (Claim × Nat)) : List Claim :=
  let fs := cs.map fun c => min c.2 c.1.demand
  let total := fs.sum
  let start := (cs.zip fs).map fun c => c.1.1
  if b ≤ total then
    let g := (start.zip fs).map fun c => { c.1 with got := if total = 0 then 0 else b * c.2 / total }
    leaveOver (b - (g.map (·.got)).sum) g
  else
    let g := spread (cs.length + 1) (b - total) ((start.zip fs).map fun c => { c.1 with got := c.2 })
    leaveOver (b - (g.map (·.got)).sum) g

/-- QUAY_GRANT_WINDOW (R341): the window of one direction, reads or writes; 0.125 GB/s over 1 µs is 125 bytes. -/
def execQuayGrantWindow (q : Nat) (demand : QuayDemand) (s : State) : Host.Outcome State Fault Refusal :=
  event s
    (if 64 ≤ q then none
     else
       let y := s.quay q
       let cs := (sortNat ((demand.parts.filter fun d => d.2 != 0).map (·.1))).map fun p =>
         ((⟨p, 0, (mget demand.parts p).getD 0, (y.shareOf p).2⟩ : Claim), 125 * (y.shareOf p).1)
       let g := windowGrants (125 * y.b) cs
       some (s.modQuay q fun y => { y with grants := y.grants.set demand.dir (g.map fun c => (c.part, c.got)) }))

/-- TADDR of a quay's THERMAL notice (R342). -/
def quayThermal (q b : Nat) : Word := 1#1 ++ 0#31 ++ BitVec.ofNat 16 b ++ 0#10 ++ BitVec.ofNat 6 q

/-- A notice for every supervisor slot of a partition: of the VF that runs now, and of each saved one when it returns (DEDUCED,
entry 90). -/
def State.notifyVfs (s : State) (p : Nat) (cause : BitVec 8) (taddr : Word) : State :=
  (s.notifyAll p cause taddr).modPart p fun x => { x with owed := x.owed ++ x.saved.map fun y => (y.1, cause, taddr) }

/-- MEMORY_THROTTLE_REPORT (R342): a throttle with the bandwidth reported, or its end; notices go out at its start and at its
end. A share always has a weight of 1 or more (R330), so every partition has one. -/
def execMemoryThrottleReport (q : Nat) (b : Option Nat) (s : State) : Host.Outcome State Fault Refusal :=
  event s
    (let y := s.quay q
     if 64 ≤ q || (b.isNone && !y.throttled) then none
     else
       let nb := b.getD y.full
       let s := s.modQuay q fun y => { y with b := nb, throttled := b.isSome }
       some (if y.throttled && b.isSome then s
         else (s.parts.filter fun e => e.2.valid).foldl (fun s e => s.notifyVfs e.1 0x22 (quayThermal q nb)) s))

/-- DEVLOAD_RESPONSE (R398): Severe Overload halves B, Moderate Overload takes it to three quarters. -/
def execDevloadResponse (q : Nat) (severe : Bool) (s : State) : Host.Outcome State Fault Refusal :=
  event s
    (if 64 ≤ q then none
     else some (s.modQuay q fun y => { y with b := if severe then y.full / 2 else y.full * 3 / 4 }))

/-- DEVLOAD_RESTORE (R398): no overload for 10 µs; a reported throttle keeps its bandwidth (R342). -/
def execDevloadRestore (q : Nat) (s : State) : Host.Outcome State Fault Refusal :=
  event s
    (let y := s.quay q
     if 64 ≤ q || y.b = y.full || y.throttled then none else some (s.modQuay q fun y => { y with b := y.full }))

/-! ### Votes (R352) -/

def maxVote (l : List (BitVec 10)) : Option Nat :=
  l.foldl (fun m v => if v = 0 then m else some (max (m.getD 0) v.toNat)) none

/-- TARGET from the votes in force. -/
def Rail.targetOf (r : Rail) (vs : List (BitVec 10)) : Nat :=
  min (r.ctl.extractLsb' 10 10).toNat (max (r.ctl.extractLsb' 0 10).toNat ((maxVote vs).getD 400))

/-- A rail at a 1 µs boundary, with the current VF's vote: TARGET, SETPT, STATE and the holds. -/
def Rail.vote (r : Rail) (own : List (BitVec 10)) : Rail :=
  let held := r.holds.filter fun h => h.2.2 != some 0
  let others := r.targetOf own
  let target := r.targetOf (own ++ held.map fun h => h.2.1)
  let sp := r.setpt.toNat
  let sp' := if sp < target then min target (sp + 20)
    else if target < sp ∧ held = [] then max target (sp - 10) else sp
  { r with target := BitVec.ofNat 10 target, setpt := BitVec.ofNat 10 sp',
           state := if sp < sp' then 1 else if sp' < sp then 3 else if held ≠ [] ∧ others < target then 2 else 0,
           holds := held.map fun h => (h.1, h.2.1, h.2.2.map fun n => n - 1) }

/-- RAIL_VOTE_UPDATE (R352): the current VF's vote counts until its slice ends, and is held from then on. -/
def execRailVoteUpdate (r : Nat) (s : State) : Host.Outcome State Fault Refusal :=
  event s
    (if 336 ≤ r then none
     else
       let own := match s.partOfField (r / 4) with
         | none => []
         | some p => if qIdle (s.part p).qcur || (s.part p).phase != .run then [] else [(s.part p).ctx.rvote.extractLsb' 0 10]
       if (s.rail r).off then none else some (s.modRail r fun x => x.vote own))

/-! ### Tokens (R353, R354) -/

/-- The sensor of a core's block (R355). -/
def sensorOf (k : CoreId) : Nat := posY k / 4 * 288 + posX k / 4
def State.hot (s : State) (k : CoreId) : Bool := (s.sensor (sensorOf k)).level == 2

/-- The tensor unit has begun a step and lacks tokens for it, or has one ready and finds the bucket empty (R353). -/
def State.tensorStalls (s : State) (k : CoreId) : Bool :=
  let u := s.unit k
  u.owedT != 0 || (u.tokens == 0 && match s.headRun k with
    | none => false
    | some (r, _) => !r.drain && (u.pairReady r).isSome)

/-- The same of the scan unit. -/
def State.scanStalls (s : State) (k : CoreId) : Bool :=
  let u := s.unit k
  u.owedS != 0 || (u.tokens == 0 && match u.scans with
    | [] => false
    | r :: _ => r.at_ < r.len && s.scanFed k r)

/-- A unit of the core stalls for tokens. -/
def State.stalled (s : State) (k : CoreId) : Bool := s.tensorStalls k || s.scanStalls k

/-- The slots whose commands stall. -/
def State.stallSlots (s : State) (k : CoreId) : List (Fin 4) :=
  let u := s.unit k
  (if s.tensorStalls k then (u.runs.head?.map (·.slot)).toList else []) ++
  (if s.scanStalls k then (u.scans.head?.map (·.slot)).toList else [])

/-- Tokens that a floor asks for in 1 µs: FLOOR / (CAL[16] × MSCALE / 2^20), at most a bucket. -/
def floorTokens (floor cal ms : Nat) : Nat := if cal * ms = 0 then 2048 else min 2048 (floor * 2 ^ 20 / (cal * ms))

/-- Tokens given to a core go first to the steps that its units have begun (R353). -/
def Units.give (u : Units) (n : Nat) : Units :=
  { u with tokens := u.tokens + (n - u.owedT - u.owedS), owedT := u.owedT - n, owedS := u.owedS - (n - u.owedT) }

def State.addTokens (s : State) (k : CoreId) (n : Nat) : State := s.modUnits k fun u => u.give n

/-- STARVED reads whether a unit stalls (R353). -/
def State.noteStarved (s : State) (k : CoreId) : State := s.modUnits k fun u => { u with starved := s.stalled k }

/-- The floor pass. -/
def State.floorPass (s : State) : List CoreId → Nat → State × Nat
  | [], left => (s, left)
  | k :: l, left =>
    match (s.core k).held with
    | none => s.floorPass l left
    | some h =>
      let f := s.floorOf h.vf
      if f = 0 || s.hot k then s.floorPass l left
      else
        let g := min (min (floorTokens f (s.core k).regs.cal[(16 : Fin 32)].toNat (s.mscale k)) (2048 - (s.unit k).tokens)) left
        (s.addTokens k g).floorPass l (left - g)

/-- TOKEN_REFILL (R354). -/
def execTokenRefill (r : Nat) (s : State) : Host.Outcome State Fault Refusal :=
  event s
    (if 336 ≤ r then none
     else
       let ks := (s.cores.map (·.1)).filter (onRail r)
       let (s1, left) := s.floorPass ks ((s.rail r).ctl.extractLsb' 40 24).toNat
       let d := ks.filter fun k => ((s.unit k).wanted || s.stalled k) && decide ((s1.unit k).tokens < 2048) && !s.hot k
       let n := left / d.length
       let s2 := d.foldl (fun s k => s.addTokens k (min n (2048 - (s.unit k).tokens))) s1
       some (ks.foldl (fun s k => (s.noteStarved k).modUnits k fun u => { u with wanted := s.stalled k }) s2))

/-! ### Heat (R355, R356) -/

/-- The 16 cores of a block. -/
def blockCores (sn : Nat) : List CoreId :=
  (List.range 4).flatMap fun j => (List.range 4).map fun i => coreAt (sn % 288 * 4 + i) (sn / 288 * 4 + j)

/-- TADDR of a sensor's THERMAL notice. -/
def sensorThermal (sn t : Nat) (code : Nat) : Word :=
  0#22 ++ BitVec.ofNat 10 t ++ 0#12 ++ BitVec.ofNat 4 code ++ BitVec.ofNat 16 sn

def absDiff (a b : Nat) : Nat := (a - b) + (b - a)

/-- Nearer, then lower y, then lower x. -/
def nearer (k a b : CoreId) : Bool :=
  let da := absDiff (posX k) (posX a) + absDiff (posY k) (posY a)
  let db := absDiff (posX k) (posX b) + absDiff (posY k) (posY b)
  da < db || (da == db && (posY a < posY b || (posY a == posY b && posX a < posX b)))

/-- The core proposed for a task that should move: all ones when there is none. -/
def State.proposed (s : State) (k : CoreId) : Word :=
  match s.partOf k with
  | none => BitVec.allOnes 64
  | some p =>
    let ok := fun (c : CoreId) =>
      (s.core c).held.isNone && (s.sensor (sensorOf c)).level == 0 && (s.sensor (sensorOf c)).temp.toNat < 340
    match ((s.part p).allCores.filter ok).foldl
        (fun b c => match b with | none => some c | some a => if nearer k c a then some c else some a) none with
    | some c => (packPos c).setWidth 64
    | none => BitVec.allOnes 64

/-- MIGRATE_REQ notices for each task on a block. -/
def State.migrateReqs (s : State) (sn : Nat) : State :=
  (blockCores sn).foldl (fun s k =>
    (List.finRange 4).foldl (fun s n =>
      let x := s.slot k n
      if x.st = .empty then s
      else s.notify k (s.supTarget k 0) [x.gtid, noticeWord n k 0 false false (lvlOf x) 0x24, s.proposed k, 0]) s) s

/-- A THERMAL notice to SUPR of every core of the block and to the device manager. -/
def State.thermal (s : State) (sn t code : Nat) : State :=
  let w := sensorThermal sn t code
  let s := (blockCores sn).foldl (fun s k => s.plainNotice k (s.supTarget k 0) 0x22 w) s
  s.plainNotice (coreAt (sn % 288 * 4) (sn / 288 * 4)) 0 0x22 w

def State.setLevel (s : State) (sn : Nat) (l : BitVec 2) : State :=
  { s with sensors := mset s.sensors sn { s.sensor sn with level := l } }

/-- One row of R355, from the present level; `none` when the reading crosses no threshold. -/
def State.heatRow (s : State) (sn t : Nat) : Option State :=
  match (s.sensor sn).level.toNat with
  | 0 => if 380 ≤ t then some ((s.setLevel sn 1).migrateReqs sn) else none
  | 1 => if 420 ≤ t then some ((s.setLevel sn 2).thermal sn t 2) else if t < 360 then some (s.setLevel sn 0) else none
  | _ => if t < 400 then some ((s.setLevel sn 1).thermal sn t 0) else none

def State.heatRows (s : State) (sn t : Nat) : Nat → State
  | 0 => s
  | n + 1 => match s.heatRow sn t with
    | some s' => s'.heatRows sn t n
    | none => s

/-- The rail of a sensor. -/
def railOfSensor (sn : Nat) : Nat := 4 * sensorField sn + sn / 288 * 4 % 128 / 32

/-- Launches of the current VF that hold a core for which `f` holds; a saved one holds it in its save area (entry 90). -/
def State.launchesOn (s : State) (p : Nat) (f : CoreId → Bool) : List (Nat × Nat) :=
  let x := s.part p
  let byCore := (s.cores.filter fun e => f e.1).filterMap fun e => e.2.held.map fun h => (h.vf, h.launch)
  let cur := x.launches.filter fun l => some l.vf == x.current && l.holding
  (cur.filter fun l => byCore.contains (l.vf, l.num)).map fun l => (l.vf, l.num)

/-- A partition loses cores (R356, R369): it is stopped, and the launches that hold one of them end. -/
def State.stopFor (s : State) (p : Nat) (f : CoreId → Bool) : State :=
  let x := s.part p
  let es := s.launchesOn p f
  let s := s.modPart p fun x => { x with ended := (x.ended ++ es).eraseDups }
  s.beginPreempt p (if qIdle x.qcur then none else let e := Fin.ofNat 16 (qEntry x.qcur); some (e, x.qtNow[e])) none

/-- Notices that a core has queued leave it before it loses its state (R355, R356). -/
def State.sendNotices (s : State) (k : CoreId) : Nat → State
  | 0 => s
  | n + 1 =>
    match (s.core k).inj.findIdx? fun m => m.kind == .notice with
    | none => s
    | some i => match (s.core k).inj[i]? with
      | none => s
      | some m => (s.inject k i m).sendNotices k n

/-- A notice for the device manager itself, with no core that would carry it (R356). -/
def State.tellManager (s : State) (k : CoreId) (cause : BitVec 8) (taddr : Word) : State :=
  { s with fw :=
    { kind := .notice, vf := 0, launch := 0, dst := 0, src := 0x3FFFBF, from_ := k, cls := 3, tag := 0, block := false, seq := 0,
      payload := [0, cause.setWidth 64, taddr, 0], sample := none } :: s.fw }

/-- A walk without the requests of a lost rail's cores. -/
def WalkReq.without (w : WalkReq) (r : Nat) : Option WalkReq :=
  let ws := w.waiters.filter fun q => !onRail r q.1
  if !onRail r w.core then some { w with waiters := ws }
  else match ws with
    | [] => none
    | q :: l => some { w with core := q.1, miss := q.2, waiters := l }

/-- A rail trips (R356): its cores lose all state, and its partition is stopped. -/
def State.tripRail (s : State) (r sn t : Nat) : State :=
  let s := match s.partOfField (r / 4) with
    | none => s
    | some p => (s.stopFor p (onRail r)).modPart p fun x => { x with moves := x.moves.filter fun m => !(onRail r m.core || onRail r m.toCore) }
  let s := ((s.cores.map (·.1)).filter (onRail r)).foldl (fun s k => s.sendNotices k (s.core k).inj.length) s
  let t' : State := { s with
    cores := s.cores.map (fun e => if onRail r e.1 then (e.1, { Core.wiped with regs := e.2.regs.afterWipe }) else e),
    laces := s.laces.filter (fun l => !onRail r l.core), watches := s.watches.filter (fun w => !onRail r w.core),
    sys := s.sys.filter (fun a => !onRail r a.core), cntwaits := s.cntwaits.filter fun w => !onRail r w.core }
  let t' := t'.modField (r / 4) fun x => { x with walks := settleWalks (x.walks.filterMap fun w => w.without r) }
  (t'.modRail r fun x => { x with trip := true }).tellManager
    (coreAt (sn % 288 * 4) (sn / 288 * 4)) 0x22 (sensorThermal sn t 3)

/-- SENSOR_READ (R355): a reading in units of 0.25 °C. -/
def execSensorRead (sn t : Nat) (s : State) : Host.Outcome State Fault Refusal :=
  event s
    (if 64512 ≤ sn || 1024 ≤ t then none
     else
       let s : State := { s with sensors := mset s.sensors sn { s.sensor sn with temp := BitVec.ofNat 10 t } }
       let s := s.heatRows sn t 3
       some (if 460 ≤ t ∧ !(s.rail (railOfSensor sn)).trip then s.tripRail (railOfSensor sn) sn t else s))

/-- RAIL_REPOWER (R356): with every sensor of a tripped rail below 85 °C, its cores are wiped and it is powered again; notices
that they have formed go out first (R355). -/
def execRailRepower (r : Nat) (s : State) : Host.Outcome State Fault Refusal :=
  event s
    (if 336 ≤ r || !(s.rail r).trip || !((railSensors r).all fun n => (s.sensor n).temp.toNat < 340) then none
     else
       let s := ((s.cores.map (·.1)).filter (onRail r)).foldl (fun s k => s.sendNotices k (s.core k).inj.length) s
       let t : State := { s with cores := s.cores.map fun e => if onRail r e.1 then (e.1, e.2.wipe) else e }
       some (t.modRail r fun x => { x with trip := false }))

end Sys2Proof.Machine
end

