-- ==== Sys2Proof/Machine/Health.lean ====
section
/-! DEFINITION. Reliability and bring-up (17 R367, R369, R372, R375 to R378), skew and sampled messages (18 R387, R388), and
the stop of a replayed or full order log (18 R390). -/

namespace Sys2Proof.Machine

/-! ### Links (R367, R369) -/

/-- The core at the other end of link n (N, E, S, W): none beyond an edge of the grid (R13). -/
def linkPeer (k : CoreId) (l : Fin 4) : Option CoreId :=
  match l with
  | 0 => if posY k = 0 then none else some (coreAt (posX k) (posY k - 1))
  | 1 => if posX k = 1151 then none else some (coreAt (posX k + 1) (posY k))
  | 2 => if posY k = 895 then none else some (coreAt (posX k) (posY k + 1))
  | 3 => if posX k = 0 then none else some (coreAt (posX k - 1) (posY k))

/-- Flit retries, saturating (R366). -/
def addRetries (w : Word) (n : Nat) : Word :=
  BitVec.ofNat 32 (min (2 ^ 32 - 1) ((w.extractLsb' 32 32).toNat + n)) ++ w.extractLsb' 0 32

/-- Both directions of the link between two cores stop: no flit crosses it any more (R369). -/
def State.stopLink (s : State) (a b : CoreId) : State :=
  let stop := fun (n : Nat) (l : List (Nat × LinkSt)) => mset l n { (mget l n).getD ⟨[], false⟩ with stopped := true }
  { s with links := stop (linkTo a b) (stop (linkTo b a) s.links) }

/-- A link of field f fails with no spare left: MODERR code 6, and every partition that holds a core for which `g` holds is
stopped, and its launches on such cores end (R369). -/
def State.linkLost (s : State) (f : Nat) (ps : List Nat) (g : CoreId → Bool) : State :=
  ps.eraseDups.foldl (fun s p => s.stopFor p g) (s.moduleError (BitVec.ofNat 8 f) 6)

/-- The field at the other end of hub link n: the hubs form a mesh in the arrangement of the fields (R14). -/
def hubPeer (f : Nat) (l : Fin 4) : Option Nat :=
  match l with
  | 0 => if f < 12 then none else some (f - 12)
  | 1 => if fieldX f = 11 then none else some (f + 1)
  | 2 => if 72 ≤ f then none else some (f + 12)
  | 3 => if fieldX f = 0 then none else some (f - 1)

/-- The link into hub f from hub g fails: two spare lanes in each direction (R367), or it stops, both ways, and with it the
partitions at its ends (R369, entry 72). -/
def State.hubLinkFails (s : State) (f g : Nat) (l : Fin 4) : State :=
  let n := (s.field f).hubLanes[l]
  if n < 2 then s.modField f fun x => { x with hubLanes := x.hubLanes.set l (n + 1) }
  else
    let s := s.modField f fun x => { x with hubStopped := x.hubStopped.set l true }
    let o : Fin 4 := l + 2
    let s := s.modField g fun x => { x with hubStopped := x.hubStopped.set o true }
    s.linkLost f ((s.partOfField f).toList ++ (s.partOfField g).toList) fun k => fieldOf k == f || fieldOf k == g

/-- FLIT_CHECK_FAIL (R369): a flit that arrives over a link of core k, or of the hub of its field, fails its check and is asked
for again; `replays` of them fail too. After the third the link retrains onto a spare wire or lane, or, with none left, stops;
nothing crosses a link that has stopped. -/
def execFlitCheckFail (k : CoreId) (link : FlitLink) (replays : Nat) (s : State) : Host.Outcome State Fault Refusal :=
  event s
    (if 3 < replays then none
     else match link with
       | .hub l => (hubPeer (fieldOf k) l).bind fun g =>
         if (s.field (fieldOf k)).hubStopped[l] then none
         else some (if replays < 3 then s else s.hubLinkFails (fieldOf k) g l)
       | .core l => (linkPeer k l).bind fun q =>
         if (s.wireLink (linkTo q k)).stopped then none
         else some <|
         let w := (s.core k).regs.linkstat
         let s := s.modCoreRegs k fun r => { r with linkstat := addRetries r.linkstat (min 3 (replays + 1)) }
         if replays < 3 then s
         else if linkSpares w l < 4 then
           s.modCoreRegs k fun r => { r with linkstat := setLinkSpares r.linkstat l (linkSpares w l + 1) }
         else (s.stopLink k q).linkLost (fieldOf k) ((s.partOf k).toList ++ (s.partOf q).toList) fun c => c == k || c == q)

/-- AGEING_MONITOR_MEASURE (R367): a wire below the fused limit is marked, once; its spare comes in at the field's next
wipe. -/
def execAgeingMonitorMeasure (k : CoreId) (link : Fin 4) (wire : Nat) (s : State) : Host.Outcome State Fault Refusal :=
  event s
    (if 80 ≤ wire || (linkPeer k link).isNone then none else some (s.modField (fieldOf k) fun f =>
       if f.marked.contains (k, link, wire) then f else { f with marked := f.marked ++ [(k, link, wire)] }))

/-! ### SRAM and registers (R372) -/

/-- Counts of the 64-byte row of SRAM (DESIGN CHOICE, entry 90) of each word corrected, within one hour of the field's counter;
a row that passes 16 is marked for a spare (R367). -/
def State.countRows (s : State) (k : CoreId) : State :=
  let r := (s.core k).regs
  let now := (s.field (fieldOf k)).time.toNat
  let es := (r.rowErrs.filter fun e => now < e.2 + 3600000000000) ++ r.corrected.map fun o => (o / 64, now)
  let bad := (es.map (·.1)).eraseDups.filter fun i => decide (16 < (es.filter fun e => e.1 == i).length)
  let s := s.modCoreRegs k fun r => { r with rowErrs := es, corrected := [] }
  s.modField (fieldOf k) fun f =>
    { f with markedRows := f.markedRows ++ (bad.map fun i => (k, i)).filter fun m => !f.markedRows.contains m }

/-- SRAM_SCRUB (R372): the next word in ascending order is read; a single-bit error is corrected and counted, a double-bit
error sets UE and UWORD and stays. -/
def execSramScrub (k : CoreId) (s : State) : Host.Outcome State Fault Refusal :=
  let o := (s.core k).regs.scrub.toNat / 8 * 8
  let s' := match (s.core k).badWord o 8 with
    | some _ => s.modCoreRegs k fun r => r.noteUE o
    | none => s.modCore k fun c => c.correct o 8
  .next ((s'.modCoreRegs k fun r => { r with scrub := BitVec.ofNat 16 (o + 8) }).countRows k)

/-- PARITY_ERROR (R372): in a slot's state, or, with no slot, in the core's shared state. -/
def execParityError (k : CoreId) (sl : Option (Fin 4)) (s : State) : Host.Outcome State Fault Refusal :=
  let one := fun (s : State) n => s.defer k n 0x0F (BitVec.allOnes 64)
  .next (match sl with
    | some n => one s n
    | none => (List.finRange 4).foldl one s)

/-! ### Bring-up (R376, R378) -/

def vec4 (a b : List Word) : Vector Word 8 := Vector.ofFn fun i : Fin 8 => if i.val < 4 then a.getD i.val 0 else b.getD (i.val - 4) 0

/-- An image that may run (R375): signed under the vendor key whose SHA-256 is fused, and not below the least version. -/
def State.fwOk (s : State) (x : FwImage) : Bool := x.key == s.regs.vendorKey && x.sig && !x.ver.ult s.regs.minVer

/-- The field of the root field controller (R392). -/
def rootField : Nat := 5

/-- Step 3 of R378: root firmware measured and running at level M; it may raise the least version (R375). -/
def State.bootRoot (s : State) (hash : List Word) (raise : BitVec 32) : State :=
  s.modMod fun m => { m with meas := vec4 hash [], leaf := 256 * m.fusedCtr, rootLvl := some 3,
                             minVer := if m.minVer.ult raise then raise else m.minVer }

/-- Steps 4 and 5: rails at 0.40 V, every field wiped with its fused repair, no partition; the links train, and a field that does
not is retired. -/
def State.bootFields (s : State) (untrained : List Nat) : State :=
  let s : State := { s with parts := [], links := [], fields := s.fields.map fun e =>
    (e.1, { e.2 with partdef := 0, hubStopped := Vector.replicate 4 false,
                     rails := e.2.rails.map fun r => { r with setpt := 400, target := 400, state := 0, off := false } }) }
  let s := (List.range 84).foldl (fun s f => s.wipeField f) s
  (untrained.filter fun f => decide (f < 84)).foldl (fun s f => s.retireField f) s

/-- Step 7: the quays train (R394); host quays find a CXL or a PCIe partner. -/
def State.trainQuays (s : State) (x : QuayStart) : State :=
  (List.range 130).foldl (fun s q => s.modQuay q fun y =>
    let y := { y with trained := true, up := true, pcie := (q == 64 && x.pcie.getLsbD 0) || (q == 65 && x.pcie.getLsbD 1) }
    match x.links.find? fun l => l.quay == q with
    | none => y
    | some l => { y with lanes := l.lanes, full := l.full, b := l.full, laneSpares := l.spares }) s

/-- POWER_ON (R378): the start in its order, as far as the fuses' parity and the two images (R375) let it. In DECOMMISSIONED it ends
when the state has been reported (R373). Root firmware may raise the least version to `raise`; the fields `untrained` do not
train. -/
def execPowerOn (fuseOk : Bool) (root dm : FwImage) (raise : BitVec 32) (untrained : List Nat) (quays : QuayStart) (s : State) :
    Host.Outcome State Fault Refusal :=
  event s
    (if s.started || root.hash.length != 4 || dm.hash.length != 4 then none
     else if !fuseOk then some (s.moduleError 0xFF 2)
     else if s.regs.lcstate = 4 then some { s with answers := (0, true, toBytes s.regs.lcstate.toNat 8) :: s.answers }
     else if !s.fwOk root then some (s.moduleError 0xFF 1)
     else
       let s := (s.bootRoot root.hash raise).bootFields untrained
       if !s.fwOk dm then some (s.moduleError 0xFF 1)
       else
         let s := s.modMod fun m => { m with meas := vec4 root.hash dm.hash, dmLvl := some 2 }
         some { s.trainQuays quays with started := true })

/-- RAIL_REGULATION_TIMEOUT (R378): a rail other than the root controller's does not regulate; it is held off and its field is
retired, with MODERR code 5. -/
def execRailRegulationTimeout (r : Nat) (s : State) : Host.Outcome State Fault Refusal :=
  event s
    (if 336 ≤ r || r / 4 == rootField || (s.partOfField (r / 4)).isSome || (s.rail r).off then none
     else some (((s.modRail r fun x => { x with off := true }).modField (r / 4) fun f =>
       { f with repctl := f.repctl ||| (1#64 <<< 63) }).moduleError (BitVec.ofNat 8 (r / 4)) 5))

/-- What OFS should read for field f: its counter less the root field's, in units of 0.125 ns (R388). -/
def State.offset (s : State) (f : Nat) : Int := 8 * ((s.field f).time.toNat - (s.field rootField).time.toNat : Int)

/-- SKEW_MEASURE (R388): a field's offset from the root field's counter, within an error of at most 2 ns; the root field's own is
0 (DEDUCED, entry 95). -/
def execSkewMeasure (f : Nat) (ofs : BitVec 32) (err : BitVec 16) (s : State) : Host.Outcome State Fault Refusal :=
  event s
    (if 84 ≤ f || 16 < err.toNat || err.toNat < (ofs.toInt - s.offset f).natAbs || (f == rootField && ofs != 0) then none
     else some (s.modField f fun x => { x with skew := 0#16 ++ err ++ ofs }))

/-- CONFIGURATION_REQUEST (R378): Request Retry Status until the quays have trained; in DECOMMISSIONED no quay answers. -/
def execConfigurationRequest (x : CfgReq) (s : State) : Host.Outcome State Fault Refusal :=
  event s
    (if (x.quay != 64 && x.quay != 65) || s.regs.lcstate == 4 then none
     else some { s with answers := (x.id, (s.quay x.quay).trained, []) :: s.answers })

/-! ### Attestation (R376, R377) -/

/-- The retired fields, bit f for field f. -/
def State.retiredMap (s : State) : Nat :=
  ((List.range 84).map fun f => if (s.field f).repctl.getLsbD 63 then 2 ^ f else 0).sum

/-- The fused repair maps of all fields, row by row. -/
def State.fusedMaps (s : State) : List Word :=
  (List.range 84).flatMap fun f => (List.range 128).map fun y => rowWord (s.field f).fuses y

/-- The 160 bytes of a quote (R377). The digest of the fused repair maps is over a layout that the spec does not give: a free
function of the maps (entry 5). -/
def State.quote (s : State) (nonce : List Byte) : List Byte :=
  toBytes 1 8 ++ nonce ++ (s.regs.meas.toList.flatMap wordBytes) ++ toBytes s.regs.lcstate.toNat 8 ++
  toBytes s.retiredMap 16 ++ (List.range 32).map fun i => Config.repairDigest s.fusedMaps i

def be32 (n : Nat) : List Byte := (toBytes n 4).reverse

/-- An LMS signature of RFC 8554 over a quote with H15 and W4: leaf, types, and octets that the private seed of the public key
fixes (entry 7). -/
def lmsSignature (key : List Word) (leaf : Nat) (quote : List Byte) : List Byte :=
  let octets := fun (a n : Nat) => (List.range n).map fun i => Config.signature key leaf quote (a + i)
  be32 leaf ++ be32 3 ++ octets 0 2176 ++ be32 7 ++ octets 2176 480

/-- ATTESTATION_REQUEST (R376, R377): a quote over a 32-byte nonce, signed with the next leaf, whose block the fused counter
covers first; refused when all leaves are spent or there is no key. Root firmware, once it runs, is what answers. -/
def execAttestationRequest (nonce : List Byte) (s : State) : Host.Outcome State Fault Refusal :=
  event s
    (if nonce.length != 32 || s.regs.rootLvl.isNone then none
     else
       let i := s.regs.leaf
       if !s.regs.keyLive || 32768 ≤ i then some { s with answers := (0, false, []) :: s.answers }
       else
         let q := s.quote nonce
         let s := s.modMod fun m => { m with leaf := i + 1, fusedCtr := max m.fusedCtr (i / 256 + 1) }
         some { s with quotes := (q ++ lmsSignature s.regs.idkey.toList i q) :: s.quotes })

/-! ### Sampled messages (R387) -/

/-- One hop: a router's position and its arrival and departure times, which are free values (timing). -/
def State.hopBytes (s : State) (i : Nat) (k : CoreId) : List Byte :=
  wordBytes ((packPos k).setWidth 64) ++ wordBytes (Config.word (s.free + i))

/-- A log entry (R387). -/
def State.sampleEntry (s : State) (x : Sample) : List Byte :=
  let r := routeOf x.src x.dst
  let cut := 254 < r.length
  let hs := if cut then r.take 127 ++ r.drop (r.length - 127) else r
  let w2 : Word := BitVec.ofNat 32 (r.length - hs.length) ++ BitVec.ofBool cut ++ 0#7 ++ BitVec.ofNat 8 hs.length ++ 0#1 ++
    BitVec.ofNat 7 (fieldOf x.dst) ++ 0#1 ++ BitVec.ofNat 7 (fieldOf x.src)
  wordBytes x.hdr ++ wordBytes x.birth ++ wordBytes w2 ++ wordBytes (x.who.setWidth 64) ++
    (hs.mapIdx fun i k => s.hopBytes i k).flatten

/-- A log that is discarded (R387). -/
def State.dropSample (s : State) (p : Nat) : State :=
  s.modCtx p fun c => { c with sampdrop := if c.sampdrop.toNat < 2 ^ 32 - 1 then c.sampdrop + 1 else c.sampdrop }

/-- SAMPLE_LOG_WRITE (R387): the sink's hub claims room by the AMOG add and writes the entry, or discards it. -/
def execSampleLogWrite (i : Nat) (s : State) : Host.Outcome State Fault Refusal :=
  event s
    (match s.samples[i]? with
     | none => none
     | some x =>
       let p := x.part
       let c := (s.part p).ctx
       let base := c.sampbase.toNat / 4096 * 4096 % 2 ^ 60
       let size := c.sampbase.toNat % 4096 * 4096
       let e := s.sampleEntry x
       let s : State := { s with samples := s.samples.eraseIdx i, free := s.free + 254 }
       if (s.part p).phase == .save3 || (s.part p).phase == .out then none
       else match s.translateIn c 0 (BitVec.ofNat 64 base) 2 false false with
         | .error _ => some (s.dropSample p)
         | .ok (d, _) =>
           let off := s.gmem.readLE d 8
           if size < off + e.length then some (s.dropSample p)
           else some ((s.gwrite d 8 (off + e.length)).saveBytes c 0 (base + off) e 3))

/-! ### The order log stops a partition (R390) -/

/-- The places that a record's word may name, each with its segment (R389): a core of the partition, and with bit 20 set a
quay. -/
def Partition.placesAt (x : Partition) (w : BitVec 21) : List (Nat × Nat) :=
  (match unpackPos w with
   | some k => if x.holds k then [(placeCore k, x.segOf (fieldOf k))] else []
   | none => []) ++
  if w.getLsbD 20 && decide (w.toNat % 2 ^ 20 < 130) then [(placeQuay (w.toNat % 2 ^ 20), 0)] else []

/-- Whether a stop can come at a place: FULL in record mode with the place's segment full; in replay mode DIVERGED and ENDED
where a choice presented there has called for them. -/
def State.logStops (s : State) (p : Nat) (reason : Fin 4) (place seg : Nat) : Bool :=
  let c := (s.part p).ctx
  match reason with
  | 0 => false
  | 1 => c.logMode == 1 && decide (c.segRoom ≤ (mget c.segs seg).getD 0)
  | 2 => c.logMode == 2 && (mget c.due place == some 2 || mget c.due place == some 4)
  | 3 => c.logMode == 2 && mget c.due place == some 3

/-- The place of a word at which a stop comes, with a number of choices made there. -/
def State.stopPlace (s : State) (p : Nat) (reason : Fin 4) (pos : BitVec 21) (seq : BitVec 32) : Bool :=
  ((s.part p).placesAt pos).any fun e =>
    s.logStops p reason e.1 e.2 && seq.toNat == (s.part p).ctx.nextSeq e.1 % 2 ^ 32

/-- ORDER_LOG_STOP (R390): OLOGSTAT is set and the partition is stopped by pre-emption; the PREEMPT notices hold all ones. -/
def execOrderLogStop (p : Nat) (reason : Fin 4) (pos : BitVec 21) (seq : BitVec 32) (s : State) :
    Host.Outcome State Fault Refusal :=
  event s
    (let x := s.part p
     if x.phase != .run || qIdle x.qcur || !s.stopPlace p reason pos seq then none
     else
       let w : Word := 1#1 ++ BitVec.ofNat 3 reason.val ++ 0#7 ++ pos ++ seq
       let s := s.modCtx p fun c => { c with ologstat := w }
       some (s.beginPreempt p none (some (BitVec.allOnes 64))))

end Sys2Proof.Machine
end

