-- ==== Sys2Proof/Machine/Integer.lean ====
section
/-! DEFINITION. Integer, address and predicate instructions: OP 0x00 and 0x04 to 0x1F (06 R155 to R168, R175). -/

namespace Sys2Proof.Machine

/-- NOP has no effect (R175). -/
def execNop (s : State) : Host.Outcome State Fault Refusal := issue (mkForm Guard.always 0 [] []) .ok s

/-- NOP with a tail: every tail bit is ignored, its guard too (R175). -/
def execNopTail (_tl : Fin 4) (_bits : BitVec 64) (s : State) : Host.Outcome State Fault Refusal :=
  issue (mkForm Guard.always 0 [] []) .ok s

/-- Energy class of a two-source operation (R344). -/
def aluClass : AluOp → Fin 32
  | .mul => 2
  | .mulh => 2
  | .div => 3
  | .rem => 3
  | _ => 1

/-- A two-source operation (R158): gD := put(v); DZ on a zero divisor (R159). -/
def aluAct (op : AluOp) (x : Alu2) (s : State) : Act :=
  let r := aluVal op x.t (s.rd x.a) (s.src x.t x.b)
  writeG s x.d (putTy x.t r.1) fun s => .ok (if r.2 then s.setMyFlags flagDZ else s)

def aluExec (op : AluOp) (x : Alu2) (s : State) : Host.Outcome State Fault Refusal :=
  issue (mkForm x.q (aluClass op) (x.a :: srcOps x.b) [x.d]) (aluAct op x) s

/-- A one-source operation (R160). -/
def unExec (op : UnOp) (x : Alu1) (s : State) : Host.Outcome State Fault Refusal :=
  issue (mkForm x.q 1 [x.a] [x.d]) (fun s => writeG s x.d (unVal op x.t (s.rd x.a))) s

/-- ADD (R158). -/
def execAdd (x : Alu2) (s : State) : Host.Outcome State Fault Refusal := aluExec .add x s

/-- SUB (R158). -/
def execSub (x : Alu2) (s : State) : Host.Outcome State Fault Refusal := aluExec .sub x s

/-- MUL (R158). -/
def execMul (x : Alu2) (s : State) : Host.Outcome State Fault Refusal := aluExec .mul x s

/-- MULH (R158). -/
def execMulh (x : Alu2) (s : State) : Host.Outcome State Fault Refusal := aluExec .mulh x s

/-- DIV (R158). -/
def execDiv (x : Alu2) (s : State) : Host.Outcome State Fault Refusal := aluExec .div x s

/-- REM (R158). -/
def execRem (x : Alu2) (s : State) : Host.Outcome State Fault Refusal := aluExec .rem x s

/-- AND (R158). -/
def execAnd (x : Alu2) (s : State) : Host.Outcome State Fault Refusal := aluExec .and x s

/-- OR (R158). -/
def execOr (x : Alu2) (s : State) : Host.Outcome State Fault Refusal := aluExec .or x s

/-- XOR (R158). -/
def execXor (x : Alu2) (s : State) : Host.Outcome State Fault Refusal := aluExec .xor x s

/-- ANDN (R158). -/
def execAndn (x : Alu2) (s : State) : Host.Outcome State Fault Refusal := aluExec .andn x s

/-- SHL (R158). -/
def execShl (x : Alu2) (s : State) : Host.Outcome State Fault Refusal := aluExec .shl x s

/-- SHR (R158). -/
def execShr (x : Alu2) (s : State) : Host.Outcome State Fault Refusal := aluExec .shr x s

/-- SAR (R158). -/
def execSar (x : Alu2) (s : State) : Host.Outcome State Fault Refusal := aluExec .sar x s

/-- ROT (R158). -/
def execRot (x : Alu2) (s : State) : Host.Outcome State Fault Refusal := aluExec .rot x s

/-- MIN (R158). -/
def execMin (x : Alu2) (s : State) : Host.Outcome State Fault Refusal := aluExec .min x s

/-- MAX (R158). -/
def execMax (x : Alu2) (s : State) : Host.Outcome State Fault Refusal := aluExec .max x s

/-- CLZ (R160). -/
def execClz (x : Alu1) (s : State) : Host.Outcome State Fault Refusal := unExec .clz x s

/-- CTZ (R160). -/
def execCtz (x : Alu1) (s : State) : Host.Outcome State Fault Refusal := unExec .ctz x s

/-- POPC (R160). -/
def execPopc (x : Alu1) (s : State) : Host.Outcome State Fault Refusal := unExec .popc x s

/-- ABS (R160). -/
def execAbs (x : Alu1) (s : State) : Host.Outcome State Fault Refusal := unExec .abs x s

/-- NEG (R160). -/
def execNeg (x : Alu1) (s : State) : Host.Outcome State Fault Refusal := unExec .neg x s

/-- EXT (R160). -/
def execExt (x : Alu1) (s : State) : Host.Outcome State Fault Refusal := unExec .ext x s

/-- CMP (R162): pD := 0xFFFF where the condition holds, else 0. -/
def execCmp (x : CmpF) (s : State) : Host.Outcome State Fault Refusal :=
  issue (mkForm x.q 1 (x.a :: srcOps x.b) [] [.p x.d])
    (fun s => .ok (s.wrPred x.d (predOf (condInt x.cond (getTy x.t (s.rd x.a)) (getTy x.t (s.src x.t x.b)))))) s

/-- SEL (R163): both G sources are read, whichever is chosen. -/
def execSel (x : SelF) (s : State) : Host.Outcome State Fault Refusal :=
  issue (mkForm x.q 1 [x.a, x.b] [x.d] [.p x.c])
    (fun s => writeG s x.d (if (s.me.r.rdP x.c).getLsbD 0 then s.rd x.a else s.rd x.b)) s

/-- MOVI (R164): gD := put(immx). -/
def execMovi (x : MoviF) (s : State) : Host.Outcome State Fault Refusal :=
  issue (mkForm x.q 1 [] [x.d]) (fun s => writeG s x.d (putTy x.t (getTy x.t (immTy x.t x.v)))) s

/-- MOVHI (R165): the upper word of gD. -/
def execMovhi (x : MovhiF) (s : State) : Host.Outcome State Fault Refusal :=
  issue (mkForm x.q 1 [] [x.d]) (fun s => writeG s x.d (x.v ++ (s.rd x.d).extractLsb' 0 32)) s

/-- The low `n` bits of a word as a mask. -/
def maskOf (n : Nat) : Word := BitVec.ofNat 64 (2 ^ n - 1)

/-- BFX (R166). -/
def bfxVal (signed : Bool) (a : Word) (lo : BitVec 6) (len : BitVec 7) : Word :=
  let f := (a >>> lo.toNat) &&& maskOf len.toNat
  if signed ∧ f.getLsbD (len.toNat - 1) then f ||| ~~~maskOf len.toNat else f

/-- BFI (R166). -/
def bfiVal (d a : Word) (lo : BitVec 6) (len : BitVec 7) : Word :=
  let m := maskOf len.toNat <<< lo.toNat
  (d &&& ~~~m) ||| ((a <<< lo.toNat) &&& m)

/-- BFX (R166). -/
def execBfx (x : BitF) (s : State) : Host.Outcome State Fault Refusal :=
  issue (mkForm x.q 1 [x.a] [x.d]) (fun s => writeG s x.d (bfxVal x.signed (s.rd x.a) x.lo x.len)) s

/-- BFI (R166): reads its destination. -/
def execBfi (x : BitF) (s : State) : Host.Outcome State Fault Refusal :=
  issue (mkForm x.q 1 [x.a] [x.d]) (fun s => writeG s x.d (bfiVal (s.rd x.d) (s.rd x.a) x.lo x.len)) s

/-- LEA (R167): the sum that keeps the window of gA. -/
def leaVal (a b : Word) (sd : LeaSD) : Word :=
  match sd with
  | .plain => addOff a b
  | .s16 sh d => addOff a ((b <<< sh.toNat) + d.signExtend 64)
  | .s32 sh d => addOff a ((b <<< sh.toNat) + d.signExtend 64)

/-- LEA (R167). -/
def execLea (x : LeaF) (s : State) : Host.Outcome State Fault Refusal :=
  issue (mkForm x.q 1 [x.a, x.b] [x.d]) (fun s => writeG s x.d (leaVal (s.rd x.a) (s.rd x.b) x.sd)) s

/-- MADR (R161). -/
def execMadr (x : MadrF) (s : State) : Host.Outcome State Fault Refusal :=
  issue (mkForm x.q 2 [x.a, x.b, x.c] [x.d])
    (fun s => writeG s x.d (putTy x.t (getTy x.t (s.rd x.a) * getTy x.t (s.rd x.b) + getTy x.t (s.rd x.c)))) s

/-- MOV (R160): all 64 bits. -/
def execMov (x : GG) (s : State) : Host.Outcome State Fault Refusal :=
  issue (mkForm x.q 1 [x.a] [x.d]) (fun s => writeG s x.d (s.rd x.a)) s

/-! ### Predicates (R168) -/

def pppExec (f : BitVec 16 → BitVec 16 → BitVec 16) (x : PPP) (s : State) : Host.Outcome State Fault Refusal :=
  issue (mkForm x.q 1 [] [] [.p x.d, .p x.a, .p x.b])
    (fun s => .ok (s.wrPred x.d (f (s.me.r.rdP x.a) (s.me.r.rdP x.b)))) s

/-- PAND (R168). -/
def execPand (x : PPP) (s : State) : Host.Outcome State Fault Refusal := pppExec (· &&& ·) x s

/-- POR (R168). -/
def execPor (x : PPP) (s : State) : Host.Outcome State Fault Refusal := pppExec (· ||| ·) x s

/-- PXOR (R168). -/
def execPxor (x : PPP) (s : State) : Host.Outcome State Fault Refusal := pppExec (· ^^^ ·) x s

/-- PNOT (R168). -/
def execPnot (x : PP) (s : State) : Host.Outcome State Fault Refusal :=
  issue (mkForm x.q 1 [] [] [.p x.d, .p x.a]) (fun s => .ok (s.wrPred x.d (~~~(s.me.r.rdP x.a)))) s

/-- PMOV (R168). -/
def execPmov (x : PmovF) (s : State) : Host.Outcome State Fault Refusal :=
  issue (mkForm x.q 1 [x.a] [] [.p x.d]) (fun s => .ok (s.wrPred x.d ((s.rd x.a).extractLsb' 0 16))) s

/-- PANY (R168). -/
def execPany (x : PanyF) (s : State) : Host.Outcome State Fault Refusal :=
  issue (mkForm x.q 1 [] [x.d] [.p x.a]) (fun s => writeG s x.d ((s.me.r.rdP x.a).setWidth 64)) s

end Sys2Proof.Machine
end

