-- ==== Sys2Proof/Machine/Locked.lean ====
section
/-! DEFINITION. Exponent-locked reductions (02 R38 to R42, 09 R257, R258, 10 R279, R280, 09 R407) and class 3 messages at a
supervisor (13 R299). -/

namespace Sys2Proof.Machine

/-! ### The lock descriptor (R257) -/

structure LockDesc where
  l : Nat
  raises : Nat
  expect : Nat
  acc : Nat
  root : Bool
  parent : Nat
  /-- 0 OPEN, 1 HELD, 2 DONE. -/
  state : Nat
  hi : Nat
  lo : Nat
  deriving DecidableEq, Repr

def lockWords (w0 w1 : Word) : LockDesc :=
  { l := (w1.extractLsb' 56 8).toNat, raises := (w1.extractLsb' 48 8).toNat, expect := (w1.extractLsb' 40 8).toNat,
    acc := (w1.extractLsb' 32 8).toNat, root := w1.getLsbD 31, parent := (w1.extractLsb' 2 22).toNat,
    state := (w1.extractLsb' 0 2).toNat, hi := (w0.extractLsb' 22 22).toNat, lo := (w0.extractLsb' 0 22).toNat }

def LockDesc.word0 (d : LockDesc) : Word := 0#20 ++ BitVec.ofNat 22 d.hi ++ BitVec.ofNat 22 d.lo
def LockDesc.word1 (d : LockDesc) : Word :=
  BitVec.ofNat 8 d.l ++ BitVec.ofNat 8 d.raises ++ BitVec.ofNat 8 d.expect ++ BitVec.ofNat 8 d.acc ++
    BitVec.ofBool d.root ++ 0#7 ++ BitVec.ofNat 22 d.parent ++ BitVec.ofNat 2 d.state

/-- A descriptor that breaks R257 or R280 in a launch of `n` ranks. -/
def lockBad (w0 w1 : Word) (n : Nat) : Bool :=
  let d := lockWords w0 w1
  w0.extractLsb' 44 20 != 0#20 || w1.extractLsb' 24 7 != 0#7 || d.state == 3 || d.expect == 0 ||
  (!d.root && decide (n ≤ d.parent)) || decide (d.hi < d.lo) || decide (n ≤ d.hi)

/-- The descriptor below header address `h`, when it is well formed. -/
def Core.lockDesc (c : Core) (h : Nat) : Option LockDesc :=
  if h % 16 ≠ 0 ∨ h < 16 then none
  else
    let w0 := BitVec.ofNat 64 (c.mem.sram.readLE (h - 16) 8)
    let w1 := BitVec.ofNat 64 (c.mem.sram.readLE (h - 8) 8)
    let n := match c.held with | some l => l.ranks | none => 0
    if lockBad w0 w1 n then none else some (lockWords w0 w1)

/-! ### A node (R258) -/

/-- What a class 2 message of a node carries. -/
inductive LockOut where
  | renorm (dst : Nat)
  | exponent (dst l : Nat)
  deriving DecidableEq, Repr

structure LockNode where
  d : LockDesc
  pb4 : Bool
  part : List Int
  held : List (Nat × List Int)
  flags : BitVec 8
  out : List LockOut
  isDone : Bool
  deriving DecidableEq, Repr

def lockTy (pb4 : Bool) : BlkTy := if pb4 then .pb4 else .pb8

/-- An element outside 2 × MMAX (R38). -/
def LockNode.over (n : LockNode) : Bool := n.part.any fun x => decide (2 * pbMax (lockTy n.pb4) < x.natAbs)

/-- One place to the right, with rne, of every element of the partial (R39, R40). -/
def LockNode.halve (n : LockNode) : LockNode :=
  { n with part := n.part.map fun x => rneShiftInt x 1,
           flags := if n.part.any fun x => x % 2 != 0 then n.flags ||| flagNX else n.flags }

/-- A node that was HELD is OPEN once its partial is within range. -/
def LockNode.reopen (n : LockNode) : LockNode :=
  if n.d.state = 1 ∧ n.over = false then { n with d := { n.d with state := 0 } } else n

/-- `raise` of R258, at the root; at 0xFE a root does nothing (R407). -/
def LockNode.raise (n : LockNode) (own : Nat) : LockNode :=
  if 0xFE ≤ n.d.l then n
  else
    let m := { n with d := { n.d with l := n.d.l + 1, raises := n.d.raises + 1 } }.halve
    ({ m with out := m.out ++ ((List.range (n.d.hi + 1 - n.d.lo)).map (· + n.d.lo)).filterMap fun r =>
        if r = own then none else some (LockOut.exponent r (n.d.l + 1)) }).reopen

/-- `places` shifts of one place each, rounding at each (R41): the value, and whether a bit was discarded. -/
def shiftPlaces (x : Int) : Nat → Int × Bool
  | 0 => (x, false)
  | n + 1 =>
    let r := shiftPlaces (rneShiftInt x 1) n
    (r.1, x % 2 != 0 || r.2)

/-- A contribution is added (R258). -/
def LockNode.add (n : LockNode) (own e : Nat) (els : List Int) : LockNode :=
  let sh := els.map fun x => shiftPlaces x (n.d.l - e)
  let n := { n with part := (n.part.zip sh).map fun p => p.1 + p.2.1, d := { n.d with acc := n.d.acc + 1 },
                    flags := if sh.any (·.2) then n.flags ||| flagNX else n.flags }
  if !n.over then n
  else if 0xFE ≤ n.d.l then
    { n with part := n.part.map (clampEl (2 * pbMax (lockTy n.pb4))), flags := n.flags ||| flagBSAT }
  else
    let n := { n with d := { n.d with state := 1 } }
    if n.d.root then n.raise own else { n with out := n.out ++ [.renorm n.d.parent] }

/-- The earliest held contribution that may be accepted, and the others. -/
def takeHeld (l : Nat) : List (Nat × List Int) → Option ((Nat × List Int) × List (Nat × List Int))
  | [] => none
  | c :: cs => if c.1 ≤ l then some (c, cs) else (takeHeld l cs).map fun r => (r.1, c :: r.2)

/-- The test for completion that follows an accepted contribution (R258); where the contribution made the root raise, the
held contributions come first (R279). -/
def LockNode.tested (m : LockNode) (raises : Nat) : LockNode :=
  if m.d.state = 0 ∧ m.d.acc = m.d.expect ∧ m.d.raises = raises then { m with isDone := true } else m

/-- What an OPEN node does after a raise or a notice (R258, R279): it accepts the held contributions that it may, with the
test after each, and completes where none remains. -/
def LockNode.settle (n : LockNode) (own : Nat) : Nat → LockNode
  | 0 => n
  | fuel + 1 =>
    if n.d.state ≠ 0 then n
    else match takeHeld n.d.l n.held with
      | none => if n.d.acc = n.d.expect ∧ n.held = [] then { n with isDone := true } else n
      | some ((e, els), rest) =>
        let m := ({ n with held := rest }.add own e els).tested n.d.raises
        if m.isDone then m else m.settle own fuel

/-- A contribution arrives (R258): held, or accepted. -/
def LockNode.contribute (n : LockNode) (own e : Nat) (els : List Int) : LockNode :=
  if n.d.state = 1 ∨ n.d.l < e then { n with held := n.held ++ [(e, els)] }
  else
    let m := (n.add own e els).tested n.d.raises
    if m.isDone || m.d.raises = n.d.raises then m else m.settle own (m.held.length + 1)

/-! ### Payloads -/

def lockWidth (pb4 : Bool) : Nat := if pb4 then 5 else 9

/-- A locked partial's payload (R258). -/
def partialWords (pb4 : Bool) (e nb : Nat) (part : List Int) : List Word :=
  let w := lockWidth pb4
  let bits := packNat w (part.map fun x => (BitVec.ofInt w x).toNat)
  let n := (16 * nb * w + 63) / 64
  BitVec.ofNat 64 (nb * 256 + e) :: (List.range n).map fun i => BitVec.ofNat 64 (bits / 2 ^ (64 * i))

/-- Exponent, block count and elements of a locked partial; `none` when it is malformed. -/
def partialOf (pb4 : Bool) (ws : List Word) : Option (Nat × Nat × List Int) :=
  match ws with
  | [] => none
  | w0 :: l =>
    let e := (w0.extractLsb' 0 8).toNat
    let nb := (w0.extractLsb' 8 3).toNat
    let w := lockWidth pb4
    if w0.extractLsb' 11 53 ≠ 0#53 ∨ nb = 0 ∨ sendbMax true (lockTy pb4) < nb ∨ l.length ≠ (16 * nb * w + 63) / 64 then none
    else
      let bits := leBytes (payloadBytes l)
      some (e, nb, (List.range (16 * nb)).map fun i => (BitVec.ofNat w (bits / 2 ^ (w * i))).toInt)

/-- The same of a SENDB `.lock` payload (R256): one exponent below 0xFF in every block. -/
def lockedBlocks (pb4 : Bool) (m : Msg) : Option (Nat × Nat × List Int) :=
  if !m.block then none
  else match addblockCount pb4 m.payload.length with
    | none => none
    | some nb =>
      let bs := (List.range nb).map fun b => payloadBlk (lockTy pb4) nb m.payload b
      let e := (bs.headD Blk.zero).e
      if sendbMax true (lockTy pb4) < nb ∨ (bs.any fun b => b.e != e || b.isNan) then none
      else some (e, nb, bs.flatMap fun b => (List.range 16).map b.fine)

/-! ### The node in the machine -/

/-- A class 2 message of the node that message `m` reached. -/
def Msg.class2 (m : Msg) (k : CoreId) (kind : MsgKind) (dst : Nat) (ws : List Word) : Msg :=
  { kind := kind, vf := m.vf, launch := m.launch, dst := BitVec.ofNat 22 dst, src := m.dst, from_ := k, cls := 2,
    tag := m.tag, block := false, seq := 0, payload := ws, sample := none }

def LockOut.msg (o : LockOut) (m : Msg) (k : CoreId) : Msg :=
  match o with
  | .renorm d => m.class2 k .renorm d []
  | .exponent d l => m.class2 k (.exponent (BitVec.ofNat 8 l)) d [BitVec.ofNat 64 l]

/-- Write a descriptor back. -/
def State.putLock (s : State) (k : CoreId) (h : Nat) (d : LockDesc) : State :=
  (s.sramPut k (h - 16) 8 d.word0.toNat).sramPut k (h - 8) 8 d.word1.toNat

/-- The open context of a tag. -/
def Core.lockOf (c : Core) (t : BitVec 6) : Option LockCtx := c.locks.find? fun x => x.tag == t

/-- The node after a message: descriptor, context, flags, messages, and `complete` of R258. -/
def State.putNode (s : State) (k : CoreId) (m : Msg) (x : LockCtx) (n : LockNode) : State :=
  let ty := lockTy n.pb4
  let h := 2 * x.haddr.toNat
  let eb := 2 * pbBits ty
  let s := n.out.foldl (fun s o => s.enqueueMsg (o.msg m k)) s
  let others := (s.core k).locks.filter fun y => y.tag != x.tag
  if n.isDone then
    let a := 16 * x.gran.toNat
    let r := (List.range x.nb).foldl (fun (r : State × BitVec 8) b =>
      let y := pack ty false ((n.part.drop (16 * b)).take 16) n.d.l 0 4
      (r.1.putBlk k ty (a + eb * b) (h + 2 * b) y.1, r.2 ||| y.2)) (s, n.flags)
    let s := (((r.1.fullBytes k a (eb * x.nb)).fullBytes k h (2 * x.nb)).setFlags k x.slot r.2).putLock k h { n.d with state := 2 }
    let s := s.modCore k fun c => { c with locks := others }
    let s := if n.d.root then s
             else s.enqueueMsg (m.class2 k .lockedPartial n.d.parent (partialWords n.pb4 n.d.l x.nb n.part))
    s.tagDone k x.slot x.sigen x.sem
  else
    ((s.setFlags k x.slot n.flags).putLock k h n.d).modCore k fun c =>
      { c with locks := others ++ [{ x with part := n.part, held := n.held }] }

def LockCtx.node (x : LockCtx) (d : LockDesc) : LockNode := ⟨d, x.pb4, x.part, x.held, 0, [], false⟩

/-- The context that a first contribution opens (R257). -/
def lockOpen (m : Msg) (e : Word) (nb : Nat) : LockCtx :=
  { tag := m.tag, pb4 := e.getLsbD 28, nb := nb, gran := tagGran e, haddr := (e.extractLsb' 12 15).setWidth 16,
    slot := tagSlot e, sigen := tagSigen e, sem := tagSem e, vf := m.vf, launch := m.launch,
    part := List.replicate (16 * nb) 0, held := [] }

/-- A tag entry that makes its core a node. -/
def isLockTag (e : Word) : Bool := tagAction e == 3 && e.getLsbD 27

/-- A contribution or a child's partial at the head of queue q (R257, R258, R407). `none`: it waits for a context. -/
def State.lockTake (s : State) (k : CoreId) (q : Fin 4) (m : Msg) (e : Word) : Option State :=
  let c := s.core k
  let bad := some (s.discard k q m.tag)
  let parse := fun (pb4 : Bool) => if q = 2 then partialOf pb4 m.payload else lockedBlocks pb4 m
  match c.lockOf m.tag with
  | some x =>
    match parse x.pb4 with
    | none => bad
    | some (ex, nb, els) =>
      if nb ≠ x.nb then bad
      else match c.badWord (2 * x.haddr.toNat - 16) 16 with
        | some w => some (s.tagUe k q m e w)
        | none =>
          match c.lockDesc (2 * x.haddr.toNat) with
          | none => bad
          | some d =>
            some (((s.charge k x.slot 25 nb).popArr k q).putNode k m x ((x.node d).contribute m.dst.toNat ex els))
  | none =>
    if !isLockTag e then bad
    else match parse (e.getLsbD 28) with
      | none => bad
      | some (ex, nb, els) =>
        let x := lockOpen m e nb
        let h := 2 * x.haddr.toNat
        if 65536 < 16 * x.gran.toNat + 2 * pbBits (lockTy x.pb4) * nb ∨ 65536 < h + 2 * nb then bad
        else match c.badWord (h - 16) 16 with
          | some w => some (s.tagUe k q m e w)
          | none =>
            match c.lockDesc h with
            | none => bad
            | some d =>
              if d.state ≠ 0 ∨ d.acc ≠ 0 then bad
              else if 4 ≤ c.locks.length then none
              else some (((s.charge k x.slot 25 nb).popArr k q).putNode k m x ((x.node d).contribute m.dst.toNat ex els))

/-- The head of class queue 2, where it may be acted on. -/
def State.head2 (s : State) (k : CoreId) (i : Nat) : Option Msg :=
  if i ≠ 2 || s.phaseOf k == .save3 || s.phaseOf k == .out then none else (s.core k).arr[2].head?

/-- What a node takes next of its tag is a choice of the order log (R42, R65): where it takes nothing yet, none is made. -/
def State.lockOrdered (s : State) (k : CoreId) (kind : Nat) (m : Msg) (f : State → Option State) : Option State :=
  match s.orderAt k kind (objTag m.tag.toNat) m.issuer with
  | .ok s => f s
  | .error t => (f s).map fun _ => t

/-- LOCKED_CONTRIBUTION (R258): what a node takes next, and so the point at which it acts on a notice, is a choice of the
order log (R42, R65). -/
def execLockedContribution (k : CoreId) (i : Nat) (s : State) : Host.Outcome State Fault Refusal :=
  event s
    (if i < 2 then
      match s.tagHead k i 3 with
      | none => none
      | some (q, m, e) =>
        if e.getLsbD 27 then s.lockOrdered k 2 m fun s => s.lockTake k q m e else none
     else match s.head2 k i with
      | none => none
      | some m =>
        if m.kind == .lockedPartial then
          s.lockOrdered k 2 m fun s => s.lockTake k 2 m (s.core k).mem.tags[m.tag.toFin].word
        else none)

/-- A RENORM or a notice acts on the open context of its tag, or on the descriptor of a tag that is a node (R257). -/
def State.lockNote (s : State) (k : CoreId) (m : Msg) (f : LockNode → LockNode) : State :=
  let c := s.core k
  let e := c.mem.tags[m.tag.toFin].word
  let bad := s.discard k 2 m.tag
  match c.lockOf m.tag with
  | some x =>
    match c.badWord (2 * x.haddr.toNat - 16) 16 with
    | some w => s.tagUe k 2 m e w
    | none =>
      match c.lockDesc (2 * x.haddr.toNat) with
      | none => bad
      | some d =>
        let n := f (x.node d)
        (s.popArr k 2).putNode k m x (n.settle m.dst.toNat (n.held.length + 1))
  | none =>
    if !isLockTag e then bad
    else
      let h := 2 * (e.extractLsb' 12 15).toNat
      match c.badWord (h - 16) 16 with
      | some w => s.tagUe k 2 m e w
      | none =>
        match c.lockDesc h with
        | none => bad
        | some d =>
          let n := f ⟨d, e.getLsbD 28, [], [], 0, [], false⟩
          n.out.foldl (fun s o => s.enqueueMsg (o.msg m k)) ((s.popArr k 2).putLock k h { n.d with state := d.state })

/-- The contributions that a node has accepted when it acts on a message (R42). -/
def State.lockPos (s : State) (k : CoreId) (m : Msg) : Nat :=
  match (s.core k).lockOf m.tag with
  | some x => match (s.core k).lockDesc (2 * x.haddr.toNat) with | some d => d.acc | none => 0
  | none => 0

/-- RENORM (R258, R38, R39, R407): the point of a raise among the contributions is a choice of the order log (R42). -/
def execRenorm (k : CoreId) (i : Nat) (s : State) : Host.Outcome State Fault Refusal :=
  event s
    (match s.head2 k i with
     | none => none
     | some m =>
       if m.kind != .renorm then none
       else ordered (s.orderAt k 7 (objTag m.tag.toNat) (s.lockPos k m)) fun s => s.lockNote k m fun n =>
         if n.d.root then n.raise m.dst.toNat else { n with out := n.out ++ [.renorm n.d.parent] })

/-- NEW_EXPONENT_NOTICE (R258, R40): a choice of the order log (R42). -/
def execNewExponentNotice (k : CoreId) (i : Nat) (s : State) : Host.Outcome State Fault Refusal :=
  event s
    (match s.head2 k i with
     | none => none
     | some m =>
       match m.kind with
       | .exponent l =>
         ordered (s.orderAt k 7 (objTag m.tag.toNat) (s.lockPos k m)) fun s => s.lockNote k m fun n =>
           ({ n with d := { n.d with l := l.toNat, raises := n.d.raises + 1 } }.halve).reopen
       | _ => none)

/-! ### Class 3 (R299) -/

/-- R299 in a sleeping supervisor slot. -/
def State.takeNotice (s : State) (k : CoreId) (sl : Fin 4) (m : Msg) : State :=
  let sys := m.kind == .sysmsg
  let w0 := m.payload.getD 0 0
  let w1 := m.payload.getD 1 0
  let s := (s.wakeAt k sl none).modRegs k sl fun r => r.wrChans (m.payload.take 4)
  let s := s.modSlot k sl fun x =>
    let pc := if x.t.tvec.getLsbD 63 then x.t.tvec &&& ~~~(1#64 <<< 63) else x.pc
    { x with t := { x.t with
               tcause := if sys then 0x25 else w1.extractLsb' 0 8 |>.setWidth 64,
               taddr := if sys then m.src.setWidth 64 else m.payload.getD 2 0,
               tsel := if sys || w0 == 0 then 0 else 0#32 ++ 1#1 ++ 0#8 ++ w1.extractLsb' 16 23,
               tpc := x.pc },
             pc := pc }
  s.stepStop k sl

/-- The core's supervisor has taken a class 3 message: the watches of its slots end with SYSMSG (R119). -/
def State.sysWatches (s : State) (k : CoreId) : State := (List.finRange 4).foldl (fun s n => s.endWatch k n 5) s

/-- SYSMSG (R299): a class 3 message is taken by a sleeping supervisor slot, or discarded where there is none; a sleeper whose
EV is set wakes by that event first (R179). -/
def execSysmsg (k : CoreId) (i : Nat) (s : State) : Host.Outcome State Fault Refusal :=
  event s
    (if i ≠ 3 ∨ s.phaseOf k ≠ .run then none
     else match (s.core k).arr[3] with
      | [] => none
      | m :: _ =>
        match s.slotOf k m with
        | none => some (s.popArr k 3)
        | some sl =>
          let x := s.slot k sl
          if !supvOf x then some (s.popArr k 3)
          else if x.st = .sleep ∧ x.ev = false then some (((s.takeNotice k sl m).sysWatches k).popArr k 3)
          else none)

end Sys2Proof.Machine
end

