-- ==== Sys2Proof/Machine/Quays.lean ====
section
/-! DEFINITION. The quays' outer side (19): writes of the host and its management region (R395 to R397), snoops (R399), the
network transport (R400 to R404) and lane failures (R394). -/

namespace Sys2Proof.Machine

/-! ### The host (R395 to R397, R399) -/

/-- One half of a peer's address. -/
def setHalf (a : BitVec 128) (hi : Bool) (v : Word) : BitVec 128 :=
  if hi then v ++ a.extractLsb' 0 64 else a.extractLsb' 64 64 ++ v

/-- EXPBASE and EXPSIZE of a VF (R395). -/
def State.exportOf (s : State) (vf : Nat) : Word × Word := (mget s.regs.exports vf).getD (0, 0)

/-- The aligned 8 bytes of PF0's management region at an offset (R395); the mailbox is firmware's own, so free. -/
def State.pf0Word (s : State) (off : Nat) : Word :=
  if off < 0x10000 then Config.word (s.free + off)
  else if off < 0x10800 then s.regs.tenants[Fin.ofNat 256 ((off - 0x10000) / 8)]
  else if 0x20000 ≤ off ∧ off < 0x21000 then
    (s.regs.peers[Fin.ofNat 256 ((off - 0x20000) / 16)]).extractLsb' (if off % 16 = 8 then 64 else 0) 64
  else if off = 0x21000 then s.regs.udp
  else if 0x30000 ≤ off ∧ off < 0x32000 then
    let e := s.exportOf ((off - 0x30000) / 16)
    if off % 16 = 8 then e.2 else e.1
  else 0

/-- Aligned 8 bytes written to PF0's management region: the tables and the UDP port; the mailbox is firmware's own, and every
other offset ignores it. -/
def State.pf0Put (s : State) (off : Nat) (v : Word) : State :=
  if 0x10000 ≤ off ∧ off < 0x10800 then
    s.modMod fun m => { m with tenants := m.tenants.set (Fin.ofNat 256 ((off - 0x10000) / 8)) (v &&& 0xFFFFFFF80000FFFF#64) }
  else if 0x20000 ≤ off ∧ off < 0x21000 then
    let i := Fin.ofNat 256 ((off - 0x20000) / 16)
    s.modMod fun m => { m with peers := m.peers.set i (setHalf m.peers[i] (off % 16 == 8) v) }
  else if off = 0x21000 then s.modMod fun m => { m with udp := v &&& 0xFFFF }
  else if 0x30000 ≤ off ∧ off < 0x32000 then
    let vf := (off - 0x30000) / 16
    let e := s.exportOf vf
    let e := if off % 16 = 8 then (e.1, v) else (v &&& ~~~(0xFFFF#64), e.2)
    s.modMod fun m => { m with exports := mset m.exports vf e }
  else s

/-- Bytes `l` over those of a word, from its byte `o` on. -/
def patchWord (w : Word) (o : Nat) (l : List Byte) : Word :=
  BitVec.ofNat 64 (leBytes ((toBytes w.toNat 8).take o ++ l ++ (toBytes w.toNat 8).drop (o + l.length)))

/-- A write of any size to PF0's management region (R395), a word of 8 bytes at a time. -/
def State.pf0Write (s : State) (off : Nat) (l : List Byte) : Nat → State
  | 0 => s
  | fuel + 1 =>
    if l.isEmpty then s
    else
      let o := off % 8
      let w := off - o
      let t := s.pf0Put w (patchWord (s.pf0Word w) o (l.take (8 - o)))
      t.pf0Write (w + 8) (l.drop (8 - o)) fuel

/-- Bytes of PF0's management region (R395). -/
def State.pf0Read (s : State) (off n : Nat) : List Byte :=
  (List.range n).map fun i => (s.pf0Word ((off + i) / 8 * 8)).extractLsb' (8 * ((off + i) % 8)) 8

/-- Bytes of a VF's BAR0 (R396): the launch aperture is write only, and what else is not listed is reserved; both read as zero
(DESIGN CHOICE, entry 93). -/
def State.bar0Read (s : State) (vf off n : Nat) : List Byte :=
  let x := s.vf vf
  (List.range n).map fun i =>
    let o := off + i
    let w : Word := if o / 8 = 8 then x.accepted else if o / 8 = 9 then x.refused else if o / 8 = 10 then x.lastPart.setWidth 64 else 0
    w.extractLsb' (8 * (o % 8)) 8

/-- Data in lines of 64 bytes with the CRC-32C of R368, and what happens to its bits on the way: whether every line passes. -/
def linesPass (l : List Byte) (err : Nat) : Bool :=
  let e := toBytes err l.length
  ((List.range ((l.length + 63) / 64)).all fun i =>
    let x := (l.drop (64 * i)).take 64
    crc32c (List.zipWith (· ^^^ ·) x ((e.drop (64 * i)).take 64)) == crc32c x)

/-- Whether data arrives over a path that checks it and has it sent once more (R368); `none`: an error that the CRC does not find,
which does not happen (entry 86). -/
def linesArrive (l : List Byte) (e : LineErr) : Option Bool :=
  let clean := fun (x : Nat) => x % 2 ^ (8 * l.length) == 0
  if linesPass l e.first then (if clean e.first then some true else none)
  else if linesPass l e.second then (if clean e.second then some true else none)
  else some false

/-- An answer of the module to a request from outside. -/
def State.answer (s : State) (id : Nat) (ok : Bool) (l : List Byte) : State := { s with answers := (id, ok, l) :: s.answers }

/-- HOST_WRITE (R397): to module memory, performed at its home quay within one line; through a VF's BAR2 in PCIe mode, under
the translation of the VF in the partition that last ran it; or to the management region. One that fails its check twice is not
performed (R368). The host's own memory changes with no such path: the module holds no line of it (R394). A read is answered
(R395, R396). -/
def execHostWrite (x : HostDest) (data : LineData) (s : State) : Host.Outcome State Fault Refusal :=
  let bytes := data.bytes
  event s
    (match x with
     | .readPf0 off n id => some (State.answer { s with free := s.free + 0x10000 } id true (s.pf0Read off n))
     | .readBar0 vf off n id => if 512 ≤ vf || 4096 < off + n then none else some (s.answer id true (s.bar0Read vf off n))
     | .own h a =>
       if 2 ≤ h || 2 ^ 44 < a + bytes.length then none
       else some { s with gmem := s.gmem.writeBytes (2 ^ 45 + h * 2 ^ 44 + a) bytes }
     | x => if bytes.isEmpty then none
     else (linesArrive bytes data.err).bind fun ok => if !ok then some s else match x with
       | .mem d =>
         match homeOf d with
         | some (.mem _) => if s.decodes d && d % 64 + bytes.length ≤ 64 then some (s.gwriteBytes d bytes) else none
         | _ => none
       | .bar2 vf va =>
         let h := if vf < 256 then 64 else 65
         if !(s.quay h).pcie || 512 ≤ vf || 2 ^ 38 ≤ va || 64 < va % 64 + bytes.length then none
         else
           let c := (s.part (s.vf vf).lastPart.toNat).vfCtx vf
           (match s.translateIn c vf (BitVec.ofNat 64 va) 1 false false with
            | .error _ => some s
            | .ok (d, _) => some (
              if !isRemote d then s.gwriteBytes d bytes
              else if s.peerDown d then s
              else s.sendFrame (coreAt (fieldX (quayField h) * 96) (fieldY (quayField h) * 128)) d .post))
       | .pf0 off => some (s.pf0Write off bytes (bytes.length + 1))
       | _ => none)

/-- CXL_SNOOP (R399): a host line is invalidated; a watch on it ends with WRITE. -/
def execCxlSnoop (h line : Nat) (s : State) : Host.Outcome State Fault Refusal :=
  event s
    (if 2 ≤ h || 2 ^ 44 ≤ line || line % 64 != 0 || (s.quay (64 + h)).pcie then none
     else some (s.lineWritten (2 ^ 45 + h * 2 ^ 44 + line)))

/-! ### Requests from the network (R400 to R404) -/

/-- The permission that a request needs (R400). -/
def netPermits (op : NetOp) (e : Word) : Bool :=
  match op with
  | .read _ _ => e.getLsbD 59
  | .write _ _ => e.getLsbD 60
  | .amo _ _ _ _ _ => e.getLsbD 59 && e.getLsbD 60
  | .launch _ => e.getLsbD 62
  | .message _ => e.getLsbD 61

/-- The tenant check of an arriving request (R400). -/
def State.tenantOk (s : State) (x : NetFrame) : Bool :=
  s.regs.tenants.toList.any fun e =>
    e.getLsbD 63 && s.regs.peers[Fin.ofNat 256 (e.extractLsb' 0 16).toNat] == x.peer && tenantPvf e == x.pvf &&
    tenantLvf e == x.lvf && netPermits x.op e

/-- DPAs of `n` bytes at an offset of a VF's export (R401), page by page. -/
def State.exportPieces (s : State) (vf : Nat) (acc : BitVec 8) (va n : Nat) : Nat → Option (List (Nat × Nat))
  | 0 => some []
  | fuel + 1 =>
    if n = 0 then some []
    else match s.translateIn ((s.part (s.homePart vf)).vfCtx vf) vf (BitVec.ofNat 64 va) acc false false with
      | .error _ => none
      | .ok (d, _) =>
        let m := min n (65536 - va % 65536)
        (s.exportPieces vf acc (va + m) (n - m) fuel).map fun l => (d, m) :: l

/-- The export's bytes that an access names: refused past EXPSIZE. -/
def State.exportAt (s : State) (vf : Nat) (acc : BitVec 8) (off n : Nat) : Option (List (Nat × Nat)) :=
  let e := s.exportOf vf
  if e.2.toNat < off + n then none else s.exportPieces vf acc (e.1.toNat + off) n 3

/-- The pieces that lie in this module are written; a third module writes its own (R401). -/
def State.putAll (s : State) : List (Nat × Nat) → List Byte → State
  | [], _ => s
  | (d, n) :: l, bs => (if isRemote d then s else s.gwriteBytes d (bs.take n)).putAll l (bs.drop n)

/-- The bytes of the pieces: this module's, and what third modules have answered, by piece. -/
def State.getAll (s : State) (got : List (Nat × Option (List Byte))) (ps : List (Nat × Nat)) : List Byte :=
  ps.zipIdx.flatMap fun p =>
    if isRemote p.1.1 then ((mget got p.2).bind id).getD [] else s.gmem.readBytes p.1.1 p.1.2

/-- Charge both quays of a remote access to the target VF (R404). -/
def State.chargeNet (s : State) (q vf : Nat) (ps : List (Nat × Nat)) : State :=
  ps.foldl (fun s p => (s.chargeQuay q vf p.2).chargeQuay (s.quayOf p.1) vf p.2) s

/-- A request whose home is a third module is passed on, and answered once every piece of it there has been (R401): `f` gives
the outcome from what has been answered. -/
def State.relayed (s : State) (q : Nat) (id : NetId) (ps : List (Nat × Nat)) (f : State → List (Nat × Option (List Byte)) → NetRes) :
    NetRes :=
  let far := ps.zipIdx.filter fun p => isRemote p.1.1
  if far.isEmpty then f s []
  else match (s.quay q).relays.find? fun r => r.id == id with
    | none =>
      if far.any fun p => !(s.quay (s.quayOf p.1.1)).up || s.peerDown p.1.1 then .refused
      else .wait (far.foldl (fun s p => s.sendFrame (coreAt (fieldX (quayField q) * 96) (fieldY (quayField q) * 128)) p.1.1
          (.relay q id p.2))
        (s.modQuay q fun y => { y with relays := y.relays ++ [⟨id, []⟩] }))
    | some r =>
      if far.any fun p => (mget r.got p.2).isNone then .later
      else
        let t := s.modQuay q fun y => { y with relays := y.relays.filter fun x => x.id != id }
        if far.any fun p => mget r.got p.2 == some none then .refused else f t r.got

/-- A request that has passed the tenant check, by its frame. -/
def State.netPerform (s : State) (q vf : Nat) (id : NetId) (op : NetOp) : NetRes :=
  match op with
  | .read off n =>
    if 8192 < n then .refused
    else match s.exportAt vf 0 off n with
      | none => .refused
      | some ps => s.relayed q id ps fun s got => .done (s.chargeNet q vf ps) (s.getAll got ps)
  | .write off bs =>
    if 8192 < bs.length then .refused
    else match s.exportAt vf 1 off bs.length with
      | none => .refused
      | some ps => s.relayed q id ps fun s _ => .done ((s.putAll ps bs).chargeNet q vf ps) []
  | .amo off op t b c =>
    let n := tyBytes (amoIntTy t)
    if off % n ≠ 0 then .refused
    else match s.exportAt vf 2 off n with
      | none => .refused
      | some ps => s.relayed q id ps fun s got =>
        let d := (ps.headD (0, 0)).1
        if isRemote d then .done (s.chargeNet q vf ps) (s.getAll got ps)
        else
          let old := s.gmem.readLE d n
          let new := (amoNew op t (putTy (amoIntTy t) old) b c).toNat % 2 ^ (8 * n)
          .done ((if new = old then s else s.gwrite d n new).chargeNet q vf ps) (toBytes old n)
  | .launch bs =>
    let p := s.homePart vf
    if bs.length ≠ 64 then .discarded
    else if (s.part p).phase ≠ .run ∧ 16 ≤ (s.part p).netHolds q then .later
    else .done ((s.modPart p fun x => { x with packets := x.packets ++ [(.net q, vf, bs)] }).chargeQuay q vf 64) []
  | .message ws => s.netMessage q vf ws false

/-- Frames taken so far from a peer (R403). -/
def Quay.taken (y : Quay) (peer : Nat) : Nat := (mget y.rxSeq peer).getD 0

/-- The payload that a request carries. -/
def netPayload : NetOp → List Byte
  | .write _ bs => bs
  | .launch bs => bs
  | .message ws => ws.flatMap wordBytes
  | .read _ _ => []
  | .amo _ _ _ b c => wordBytes b ++ wordBytes c

/-- NET_REQUEST_FRAME (R400 to R404): frames are taken in order and duplicates discarded; a request that fails a check is
refused, and counted for its VF. One whose payload fails its check twice is not performed nor acknowledged, and its sender
sends it again (R368, R403). -/
def execNetRequestFrame (x : NetFrame) (s : State) : Host.Outcome State Fault Refusal :=
  event s
    (let y := s.quay x.quay
     let peer := x.peer.toNat
     if x.quay < 66 || 130 ≤ x.quay || !y.up then none
     else if x.seq != y.taken peer then some s
     else
       let ack := fun (s : State) (ok : Bool) (data : List Byte) =>
         { s.modQuay x.quay fun y => { y with rxSeq := mset y.rxSeq peer (y.taken peer + 1),
                                              down := y.down.filter (· != peer) } with
             answers := (x.seq, ok, data) :: s.answers }
       let count := fun (s : State) => s.modVf x.lvf fun v => { v with refused := v.refused + 1 }
       (linesArrive (netPayload x.op) x.err).bind fun arrived =>
       if !s.tenantOk x then some (ack (count s) false [])
       else if !arrived then some s
       else match s.netPerform x.quay x.lvf ⟨peer, x.seq⟩ x.op with
         | .done t data => some (ack t true data)
         | .refused => some (ack (count s) false [])
         | .discarded => some (ack (count s) true [])
         | .later => some s
         | .wait t => some t)

/-! ### Answers to this module's requests (R400, R403) -/

/-- The access that a frame carries: its core, its place there, and itself. -/
def State.netAccess (s : State) (q : Nat) (id : NetId) : Option (CoreId × Nat × GAcc) :=
  match (s.quay q).outst.find? fun o => o.id == id && o.what == .access with
  | none => none
  | some o =>
    let l := (s.core o.core).gaccs
    match l.findIdx? fun a => a.net == some id && s.quayOf a.dpa == q with
    | none => none
    | some i => l[i]?.map fun a => (o.core, i, a)

/-- The frame that a peer answers next: it acknowledges frames in order (R403). -/
def State.netNext (s : State) (q : Nat) (id : NetId) : Option NetOut :=
  ((s.quay q).outst.find? fun o => o.id.peer == id.peer).filter fun o => o.id == id

/-- A frame leaves the sender's store. -/
def State.dropFrame (s : State) (q : Nat) (id : NetId) : State :=
  s.modQuay q fun y => { y with outst := y.outst.filter fun o => o.id != id }

/-- The peer has refused, or lost, elements of a tile: the stream stops at the first of them (R111, R400, R403). -/
def State.tileFail (s : State) (k : CoreId) (n : Fin 8) (els : List Nat) (refused : Bool) : State :=
  match (s.core k).streams[n] with
  | none => s
  | some t =>
    match t.globalEnd with
    | none => s
    | some (h, acc) =>
      if !t.asked then s
      else
        let va := h.addr h.base ((t.tileElems h).getD (els.headD 0) 0)
        if refused then s.streamFault k n t 1 va (XFault.word ⟨6, 0, false, false, 0, va⟩ acc) false
        else s.streamFault k n t 2 va 0 false

/-- The peer's answer for elements of a tile: the values of a source that it holds. -/
def State.tileAnswer (s : State) (k : CoreId) (n : Fin 8) (els : List Nat) (bs : List Byte) : State :=
  s.modCore k fun c => { c with streams := c.streams.set n (c.streams[n].map fun t =>
    match t.globalEnd with
    | some (h, 7) => { t with got := els.zipIdx.foldl (fun l e => mset l e.1 (leBytes ((bs.drop (e.2 * h.es)).take h.es))) t.got }
    | _ => t) }

/-- A piece that was passed on has been answered (R401). -/
def State.relayAnswer (s : State) (q : Nat) (id : NetId) (i : Nat) (r : Option (List Byte)) : State :=
  s.modQuay q fun y => { y with relays := y.relays.map fun x => if x.id = id then { x with got := mset x.got i r } else x }

/-- A frame that will not be performed (R400, R403): refused by the peer, or lost with it. -/
def State.frameFail (s : State) (q : Nat) (o : NetOut) (refused : Bool) : State :=
  match o.what with
  | .access => (match s.netAccess q o.id with
    | some (k, i, a) => s.netFail k i a (if refused then 0x09 else 0x0F)
    | none => s)
  | .tile n els => s.tileFail o.core n els refused
  | .post => s
  | .relay q' id i => s.relayAnswer q' id i none

/-- A frame has been performed by the peer, with the data that it read (R403); `none`: the data is not that of the request. -/
def State.frameDone (s : State) (q : Nat) (o : NetOut) (bs : List Byte) : Option State :=
  let t := s.dropFrame q o.id
  match o.what with
  | .access =>
    (match s.netAccess q o.id with
     | none => some t
     | some (k, i, a) =>
       if a.returns && bs.length != a.size then none
       else some ((t.performed k i { a with net := none } (BitVec.ofNat 512 (leBytes bs))).chargeQuay q (gtidVf a.gtid) a.size))
  | .tile n els =>
    (match ((s.core o.core).streams[n]).bind fun t => t.globalEnd with
     | some (h, acc) => if acc == 7 && bs.length != els.length * h.es then none else some (t.tileAnswer o.core n els bs)
     | none => some t)
  | .post => some t
  | .relay q' id i => some (t.relayAnswer q' id i (some bs))

/-- NET_ACK_FRAME (R403): the peer has performed a request, with the data it read, or, with no data at all, refused it. -/
def execNetAckFrame (q : Nat) (id : NetId) (data : Option (List Byte)) (s : State) : Host.Outcome State Fault Refusal :=
  event s
    (if !(s.quay q).up then none
     else (s.netNext q id).bind fun o => match data with
       | none => some ((s.frameFail q o true).dropFrame q id)
       | some bs => s.frameDone q o bs)

/-- Every access outstanding to a peer fails (R403). -/
def State.failPeer (s : State) (q peer : Nat) : List NetOut → State
  | [] => s
  | o :: l => (if o.id.peer = peer then s.frameFail q o false else s).failPeer q peer l

/-- NET_RETRANSMIT_TIMEOUT (R403): a frame unacknowledged after 10 µs is sent again; after 8 retransmissions the peer is marked
down. -/
def execNetRetransmitTimeout (q : Nat) (id : NetId) (s : State) : Host.Outcome State Fault Refusal :=
  event s
    (match (s.quay q).outst.find? fun o => o.id == id with
     | none => none
     | some o =>
       if o.tries < 8 then
         some (s.modQuay q fun y => { y with outst := y.outst.map fun p => if p.id == id then { p with tries := p.tries + 1 } else p })
       else
         some ((s.failPeer q id.peer (s.quay q).outst).modQuay q fun y =>
           { y with outst := y.outst.filter (fun p => p.id.peer != id.peer), down := insertNat id.peer y.down }))

/-- A host or memory quay at its next narrower width (R394): x8, or x4 for a host quay, with bandwidth in proportion (DEDUCED,
entry 90); below that it is down. -/
def Quay.degrade (y : Quay) (host : Bool) : Quay :=
  let w := if 8 < y.lanes then 8 else if host && decide (4 < y.lanes) then 4 else 0
  if w = 0 then { y with up := false, lanes := 0 }
  else { y with lanes := w, full := y.full * w / y.lanes, b := y.b * w / y.lanes }

/-- QUAY_LANE_FAILURE (R394): a network quay has no lane repair and goes down; the others degrade as their standard has it. -/
def execQuayLaneFailure (q : Nat) (s : State) : Host.Outcome State Fault Refusal :=
  event s
    (if 130 ≤ q then none
     else if q < 66 then some (s.modQuay q fun y => y.degrade (64 ≤ q))
     else some (s.modQuay q fun y => { y with up := false, lanes := y.lanes - 1 }))

end Sys2Proof.Machine
end

