-- ==== Sys2Proof/Machine/Vector.lean ====
section
/-! DEFINITION. Vector instructions: OP 0x58 to 0x6C (07 R189 to R209), and the completion of a vector operation (R192). -/

namespace Sys2Proof.Machine

def arithV (op : VArith) (x : V3) (s : State) : Host.Outcome State Fault Refusal :=
  let w := vtyWidth (vmodTy x.m)
  vlanes x.q (vclass (vmodTy x.m)) w x.d [x.a, x.b]
    (fun t i => arithLane op x.m (lane w (t.rdV x.a) i) (lane w (t.rdV x.b) i)) [] [] s

/-- VADD (R194). -/
def execVadd (x : V3) (s : State) : Host.Outcome State Fault Refusal := arithV .add x s

/-- VSUB (R194). -/
def execVsub (x : V3) (s : State) : Host.Outcome State Fault Refusal := arithV .sub x s

/-- VMUL (R194). -/
def execVmul (x : V3) (s : State) : Host.Outcome State Fault Refusal := arithV .mul x s

/-- VFMA (R194): one exact value, rounded once. -/
def execVfma (x : V4) (s : State) : Host.Outcome State Fault Refusal :=
  let w := vtyWidth (vmodTy x.m)
  vlanes x.q (vclass (vmodTy x.m)) w x.d [x.a, x.b, x.c]
    (fun t i => fmaLane x.m (lane w (t.rdV x.a) i) (lane w (t.rdV x.b) i) (lane w (t.rdV x.c) i)) [] [] s

/-- Fours of steps that VDIV and VSQRT occupy the unit (R193, R344). -/
def divQuads : FpTy → Nat
  | .f64 => 8
  | .f32 => 4
  | _ => 2

/-- A charged lanewise operation: `n` events of its class in all. -/
def vlanesN (q : Guard) (cls : Fin 32) (n : State → Nat) (w : Nat) (d : Fin 16) (srcs : List (Fin 16))
    (f : State → Nat → Nat × BitVec 8) (s : State) : Host.Outcome State Fault Refusal :=
  issueMasked (vform q cls (d :: srcs)) (anyLane q w)
    (fun t =>
      let r := mapLanes (s.me.r.mask q) w (t.rdV d) (f t)
      .ok ((t.chargeMore cls (n t - 1)).vop [.v d r.1 0] r.2)) s

/-- VDIV (R194). -/
def execVdiv (x : VF3) (s : State) : Host.Outcome State Fault Refusal :=
  let w := fpWidth x.f
  vlanesN x.q 12 (fun _ => divQuads x.f) w x.d [x.a, x.b]
    (fun t i => (fmtOf x.f).div x.r (lane w (t.rdV x.a) i) (lane w (t.rdV x.b) i)) s

/-- VSQRT (R194). -/
def execVsqrt (x : VF2) (s : State) : Host.Outcome State Fault Refusal :=
  let w := fpWidth x.f
  vlanesN x.q 12 (fun _ => divQuads x.f) w x.d [x.a] (fun t i => (fmtOf x.f).sqrt x.r (lane w (t.rdV x.a) i)) s

def minmaxV (mx : Bool) (x : VN3) (s : State) : Host.Outcome State Fault Refusal :=
  let w := vtyWidth x.t
  vlanes x.q (vclass x.t) w x.d [x.a, x.b]
    (fun t i => minmaxLane mx x.t (lane w (t.rdV x.a) i) (lane w (t.rdV x.b) i)) [] [] s

/-- VMIN (R195). -/
def execVmin (x : VN3) (s : State) : Host.Outcome State Fault Refusal := minmaxV false x s

/-- VMAX (R195). -/
def execVmax (x : VN3) (s : State) : Host.Outcome State Fault Refusal := minmaxV true x s

def signV (neg : Bool) (x : VN2) (s : State) : Host.Outcome State Fault Refusal :=
  let w := vtyWidth x.t
  vlanes x.q (vclass x.t) w x.d [x.a] (fun t i => signLane neg x.t (lane w (t.rdV x.a) i)) [] [] s

/-- VABS (R195). -/
def execVabs (x : VN2) (s : State) : Host.Outcome State Fault Refusal := signV false x s

/-- VNEG (R195). -/
def execVneg (x : VN2) (s : State) : Host.Outcome State Fault Refusal := signV true x s

/-- A predicate that an operation writes; a write to p0 is discarded (R29). -/
def predWrite (d : Fin 8) (v : BitVec 16) : List RegWrite := if d = 0 then [] else [.p d v]

/-- VCMP (R196). -/
def execVcmp (x : VcmpF) (s : State) : Host.Outcome State Fault Refusal :=
  let w := vtyWidth x.t
  issueMasked (vform x.q (vclass x.t) [x.a, x.b] [] [.p x.d]) (anyLane x.q w)
    (fun t =>
      let m := s.me.r.mask x.q
      let r := fun i => cmpLane x.cond x.t x.tot (lane w (t.rdV x.a) i) (lane w (t.rdV x.b) i)
      let fl := orFlags ((List.range (512 / w)).map fun i => if laneOn m w i then (0, (r i).2) else (0, 0))
      .ok (t.vop (predWrite x.d (cmpBits m w (t.me.r.rdP x.d) fun i => (r i).1)) fl)) s

/-- VSEL (R197). -/
def execVsel (x : VselF) (s : State) : Host.Outcome State Fault Refusal :=
  let w := vtyWidth x.t
  vlanes x.q 14 w x.d [x.a, x.b]
    (fun t i => (if laneOn (t.me.r.rdP x.c) w i then lane w (t.rdV x.a) i else lane w (t.rdV x.b) i, 0)) [] [.p x.c] s

/-- VLOG (R199). -/
def execVlog (x : VlogF) (s : State) : Host.Outcome State Fault Refusal :=
  let w := tyWidth x.t
  vlanes x.q 8 w x.d (if x.op = .not then [x.a] else [x.a, x.b])
    (fun t i => (logLane x.op w (lane w (t.rdV x.a) i) (lane w (t.rdV x.b) i), 0)) [] [] s

/-- VSH (R199). -/
def execVsh (x : VshF) (s : State) : Host.Outcome State Fault Refusal :=
  let w := tyWidth x.t
  vlanes x.q 8 w x.d [x.a, x.b]
    (fun t i => (shLane x.op w (lane w (t.rdV x.a) i) (lane w (t.rdV x.b) i), 0)) [] [] s

/-- VCVT (R200, R201). -/
def execVcvt (x : VcvtF) (s : State) : Host.Outcome State Fault Refusal :=
  let vb := match x.b with | .v n => n | _ => x.a
  let gs := match x.b with | .g r => [r] | _ => []
  vissue x.q 14 (fullWidth x.dst) x.d [x.a, vb]
    (fun t m => cvtReg x.dst x.src x.r m (t.rdV x.d) (t.rdV x.a, t.rdH x.a) (t.rdV vb, t.rdH vb)
      (match x.b with | .g r => (t.rd r).toNat | _ => 0)) gs [] s

/-- Fours of steps of VFN (R60): the fast path, and the most a slow-path lane adds. -/
def fnQuads : FpTy → Nat × Nat
  | .f64 => (6, 40)
  | .f32 => (3, 10)
  | _ => (2, 3)

/-- VFN (R202). Which lanes take the slow path, and so the steps charged beyond the fast path's, the spec leaves open
(R60): a free value up to R60's bound. -/
def execVfn (x : VfnF) (s : State) : Host.Outcome State Fault Refusal :=
  let w := fpWidth x.f
  issueMasked (vform x.q 13 [x.d, x.a]) (anyLane x.q w)
    (fun t =>
      let m := s.me.r.mask x.q
      let r := mapLanes m w (t.rdV x.d) fun i => (fmtOf x.f).fn x.fn x.r (lane w (t.rdV x.a) i)
      let n := ((List.range (512 / w)).filter (laneOn m w)).length
      let (z, t) := t.fresh
      let q := fnQuads x.f
      .ok ((t.chargeMore 13 (q.1 - 1 + z.toNat % (n * q.2 + 1))).vop [.v x.d r.1 0] r.2)) s

/-- VRED (R203): the mask selects inputs only, and the guard always holds (R190). -/
def execVred (x : VredF) (s : State) : Host.Outcome State Fault Refusal :=
  issueMasked (vform x.q 14 [x.d, x.a]) (fun _ => true)
    (fun t => let r := redReg x.op x.m (s.me.r.mask x.q) (t.rdV x.a); .ok (t.vop [.v x.d r.1 0] r.2)) s

/-- VSCAN (R204): as VRED under its mask. -/
def execVscan (x : V2) (s : State) : Host.Outcome State Fault Refusal :=
  issueMasked (vform x.q 14 [x.d, x.a]) (fun _ => true)
    (fun t => let r := scanReg x.m (s.me.r.mask x.q) (t.rdV x.a); .ok (t.vop [.v x.d r.1 0] r.2)) s

/-- VPERM (R205). -/
def execVperm (x : VN3) (s : State) : Host.Outcome State Fault Refusal :=
  let w := vtyWidth x.t
  vlanes x.q 14 w x.d [x.a, x.b]
    (fun t i => (lane w (t.rdV x.a) (lane w (t.rdV x.b) i % (512 / w)), 0)) [] [] s

/-- VBCAST (R206). -/
def execVbcast (x : VbcastF) (s : State) : Host.Outcome State Fault Refusal :=
  vlanes x.q 14 (vtyWidth x.t) x.d []
    (fun t _ => bcastVal x.t (match x.b with | .reg r => t.rd r | .imm _ => 0) x.b) (srcOps x.b) [] s

/-- The value VEXT writes (R207). -/
def extVal (t : VTy) (x : Nat) : Word :=
  match t with
  | .int t => putTy t x
  | .fp _ => BitVec.ofNat 64 x

/-- A G register that an operation writes; a write to g0 is discarded (R29). -/
def gWrite (d : GOp) (v : Word) : List RegWrite :=
  match d with
  | .g n => if n = 0 then [] else [.g n v]
  | .c n => [.c n v]

/-- VEXT (R207), under a scalar guard; STACK_LIMIT at issue (R103, R192). -/
def execVext (x : VextF) (s : State) : Host.Outcome State Fault Refusal :=
  issue (mkForm x.q 14 [x.b] [x.d] [.v x.a])
    (fun s =>
      let w := vtyWidth x.t
      let v := extVal x.t (lane w (s.rdV x.a) ((s.rd x.b).toNat % (512 / w)))
      if s.slimRefuses x.d v then .trap 0x0B v else .ok (s.vop (gWrite x.d v) 0)) s

/-- VINS (R207), under a scalar guard. -/
def execVins (x : VinsF) (s : State) : Host.Outcome State Fault Refusal :=
  issue (mkForm x.q 14 [x.a, x.b] [] [.v x.d])
    (fun s =>
      let w := vtyWidth x.t
      let j := (s.rd x.b).toNat % (512 / w)
      let l := (lanesOf w (s.rdV x.d)).set j ((s.rd x.a).toNat % 2 ^ w)
      .ok (s.vop [.v x.d (packL w l) 0] 0)) s

/-- VMOV (R208): copies the header lane too. -/
def execVmov (x : VN2) (s : State) : Host.Outcome State Fault Refusal :=
  let w := vtyWidth x.t
  vissue x.q 14 w x.d [x.a]
    (fun t m => ((mapLanes m w (t.rdV x.d) fun i => (lane w (t.rdV x.a) i, 0)).1, t.rdH x.a, 0)) [] [] s

/-- VCLASS (R198). -/
def execVclass (x : VclassF) (s : State) : Host.Outcome State Fault Refusal :=
  let w := fpWidth x.f
  vlanes x.q (vclass (.fp x.f)) w x.d [x.a] (fun t i => (classLane (fmtOf x.f) (lane w (t.rdV x.a) i), 0)) [] [] s

/-- FLG (R209): waits for the slot's vector operations, reads the flags, clears those of `m`. -/
def flgAct (d : GOp) (m : BitVec 8) (s : State) : Act :=
  if (s.core s.cur.core).vops.any fun o => o.slot == s.cur.slot then .wait .unit id
  else
    writeG (s.modRegs s.cur.core s.cur.slot fun r => { r with flags := r.flags &&& ~~~m }) d (s.me.r.flags.setWidth 64)

/-- FLG gD (R209): clears all eight flags. -/
def execFlg (d : GOp) (s : State) : Host.Outcome State Fault Refusal :=
  issue (mkForm Guard.always 1 [] [d]) (flgAct d 0xFF) s

/-- FLG gD, gA (R209): clears the flags that gA names. -/
def execFlgMasked (x : GG) (s : State) : Host.Outcome State Fault Refusal :=
  issue (mkForm x.q 1 [x.a] [x.d]) (fun s => flgAct x.d ((s.rd x.a).extractLsb' 0 8) s) s

/-- What a completing operation writes. -/
def Regs.write (r : Regs) : RegWrite → Regs
  | .g n v => r.wrG n v
  | .c n v => r.wrC n v
  | .v n v h => r.wrV n v h
  | .p n v => r.wrP n v

/-- VECTOR_COMPLETE (R192): the results and the flags of an operation appear together. -/
def execVectorComplete (k : CoreId) (i : Nat) (s : State) : Host.Outcome State Fault Refusal :=
  event s
    ((s.core k).vops[i]?.map fun o =>
      ((s.modCore k fun c => { c with vops := c.vops.eraseIdx i }).modRegs k o.slot fun r => o.writes.foldl Regs.write r).setFlags
        k o.slot o.flags)

end Sys2Proof.Machine
end

