-- ==== Sys2Proof/Machine/Walks.lean ====
section
/-! DEFINITION. Translation requests and the answers of hub walkers (14 R317 to R322). -/

namespace Sys2Proof.Machine

/-- TRANSLATION_REQUEST (R317 to R319): the first unsent miss of a core goes to its field's hub; four may be out. -/
def execTranslationRequest (k : CoreId) (i : Nat) (s : State) : Host.Outcome State Fault Refusal :=
  let ms := (s.core k).misses
  event s
    (match ms[i]? with
     | none => none
     | some m =>
       if m.sent || 4 ≤ (ms.filter (·.sent)).length || !((ms.take i).all (·.sent)) then none
       else
         let s := s.modCore k fun c => { c with misses := c.misses.set i { m with sent := true } }
         some (s.modField (fieldOf k) fun x => { x with walks := admitWalk x.walks ⟨k, m, false, false, []⟩ }))

/-- Whether a miss of a core is the one that a request came from; the head that made it may no longer wait (R298). -/
def Miss.asks (x m : Miss) (exact : Bool) : Bool :=
  x.sent && x.stream == m.stream && x.va == m.va && x.acc == m.acc && x.vf == m.vf &&
  (if exact then x.party == m.party else x.party.isNone)

/-- A fault answers the counter adds that wait for an address (R300, R322). -/
def State.addFault (s : State) (k : CoreId) (m : Miss) (f : XFault) : State :=
  let mine := fun (a : GAcc) => a.kind == .counterAdd && !a.performed && a.va == m.va && gtidVf a.gtid == m.vf
  ((s.core k).gaccs.filter mine).foldl (fun s a =>
    (s.modCore k fun c => { c with gaccs := c.gaccs.erase a }).counterFault k a { f with va := m.va }) s

/-- The answer reaches the core: a port entry or a stream's entry, or the fault for the party that waits (R316, R322). -/
def State.walkAnswer (s : State) (k : CoreId) (m : Miss) (r : Except XFault TEntry) : State :=
  let exact := (s.core k).misses.any fun x => x.asks m true
  let s := s.modCore k fun c => { c with misses := c.misses.eraseP fun x => x.asks m exact }
  match m.stream, r with
  | some n, .ok e =>
    if !exact then s else s.modCore k fun c => { c with streams := c.streams.set n (c.streams[n].map fun t => { t with ent := some e }) }
  | some n, .error f =>
    (match (if exact then (s.core k).streams[n] else none) with
     | none => s
     | some t => s.streamFault k n t (if f.cause = 0x08 then 0 else 1) m.va (XFault.word { f with va := m.va } m.acc) f.stage2)
  | none, .ok e => s.modCore k fun c => c.addPort { e with used := s.now }
  | none, .error f =>
    match m.party with
    | some sl =>
      if exact ∧ (s.slot k sl).st = .wait ∧ (s.slot k sl).wait = .walk then
        s.modSlot k sl fun x => { x with reply := some (.fault { f with va := m.va }) }
      else s
    | none => if m.acc = 5 then s.addFault k m f else s

/-- WALK_COMPLETE (R319 to R321): a walk answers everyone that waits for it; `bad` is the number of its read whose line fails
its check twice (R368), 0 for none. A stale walk is restarted (R323). -/
def execWalkComplete (f i bad : Nat) (s : State) : Host.Outcome State Fault Refusal :=
  event s
    (match (s.field f).walks[i]? with
     | none => none
     | some w =>
       if !w.started then none
       else if w.stale then
         some (s.modField f fun x => { x with walks := x.walks.set i { w with stale := false } })
       else
         let r := s.walkVia (s.part (s.partNum w.core)).ctx w.miss.vf w.miss.va.toNat (s.field f).cache bad
         let s := { s.modField f fun x => { x with walks := settleWalks (x.walks.eraseIdx i), cache := r.1 } with
                    free := s.free + 1 }
         some (w.waiters.foldl (fun s q => s.walkAnswer q.1 q.2 r.2) (s.walkAnswer w.core w.miss r.2)))

end Sys2Proof.Machine
end

