-- ==== Sys2Proof/Machine/Dispatch.lean ====
section
/-! DEFINITION. One arm for each constructor of `Instr`: its meaning, or its refusal by name. -/

namespace Sys2Proof.Machine

def exec (i : Instr) (s : State) : Host.Outcome State Fault Refusal :=
  match i with
  | .nop => Sys2Proof.Machine.execNop s
  | .nopTail tl bits => Sys2Proof.Machine.execNopTail tl bits s
  | .halt => Sys2Proof.Machine.execHalt s
  | .yield => Sys2Proof.Machine.execYield s
  | .bkpt code => Sys2Proof.Machine.execBkpt code s
  | .add x => Sys2Proof.Machine.execAdd x s
  | .sub x => Sys2Proof.Machine.execSub x s
  | .mul x => Sys2Proof.Machine.execMul x s
  | .mulh x => Sys2Proof.Machine.execMulh x s
  | .div x => Sys2Proof.Machine.execDiv x s
  | .rem x => Sys2Proof.Machine.execRem x s
  | .and x => Sys2Proof.Machine.execAnd x s
  | .or x => Sys2Proof.Machine.execOr x s
  | .xor x => Sys2Proof.Machine.execXor x s
  | .andn x => Sys2Proof.Machine.execAndn x s
  | .shl x => Sys2Proof.Machine.execShl x s
  | .shr x => Sys2Proof.Machine.execShr x s
  | .sar x => Sys2Proof.Machine.execSar x s
  | .rot x => Sys2Proof.Machine.execRot x s
  | .clz x => Sys2Proof.Machine.execClz x s
  | .ctz x => Sys2Proof.Machine.execCtz x s
  | .popc x => Sys2Proof.Machine.execPopc x s
  | .min x => Sys2Proof.Machine.execMin x s
  | .max x => Sys2Proof.Machine.execMax x s
  | .abs x => Sys2Proof.Machine.execAbs x s
  | .neg x => Sys2Proof.Machine.execNeg x s
  | .cmp x => Sys2Proof.Machine.execCmp x s
  | .sel x => Sys2Proof.Machine.execSel x s
  | .movi x => Sys2Proof.Machine.execMovi x s
  | .movhi x => Sys2Proof.Machine.execMovhi x s
  | .ext x => Sys2Proof.Machine.execExt x s
  | .bfx x => Sys2Proof.Machine.execBfx x s
  | .bfi x => Sys2Proof.Machine.execBfi x s
  | .lea x => Sys2Proof.Machine.execLea x s
  | .madr x => Sys2Proof.Machine.execMadr x s
  | .mov x => Sys2Proof.Machine.execMov x s
  | .pand x => Sys2Proof.Machine.execPand x s
  | .por x => Sys2Proof.Machine.execPor x s
  | .pxor x => Sys2Proof.Machine.execPxor x s
  | .pnot x => Sys2Proof.Machine.execPnot x s
  | .pmov x => Sys2Proof.Machine.execPmov x s
  | .pany x => Sys2Proof.Machine.execPany x s
  | .br off => Sys2Proof.Machine.execBr off s
  | .brp q off => Sys2Proof.Machine.execBrp q off s
  | .bcmp x => Sys2Proof.Machine.execBcmp x s
  | .call off => Sys2Proof.Machine.execCall off s
  | .calli x => Sys2Proof.Machine.execCalli x s
  | .ret => Sys2Proof.Machine.execRet s
  | .retReg x => Sys2Proof.Machine.execRetReg x s
  | .jmpi x => Sys2Proof.Machine.execJmpi x s
  | .loop ctr d off => Sys2Proof.Machine.execLoop ctr d off s
  | .waitev => Sys2Proof.Machine.execWaitev s
  | .waitevGuarded q => Sys2Proof.Machine.execWaitevGuarded q s
  | .eventWake k sl => Sys2Proof.Machine.execEventWake k sl s
  | .trap code => Sys2Proof.Machine.execTrap code s
  | .eret => Sys2Proof.Machine.execEret s
  | .aptest x => Sys2Proof.Machine.execAptest x s
  | .apcvt x => Sys2Proof.Machine.execApcvt x s
  | .time x => Sys2Proof.Machine.execTime x s
  | .meter x => Sys2Proof.Machine.execMeter x s
  | .deferredCauseTake k sl => Sys2Proof.Machine.execDeferredCauseTake k sl s
  | .vadd x => Sys2Proof.Machine.execVadd x s
  | .vsub x => Sys2Proof.Machine.execVsub x s
  | .vmul x => Sys2Proof.Machine.execVmul x s
  | .vfma x => Sys2Proof.Machine.execVfma x s
  | .vdiv x => Sys2Proof.Machine.execVdiv x s
  | .vsqrt x => Sys2Proof.Machine.execVsqrt x s
  | .vmin x => Sys2Proof.Machine.execVmin x s
  | .vmax x => Sys2Proof.Machine.execVmax x s
  | .vabs x => Sys2Proof.Machine.execVabs x s
  | .vneg x => Sys2Proof.Machine.execVneg x s
  | .vcmp x => Sys2Proof.Machine.execVcmp x s
  | .vsel x => Sys2Proof.Machine.execVsel x s
  | .vlog x => Sys2Proof.Machine.execVlog x s
  | .vsh x => Sys2Proof.Machine.execVsh x s
  | .vcvt x => Sys2Proof.Machine.execVcvt x s
  | .vfn x => Sys2Proof.Machine.execVfn x s
  | .vred x => Sys2Proof.Machine.execVred x s
  | .vscan x => Sys2Proof.Machine.execVscan x s
  | .vperm x => Sys2Proof.Machine.execVperm x s
  | .vbcast x => Sys2Proof.Machine.execVbcast x s
  | .vext x => Sys2Proof.Machine.execVext x s
  | .vins x => Sys2Proof.Machine.execVins x s
  | .vmov x => Sys2Proof.Machine.execVmov x s
  | .vclass x => Sys2Proof.Machine.execVclass x s
  | .flg d => Sys2Proof.Machine.execFlg d s
  | .flgMasked x => Sys2Proof.Machine.execFlgMasked x s
  | .badd x => Sys2Proof.Machine.execBadd x s
  | .bmul x => Sys2Proof.Machine.execBmul x s
  | .bfma x => Sys2Proof.Machine.execBfma x s
  | .bnorm x => Sys2Proof.Machine.execBnorm x s
  | .brenorm x => Sys2Proof.Machine.execBrenorm x s
  | .bquant x => Sys2Proof.Machine.execBquant x s
  | .bdeq x => Sys2Proof.Machine.execBdeq x s
  | .bscale x => Sys2Proof.Machine.execBscale x s
  | .bscalePow2 x => Sys2Proof.Machine.execBscalePow2 x s
  | .bdot x => Sys2Proof.Machine.execBdot x s
  | .vectorComplete k j => Sys2Proof.Machine.execVectorComplete k j s
  | .mcfg x => Sys2Proof.Machine.execMcfg x s
  | .mrun x => Sys2Proof.Machine.execMrun x s
  | .mfeed x => Sys2Proof.Machine.execMfeed x s
  | .mzero x => Sys2Proof.Machine.execMzero x s
  | .mload x => Sys2Proof.Machine.execMload x s
  | .mdrainVector x => Sys2Proof.Machine.execMdrainVector x s
  | .mdrainSram x => Sys2Proof.Machine.execMdrainSram x s
  | .mstat x => Sys2Proof.Machine.execMstat x s
  | .scancfg x => Sys2Proof.Machine.execScancfg x s
  | .scan x => Sys2Proof.Machine.execScan x s
  | .scanstSave x => Sys2Proof.Machine.execScanstSave x s
  | .scanstLoad x => Sys2Proof.Machine.execScanstLoad x s
  | .operandPairTake k => Sys2Proof.Machine.execOperandPairTake k s
  | .scaleTokenTake k e => Sys2Proof.Machine.execScaleTokenTake k e s
  | .mrunComplete k => Sys2Proof.Machine.execMrunComplete k s
  | .mfeedComplete k e => Sys2Proof.Machine.execMfeedComplete k e s
  | .scanChunk k => Sys2Proof.Machine.execScanChunk k s
  | .scanStep k => Sys2Proof.Machine.execScanStep k s
  | .scanComplete k => Sys2Proof.Machine.execScanComplete k s
  | .ld x => Sys2Proof.Machine.execLd x s
  | .st x => Sys2Proof.Machine.execSt x s
  | .lds x => Sys2Proof.Machine.execLds x s
  | .stf x => Sys2Proof.Machine.execStf x s
  | .fesetFull x => Sys2Proof.Machine.execFesetFull x s
  | .fesetEmpty x => Sys2Proof.Machine.execFesetEmpty x s
  | .fetest x => Sys2Proof.Machine.execFetest x s
  | .ldv x => Sys2Proof.Machine.execLdv x s
  | .stv x => Sys2Proof.Machine.execStv x s
  | .ldb x => Sys2Proof.Machine.execLdb x s
  | .stb x => Sys2Proof.Machine.execStb x s
  | .ldg x => Sys2Proof.Machine.execLdg x s
  | .stg x => Sys2Proof.Machine.execStg x s
  | .ldgv x => Sys2Proof.Machine.execLdgv x s
  | .stgv x => Sys2Proof.Machine.execStgv x s
  | .amo x => Sys2Proof.Machine.execAmo x s
  | .amog x => Sys2Proof.Machine.execAmog x s
  | .fence x => Sys2Proof.Machine.execFence x s
  | .mon x => Sys2Proof.Machine.execMon x s
  | .mwait x => Sys2Proof.Machine.execMwait x s
  | .mwaitTimeout k sl => Sys2Proof.Machine.execMwaitTimeout k sl s
  | .globalLoadReturn k j bad => Sys2Proof.Machine.execGlobalLoadReturn k j bad s
  | .globalAccessPerform k j bad => Sys2Proof.Machine.execGlobalAccessPerform k j bad s
  | .send x => Sys2Proof.Machine.execSend x s
  | .sendv x => Sys2Proof.Machine.execSendv x s
  | .sendb x => Sys2Proof.Machine.execSendb x s
  | .messageInject k j => Sys2Proof.Machine.execMessageInject k j s
  | .tagset x => Sys2Proof.Machine.execTagset x s
  | .tagget x => Sys2Proof.Machine.execTagget x s
  | .chk x => Sys2Proof.Machine.execChk x s
  | .semsig x => Sys2Proof.Machine.execSemsig x s
  | .semwait x => Sys2Proof.Machine.execSemwait x s
  | .semget x => Sys2Proof.Machine.execSemget x s
  | .semset x => Sys2Proof.Machine.execSemset x s
  | .shape x => Sys2Proof.Machine.execShape x s
  | .copy x => Sys2Proof.Machine.execCopy x s
  | .copyRing x => Sys2Proof.Machine.execCopyRing x s
  | .copyTileComplete k n bad => Sys2Proof.Machine.execCopyTileComplete k n bad s
  | .copyComplete k n => Sys2Proof.Machine.execCopyComplete k n s
  | .space x => Sys2Proof.Machine.execSpace x s
  | .freeSpaceNotice k j => Sys2Proof.Machine.execFreeSpaceNotice k j s
  | .cntwait x => Sys2Proof.Machine.execCntwait x s
  | .berthOut x => Sys2Proof.Machine.execBerthOut x s
  | .berthIn x => Sys2Proof.Machine.execBerthIn x s
  | .berthClose x => Sys2Proof.Machine.execBerthClose x s
  | .berthDataArrival k j => Sys2Proof.Machine.execBerthDataArrival k j s
  | .tide x => Sys2Proof.Machine.execTide x s
  | .tidewait x => Sys2Proof.Machine.execTidewait x s
  | .tideq x => Sys2Proof.Machine.execTideq x s
  | .chunkinit x => Sys2Proof.Machine.execChunkinit x s
  | .getchunk x => Sys2Proof.Machine.execGetchunk x s
  | .tideContributionArrival p j => Sys2Proof.Machine.execTideContributionArrival p j s
  | .tideWithdrawal p j => Sys2Proof.Machine.execTideWithdrawal p j s
  | .homeQueryRequest p j => Sys2Proof.Machine.execHomeQueryRequest p j s
  | .chunkRequest p j => Sys2Proof.Machine.execChunkRequest p j s
  | .tideAnswerArrival p j => Sys2Proof.Machine.execTideAnswerArrival p j s
  | .lace x => Sys2Proof.Machine.execLace x s
  | .unlace => Sys2Proof.Machine.execUnlace s
  | .unlaceStatus x => Sys2Proof.Machine.execUnlaceStatus x s
  | .relace x => Sys2Proof.Machine.execRelace x s
  | .laceq x => Sys2Proof.Machine.execLaceq x s
  | .laceForwardHead j => Sys2Proof.Machine.execLaceForwardHead j s
  | .laceTimeout k sl => Sys2Proof.Machine.execLaceTimeout k sl s
  | .spawn x => Sys2Proof.Machine.execSpawn x s
  | .migrate x => Sys2Proof.Machine.execMigrate x s
  | .taskid x => Sys2Proof.Machine.execTaskid x s
  | .messageArrival j err => Sys2Proof.Machine.execMessageArrival j err s
  | .deliver k j => Sys2Proof.Machine.execDeliver k j s
  | .deposit k j => Sys2Proof.Machine.execDeposit k j s
  | .addblock k j => Sys2Proof.Machine.execAddblock k j s
  | .inline k j => Sys2Proof.Machine.execInline k j s
  | .wake k j => Sys2Proof.Machine.execWake k j s
  | .tideAction k j => Sys2Proof.Machine.execTideAction k j s
  | .lockedContribution k j => Sys2Proof.Machine.execLockedContribution k j s
  | .renorm k j => Sys2Proof.Machine.execRenorm k j s
  | .newExponentNotice k j => Sys2Proof.Machine.execNewExponentNotice k j s
  | .sysmsg k j => Sys2Proof.Machine.execSysmsg k j s
  | .mfs x => Sys2Proof.Machine.execMfs x s
  | .mts x => Sys2Proof.Machine.execMts x s
  | .invalS1Page x => Sys2Proof.Machine.execInvalS1Page x s
  | .invalS1All x => Sys2Proof.Machine.execInvalS1All x s
  | .invalS2Page x => Sys2Proof.Machine.execInvalS2Page x s
  | .invalS2All x => Sys2Proof.Machine.execInvalS2All x s
  | .ctxsv x => Sys2Proof.Machine.execCtxsv x s
  | .ctxld x => Sys2Proof.Machine.execCtxld x s
  | .sramclr x => Sys2Proof.Machine.execSramclr x s
  | .frmld x => Sys2Proof.Machine.execFrmld x s
  | .frminv x => Sys2Proof.Machine.execFrminv x s
  | .grpset x => Sys2Proof.Machine.execGrpset x s
  | .rankset x => Sys2Proof.Machine.execRankset x s
  | .rankTableUpdateAck p j => Sys2Proof.Machine.execRankTableUpdateAck p j s
  | .streamRestart k n => Sys2Proof.Machine.execStreamRestart k n s
  | .streamEnd k n => Sys2Proof.Machine.execStreamEnd k n s
  | .migtRequestAct k n => Sys2Proof.Machine.execMigtRequestAct k n s
  | .watchdog k sl => Sys2Proof.Machine.execWatchdog k sl s
  | .launchPacket p => Sys2Proof.Machine.execLaunchPacket p s
  | .dependenceSatisfied p j => Sys2Proof.Machine.execDependenceSatisfied p j s
  | .launchPlace p => Sys2Proof.Machine.execLaunchPlace p s
  | .launchStart p j => Sys2Proof.Machine.execLaunchStart p j s
  | .launchComplete p j => Sys2Proof.Machine.execLaunchComplete p j s
  | .preemptPhase1 p => Sys2Proof.Machine.execPreemptPhase1 p s
  | .preemptPhase2 p => Sys2Proof.Machine.execPreemptPhase2 p s
  | .preemptPhase3 p => Sys2Proof.Machine.execPreemptPhase3 p s
  | .preemptResume p vf => Sys2Proof.Machine.execPreemptResume p vf s
  | .moveFlushMarker k => Sys2Proof.Machine.execMoveFlushMarker k s
  | .moveCopy k => Sys2Proof.Machine.execMoveCopy k s
  | .translationRequest k j => Sys2Proof.Machine.execTranslationRequest k j s
  | .walkComplete f j bad => Sys2Proof.Machine.execWalkComplete f j bad s
  | .invalDrop j => Sys2Proof.Machine.execInvalDrop j s
  | .balanceAddReturn j => Sys2Proof.Machine.execBalanceAddReturn j s
  | .railVoteUpdate r => Sys2Proof.Machine.execRailVoteUpdate r s
  | .tokenRefill r => Sys2Proof.Machine.execTokenRefill r s
  | .sramScrub k => Sys2Proof.Machine.execSramScrub k s
  | .sampleLogWrite j => Sys2Proof.Machine.execSampleLogWrite j s
  | .orderLogStop p reason pos seq => Sys2Proof.Machine.execOrderLogStop p reason pos seq s
  | .berthCredit j => Sys2Proof.Machine.execBerthCredit j s
  | .berthJoin j => Sys2Proof.Machine.execBerthJoin j s
  | .sysRemoteAccess j => Sys2Proof.Machine.execSysRemoteAccess j s
  | .lcWrite k sl ctr v => Sys2Proof.Machine.execLcWrite k sl ctr v s
  | .stackRegWrite k sl lim v => Sys2Proof.Machine.execStackRegWrite k sl lim v s
  | .tstWrite k sl lvl v => Sys2Proof.Machine.execTstWrite k sl lvl v s
  | .wdogWrite k v => Sys2Proof.Machine.execWdogWrite k v s
  | .partdefWrite f v => Sys2Proof.Machine.execPartdefWrite f v s
  | .rvoteWrite p v => Sys2Proof.Machine.execRvoteWrite p v s
  | .migtWrite k n v => Sys2Proof.Machine.execMigtWrite k n v s
  | .lcstateWrite v => Sys2Proof.Machine.execLcstateWrite v s
  | .reprowWrite f v => Sys2Proof.Machine.execReprowWrite f v s
  | .stopEntryWrite p r v => Sys2Proof.Machine.execStopEntryWrite p r v s
  | .ownerWrite k samp lvl v => Sys2Proof.Machine.execOwnerWrite k samp lvl v s
  | .ologctlWrite p v => Sys2Proof.Machine.execOlogctlWrite p v s
  | .eccstatRead k => Sys2Proof.Machine.execEccstatRead k s
  | .launchApertureWrite vf part off bytes => Sys2Proof.Machine.execLaunchApertureWrite vf part off bytes s
  | .meteringBoundary f energy => Sys2Proof.Machine.execMeteringBoundary f energy s
  | .quayGrantWindow q demand => Sys2Proof.Machine.execQuayGrantWindow q demand s
  | .memoryThrottleReport q b => Sys2Proof.Machine.execMemoryThrottleReport q b s
  | .devloadResponse q severe => Sys2Proof.Machine.execDevloadResponse q severe s
  | .devloadRestore q => Sys2Proof.Machine.execDevloadRestore q s
  | .sensorRead sn t => Sys2Proof.Machine.execSensorRead sn t s
  | .railRepower r => Sys2Proof.Machine.execRailRepower r s
  | .flitCheckFail k link replays => Sys2Proof.Machine.execFlitCheckFail k link replays s
  | .parityError k sl => Sys2Proof.Machine.execParityError k sl s
  | .powerOn fuseOk root dm raise untrained quays => Sys2Proof.Machine.execPowerOn fuseOk root dm raise untrained quays s
  | .railRegulationTimeout r => Sys2Proof.Machine.execRailRegulationTimeout r s
  | .skewMeasure f ofs err => Sys2Proof.Machine.execSkewMeasure f ofs err s
  | .hostWrite x data => Sys2Proof.Machine.execHostWrite x data s
  | .cxlSnoop h line => Sys2Proof.Machine.execCxlSnoop h line s
  | .netRequestFrame x => Sys2Proof.Machine.execNetRequestFrame x s
  | .netAckFrame q seq data => Sys2Proof.Machine.execNetAckFrame q seq data s
  | .netRetransmitTimeout q seq => Sys2Proof.Machine.execNetRetransmitTimeout q seq s
  | .attestationRequest nonce => Sys2Proof.Machine.execAttestationRequest nonce s
  | .quayLaneFailure q => Sys2Proof.Machine.execQuayLaneFailure q s
  | .ageingMonitorMeasure k link wire => Sys2Proof.Machine.execAgeingMonitorMeasure k link wire s
  | .configurationRequest x => Sys2Proof.Machine.execConfigurationRequest x s

end Sys2Proof.Machine
end

