-- ==== Sys2Proof/Machine/Fetch.lean ====
section
/-! DEFINITION. Fetching a head and taking an issue turn: the checks of R138 on lines and heads, stops (R381, R382),
deferred causes first (R298), the INLINE handler context (R74 to R76), lace followers (R81), and the oldest-ready slot
(R68). -/

namespace Sys2Proof.Machine

/-- A head as it stands in the line: its word, its tail and the head that follows it. -/
structure Fetched where
  head : BitVec 16
  tail : BitVec 128
  next : Word
  deriving DecidableEq, Repr

/-- CODE_FRAME and ILLEGAL_LINE (R138, R131, R132), else the head at a code pointer. -/
def fetchAt (c : Core) (pc : Word) : Except (BitVec 8 × Word) Fetched :=
  match c.mem.lineAt pc with
  | none => .error (0x0C, cpLine pc)
  | some l =>
    if cpBad pc || !lineLegal 512 l || lineHC l ≤ cpSlot pc then .error (0x01, pc)
    else .ok ⟨lineHead l (cpSlot pc), lineTail 512 l (cpSlot pc), nextHead l pc⟩

/-- Commands that CTXLD has loaded for a slot resume (R304). -/
def Core.unpark (c : Core) (sl : Fin 4) : Core :=
  (c.parked.filter fun e => e.1 == sl).foldl (fun c e =>
    { c with unit := { c.unit with
        runs := c.unit.runs ++ e.2.runs.map (fun r => { r with slot := sl }),
        feeds := Vector.ofFn fun i : Fin 2 => c.unit.feeds[i] ++ e.2.feeds[i].map fun f => { f with slot := sl },
        scans := c.unit.scans ++ e.2.scans.map fun r => { r with slot := sl } } })
    { c with parked := c.parked.filter fun e => e.1 != sl }

/-- Issue a head of a slot, in its issue turn (R385): ILLEGAL_OP and ILLEGAL_FORM (R138), else its meaning. -/
def issueHead (s : State) (k : CoreId) (sl : Fin 4) (f : Fetched) : Host.Outcome State Fault Refusal :=
  let s := (s.count k 1 (some sl)).modCore k fun c => c.unpark sl
  let s := { s with cur := ⟨k, sl, false, f.head, f.tail, f.next⟩ }
  match decode f.head f.tail with
  | .error .illegalOp => .next (s.takeTrap k sl 0x02 s.headWord)
  | .error .illegalForm => .next (s.takeTrap k sl 0x03 s.headWord)
  | .ok i => exec i s

/-- Whether an attached follower's leader still leads it (R82, R85). -/
def State.led (s : State) (k : CoreId) (sl : Fin 4) : Bool :=
  let l := (s.slot k sl).lace
  let m := (s.slot l.leadCore l.leadSlot).lace
  (m.code == .leader || m.code == .leaderWait) && m.xl == l.xl && m.w == l.w

/-- The leader stalls while an attached follower's buffer is full (R81). -/
def State.laceFull (s : State) (k : CoreId) (sl : Fin 4) : Bool :=
  let c := (s.slot k sl).lace.code
  (c == .leader || c == .leaderWait) &&
    (s.followers k sl).any fun f => decide (8 ≤ (s.slot f.1 f.2).buf.length + s.flying f.1 f.2)

/-- The head HALT, which a stop of KIND 3 matches (R381). -/
def isHalt (h : BitVec 16) : Bool := h.extractLsb' 9 7 == 1#7

/-- A detached member whose lace has dissolved is SOLO (R85). -/
def State.freeDetached (s : State) (k : CoreId) (sl : Fin 4) : State :=
  if (s.slot k sl).lace.code = .detached ∧ s.led k sl = false then s.modSlot k sl fun x => { x with lace := LaceSt.solo }
  else s

/-- The turn of one slot. -/
def slotTurn (s : State) (k : CoreId) (sl : Fin 4) : Host.Outcome State Fault Refusal :=
  let s := s.freeDetached k sl
  let x := s.slot k sl
  if s.moving k sl then .next (s.modSlot k sl fun x => { x with st := .wait, wait := .moved })
  else if !x.deferred.isEmpty && s.mayInterrupt k sl then exec (.deferredCauseTake k sl) s
  else if (s.core k).regs.migt[sl].getLsbD 63 && x.tideBoundary && s.mayInterrupt k sl &&
      (x.wait == .none || x.wait == .moved) then exec (.migtRequestAct k sl) s
  else if x.lace.code = .attached ∧ x.lace.result = none then
    match x.buf with
    | h :: _ =>
      let s := s.modSlot k sl fun x => { x with pc := h.pc }
      (match s.boundaryStop k sl (isHalt h.head) with
       | some e => .next (s.takeStop k sl e.1 e.2)
       | none => issueHead s k sl ⟨h.head, h.tail, h.next⟩)
    | [] =>
      if s.led k sl || 0 < s.flying k sl then
        .next (s.modSlot k sl fun x => { x with st := .wait, wait := .laceBuffer })
      else .next (s.modSlot k sl fun x => { x with lace := LaceSt.solo, st := .ready, wait := .none })
  else if s.laceFull k sl then .next (s.modSlot k sl fun x => { x with st := .wait, wait := .laceBuffer })
  else
    let f := fetchAt (s.core k) x.pc
    match s.boundaryStop k sl (match f with | .ok h => isHalt h.head | .error _ => false) with
    | some e => .next (s.takeStop k sl e.1 e.2)
    | none =>
      match f with
      | .error (c, a) => .next (s.takeTrap k sl c a)
      | .ok h => issueHead s k sl h

/-! ### The INLINE handler context -/

/-- A guard with G = 0 and N = 0 (R75). -/
def q0 (q : Guard) : Bool := q == Guard.always
/-- A source of a handler: m0 to m7 (R75). -/
def mSrc : GOp → Bool
  | .g n => n.val < 8
  | .c _ => false
/-- A destination of a handler: m0 to m7, or a channel of the slot. -/
def mDst : GOp → Bool
  | .g n => n.val < 8
  | .c _ => true
def mSrc2 : Src → Bool
  | .reg r => mSrc r
  | .imm _ => true

def hAlu2 (x : Alu2) : Bool := q0 x.q && mDst x.d && mSrc x.a && mSrc2 x.b
def hAlu1 (x : Alu1) : Bool := q0 x.q && mDst x.d && mSrc x.a
def hMem (x : LdF) (st : Bool) : Bool := q0 x.q && (if st then mSrc x.d else mDst x.d) && mSrc x.a && mSrc2 x.o

/-- What a handler accepts (R75): `none` for an OP it does not, else whether the form is accepted. R75 restricts the guard in
its ALU row only; the context has no predicates, and a guard is refused on the others too (DESIGN CHOICE, entry 85). -/
def handlerForm (i : Instr) : Option Bool :=
  match i with
  | .add x => some (hAlu2 x) | .sub x => some (hAlu2 x) | .mul x => some (hAlu2 x) | .mulh x => some (hAlu2 x)
  | .div x => some (hAlu2 x) | .rem x => some (hAlu2 x) | .and x => some (hAlu2 x) | .or x => some (hAlu2 x)
  | .xor x => some (hAlu2 x) | .andn x => some (hAlu2 x) | .shl x => some (hAlu2 x) | .shr x => some (hAlu2 x)
  | .sar x => some (hAlu2 x) | .rot x => some (hAlu2 x) | .min x => some (hAlu2 x) | .max x => some (hAlu2 x)
  | .clz x => some (hAlu1 x) | .ctz x => some (hAlu1 x) | .popc x => some (hAlu1 x)
  | .abs x => some (hAlu1 x) | .neg x => some (hAlu1 x) | .ext x => some (hAlu1 x)
  | .movi x => some (q0 x.q && mDst x.d)
  | .movhi x => some (q0 x.q && mDst x.d)
  | .bfx x => some (q0 x.q && mDst x.d && mSrc x.a)
  | .bfi x => some (q0 x.q && mDst x.d && mSrc x.a)
  | .lea x => some (q0 x.q && mDst x.d && mSrc x.a && mSrc x.b)
  | .madr x => some (q0 x.q && mDst x.d && mSrc x.a && mSrc x.b && mSrc x.c)
  | .mov x => some (q0 x.q && mDst x.d && mSrc x.a)
  | .ld x => some (hMem x false)
  | .st x => some (hMem x true)
  | .stf x => some (hMem x true)
  | .amo x => some (q0 x.q && mDst x.d && mSrc x.a && mSrc x.b && (x.op != .cas || mSrc x.c))
  | .semsig x => some (q0 x.q && (match x.i with | .imm _ => true | .reg r => mSrc r))
  | .send x => some (q0 x.q && x.cls != .sys && mSrc x.d && mSrc x.a && mSrc x.b && mSrc x.c)
  | _ => none

/-- The next head of the handler (R74 to R76). -/
def handlerTurn (s : State) (k : CoreId) (h : Handler) : Host.Outcome State Fault Refusal :=
  let head := lineHead h.line h.next
  let tail := lineTail (64 * h.cl) h.line h.next
  let s := { s.count k 1 (some h.slot) with cur := ⟨k, h.slot, true, head, tail, 0⟩ }
  if !lineLegal (64 * h.cl) h.line || lineHC h.line == 0 || 4 < lineHC h.line then .next (s.handlerFail k h 0x03 s.headWord)
  else match decode head tail with
    | .error .illegalOp => .next (s.handlerFail k h 0x02 s.headWord)
    | .error .illegalForm => .next (s.handlerFail k h 0x03 s.headWord)
    | .ok i =>
      match handlerForm i with
      | none => .next (s.handlerFail k h 0x02 s.headWord)
      | some false => .next (s.handlerFail k h 0x03 s.headWord)
      | some true => exec i s

/-! ### The issue turn of a core (R18, R68) -/

/-- What a slot waits for was dropped, with a miss, a place in a queue or a request (R306, R307, R323, R359), or the drop of
its INVAL may now be sent (R323): its head issues again. -/
def State.unasked (s : State) (k : CoreId) (sl : Fin 4) : Bool :=
  match (s.slot k sl).wait with
  | .walk => !((s.core k).misses.any fun m => m.party == some sl)
  | .semaphore => !((s.core k).mem.semQ.any fun e => e.1 == sl)
  | .counter => !(s.cntwaits.any fun w => w.core == k && w.slot == sl)
  | .reply => !(s.slot k sl).asked && (s.slot k sl).reply.isNone
  | .inval => !(s.slot k sl).asked && (s.slot k sl).reply.isNone && fenceDone (s.core k) sl .rel
  | _ => false

/-- Whether a slot's waiting head would go on, to its retirement, a trap or another wait (R67). -/
def State.clears (s : State) (k : CoreId) (sl : Fin 4) : Bool :=
  s.unasked k sl ||
  match slotTurn s k sl with
  | .next s' => (s'.slot k sl).st != .wait || (s'.slot k sl).wait != (s.slot k sl).wait
  | _ => true

/-- What a waiting head that the order log holds back has noted (R390). -/
def State.waitDue (s t : State) (k : CoreId) (n : Fin 4) : State :=
  if s.logMode k = 2 then match slotTurn s k n with | .next u => t.keepDue u k | _ => t else t

/-- Slots whose condition has cleared leave WAIT (R67). -/
def State.wakeSlots (s : State) (k : CoreId) : State :=
  (List.finRange 4).foldl (fun t n =>
    if (s.slot k n).st == .wait then
      if s.clears k n then t.modSlot k n fun x => { x with st := .ready, wait := .none, readyAt := s.now }
      else s.waitDue t k n
    else t) s

/-- The oldest-ready of some slots, ties to the lower number (R68). -/
def Core.oldestOf (c : Core) (l : List (Fin 4)) : Option (Fin 4) :=
  l.foldl (fun best n =>
    if (c.slot n).st == .ready then
      match best with
      | none => some n
      | some b => if (c.slot n).readyAt < (c.slot b).readyAt then some n else some b
    else best) none

/-- The oldest-ready slot. -/
def Core.oldest (c : Core) : Option (Fin 4) := c.oldestOf (List.finRange 4)

/-- What a head takes part in of its core's shared state (R19, R389): KIND 8 for a plain LD or else 2, and the
object. A command that waits on a semaphore is an access to that. -/
def Instr.access (i : Instr) (s : State) : Option (Nat × Nat) :=
  let r := s.me.r
  let on := fun (q : Guard) (kind o : Nat) => if s.cur.inline || guardHolds q r then some (kind, o) else none
  let sync := fun (q : Guard) (y : Sync) (o : Nat) => on q 2 (if y.thr = 0 then o else objSem y.wsem)
  match i with
  | .ld x => on x.q 8 (offOf (s.ea x.a x.o))
  | .st x => on x.q 2 (offOf (s.ea x.a x.o))
  | .lds x => on x.q 2 (offOf (s.ea x.a x.o))
  | .stf x => on x.q 2 (offOf (s.ea x.a x.o))
  | .amo x => on x.q 2 (offOf (s.eaOpt x.a x.off))
  | .ldv x => if anyLane x.q 32 s then some (8, offOf (s.ea x.a x.o)) else none
  | .stv x => if anyLane x.q 32 s then some (2, offOf (s.ea x.a x.o)) else none
  | .ldb x => if anyBlk x.q x.k s then some (8, offOf (s.rd x.a)) else none
  | .stb x => if anyBlk x.q x.k s then some (2, offOf (s.rd x.a)) else none
  | .fesetFull x => on x.q 2 (offOf (s.rd x.a))
  | .fesetEmpty x => on x.q 2 (offOf (s.rd x.a))
  | .fetest x => on x.q 2 (offOf (s.rd x.a))
  | .sendv x => on x.q 2 (offOf (s.rd x.a))
  | .spawn x => on x.q 2 (offOf (s.rd x.a))
  | .scanstSave x => on x.q 2 (offOf (s.rd x.a))
  | .scanstLoad x => on x.q 2 (offOf (s.rd x.a))
  | .sramclr x => on x.q 2 (offOf (s.rd x.a))
  | .mload x => on x.q 2 (offOf (s.rd x.a))
  | .mdrainSram x => on x.q 2 (offOf (s.rd x.c))
  | .mdrainVector x => on x.q 2 (objTile x.a)
  | .mzero x => on x.q 2 (objTile x.d)
  | .mstat x => on x.q 2 (objTile x.a)
  | .mcfg x => on x.q 2 (objTile x.d)
  | .mrun x => sync x.q x.sync (objTile x.d)
  | .mfeed x => sync x.q x.sync (objTile x.b)
  | .shape x => on x.q 2 (objShape x.d)
  | .copy x => sync x.q ((x.cmd.map (·.1)).getD Sync.none) (objShape x.a)
  | .copyRing x => sync x.q ((x.cmd.map (·.1)).getD Sync.none) (objShape x.a)
  | .scan x => sync x.q x.sync (objShape x.d)
  | .semsig x => on x.q 2 (objSem x.n)
  | .semwait x => on x.q 2 (objSem x.n)
  | .semget x => on x.q 2 (objSem x.n)
  | .semset x => on x.q 2 (objSem x.n)
  | .tagset x => on x.q 2 (objTag (tagNo s x.t).toNat)
  | .tagget x => on x.q 2 (objTag (tagNo s x.t).toNat)
  | _ => none

/-- Whether a turn of a slot has accessed its core's state: its head has retired, into a stop too, or has joined the queue of a
semaphore, or has asked for what it read. -/
def State.turned (s t : State) (k : CoreId) (sl : Fin 4) : Bool :=
  (t.slot k sl).readyAt == s.now + 1 || (t.core k).mem.semQ != (s.core k).mem.semQ ||
    ((t.slot k sl).asked && !(s.slot k sl).asked)

/-- Note an access to shared state in the order log, or hold it back where the log has another (R65, R278, R389): `s` is the
state before, `t` after the head of an issuer, numbered as a slot or 4 for the handler. What is held back leaves `s`. -/
def State.noteAccess (s t : State) (k : CoreId) (sl : Fin 4) (issuer : Nat) (done : Bool) : Except State State :=
  if s.logMode k = 0 || !done || t.cur.core != k || t.cur.slot != sl then .ok t
  else
    let u := { s with cur := t.cur }
    match decode t.cur.head t.cur.tail with
    | .error _ => .ok t
    | .ok i => match Instr.access i u with
      | none => .ok t
      | some (kind, o) =>
        match t.orderAt k kind o issuer with
        | .ok t => .ok t
        | .error e => .error (s.keepDue e k)

/-- A handler that ends with SIGEN signals its semaphore (R71): an access to it beside its last head's. -/
def State.noteEnd (s t : State) (k : CoreId) (h : Handler) : Except State State :=
  if s.logMode k = 0 || !h.sigen || (t.core k).handler.isSome then .ok t
  else match t.orderEngine k (objSem h.sem) 4 with
    | .ok t => .ok t
    | .error e => .error (s.keepDue e k)

/-- A turn of the handler has run its head: it has not been abandoned (R76). -/
def State.handled (s t : State) (k : CoreId) (h : Handler) : Bool :=
  ((t.slot k h.slot).deferred.filter (·.origin)) == (s.slot k h.slot).deferred.filter (·.origin)

/-- The turn of the oldest of some READY slots that the order log does not hold back. Where nothing issues a step passes for
what waits and for what stalls (R353, R385). -/
def State.turnAmong (s : State) (k : CoreId) (l : List (Fin 4)) : Nat → Host.Outcome State Fault Refusal
  | 0 => .next s
  | fuel + 1 =>
    match (s.core k).oldestOf l with
    | none => .next s
    | some n =>
      match slotTurn s k n with
      | .next t =>
        (match s.noteAccess t k n n.val (s.turned t k n) with
         | .ok t => .next t
         | .error e => e.turnAmong k (l.filter (· != n)) fuel)
      | r => r

def State.slotsTurn (s : State) (k : CoreId) : Host.Outcome State Fault Refusal :=
  (s.modCore k fun c => { c with handlerDone := false }).turnAmong k (List.finRange 4) 4

/-- Slots in WAIT count a step each (R385). -/
def State.countWaits (s : State) (k : CoreId) : State :=
  (List.finRange 4).foldl (fun t n => if (s.slot k n).st == .wait then t.count k 3 (some n) else t) s

/-- A unit of the core that stalls for tokens counts the step (R353), once; in task mode for the task whose command stalls
(R385). -/
def State.countStall (s : State) (k : CoreId) : State :=
  if s.stalled k then
    (s.modUnits k fun u => { u with starved := true, wanted := true, stalls := u.stalls + 1 }).count k 7
      ((s.stallSlots k).find? fun n => n == Fin.ofNat 4 ((s.core k).regs.bank.ctl.extractLsb' 9 2).toNat)
  else s.noteStarved k

/-- A slot whose INVAL goes on in phase 2 of a pre-emption (R324). -/
def State.invalDue (s : State) (k : CoreId) : Option (Fin 4) :=
  if s.phaseOf k != .drain2 then none
  else (List.finRange 4).find? fun n => (s.slot k n).st == .wait && (s.slot k n).wait == .inval && s.clears k n

/-- An issue turn (R68): the head of the handler, which an INLINE message at the head of its queue starts ahead of any
slot; or, where there is none or it waits, the oldest-ready slot's. -/
def issueTurn (s : State) (k : CoreId) : Host.Outcome State Fault Refusal :=
  if !s.coreRuns k then
    match s.invalDue k with
    | some n => slotTurn s k n
    | none => .next s
  else
    let s := (((s.countWaits k).countStall k).wakeSlots k).inlineDue k
    match (s.core k).handler with
    | none => s.slotsTurn k
    | some h =>
      match handlerTurn s k h with
      | .next s' =>
        if (s'.core k).handler.map (·.next) = some h.next then s.slotsTurn k
        else match s.noteAccess s' k h.slot 4 (s.handled s' k h) with
          | .error e => e.slotsTurn k
          | .ok t => match s.noteEnd t k h with
            | .ok t => .next t
            | .error e => e.slotsTurn k
      | r => r

end Sys2Proof.Machine
end

