-- ==== Sys2Proof/Machine/Schedule.lean ====
section
/-! DEFINITION. Which event is next: the agenda, else what can happen of itself. -/

namespace Sys2Proof.Machine

/-- Encoded instructions are issued by slots only. -/
def Instr.isEvent (i : Instr) : Bool := !i.encoded && (match i with | .nop => false | .nopTail _ _ => false | _ => true)

/-- The core into whose SRAM an event deposits (R100): a COPY's tile goes to the task's core, also after a move (R359), and a
locked reduction writes at its completion (R257). -/
def Instr.deposits (i : Instr) (s : State) : Option CoreId :=
  match i with
  | .deposit k _ => some k
  | .addblock k _ => some k
  | .lockedContribution k _ => some k
  | .renorm k _ => some k
  | .newExponentNotice k _ => some k
  | .copyTileComplete k n _ => match (s.core k).streams[n] with | some t => some (t.home k).1 | none => some k
  | _ => none

/-- Plain loads from SRAM. -/
def Instr.plainLoad (i : Instr) : Bool :=
  match i with
  | .ld _ => true
  | .ldv _ => true
  | .ldb _ => true
  | _ => false

/-- Each byte that differs is the old or the new one, as a free word has it. -/
def mixBytes (f : Nat) (old new : Memory) (os : List Nat) : Memory :=
  os.foldl (fun m o => m.put o (if (Config.word (f + o / 64)).getLsbD (o % 64) then new.get o else old.get o)) old

/-- An issue turn of a core while the deposit `e` is writing (R102): the plain LD that issues in it finds, byte by byte, what
was there or what the deposit writes; one that changes nothing makes no race. With the order log on, an LD is wholly before
or wholly after a deposit (R278). -/
def raceTurn (s : State) (k : CoreId) (e : Instr) : Host.Outcome State Fault Refusal :=
  if Instr.deposits e s ≠ some k ∨ s.logMode k ≠ 0 then .next s
  else match exec e s with
    | .next d =>
      let old := (s.core k).mem.sram
      let new := (d.core k).mem.sram
      if new = old then .next s
      else
        let mix := mixBytes s.free old new ((new ++ old).map (·.1))
        match issueTurn ({ s with free := s.free + 1024 }.modMem k fun m => { m with sram := mix }) k with
        | .next t =>
          (match decode t.cur.head t.cur.tail with
           | .ok i => if Instr.plainLoad i ∧ t.cur.core = k ∧ (t.core k).mem.sram = mix then
               .next (t.modMem k fun m => { m with sram := old }) else .next s
           | .error _ => .next s)
        | r => r
    | r => r

/-- Make one choice happen. -/
def runChoice (s : State) : Choice → Host.Outcome State Fault Refusal
  | .issue k => issueTurn s k
  | .event i => if Instr.isEvent i then exec i s else .fault .agendaNotAnEvent
  | .race k e => raceTurn s k e
  | .refill k n => event s (match n with | some n => s.streamRefill k n | none => s.addRefill k)
  | .feed k e => event s (s.feedTurn k (match e with | .west => 0 | .north => 1))

/-- Whether a choice makes something happen. -/
def State.acts (s : State) (c : Choice) : Bool :=
  match runChoice s c with
  | .next t => t != s
  | _ => false

/-- Events of one slot. -/
def slotEvents (k : CoreId) (n : Fin 4) : List Instr :=
  [.eventWake k n, .deferredCauseTake k n, .mwaitTimeout k n, .laceTimeout k n, .watchdog k n, .migtRequestAct k n]

/-- An event for each of `n` places. -/
def each (n : Nat) (f : Nat → Instr) : List Instr := (List.range n).map f

/-- Events of the class queues of a core. -/
def queueEvents (k : CoreId) (i : Nat) : List Instr :=
  [.berthDataArrival k i, .deliver k i, .deposit k i, .addblock k i, .inline k i, .wake k i, .tideAction k i,
   .lockedContribution k i, .renorm k i, .newExponentNotice k i, .sysmsg k i]

/-- Events of one core's units, queues and engines. -/
def coreEvents (k : CoreId) (c : Core) : List Instr :=
  List.flatten
    [(List.finRange 4).flatMap (slotEvents k),
     each c.vops.length (.vectorComplete k),
     each c.gaccs.length fun i => .globalLoadReturn k i false,
     each c.gaccs.length fun i => .globalAccessPerform k i false,
     each c.inj.length (.messageInject k),
     each c.misses.length (.translationRequest k),
     each c.notices.length (.freeSpaceNotice k),
     (List.finRange 8).map fun n => .copyTileComplete k n false,
     (List.finRange 8).map fun n => .copyComplete k n,
     (List.range 4).flatMap (queueEvents k),
     [.operandPairTake k, .scaleTokenTake k .west, .scaleTokenTake k .north, .mrunComplete k, .mfeedComplete k .west,
      .mfeedComplete k .north, .scanChunk k, .scanStep k, .scanComplete k, .moveFlushMarker k, .moveCopy k, .sramScrub k]]

/-- The stop that a choice presented at a place calls for (R390). -/
def dueStop (p : Nat) (x : Partition) (e : Nat × Nat) : Instr :=
  .orderLogStop p (if e.2 = 3 then 3 else 2) (BitVec.ofNat 21 e.1) (BitVec.ofNat 32 (x.ctx.nextSeq e.1))

/-- Events of one partition: its homes, tables, dispatcher and pre-emption. -/
def partEvents (s : State) (p : Nat) (x : Partition) : List Instr :=
  List.flatten
    [each x.ctx.hub.length (.tideContributionArrival p),
     each x.ctx.hub.length (.tideWithdrawal p),
     each x.ctx.hub.length (.homeQueryRequest p),
     each x.ctx.hub.length (.chunkRequest p),
     each x.ctx.hub.length (.tideAnswerArrival p),
     each x.upds.length (.rankTableUpdateAck p),
     each x.launches.length (.dependenceSatisfied p),
     each x.launches.length (.launchStart p),
     each x.launches.length (.launchComplete p),
     [.launchPacket p, .launchPlace p, .preemptPhase2 p, .preemptPhase3 p],
     if x.phase = .stop1 then [.preemptPhase1 p] else [],
     match x.next with | some e => [.preemptResume p (qtVf e.2)] | none => [],
     (s.coresOf p).map fun k => .orderLogStop p 1 (packPos k) (BitVec.ofNat 32 (x.ctx.nextSeq (placeCore k))),
     (x.ctx.due.filter fun e => e.2 != 4).map (dueStop p x)]

/-- Events of one field: its walks, and its rails at 1 µs boundaries. -/
def fieldEvents (f : Nat) (x : Field) : List Instr :=
  List.flatten
    [each x.walks.length fun i => .walkComplete f i 0,
     each 4 fun b => .railVoteUpdate (4 * f + b),
     each 4 fun b => .tokenRefill (4 * f + b)]

/-- Events of what travels through the module. -/
def moduleEvents (s : State) : List Instr :=
  List.flatten
    [each s.mesh.length fun i => .messageArrival i 0,
     each s.mesh.length .berthCredit,
     each s.mesh.length .berthJoin,
     each s.laces.length .laceForwardHead,
     each s.sys.length .sysRemoteAccess,
     each s.drops.length .invalDrop,
     each s.adds.length .balanceAddReturn,
     each s.samples.length .sampleLogWrite]

/-- What may happen of itself, before it is asked whether it can. What the outside decides (energies, readings, reports, host
and network traffic, checks that fail) comes from the agenda only. -/
def State.plausible (s : State) : List Choice :=
  (s.cores.map fun e => .issue e.1) ++
  (s.cores.flatMap fun e => (coreEvents e.1 e.2).filterMap fun i => (Instr.deposits i s).map fun k => .race k i) ++
  (s.cores.flatMap fun e => .refill e.1 none :: (List.finRange 8).map fun n => .refill e.1 (some n)) ++
  (s.cores.flatMap fun e => [.feed e.1 .west, .feed e.1 .north]) ++
  (((s.cores.flatMap fun e => coreEvents e.1 e.2) ++ (s.parts.flatMap fun e => partEvents s e.1 e.2) ++
    (s.fields.flatMap fun e => fieldEvents e.1 e.2) ++ moduleEvents s).map .event)

/-- Stops of partitions whose logged choice may yet come: only where nothing else can happen (R390; DESIGN CHOICE, entry
92). -/
def State.lastStops (s : State) : List Choice :=
  s.parts.flatMap fun e => (e.2.ctx.due.filter fun d => d.2 == 4).map fun d => .event (dueStop e.1 e.2 d)

/-- What can happen of itself. -/
def State.candidates (s : State) : List Choice :=
  let l := s.plausible.filter s.acts
  if l.isEmpty then s.lastStops.filter s.acts else l

/-- One step. It takes two ticks of the model's clock, by which READY slots have their ages (R68): what becomes READY in
a step is older than the slot that issues in it. -/
def nextStep (s : State) : Host.Outcome State Fault Refusal :=
  let s := { s with now := s.now + 2 }
  match s.agenda with
  | c :: rest => runChoice { s with agenda := rest } c
  | [] =>
    match s.candidates with
    | [] => .next s
    | [c] => runChoice s c
    | c :: cs => runChoice { s with free := s.free + 1 } ((c :: cs).getD (Config.choose s.free % (cs.length + 1)) c)

/-- The frame that a placed line goes into: the one resident there, else frame 0, tagged for it. -/
def CoreMem.placeLine (m : CoreMem) (pc : Word) (l : Line) : CoreMem :=
  let i := (m.frameOf pc).getD 0
  { m with frames := m.frames.set i { tag := some (pc.extractLsb' 11 49),
                                      lines := m.frames[i].lines.set (pc.extractLsb' 6 5).toFin l, user := m.frames[i].user } }

def placeWord (s : State) (nbits w : Nat) : State :=
  let k := s.cur.core
  let sl := s.cur.slot
  let pc := cpLine (s.slot k sl).pc
  let l := lineOf (BitVec.ofNat 16 w) (if nbits ≤ 16 then 0 else BitVec.ofNat 128 (w >>> 16))
  let s := s.modCore k fun c => { c with mem := c.mem.placeLine pc l, handler := none, handlerDone := true }
  let s := s.modSlot k sl fun x => { x with st := .ready, wait := .none, pc := pc, readyAt := 0, deferred := [] }
  { s with agenda := .issue k :: s.agenda }

end Sys2Proof.Machine
end

