-- ==== Sys2Proof/Machine/Step.lean ====
section
/-! DEFINITION. One step of the machine, and the placing of an instruction where the next step fetches it. -/

namespace Sys2Proof.Machine

/-- ONE STEP: the first choice of the agenda; with an empty agenda, the only thing that can happen, or a free choice of
what can (R18, R65, R126, R278); where nothing can, time passes. -/
def step (s : State) : Host.Outcome State Fault Refusal := nextStep s

/-- `s` with the instruction whose bits are `w` in the line that the issuing slot of `s.cur` fetches next, that slot READY
and the oldest, and an issue turn of its core next on the agenda. -/
def State.withFetchWord (s : State) (nbits w : Nat) : State := placeWord s nbits w

end Sys2Proof.Machine
end

