-- ==== Sys2Proof/Safety.lean ====
section
/-! DEFINITION. What counts as a safe run, and the terms that statements about instructions are made in: when the head of the
issuing slot issues, and what "completes with an effect" means for it. -/

namespace Sys2Proof.Machine

/-! ### Canonical memory -/

/-- A core's SRAM is in its canonical form. -/
def Core.MemOk (c : Core) : Prop := c.mem.sram.wf = true

/-- Module memory is in its canonical form. -/
def State.GmemOk (s : State) : Prop := s.gmem.wf = true

/-- Every memory that the state holds is in its canonical form: module memory, every core's SRAM, and the SRAM of every context
that a pre-emption has saved. -/
def State.MemInv (s : State) : Prop :=
  s.GmemOk ∧ (∀ e ∈ s.cores, e.2.MemOk) ∧ ∀ p ∈ s.parts, ∀ y ∈ p.2.saved, ∀ e ∈ y.2.2, e.2.MemOk

/-! ### The head of the issuing slot issues -/

/-- Registers that the issuing slot still waits for (R192, R249). -/
abbrev State.pends (s : State) (r : Reg) : Prop := r ∈ (s.core s.cur.core).pendingRegs s.cur.slot

/-- An encoded head of form `f` issues in the issuing slot: it is a slot's own head (not a handler's), its level may issue it
(R138), its guard holds (R135), no register that it names is pending or holds bad data (R192, R249), and every channel that
it reads is present (R29). -/
abbrev State.issues (s : State) (f : Form) : Prop :=
  s.cur.inline = false ∧ f.lvl ≤ lvlOf s.me ∧ guardHolds f.q s.me.r = true ∧
  ¬ s.pends (.p f.q.p) ∧ (∀ r ∈ f.regs, ¬ s.pends r) ∧
  (s.core s.cur.core).badLoad s.cur.slot f.regs = none ∧
  ∀ n : Fin 8, GOp.c n ∈ f.srcs → s.me.r.pres.getLsbD n.val = true

/-- What stands before the body of an instruction of form `f` in a slot (R138, R135, R192, R249, R29), in this order: PRIVILEGE,
a wait for the guard's predicate, a guard that does not hold, a load whose data came back bad, a wait for a pending register, a
wait for an absent channel source. None of them has any of the instruction's effect. -/
def Gated (i : Instr) (f : Form) : Prop :=
  ∀ s : State, s.cur.inline = false →
    let low := (lvlOf s.me).toNat < f.lvl.toNat
    let guarded := ¬ low ∧ ¬ s.pends (.p f.q.p)
    let on := guarded ∧ guardHolds f.q s.me.r = true
    let bad := (s.core s.cur.core).badLoad s.cur.slot f.regs
    (low → exec i s = .next (s.takeTrap s.cur.core s.cur.slot 0x04 (s.cur.head.setWidth 64))) ∧
    (¬ low ∧ s.pends (.p f.q.p) → exec i s = .next (s.waitFor .pendingReg)) ∧
    (guarded ∧ guardHolds f.q s.me.r = false → exec i s = .next (s.retire 0)) ∧
    (∀ b, on ∧ bad = some b → exec i s =
      .next ((s.takeTrap s.cur.core s.cur.slot b.1 b.2).modCore s.cur.core fun c => c.dropBad s.cur.slot f.regs)) ∧
    (on ∧ bad = none ∧ (∃ r ∈ f.regs, s.pends r) → exec i s = .next (s.waitFor .pendingReg)) ∧
    (on ∧ bad = none ∧ (∀ r ∈ f.regs, ¬ s.pends r) ∧ (∃ n : Fin 8, GOp.c n ∈ f.srcs ∧ s.me.r.pres.getLsbD n.val = false) →
      exec i s = .next (s.waitFor .channel))

/-- The same of a vector head, whose predicate is a lane mask and no guard (R190). -/
abbrev State.issuesMasked (s : State) (f : Form) : Prop :=
  s.issues { f with q := Guard.always } ∧ ¬ s.pends (.p f.q.p)

/-- The state in which a head's operands are read: the channels that it reads are consumed (R157). -/
def State.took (s : State) (f : Form) : State := s.modMe fun x => { x with r := x.r.consume f.srcs }

/-- `i` completes with an effect: wherever its head issues and `ok` holds of the operands, `exec` answers the next state in
which `eff` has been done and the head has retired in class `f.cls` (R78, R344). -/
def Does (i : Instr) (f : Form) (ok : State → Prop) (eff : State → State) : Prop :=
  ∀ s : State, s.issues f → ok (s.took f) → exec i s = .next ((eff (s.took f)).retire f.cls)

/-- `i` completes by writing a general or channel register. Wherever its head issues and `ok` holds of the operands: unless
STACK_LIMIT refuses the value (R103), `exec` answers the next state in which `d` has received `v` (R29, R157), `post` has been
done and the head has retired; where it refuses, STACK_LIMIT is taken with the value in TADDR, and nothing of the
instruction has happened. -/
def Puts (i : Instr) (f : Form) (d : GOp) (v : State → Word) (ok : State → Prop := fun _ => True)
    (post : State → State := id) : Prop :=
  ∀ s : State, s.issues f → ok (s.took f) →
    ((s.took f).slimRefuses d (v (s.took f)) = false →
      exec i s = .next ((post ((s.took f).wr d (v (s.took f)))).retire f.cls)) ∧
    ((s.took f).slimRefuses d (v (s.took f)) = true →
      exec i s = .next (s.takeTrap s.cur.core s.cur.slot 0x0B (v (s.took f))))

/-- `i` completes as a taken transfer to `t` (R170 to R172): the loop counters stay, and the head is charged in class 4. -/
def Jumps (i : Instr) (f : Form) (ok : State → Prop) (eff : State → State) (t : State → Word) : Prop :=
  ∀ s : State, s.issues f → ok (s.took f) → exec i s = .next ((eff (s.took f)).retire 4 (some (t (s.took f))))

/-- `i` raises a synchronous cause (R297): wherever its head issues and `bad` holds of the operands, `exec` answers the state
in which the exception has been taken, and nothing of the instruction has happened: its channel sources are still present
(R29, R187). -/
def Traps (i : Instr) (f : Form) (bad : State → Prop) (cause : BitVec 8) (taddr : State → Word) : Prop :=
  ∀ s : State, s.issues f → bad (s.took f) →
    exec i s = .next (s.takeTrap s.cur.core s.cur.slot cause (taddr (s.took f)))

/-- `i` waits (R67): wherever its head issues and `no` holds of the operands, the slot is in WAIT for `w` and nothing of the
instruction has happened. -/
def Waits (i : Instr) (f : Form) (no : State → Prop) (w : Wait) : Prop :=
  ∀ s : State, s.issues f → no (s.took f) → exec i s = .next (s.waitFor w)

/-- `i` completes by queueing an operation in the vector unit (R192): wherever its head issues under a mask that `on` accepts,
`exec` answers the next state in which an operation whose writes and flags satisfy `ok` is the core's youngest, `pre` has
been done, and the head has retired. Where `on` does not hold, the head retires with no effect (R190). -/
def Queues (i : Instr) (f : Form) (on : State → Prop) (pre : State → State)
    (ok : State → List RegWrite → BitVec 8 → Prop) : Prop :=
  (∀ s : State, s.issuesMasked f → on s → ∃ ws fl,
    exec i s = .next (((pre (s.took f)).vop ws fl).retire f.cls) ∧ ok (s.took f) ws fl) ∧
  (∀ s : State, ¬ s.pends (.p f.q.p) → ¬ on s → exec i s = .next (s.retire 0))

/-- Lane i of `v` is the low w bits of `val i` where lane i is active, and `old`'s elsewhere; the flags are those of the active
lanes together (R190). -/
def LanesOk (m : BitVec 16) (w : Nat) (old v : VWord) (val : Nat → Nat × BitVec 8) (fl : BitVec 8) : Prop :=
  (∀ i < 512 / w, lane w v i = if laneOn m w i then (val i).1 % 2 ^ w else lane w old i) ∧
  ∀ b < 8, fl.getLsbD b = decide (∃ i < 512 / w, laneOn m w i = true ∧ (val i).2.getLsbD b = true)

/-- Some lane of width w is active: with lanes of 64 bits a mask bit that stands for none counts for nothing (R190). -/
abbrev SomeLane (m : BitVec 16) (w : Nat) : Prop := ∃ i < 512 / w, laneOn m w i = true

/-- A lanewise operation: where some lane is active it queues one write of `d` with a zero header lane (R189), `val`'s lanes
in the active lanes and the previous contents in the others. -/
def LanesPut (i : Instr) (f : Form) (w : Nat) (d : Fin 16) (val : State → Nat → Nat × BitVec 8)
    (pre : State → State := id) : Prop :=
  Queues i f (fun s => SomeLane (s.me.r.mask f.q) w) pre fun u ws fl =>
    ∃ v, ws = [.v d v 0] ∧ LanesOk (u.me.r.mask f.q) w (u.rdV d) v (val u) fl

/-- A blockwise operation (R190, R210): in each active block the element codes and the header of `val`'s block, the previous
block elsewhere; the flags of the active blocks together. -/
def BlocksPut (i : Instr) (f : Form) (k : BlkTy) (d : Fin 16) (val : State → Nat → Blk × BitVec 8) : Prop :=
  Queues i f (fun s => ∃ b < pbCount k, blkOn k (s.me.r.mask f.q) b = true) id fun u ws fl =>
    ∃ v h, ws = [.v d v h] ∧
      (∀ b < pbCount k,
        let on := blkOn k (u.me.r.mask f.q) b = true
        let y := (val u b).1
        lane (16 * pbBits k) v b =
          (if on then packNat (pbBits k) (y.codes k) % 2 ^ (16 * pbBits k) else lane (16 * pbBits k) (u.rdV d) b) ∧
        h.toNat / 2 ^ (16 * b) % 2 ^ 16 = if on then y.hdr % 2 ^ 16 else (u.rdH d).toNat / 2 ^ (16 * b) % 2 ^ 16) ∧
      h.toNat < 2 ^ (16 * pbCount k) ∧
      ∀ b < 8, fl.getLsbD b =
        decide (∃ j < pbCount k, blkOn k (u.me.r.mask f.q) j = true ∧ (val u j).2.getLsbD b = true)

/-! ### Memory accesses -/

/-- A local access of n bytes that the windows and the alignment let through (R96, R242). -/
def LocalOk (a : Word) (n : Nat) : Prop := isLocal a = true ∧ a.toNat % n = 0

/-- A local access traps on its window, then on its alignment, with the address in TADDR (R96, R97, R242). -/
def LocalTraps (i : Instr) (f : Form) (a : State → Word) (n : Nat) : Prop :=
  Traps i f (fun u => isLocal (a u) = false) 0x0A a ∧
  Traps i f (fun u => isLocal (a u) = true ∧ (a u).toNat % n ≠ 0) 0x07 a

/-- The error codes of the words that a read touches are looked at, and single-bit errors corrected (R372). -/
def State.corrects (u : State) (a : Word) (n : Nat) : State := u.modCore u.cur.core fun c => c.correct (offOf a) n (some u.cur.slot)

/-- No word of a local read is uncorrectable (R372). -/
def State.sound (u : State) (a : Word) (n : Nat) : Prop := (u.core u.cur.core).badWord (offOf a) n = none

/-- The low n bytes of the issuing core's SRAM at a local address. -/
def State.sramAt (u : State) (a : Word) (n : Nat) : Nat := (u.core u.cur.core).mem.sram.readLE (offOf a) n

/-- A global access of the issuing slot finds its translation (R249, R310, R314 to R316): at levels H and M the address is the
DPA; at U and S a port entry of the core covers it, permits the access and becomes the last used; and the DPA is decoded
(R393, R399). `t` is the state after, `d` the DPA. -/
def State.Xlates (u : State) (va : Word) (acc : BitVec 8) (whole : Bool) (t : State) (d : Nat) : Prop :=
  (∀ f, u.me.reply ≠ some (.fault f)) ∧ u.reachable (gtidVf u.me.gtid) acc whole d = true ∧
  (2 ≤ (lvlOf u.me).toNat ∧ d = va.toNat ∧ t = u ∨
   (lvlOf u.me).toNat < 2 ∧ ∃ e, (u.core u.cur.core).portFor (gtidVf u.me.gtid) va.toNat = some e ∧
     e.check va.toNat acc (lvlOf u.me == 0) = none ∧ d = e.apply va.toNat ∧
     t = u.modCore u.cur.core fun c => c.touch e u.now)

/-- What a head that goes on to wait has used (R316): the port entry of its access is the last used. -/
def State.Used (s v : State) : Prop :=
  v = s ∨ ∃ e ∈ (s.core s.cur.core).ports, v = s.modCore s.cur.core fun c => c.touch e s.now

/-! ### Asynchronous commands (R136, R224) -/

/-- The counter word of a command names no counter, or a global address that is a multiple of 8 (R117, R224). -/
def State.counterOk (u : State) (c : Option Ctr) : Prop :=
  ∀ x, c = some x → (u.rd (.g (Fin.ofNat 32 x.creg.toNat))).toNat < 2 ^ 60 ∧ (u.rd (.g (Fin.ofNat 32 x.creg.toNat))).toNat % 8 = 0

/-- The signal and the counter add that a command makes when it completes (R116, R136). -/
def State.doneOf (u : State) (y : Sync) (c : Option Ctr) : Done :=
  ⟨y.inc, y.ssem, c.map fun x => (u.rd (.g (Fin.ofNat 32 x.creg.toNat)), x.cinc)⟩

/-- A wait of the issuing slot for `t` of semaphore `n` is over (R261): its grant has come, or nobody waits before it and what
no grant has been given of the count suffices. -/
def State.semFree (u : State) (n : BitVec 8) (t : BitVec 16) : Prop :=
  (∃ g, u.me.grant = some (n, g)) ∨
  (∀ e ∈ (u.core u.cur.core).mem.semQ, e.2.1 ≠ n) ∧ t.toNat ≤ (u.core u.cur.core).freeSem n

/-- The count of semaphore `n` falls by `t`, not below 0 (R261, R23). -/
def State.taken (u : State) (n : BitVec 8) (t : BitVec 16) : State :=
  u.modMem u.cur.core fun m =>
    { m with sem := m.sem.set n.toFin (BitVec.ofNat 16 (m.sem[n.toFin].toNat - t.toNat)) }

/-- A command's wait on its semaphore is over: there is none, or its threshold is taken in the access in which it issues (R136,
R261). `t` is the state after. -/
def State.Syncs (u : State) (y : Sync) (t : State) : Prop :=
  y.thr = 0 ∧ t = u ∨
  y.thr ≠ 0 ∧ u.semFree y.wsem (y.thr.setWidth 16) ∧ t = u.taken y.wsem (y.thr.setWidth 16)

/-- What holds a command back that is otherwise in order (R136, R67, R261): with no wait on a semaphore, or granted, it waits
for its place (`room`) in wait `w`; else, with no place or before its grant, it joins the queue of its semaphore. -/
def State.SyncGated (s u : State) (i : Instr) (y : Sync) (w : Wait) (room : Prop) : Prop :=
  let granted := ∃ g, u.me.grant = some (y.wsem, g)
  (¬ room → y.thr = 0 ∨ granted → exec i s = .next (s.waitFor w)) ∧
  (y.thr ≠ 0 → ¬ granted → ¬ room ∨ ¬ u.semFree y.wsem (y.thr.setWidth 16) →
    exec i s = .next ((s.modCore s.cur.core fun c =>
      c.enqueueSem s.cur.slot y.wsem (y.thr.setWidth 16)).waitFor .semaphore))

/-! ### Messages -/

/-- No stop entry is in use for a core's tasks (R381). -/
def State.stopless (s : State) (k : CoreId) : Prop :=
  ∀ p, s.partOf k = some p → (s.part p).ctx.stopown.getLsbD 63 = false

/-- No order log is kept for a core's choices (mode 0 of R389). -/
def State.unlogged (s : State) (k : CoreId) : Prop := ∀ p, s.partOf k = some p → (s.part p).ctx.logMode = 0

/-- The heads of both tagged class queues can be acted on (R73). -/
def Core.settled (c : Core) (arr : Vector (List Msg) 4) : Prop :=
  ∀ (q : Fin 4) (m : Msg), q.val < 2 → arr[q].head? = some m → m.kind = .plain → tagHopeless c m = false

/-- A message of the issuing slot: from its rank, of its launch and VF, to the rank in gD, of class `c` and tag `t` (R253). -/
def State.messageOk (s : State) (m : Msg) (gD : Word) (c : MsgCls) (t : BitVec 6) (block : Bool) (ws : List Word) : Prop :=
  m.vf = gtidVf s.me.gtid ∧ m.launch = gtidLaunch s.me.gtid ∧ m.src = gtidRank s.me.gtid ∧ m.dst = gD.extractLsb' 0 22 ∧
  m.from_ = s.cur.core ∧ m.cls = (match c with | .req => 0 | .rsp => 1 | .sys => 3) ∧ m.tag = t ∧ m.block = block ∧
  m.payload = ws

/-- The destination rank is one of the launch's (R26). -/
def State.rankOk (u : State) (gD : Word) : Prop :=
  ∃ h, u.launchOf u.cur.core u.me.gtid = some h ∧ (gD.extractLsb' 0 22).toNat < h.ranks

/-- The class queue has room (R253). -/
def State.sendRoom (u : State) (c : MsgCls) : Prop := (u.core u.cur.core).injRoom (clsNo c) = true

/-- A send of form `i` that is otherwise in order: ACCESS with the rank in TADDR for a rank that the launch does not have, and
a wait while the class queue is full (R26, R253). -/
def State.SendGated (s u : State) (i : Instr) (gD : Word) (c : MsgCls) : Prop :=
  (¬ u.rankOk gD → exec i s = .next (s.takeTrap s.cur.core s.cur.slot 0x09 ((gD.extractLsb' 0 22).setWidth 64))) ∧
  (u.rankOk gD → ¬ u.sendRoom c → exec i s = .next (s.waitFor .inject))

/-! ### Frames -/

/-- What an encoded instruction of the issuing slot leaves alone between `s` and `t`: module memory; every other core's memory
block and every other slot; the issuing core's SRAM outside `st`, the full/empty bits of granules that `st` does not touch,
its semaphores, tags, shapes and frames; of the issuing slot every register outside `ds`, the presence of every channel
outside `ds` and `srcs`, the flags unless `fl`, and its trap and special registers. The loop counters and the program
counter may change (R78). -/
def Untouched (s t : State) (srcs : List GOp) (ds : List Reg) (fl : Bool) (st : Nat → Prop) : Prop :=
  let k := s.cur.core
  let x := s.me
  let y := t.slot k s.cur.slot
  let m := (s.core k).mem
  let n := (t.core k).mem
  t.gmem = s.gmem ∧ (∀ j, j ≠ k → (t.core j).mem = (s.core j).mem) ∧
  (∀ j i, ¬ (j = k ∧ i = s.cur.slot) → t.slot j i = s.slot j i) ∧
  (∀ a, ¬ st a → n.sram.get a = m.sram.get a) ∧
  (∀ g, (∀ a, a / 16 = g → ¬ st a) → n.full.getLsbD g = m.full.getLsbD g) ∧
  n.sem = m.sem ∧ n.sf = m.sf ∧ n.tags = m.tags ∧ n.shapes = m.shapes ∧ n.frames = m.frames ∧
  (∀ i : Fin 32, .g i ∉ ds → y.r.g[i] = x.r.g[i]) ∧ (∀ i : Fin 8, .c i ∉ ds → y.r.c[i] = x.r.c[i]) ∧
  (∀ i : Fin 8, .c i ∉ ds → GOp.c i ∉ srcs → y.r.pres.getLsbD i.val = x.r.pres.getLsbD i.val) ∧
  (∀ i : Fin 16, .v i ∉ ds → y.r.v[i] = x.r.v[i] ∧ y.r.hdr[i] = x.r.hdr[i]) ∧
  (∀ i : Fin 8, .p i ∉ ds → y.r.p[i] = x.r.p[i]) ∧ (fl = false → y.r.flags = x.r.flags) ∧ y.r.gm = x.r.gm ∧
  y.t = x.t ∧ y.gtid = x.gtid

/-- The frame of `i`: wherever it answers a next state in which its slot is not trapped. -/
def Frames (i : Instr) (srcs : List GOp) (ds : List Reg) (fl : Bool := false) (st : State → Nat → Prop := fun _ _ => False) :
    Prop :=
  ∀ s t : State, s.cur.inline = false → exec i s = .next t → (t.slot s.cur.core s.cur.slot).st ≠ .trapped →
    Untouched s t srcs ds fl (st s)

/-- The form of a two-source operation: its sources and its destination are the registers that it names. -/
def alu2Form (x : Alu2) (cls : Fin 32) : Form := mkForm x.q cls (x.a :: srcOps x.b) [x.d]

end Sys2Proof.Machine
end

