-- ==== Sys2Proof/Certificates/Slice0/Obligations.lean ====
section
/-! DEFINITION. The statements about the model, family by family. `Puts`, `Does`, `Jumps`, `Traps` and `Waits` (Safety.lean) say
that an instruction completes with an effect, traps or waits, for every state in which its head issues. -/

open Sys2Proof Sys2Proof.Machine

/-! ### Integer, address and predicate instructions (06) -/

/-- R158, R159: every two-source operation, at every type, with a register or an immediate as its second source: `gD :=
put(v)` for the v of R158's table, over a := get(gA), b and the w-bit patterns; DIV and REM by zero set DZ, and nothing else
sets a flag. -/
def Obligations.TwoSourceIntegers : Prop :=
  ∀ x : Alu2,
    let w := tyWidth x.t
    let a := fun u : State => getTy x.t (u.rd x.a)
    let b := fun u : State => getTy x.t (u.src x.t x.b)
    let ua := fun u : State => (u.rd x.a).toNat % 2 ^ w
    let ub := fun u : State => (u.src x.t x.b).toNat % 2 ^ w
    let n := fun u : State => (u.src x.t x.b).toNat % w
    let put := fun (v : State → Int) (u : State) => putTy x.t (v u)
    let sar := fun u : State => if 2 ^ (w - 1) ≤ ua u then (ua u : Int) - 2 ^ w else ua u
    Puts (.add x) (alu2Form x 1) x.d (put fun u => a u + b u) ∧
    Puts (.sub x) (alu2Form x 1) x.d (put fun u => a u - b u) ∧
    Puts (.mul x) (alu2Form x 2) x.d (put fun u => a u * b u) ∧
    Puts (.mulh x) (alu2Form x 2) x.d (put fun u => (a u * b u) / 2 ^ w) ∧
    Puts (.div x) (alu2Form x 3) x.d (put fun u => (a u).tdiv (b u)) (ok := fun u => b u ≠ 0) ∧
    Puts (.div x) (alu2Form x 3) x.d (put fun _ => 2 ^ w - 1) (ok := fun u => b u = 0) (post := (·.setMyFlags flagDZ)) ∧
    Puts (.rem x) (alu2Form x 3) x.d (put fun u => a u - b u * (a u).tdiv (b u)) (ok := fun u => b u ≠ 0) ∧
    Puts (.rem x) (alu2Form x 3) x.d (put a) (ok := fun u => b u = 0) (post := (·.setMyFlags flagDZ)) ∧
    Puts (.and x) (alu2Form x 1) x.d (put fun u => (ua u &&& ub u : Nat)) ∧
    Puts (.or x) (alu2Form x 1) x.d (put fun u => (ua u ||| ub u : Nat)) ∧
    Puts (.xor x) (alu2Form x 1) x.d (put fun u => (ua u ^^^ ub u : Nat)) ∧
    Puts (.andn x) (alu2Form x 1) x.d (put fun u => (ua u &&& (2 ^ w - 1 - ub u) : Nat)) ∧
    Puts (.shl x) (alu2Form x 1) x.d (put fun u => (ua u * 2 ^ n u : Nat)) ∧
    Puts (.shr x) (alu2Form x 1) x.d (put fun u => (ua u / 2 ^ n u : Nat)) ∧
    Puts (.sar x) (alu2Form x 1) x.d (put fun u => sar u / 2 ^ n u) ∧
    Puts (.rot x) (alu2Form x 1) x.d (put fun u => (ua u / 2 ^ n u + ua u % 2 ^ n u * 2 ^ (w - n u) : Nat)) ∧
    Puts (.min x) (alu2Form x 1) x.d (put fun u => if a u ≤ b u then a u else b u) ∧
    Puts (.max x) (alu2Form x 1) x.d (put fun u => if a u ≥ b u then a u else b u)

/-- R156: `put` writes the low w bits of an exact value, extended by the type, and `get` reads them back: modulo 2^w nothing
is lost, and every value that the type holds survives. -/
def Obligations.PutThenGet : Prop :=
  ∀ (t : IntTy) (v : Int),
    (getTy t (putTy t v) - v) % 2 ^ tyWidth t = 0 ∧
    (tySigned t = true → -(2 ^ (tyWidth t - 1)) ≤ getTy t (putTy t v) ∧ getTy t (putTy t v) < 2 ^ (tyWidth t - 1)) ∧
    (tySigned t = false → 0 ≤ getTy t (putTy t v) ∧ getTy t (putTy t v) < 2 ^ tyWidth t) ∧
    (tySigned t = true → (putTy t v).toInt = getTy t (putTy t v)) ∧
    (tySigned t = false → ((putTy t v).toNat : Int) = getTy t (putTy t v))

/-- R160, R161: CLZ, CTZ and POPC count zeros and ones of the w-bit pattern (w of each of the first two for a pattern of
zeros; each bit count is stated by what it bounds),
ABS, NEG and EXT are put of the absolute value, of the negative and of the value, MOV copies 64 bits, and MADR is put of the
exact product and sum. No flag changes. -/
def Obligations.OneSourceIntegers : Prop :=
  (∀ x : Alu1,
    let f := mkForm x.q 1 [x.a] [x.d]
    let w := tyWidth x.t
    let a := fun u : State => getTy x.t (u.rd x.a)
    let ua := fun u : State => (u.rd x.a).toNat % 2 ^ w
    (∃ n : Nat → Nat, Puts (.clz x) f x.d (fun u => BitVec.ofNat 64 (n (ua u))) ∧
      n 0 = w ∧ ∀ v < 2 ^ w, v ≠ 0 → n v < w ∧ 2 ^ (w - n v - 1) ≤ v ∧ v < 2 ^ (w - n v)) ∧
    (∃ n : Nat → Nat, Puts (.ctz x) f x.d (fun u => BitVec.ofNat 64 (n (ua u))) ∧
      n 0 = w ∧ ∀ v < 2 ^ w, v ≠ 0 → n v < w ∧ v % 2 ^ n v = 0 ∧ v / 2 ^ n v % 2 = 1) ∧
    Puts (.popc x) f x.d (fun u => BitVec.ofNat 64 ((List.range w).countP fun i => (ua u).testBit i)) ∧
    Puts (.abs x) f x.d (fun u => putTy x.t (a u).natAbs) ∧
    Puts (.neg x) f x.d (fun u => putTy x.t (-(a u))) ∧
    Puts (.ext x) f x.d (fun u => putTy x.t (a u))) ∧
  (∀ x : GG, Puts (.mov x) (mkForm x.q 1 [x.a] [x.d]) x.d (fun u => u.rd x.a)) ∧
  (∀ x : MadrF, Puts (.madr x) (mkForm x.q 2 [x.a, x.b, x.c] [x.d]) x.d
    (fun u => putTy x.t (getTy x.t (u.rd x.a) * getTy x.t (u.rd x.b) + getTy x.t (u.rd x.c))))

/-- R162, R163, R168: CMP writes 0xFFFF or 0x0000 to pD by its condition, SEL chooses by bit 0 of pC with both sources read,
and OP 0x1F acts on whole 16-bit predicates. `wrPred` discards a write to p0, and p0 reads 0xFFFF (R29). -/
def Obligations.ComparesAndPredicates : Prop :=
  (∀ x : CmpF, ∀ c : Int → Int → Prop,
    (match x.cond with
      | .eq => c = fun a b => a = b
      | .ne => c = fun a b => a ≠ b
      | .lt => c = fun a b => a < b
      | .le => c = fun a b => a ≤ b
      | .gt => c = fun a b => a > b
      | .ge => c = fun a b => a ≥ b) →
    let f := mkForm x.q 1 (x.a :: srcOps x.b) [] [.p x.d]
    let holds := fun u : State => c (getTy x.t (u.rd x.a)) (getTy x.t (u.src x.t x.b))
    Does (.cmp x) f holds (·.wrPred x.d 0xFFFF) ∧
    Does (.cmp x) f (fun u => ¬ holds u) (·.wrPred x.d 0x0000)) ∧
  (∀ x : SelF,
    let f := mkForm x.q 1 [x.a, x.b] [x.d] [.p x.c]
    Puts (.sel x) f x.d (fun u => if (u.me.r.rdP x.c).getLsbD 0 then u.rd x.a else u.rd x.b)) ∧
  (∀ x : PPP,
    let f := mkForm x.q 1 [] [] [.p x.d, .p x.a, .p x.b]
    Does (.pand x) f (fun _ => True) (fun u => u.wrPred x.d (u.me.r.rdP x.a &&& u.me.r.rdP x.b)) ∧
    Does (.por x) f (fun _ => True) (fun u => u.wrPred x.d (u.me.r.rdP x.a ||| u.me.r.rdP x.b)) ∧
    Does (.pxor x) f (fun _ => True) (fun u => u.wrPred x.d (u.me.r.rdP x.a ^^^ u.me.r.rdP x.b))) ∧
  (∀ x : PP, Does (.pnot x) (mkForm x.q 1 [] [] [.p x.d, .p x.a]) (fun _ => True)
    (fun u => u.wrPred x.d (~~~(u.me.r.rdP x.a)))) ∧
  (∀ x : PmovF, Does (.pmov x) (mkForm x.q 1 [x.a] [] [.p x.d]) (fun _ => True)
    (fun u => u.wrPred x.d ((u.rd x.a).setWidth 16))) ∧
  (∀ x : PanyF, Puts (.pany x) (mkForm x.q 1 [] [x.d] [.p x.a]) x.d (fun u => (u.me.r.rdP x.a).setWidth 64))

/-- R164 to R167: MOVI is put of the extended immediate, MOVHI replaces the upper word, BFX takes `len` bits from `lo` and
extends them, BFI replaces them and leaves every other bit, and LEA adds within the window of gA. -/
def Obligations.ConstantsFieldsAndAddresses : Prop :=
  (∀ x : MoviF, Puts (.movi x) (mkForm x.q 1 [] [x.d]) x.d (fun _ => putTy x.t (getTy x.t (immTy x.t x.v)))) ∧
  (∀ x : MovhiF, Puts (.movhi x) (mkForm x.q 1 [] [x.d]) x.d (fun u => x.v ++ (u.rd x.d).setWidth 32)) ∧
  (∀ x : BitF, x.wf = true →
    (∃ v : Word → Word, Puts (.bfx x) (mkForm x.q 1 [x.a] [x.d]) x.d (fun u => v (u.rd x.a)) ∧
      ∀ (g : Word) (i : Nat), i < 64 →
        (v g).getLsbD i =
          if i < x.len.toNat then g.getLsbD (x.lo.toNat + i)
          else x.signed && g.getLsbD (x.lo.toNat + x.len.toNat - 1)) ∧
    (∃ v : Word → Word → Word, Puts (.bfi x) (mkForm x.q 1 [x.a] [x.d]) x.d (fun u => v (u.rd x.d) (u.rd x.a)) ∧
      ∀ (d g : Word) (i : Nat), i < 64 →
        (v d g).getLsbD i =
          if x.lo.toNat ≤ i ∧ i < x.lo.toNat + x.len.toNat then g.getLsbD (i - x.lo.toNat) else d.getLsbD i)) ∧
  (∀ x : LeaF, ∃ v : Word → Word → Word,
    Puts (.lea x) (mkForm x.q 1 [x.a, x.b] [x.d]) x.d (fun u => v (u.rd x.a) (u.rd x.b)) ∧
    ∀ (a b : Word) (sh : Nat) (d : Int),
      (match x.sd with
        | .plain => sh = 0 ∧ d = 0
        | .s16 s i => sh = s.toNat ∧ d = i.toInt
        | .s32 s i => sh = s.toNat ∧ d = i.toInt) →
      (v a b).toNat / 2 ^ 60 = a.toNat / 2 ^ 60 ∧
      ((v a b).toNat % 2 ^ 60 : Int) = ((a.toNat % 2 ^ 60 : Nat) + b.toInt * 2 ^ sh + d) % 2 ^ 60)

/-! ### Transfers, loops and slot control (06) -/

/-- R170, R171, R172: BR and CALL always transfer, BRP under its guard, BCMP where its condition holds and else retires with
no effect; CALL and CALLI write g1 with the head that follows, CALLI after it has read gA; JMPI, CALLI and RET go to the
pointer in their register, and raise ILLEGAL_LINE with it in TADDR where a reserved bit is set or SLOT is 31. R169: LINE and
SLOT of a branch target: the line's number plus the signed line offset, modulo 2^54, and the low five bits of the offset;
every reserved bit of the code pointer is zero. -/
def Obligations.TransfersOfControl : Prop :=
  (let bad := fun p : Word => p.toNat / 2 ^ 60 ≠ 0 ∨ p.getLsbD 5 = true ∨ p.toNat % 32 = 31
   let always := mkForm Guard.always 1 [] []
   (∀ off, Jumps (.br off) always (fun _ => True) id (fun u => branchTarget u.me.pc off)) ∧
   (∀ q off, Jumps (.brp q off) (mkForm q 1 [] []) (fun _ => True) id (fun u => branchTarget u.me.pc off)) ∧
   (∀ x : BcmpF,
     let f := mkForm x.q 1 [x.d, x.a] []
     let holds := fun u : State => condInt x.cond (getTy x.t (u.rd x.d)) (getTy x.t (u.rd x.a)) = true
     Jumps (.bcmp x) f holds id (fun u => branchTarget u.me.pc x.off) ∧ Does (.bcmp x) f (fun u => ¬ holds u) id) ∧
   (∀ off, Jumps (.call off) (mkForm Guard.always 1 [] [.g 1]) (fun _ => True) (fun u => u.wr (.g 1) u.cur.next)
     (fun u => branchTarget u.me.pc off)) ∧
   (∀ x : G1,
     let f := mkForm x.q 1 [x.a] [.g 1]
     Jumps (.calli x) f (fun u => ¬ bad (u.rd x.a)) (fun u => u.wr (.g 1) u.cur.next) (fun u => u.rd x.a) ∧
     Traps (.calli x) f (fun u => bad (u.rd x.a)) 0x01 (fun u => u.rd x.a)) ∧
   (∀ x : G1,
     let f := mkForm x.q 1 [x.a] []
     Jumps (.jmpi x) f (fun u => ¬ bad (u.rd x.a)) id (fun u => u.rd x.a) ∧
     Traps (.jmpi x) f (fun u => bad (u.rd x.a)) 0x01 (fun u => u.rd x.a)) ∧
   (Jumps .ret (mkForm Guard.always 1 [.g 1] []) (fun u => ¬ bad (u.rd (.g 1))) id (fun u => u.rd (.g 1)) ∧
     Traps .ret (mkForm Guard.always 1 [.g 1] []) (fun u => bad (u.rd (.g 1))) 0x01 (fun u => u.rd (.g 1))) ∧
   (∀ x : G1,
     let r : GOp := if x.a = .g 0 then .g 1 else x.a
     let f := mkForm x.q 1 [r] []
     Jumps (.retReg x) f (fun u => ¬ bad (u.rd r)) id (fun u => u.rd r) ∧
     Traps (.retReg x) f (fun u => bad (u.rd r)) 0x01 (fun u => u.rd r))) ∧
  (∀ (pc : Word) (off : BitVec 32),
     (branchTarget pc off).toNat / 64 = ((pc.toNat / 64 % 2 ^ 54 : Nat) + off.toInt / 32) % (2 ^ 54 : Int) ∧
     (branchTarget pc off).toNat % 64 = off.toNat % 32)

/-- R174: LOOP with an end before its start raises ILLEGAL_FORM; with a count C that is not 0 it arms its counter with value
and count C, the head after it and the target; with C = 0 it raises CODE_FRAME or ILLEGAL_LINE for its end's line, and
otherwise goes to the head after the end. R78: when the issuing slot's head retires with no transfer, lc1 is tested first. At
a shared end the inner counter falls and goes to its start, or reloads and the outer one falls; at other ends each counter
falls and goes to its start while it is not 0. The slot is READY at that head, and of its registers only the loop counters
have changed. (A step stop, R381, is left out by the premise: it takes an exception there.) What retirement leaves alone,
transfer or not: memory of the module and of every core, every other slot of every core, and of the issuing slot every
register but the loop counters, which a taken transfer leaves too. -/
def Obligations.Loops : Prop :=
  (∀ (ctr : Fin 2) (d : GOp) (off : BitVec 32),
     let f := mkForm Guard.always 1 [d] []
     let count := fun u : State => (u.rd d).extractLsb' 0 32
     let fin := fun u : State => branchTarget u.me.pc off
     let line := fun u : State => (u.core u.cur.core).mem.lineAt (fin u)
     let arm := fun u : State => u.setLc ctr ⟨count u, count u, u.cur.next, fin u⟩
     Traps (.loop ctr d off) f (fun u => fin u < u.cur.next) 0x03 (fun u => u.cur.head.setWidth 64) ∧
     Does (.loop ctr d off) f (fun u => ¬ fin u < u.cur.next ∧ count u ≠ 0) arm ∧
     Traps (.loop ctr d off) f (fun u => ¬ fin u < u.cur.next ∧ count u = 0 ∧ line u = none) 0x0C (fun u => cpLine (fin u)) ∧
     Traps (.loop ctr d off) f
       (fun u => ¬ fin u < u.cur.next ∧ count u = 0 ∧
         ∃ l, line u = some l ∧ (lineLegal 512 l = false ∨ lineHC l ≤ cpSlot (fin u))) 0x01 fin ∧
     (∀ l, Jumps (.loop ctr d off) f
       (fun u => ¬ fin u < u.cur.next ∧ count u = 0 ∧ line u = some l ∧ lineLegal 512 l = true ∧ cpSlot (fin u) < lineHC l) arm
       (fun u => if cpSlot (fin u) + 1 < lineHC l then fin u + 1 else cpLine (fin u) + 64))) ∧
  ((∀ (s : State) (cls : Fin 32),
      let k := s.cur.core
      let sl := s.cur.slot
      let x := s.me
      let y := (s.retireHead cls).me
      let l0 := x.r.lc[(0 : Fin 2)]
      let l1 := x.r.lc[(1 : Fin 2)]
      let at0 := x.pc = l0.fin ∧ l0.value ≠ 0
      let at1 := x.pc = l1.fin ∧ l1.value ≠ 0
      let dec := fun l : LoopCtr => { l with value := l.value - 1 }
      let one := fun l : LoopCtr => l.value = 1
      y.st = .ready ∧ y.r = { x.r with lc := y.r.lc } ∧ y.t = x.t ∧
      (¬ at0 ∧ ¬ at1 → y.r.lc = x.r.lc ∧ y.pc = s.cur.next) ∧
      (at1 ∧ ¬ at0 → y.r.lc = x.r.lc.set 1 (dec l1) ∧ y.pc = if one l1 then s.cur.next else l1.start) ∧
      (at0 ∧ ¬ at1 → y.r.lc = x.r.lc.set 0 (dec l0) ∧ y.pc = if one l0 then s.cur.next else l0.start) ∧
      (at0 ∧ at1 ∧ ¬ one l1 → y.r.lc = x.r.lc.set 1 (dec l1) ∧ y.pc = l1.start) ∧
      (at0 ∧ at1 ∧ one l1 →
        y.r.lc = (x.r.lc.set 1 { l1 with value := l1.count }).set 0 (dec l0) ∧
        y.pc = if one l0 then s.cur.next else l0.start) ∧
      ((s.retireHead cls).stopAt k sl 2 = none → s.retire cls = s.retireHead cls)) ∧
   (∀ (s : State) (cls : Fin 32) (jump : Option Word),
      let t := s.retireHead cls jump
      t.gmem = s.gmem ∧ (∀ j, (t.core j).mem = (s.core j).mem) ∧
      (∀ j n, ¬ (j = s.cur.core ∧ n = s.cur.slot) → t.slot j n = s.slot j n) ∧
      (∀ w, jump = some w → t.me.r = s.me.r ∧ t.me.pc = w) ∧
      t.me.r = { s.me.r with lc := t.me.r.lc } ∧ t.me.t = s.me.t ∧ t.me.gtid = s.me.gtid))

/-- R175, R176, R179: NOP with or without a tail and YIELD retire with no effect, in class 0; WAITEV clears EV where it is
set, and where it is clear puts the slot to SLEEP with its head not retired. R69, R177: HALT always completes. The slot's
channel words and presence bits are cleared, its tiles and its claim on the scan unit are released with their values left in
place, its lace membership has ended, and it is HALTING while a command of it is outstanding and EMPTY when none is. -/
def Obligations.SlotControl : Prop :=
  (let f0 := mkForm Guard.always 0 [] []
   Does .nop f0 (fun _ => True) id ∧ (∀ tl b, Does (.nopTail tl b) f0 (fun _ => True) id) ∧ Does .yield f0 (fun _ => True) id ∧
   (∀ (i : Instr) (q : Guard), (i = .waitev ∧ q = Guard.always) ∨ i = .waitevGuarded q →
     let f := mkForm q 1 [] []
     Does i f (fun u => u.me.ev = true) (fun u => u.modMe fun x => { x with ev := false }) ∧
     ∀ s : State, s.issues f → s.me.ev = false → ∃ t, exec i s = .next t ∧
       t.me.st = .sleep ∧ t.me.pc = s.me.pc ∧ t.me.r = s.me.r ∧ t.me.ev = false ∧ t.gmem = s.gmem)) ∧
  (∀ s : State, s.issues (mkForm Guard.always 1 [] []) →
     let k := s.cur.core
     let sl := s.cur.slot
     ∃ t, exec .halt s = .next t ∧
       (t.slot k sl).st = (if s.outstanding k sl = true then .halting else .empty) ∧
       (t.slot k sl).r.pres = 0 ∧ (t.slot k sl).r.c = Vector.replicate 8 0 ∧ (t.slot k sl).lace.code = .solo ∧
       (t.core k).unit.scanOwner = (if (s.core k).unit.scanOwner = some sl then none else (s.core k).unit.scanOwner) ∧
       (t.core k).unit.scanH = (s.core k).unit.scanH ∧
       (∀ i : Fin 4, (t.core k).unit.tiles[i] =
         if (s.core k).unit.tiles[i].owner = some sl then { (s.core k).unit.tiles[i] with owner := none }
         else (s.core k).unit.tiles[i]) ∧
       t.gmem = s.gmem ∧ (t.core k).mem = (s.core k).mem)

/-! ### Address tests, clock, meter and other reads of the machine (03, 06, 09) -/

/-- R96, R183, R184: APTEST tests the three windows by their ranges, and APCVT converts between a local address and its
offset and forms local and berth addresses, with all ones for a value that it cannot convert. Neither traps on the value.
R185, R186, R273, R276: TIME reads its field's counter, which has risen by some number of counts (a free value, log entry 6);
METER reads the core's meter for the task's VF in pJ modulo 2^48; LACEQ reads the slot's lace state, 0 in SOLO; TASKID reads
identity and shape by its selector, the home position from the rank (log entry 35, DEDUCED). -/
def Obligations.AddressTests : Prop :=
  ((∀ x : AptestF,
     let f := mkForm x.q 1 [x.a] [] [.p x.d]
     let valid := fun u : State =>
       let a := (u.rd x.a).toNat
       match x.w with
       | .glob => a < 2 ^ 60
       | .loc => 0xE000000000000000 ≤ a ∧ a ≤ 0xE00000000000FFFF
       | .berth => 0xD000000000000000 ≤ a ∧ a ≤ 0xD000000000000003
     Does (.aptest x) f valid (·.wrPred x.d 0xFFFF) ∧ Does (.aptest x) f (fun u => ¬ valid u) (·.wrPred x.d 0x0000)) ∧
   (∀ x : ApcvtF, ∃ v : Word → Word, Puts (.apcvt x) (mkForm x.q 1 [x.a] [x.d]) x.d (fun u => v (u.rd x.a)) ∧
     ∀ a : Word, (v a).toNat =
       match x.k with
       | .ofs => if 0xE000000000000000 ≤ a.toNat ∧ a.toNat ≤ 0xE00000000000FFFF then a.toNat - 0xE000000000000000 else 2 ^ 64 - 1
       | .loc => if a.toNat ≤ 0xFFFF then 0xE000000000000000 + a.toNat else 2 ^ 64 - 1
       | .brt => if a.toNat ≤ 3 then 0xD000000000000000 + a.toNat else 2 ^ 64 - 1)) ∧
  ((∀ x : GD,
     let f := mkForm x.q 1 [] [x.d]
     Puts (.time x) f x.d
       (fun u => (u.field (fieldOf u.cur.core)).time + ((Config.ticks u.free).extractLsb' 0 32).setWidth 64)
       (post := fun t => t.tick (fieldOf t.cur.core)) ∧
     Puts (.meter x) f x.d (fun u =>
       BitVec.ofNat 64 ((mget (u.core u.cur.core).regs.meter (gtidVf u.me.gtid)).getD 0 / 256 % 2 ^ 48))) ∧
   (∀ x : GD,
     let f := mkForm x.q 26 [] [x.d]
     Puts (.laceq x) f x.d (fun _ => 0) (ok := fun u => u.me.lace.code = .solo) ∧
     Puts (.laceq x) f x.d
       (fun u => 0#29 ++ u.me.lace.index ++ u.me.lace.w ++ u.me.lace.xl ++ 0#8 ++ laceCodeNo u.me.lace.code)
       (ok := fun u => u.me.lace.code ≠ .solo)) ∧
   (∀ x : TaskidF,
     let f := mkForm x.q 31 (r16Ops x.sel) [x.d]
     let is := fun (n : Nat) (u : State) => (u.r16 x.sel).toNat % 4 = n
     let h := fun u : State => u.launchD u.cur.core u.me.gtid
     let rank := fun u : State => u.me.gtid.toNat % 2 ^ 22
     Puts (.taskid x) f x.d (fun u => u.me.gtid) (ok := is 0) ∧
     Puts (.taskid x) f x.d (fun u => 0#18 ++ BitVec.ofNat 22 ((h u).w * (h u).h * (h u).s) ++ BitVec.ofNat 3 (h u).s ++
       BitVec.ofNat 10 (h u).h ++ BitVec.ofNat 11 (h u).w) (ok := is 1) ∧
     Puts (.taskid x) f x.d (fun u => 0#33 ++ BitVec.ofNat 7 (fieldOf u.cur.core) ++ 0#1 ++ BitVec.ofNat 2 u.cur.slot.val ++
       BitVec.ofNat 21 (u.cur.core % 1152 + 2048 * (u.cur.core / 1152))) (ok := is 2) ∧
     Puts (.taskid x) f x.d (fun u => 0#11 ++ packPos (coreAt (h u).x0 (h u).y0) ++ 0#9 ++ BitVec.ofNat 2 (rank u % (h u).s) ++
       BitVec.ofNat 10 (rank u / (h u).s / (h u).w) ++ BitVec.ofNat 11 (rank u / (h u).s % (h u).w)) (ok := is 3)))

/-- R259, R260: TAGGET reads an entry and TAGSET writes one, or raises ILLEGAL_FORM for one that R71 does not admit; CHK
reads a channel without consuming it, waiting while it is absent, or the presence bits of a mask. R71: what TAGSET leaves in
an entry: every field of the value written but ERR, which a 1 clears and a 0 leaves; and the ring base of a ring is the GRAN
written (R72). -/
def Obligations.TagsAndChannels : Prop :=
  ((∀ x : TaggetF, Puts (.tagget x) (mkForm x.q 26 (r16Ops x.t) [x.d]) x.d
     (fun u => (u.core u.cur.core).mem.tags[(tagNo u x.t).toFin].word)) ∧
   (∀ x : TagsetF,
     let f := mkForm x.q 26 (x.a :: r16Ops x.t) []
     Traps (.tagset x) f (fun u => tagBad (u.rd x.a) = true) 0x03 (fun u => u.cur.head.setWidth 64) ∧
     Does (.tagset x) f (fun u => tagBad (u.rd x.a) = false)
       (fun u => (u.modMem u.cur.core fun m =>
         { m with tags := m.tags.set (tagNo u x.t).toFin (m.tags[(tagNo u x.t).toFin].write (u.rd x.a)) }).settleTags u.cur.core)) ∧
   (∀ (q : Guard) (d : GOp) (n : Fin 8),
     let f := mkForm q 1 [] [d] [.c n]
     Puts (.chk ⟨q, d, .chan n⟩) f d (fun u => u.me.r.c[n]) (ok := fun u => u.me.r.pres.getLsbD n.val = true) ∧
     Waits (.chk ⟨q, d, .chan n⟩) f (fun u => u.me.r.pres.getLsbD n.val = false) .channel) ∧
   (∀ (q : Guard) (d : GOp) (m : BitVec 16),
     Puts (.chk ⟨q, d, .mask m⟩) (mkForm q 1 [] [d]) d (fun u => (u.me.r.pres &&& m.extractLsb' 0 8).setWidth 64))) ∧
  (∀ (t : TagEnt) (v : Word) (i : Nat), i < 64 →
     (t.write v).word.getLsbD i = (if i = 58 then t.word.getLsbD 58 && !v.getLsbD 58 else v.getLsbD i) ∧
     (t.write v).base = v.extractLsb' 0 12 ∧ (t.write v).writes = t.writes + 1)

/-- R23, R67, R136, R261: SEMGET reads SF and the count; SEMSET writes both; SEMSIG adds, or raises SEM_OVERFLOW where the sum
passes 65,535; SEMWAIT takes its threshold as it retires, where it has been granted it, or where the count allows it and nobody
waits before it, and otherwise waits in the semaphore's queue with nothing taken. A new count is granted to the waiters of its
semaphore in the order in which they began to wait: the thresholds granted fit into what the earlier grants leave of it, and
the first waiter that it does not suffice for holds the later ones. That a grant takes nothing from the count until the granted
head issues is the model's reading (log entry 18, DEDUCED), and that a count lowered since is not taken below 0 its choice (log
entry 85). -/
def Obligations.Semaphores : Prop :=
  let c := fun u : State => u.core u.cur.core
  let word := fun (u : State) (n : BitVec 8) (k : BitVec 16) => (0#47 ++ BitVec.ofBool ((c u).mem.sf.getLsbD n.toNat) ++ k : Word)
  (∀ x : SemgetF, Puts (.semget x) (mkForm x.q 26 [] [x.d]) x.d (fun u => word u x.n (c u).mem.sem[x.n.toFin])) ∧
  (∀ x : SemsetF, Does (.semset x) (mkForm x.q 26 [x.a] []) (fun _ => True)
    (fun u => u.modCore u.cur.core fun k =>
      (k.setSF x.n ((u.rd x.a).getLsbD 16)).setSem x.n ((u.rd x.a).extractLsb' 0 16))) ∧
  (∀ x : SemsigF,
    let f := mkForm x.q 26 (semOps x.i) []
    let sum := fun u : State => (c u).mem.sem[x.n.toFin].toNat + (semVal u x.i).toNat
    Does (.semsig x) f (fun u => sum u ≤ 65535)
      (fun u => u.setCore u.cur.core ((c u).setSem x.n (BitVec.ofNat 16 (sum u)))) ∧
    Traps (.semsig x) f (fun u => 65535 < sum u) 0x0E (fun _ => x.n.setWidth 64)) ∧
  (∀ x : SemwaitF,
    let f := mkForm x.q 26 (semOps x.i) [x.d]
    let t := fun u : State => semVal u x.i
    let n := fun u : State => (c u).mem.sem[x.n.toFin]
    Puts (.semwait x) f x.d (fun u => word u x.n (n u)) (ok := fun u => t u = 0) ∧
    (∀ s : State, let u := s.took f
      let v := word u x.n (BitVec.ofNat 16 ((n u).toNat - (t u).toNat))
      s.issues f → t u ≠ 0 → u.semFree x.n (t u) →
        (u.slimRefuses x.d v = false → exec (.semwait x) s = .next (((u.taken x.n (t u)).wr x.d v).retire 26)) ∧
        (u.slimRefuses x.d v = true → exec (.semwait x) s = .next (s.takeTrap s.cur.core s.cur.slot 0x0B v))) ∧
    (∀ s : State, s.issues f → t (s.took f) ≠ 0 → ¬ (s.took f).semFree x.n (t (s.took f)) →
      exec (.semwait x) s =
        .next ((s.modCore s.cur.core fun k => k.enqueueSem s.cur.slot x.n (t (s.took f))).waitFor .semaphore))) ∧
  (∀ (a : Core) (n : BitVec 8) (v : BitVec 16),
    let b := a.setSem n v
    let free := v.toNat - (a.slots.toList.map (·.owes n)).sum
    let of_ := fun (l : List (Fin 4 × BitVec 8 × BitVec 16)) => l.filter fun e => e.2.1 == n
    b.mem.sem = a.mem.sem.set n.toFin v ∧
    ∃ g, of_ a.mem.semQ = g ++ of_ b.mem.semQ ∧
      (b.mem.semQ.filter fun e => e.2.1 != n) = (a.mem.semQ.filter fun e => e.2.1 != n) ∧
      (g.map fun e => e.2.2.toNat).sum ≤ free ∧
      (∀ e ∈ (of_ b.mem.semQ).head?, free < (g.map fun e => e.2.2.toNat).sum + e.2.2.toNat) ∧
      (∀ e ∈ g, ∃ c, (b.slot e.1).grant = some (n, c)) ∧ ∀ i, (∀ e ∈ g, e.1 ≠ i) → b.slot i = a.slot i) ∧
  (∀ (x : Slot) (n : BitVec 8),
    (∀ t : BitVec 16, x.grant = some (n, t) → x.owes n = t.toNat) ∧ ((∀ t, x.grant ≠ some (n, t)) → x.owes n = 0))

/-! ### Vector and block instructions (07) -/

/-- R189, R190, R194: VADD, VSUB, VMUL, VFMA, VDIV and VSQRT in every active lane: integer lanes modulo 2^w with no flag,
floating lanes by the format's operation with its flags. VDIV and VSQRT are charged for the steps they occupy the unit (R193,
R344). R44, R51, R54, R194: the special cases of floating arithmetic, in every format of a lane and every rounding mode. -/
def Obligations.VectorArithmetic : Prop :=
  ((∀ x : V3,
     let w := vtyWidth (vmodTy x.m)
     let f := vform x.q (vclass (vmodTy x.m)) [x.d, x.a, x.b]
     let a := fun (u : State) i => lane w (u.rdV x.a) i
     let b := fun (u : State) i => lane w (u.rdV x.b) i
     (∀ t, x.m = .int t →
       LanesPut (.vadd x) f w x.d (fun u i => ((a u i + b u i) % 2 ^ w, 0)) ∧
       LanesPut (.vsub x) f w x.d (fun u i => ((a u i + 2 ^ w - b u i) % 2 ^ w, 0)) ∧
       LanesPut (.vmul x) f w x.d (fun u i => (a u i * b u i % 2 ^ w, 0))) ∧
     (∀ t r, x.m = .fp t r →
       LanesPut (.vadd x) f w x.d (fun u i => (fmtOf t).add r (a u i) (b u i)) ∧
       LanesPut (.vsub x) f w x.d (fun u i => (fmtOf t).sub r (a u i) (b u i)) ∧
       LanesPut (.vmul x) f w x.d (fun u i => (fmtOf t).mul r (a u i) (b u i)))) ∧
   (∀ x : V4,
     let w := vtyWidth (vmodTy x.m)
     let f := vform x.q (vclass (vmodTy x.m)) [x.d, x.a, x.b, x.c]
     let l := fun (n : Fin 16) (u : State) i => lane w (u.rdV n) i
     (∀ t, x.m = .int t → LanesPut (.vfma x) f w x.d (fun u i => ((l x.a u i * l x.b u i + l x.c u i) % 2 ^ w, 0))) ∧
     (∀ t r, x.m = .fp t r → LanesPut (.vfma x) f w x.d (fun u i => (fmtOf t).fma r (l x.a u i) (l x.b u i) (l x.c u i)))) ∧
   (∀ x : VF3,
     let w := fpWidth x.f
     LanesPut (.vdiv x) (vform x.q 12 [x.d, x.a, x.b]) w x.d
       (fun u i => (fmtOf x.f).div x.r (lane w (u.rdV x.a) i) (lane w (u.rdV x.b) i)) (pre := (·.chargeMore 12 (divQuads x.f - 1)))) ∧
   (∀ x : VF2,
     let w := fpWidth x.f
     LanesPut (.vsqrt x) (vform x.q 12 [x.d, x.a]) w x.d (fun u i => (fmtOf x.f).sqrt x.r (lane w (u.rdV x.a) i))
       (pre := (·.chargeMore 12 (divQuads x.f - 1))))) ∧
  (∀ (t : FpTy) (r : Rnd),
     let F := fmtOf t
     let inf := fun n : Bool => signOf F n + F.inf
     let zero := fun n : Bool => signOf F n
     let invalid := (F.nan, flagNV ||| flagNF)
     let finite := fun (x : Nat) (a : Bool) => x < 2 ^ F.width ∧ ∃ m e, m ≠ 0 ∧ F.unpack x = .fin a m e
     (∀ a, F.add r (inf a) (inf !a) = invalid ∧ F.sub r (inf a) (inf a) = invalid) ∧
     (∀ a b, F.mul r (zero a) (inf b) = invalid ∧ F.mul r (inf b) (zero a) = invalid) ∧
     (∀ a b z, z < 2 ^ F.width → F.fma r (zero a) (inf b) z = invalid ∧ F.fma r (inf b) (zero a) z = invalid) ∧
     (∀ x a b, finite x a → F.div r x (zero b) = (inf (a != b), flagDZ ||| flagNF)) ∧
     (∀ a b, F.div r (zero a) (zero b) = invalid ∧ F.div r (inf a) (inf b) = invalid) ∧
     (∀ a b, F.div r (inf a) (zero b) = (inf (a != b), flagNF)) ∧
     (∀ x, finite x true → F.sqrt r x = invalid) ∧ F.sqrt r (inf true) = invalid ∧
     (∀ a, F.sqrt r (zero a) = (zero a, 0)) ∧ F.sqrt r (inf false) = (inf false, flagNF) ∧
     (∀ a b, F.add r (zero a) (zero b) = (zero (if a = b then a else r == .rdn), 0)))

/-- R189, R190, R195, R197 to R199, R205, R206: minimum, maximum, sign, class, selection, logic, shifts, permutation and
broadcast in every active lane. R190, R196: VCMP writes the bits of pD of the active lanes: each such bit is 1 when the
condition holds in every lane that maps to it, and the other bits stay; nothing is written where pD is p0 (R29). -/
def Obligations.LanewiseOperations : Prop :=
  ((∀ x : VN3,
     let w := vtyWidth x.t
     let f := vform x.q (vclass x.t) [x.d, x.a, x.b]
     let a := fun (u : State) i => lane w (u.rdV x.a) i
     let b := fun (u : State) i => lane w (u.rdV x.b) i
     (∀ t, x.t = .int t →
       LanesPut (.vmin x) f w x.d (fun u i => (if intOf t (a u i) ≤ intOf t (b u i) then a u i else b u i, 0)) ∧
       LanesPut (.vmax x) f w x.d (fun u i => (if intOf t (b u i) ≤ intOf t (a u i) then a u i else b u i, 0))) ∧
     (∀ t, x.t = .fp t →
       LanesPut (.vmin x) f w x.d (fun u i => (fmtOf t).minmax false (a u i) (b u i)) ∧
       LanesPut (.vmax x) f w x.d (fun u i => (fmtOf t).minmax true (a u i) (b u i))) ∧
     LanesPut (.vperm x) { f with cls := 14 } w x.d (fun u i => (a u (b u i % (512 / w)), 0))) ∧
   (∀ x : VN2,
     let w := vtyWidth x.t
     let f := vform x.q (vclass x.t) [x.d, x.a]
     let a := fun (u : State) i => lane w (u.rdV x.a) i
     (∀ t, x.t = .int t →
       LanesPut (.vabs x) f w x.d (fun u i => ((intOf t (a u i)).natAbs % 2 ^ w, 0)) ∧
       LanesPut (.vneg x) f w x.d (fun u i => ((2 ^ w - a u i) % 2 ^ w, 0))) ∧
     (∀ t, x.t = .fp t → ∀ neg : Bool,
       LanesPut (if neg then .vneg x else .vabs x) f w x.d (fun u i => signLane neg (.fp t) (a u i)))) ∧
   (∀ x : VclassF,
     let w := fpWidth x.f
     LanesPut (.vclass x) (vform x.q (vclass (.fp x.f)) [x.d, x.a]) w x.d
       (fun u i => (classLane (fmtOf x.f) (lane w (u.rdV x.a) i), 0))) ∧
   (∀ x : VselF,
     let w := vtyWidth x.t
     LanesPut (.vsel x) (vform x.q 14 [x.d, x.a, x.b] [] [.p x.c]) w x.d
       (fun u i => (lane w (u.rdV (if laneOn (u.me.r.rdP x.c) w i then x.a else x.b)) i, 0))) ∧
   (∀ x : VlogF,
     let w := tyWidth x.t
     let f := vform x.q 8 (x.d :: if x.op = .not then [x.a] else [x.a, x.b])
     LanesPut (.vlog x) f w x.d (fun u i =>
       let a := lane w (u.rdV x.a) i
       let b := lane w (u.rdV x.b) i
       (match x.op with
         | .and => a &&& b
         | .or => a ||| b
         | .xor => a ^^^ b
         | .andn => a &&& (2 ^ w - 1 - b)
         | .not => 2 ^ w - 1 - a, 0))) ∧
   (∀ x : VshF,
     let w := tyWidth x.t
     LanesPut (.vsh x) (vform x.q 8 [x.d, x.a, x.b]) w x.d (fun u i =>
       let a := lane w (u.rdV x.a) i
       let n := lane w (u.rdV x.b) i % w
       (match x.op with
         | .shl => a * 2 ^ n
         | .shr => a / 2 ^ n
         | .sar => (((if 2 ^ (w - 1) ≤ a then (a : Int) - 2 ^ w else a) / 2 ^ n) % 2 ^ w).toNat
         | .rot => a / 2 ^ n + a % 2 ^ n * 2 ^ (w - n), 0))) ∧
   (∀ x : VbcastF,
     LanesPut (.vbcast x) (vform x.q 14 [x.d] (srcOps x.b)) (vtyWidth x.t) x.d
       (fun u _ => bcastVal x.t (match x.b with | .reg r => u.rd r | .imm _ => 0) x.b))) ∧
  (∀ x : VcmpF,
     let w := vtyWidth x.t
     let f := vform x.q (vclass x.t) [x.a, x.b] [] [.p x.d]
     let c := fun (u : State) i => cmpLane x.cond x.t x.tot (lane w (u.rdV x.a) i) (lane w (u.rdV x.b) i)
     Queues (.vcmp x) f (fun s => SomeLane (s.me.r.mask x.q) w) id fun u ws fl =>
       let m := u.me.r.mask x.q
       (x.d = 0 → ws = []) ∧
       (x.d ≠ 0 → ∃ p, ws = [.p x.d p] ∧ ∀ j < 16, p.getLsbD j =
         if laneOn m w (32 * j / w) then
           decide (∀ i < 512 / w, w * i < 32 * (j + 1) → 32 * j < w * (i + 1) → (c u i).1 = true)
         else (u.me.r.rdP x.d).getLsbD j) ∧
       ∀ b < 8, fl.getLsbD b = decide (∃ i < 512 / w, laneOn m w i = true ∧ (c u i).2.getLsbD b = true))

/-- R62, R63, R189, R190, R203, R204: VRED leaves its tree's value in lane 0 and zero in every other lane, VSCAN the prefix
values in every lane, both over active lanes only and whatever the mask; an integer sum is the sum of the active lanes modulo
2^w, and an integer prefix sum that of the active lanes up to it. No guard is looked at. -/
def Obligations.ReductionsAndPrefixes : Prop :=
  let sum := fun (m : BitVec 16) (w : Nat) (v : VWord) (n : Nat) =>
    (((List.range n).filter (laneOn m w)).map (lane w v)).foldl (· + ·) 0 % 2 ^ w
  (∀ x : VredF,
    let w := vtyWidth (vmodTy x.m)
    let f := vform x.q 14 [x.d, x.a]
    Queues (.vred x) f (fun _ => True) id (fun u ws fl =>
      let m := u.me.r.mask x.q
      let r := redReg x.op x.m m (u.rdV x.a)
      ws = [.v x.d r.1 0] ∧ fl = r.2 ∧ (∀ i < 512 / w, i ≠ 0 → lane w r.1 i = 0) ∧
      (∀ t, x.m = .int t → x.op = .sum → lane w r.1 0 = sum m w (u.rdV x.a) (512 / w) ∧ fl = 0))) ∧
  (∀ x : V2,
    let w := vtyWidth (vmodTy x.m)
    let f := vform x.q 14 [x.d, x.a]
    Queues (.vscan x) f (fun _ => True) id (fun u ws fl =>
      let m := u.me.r.mask x.q
      let r := scanReg x.m m (u.rdV x.a)
      ws = [.v x.d r.1 0] ∧ fl = r.2 ∧
      (∀ t, x.m = .int t → fl = 0 ∧ ∀ i < 512 / w, lane w r.1 i = sum m w (u.rdV x.a) (i + 1))))

/-- R200, R201, R202, R207, R208: conversion, special functions, extraction, insertion and move. VFN is charged for the steps
of R60, where how many lanes take the slow path is a free value (log entry 5). -/
def Obligations.ConversionsFunctionsAndMoves : Prop :=
  (∀ x : VcvtF,
    let vb := match x.b with | .v n => n | _ => x.a
    let gs := match x.b with | .g r => [r] | _ => []
    Queues (.vcvt x) (vform x.q 14 [x.d, x.a, vb] gs) (fun s => SomeLane (s.me.r.mask x.q) (fullWidth x.dst)) id fun u ws fl =>
      let r := cvtReg x.dst x.src x.r (u.me.r.mask x.q) (u.rdV x.d) (u.rdV x.a, u.rdH x.a) (u.rdV vb, u.rdH vb)
        (match x.b with | .g r => (u.rd r).toNat | _ => 0)
      ws = [.v x.d r.1 r.2.1] ∧ fl = r.2.2) ∧
  (∀ x : VfnF,
    let w := fpWidth x.f
    let q := fnQuads x.f
    ∀ s : State, s.issuesMasked (vform x.q 13 [x.d, x.a]) → SomeLane (s.me.r.mask x.q) w → ∃ v fl n,
      let u := s.took (vform x.q 13 [x.d, x.a])
      exec (.vfn x) s = .next (((State.chargeMore { u with free := u.free + 1 } 13 n).vop [.v x.d v 0] fl).retire 13) ∧
      q.1 - 1 ≤ n ∧ n ≤ q.1 - 1 + ((List.range (512 / w)).filter (laneOn (s.me.r.mask x.q) w)).length * q.2 ∧
      LanesOk (s.me.r.mask x.q) w (u.rdV x.d) v (fun i => (fmtOf x.f).fn x.fn x.r (lane w (u.rdV x.a) i)) fl) ∧
  (∀ x : VextF,
    let w := vtyWidth x.t
    let f := mkForm x.q 14 [x.b] [x.d] [.v x.a]
    let v := fun u : State => extVal x.t (lane w (u.rdV x.a) ((u.rd x.b).toNat % (512 / w)))
    Does (.vext x) f (fun u => u.slimRefuses x.d (v u) = false) (fun u => u.vop (gWrite x.d (v u)) 0) ∧
    Traps (.vext x) f (fun u => u.slimRefuses x.d (v u) = true) 0x0B v) ∧
  (∀ x : VinsF,
    let w := vtyWidth x.t
    let f := mkForm x.q 14 [x.a, x.b] [] [.v x.d]
    ∀ s : State, s.issues f → ∃ v,
      let u := s.took f
      exec (.vins x) s = .next ((u.vop [.v x.d v 0] 0).retire 14) ∧
      ∀ i < 512 / w, lane w v i =
        if i = (u.rd x.b).toNat % (512 / w) then (u.rd x.a).toNat % 2 ^ w else lane w (u.rdV x.d) i) ∧
  (∀ x : VN2,
    let w := vtyWidth x.t
    Queues (.vmov x) (vform x.q 14 [x.d, x.a]) (fun s => SomeLane (s.me.r.mask x.q) w) id fun u ws fl =>
      ∃ v, ws = [.v x.d v (u.rdH x.a)] ∧ fl = 0 ∧
        ∀ i < 512 / w, lane w v i = lane w (u.rdV (if laneOn (u.me.r.mask x.q) w i then x.a else x.d)) i)

/-- R35 to R37, R210 to R213, R216: the block instructions act on every active block. R37: adding two blocks, neither of them
a NaN block, whose micro-exponents are all 1, with one exponent, and whose element sums fit: element by element, exactly,
with no flag. And a NaN block as either operand gives a NaN block and sets NF (R36). -/
def Obligations.BlockArithmetic : Prop :=
  ((∀ x : B3,
     let f := vform x.q 15 [x.d, x.a, x.b]
     BlocksPut (.badd x) f x.k x.d (fun u b => addBlk x.k (u.blk x.k x.a b) (u.blk x.k x.b b)) ∧
     BlocksPut (.bmul x) f x.k x.d (fun u b => mulBlk x.k (u.blk x.k x.a b) (u.blk x.k x.b b))) ∧
   (∀ x : B4, BlocksPut (.bfma x) (vform x.q 15 [x.d, x.a, x.b, x.c]) x.k x.d
     (fun u b => fmaBlk x.k (u.blk x.k x.a b) (u.blk x.k x.b b) (u.blk x.k x.c b))) ∧
   (∀ x : B2, BlocksPut (.bnorm x) (vform x.q 15 [x.d, x.a]) x.k x.d (fun u b => normBlk x.k (u.blk x.k x.a b))) ∧
   (∀ x : BrenormF, BlocksPut (.brenorm x) (vform x.q 15 [x.d, x.a] [x.b]) x.k x.d
     (fun u b => renormBlk x.k (min ((u.rd x.b).toNat % 256) 0xFE) (u.blk x.k x.a b))) ∧
   (∀ x : BfgF, BlocksPut (.bscale x) (vform x.q 15 [x.d, x.a] [x.b]) x.k x.d
     (fun u b => scaleBlk x.k ((fmtOf x.f).unpack ((u.rd x.b).toNat % 2 ^ fpWidth x.f)) (u.blk x.k x.a b))) ∧
   (∀ x : BscaleKF, BlocksPut (.bscalePow2 x) (vform x.q 15 [x.d, x.a]) x.k x.d
     (fun u b => scaleBlk x.k (.fin false 1 x.e.toInt) (u.blk x.k x.a b)))) ∧
  (∀ (k : BlkTy) (a b : Blk),
     (a.isNan = true ∨ b.isNan = true → addBlk k a b = (Blk.nan, flagNF)) ∧
     (∀ e, a.e = e → b.e = e → e < 0xFF → a.d = 255 → b.d = 255 → a.el.length = 16 → b.el.length = 16 →
       (∀ i < 16, (a.el.getD i 0 + b.el.getD i 0).natAbs < pbLim k) →
       addBlk k a b = (⟨e, 255, (List.range 16).map fun i => a.el.getD i 0 + b.el.getD i 0⟩, 0)))

/-- R214, R215, R217: BQUANT writes the blocks of its sources at the position that gC names, BDEQ expands the part that gB
names, and BDOT adds the dot product of block i to lane i. -/
def Obligations.BlockConversions : Prop :=
  (∀ x : BquantF,
    let f := vform x.q 15 (if x.f = .f64 then [x.d, x.a, x.b] else [x.d, x.a]) [x.c]
    Queues (.bquant x) f (fun s => quantHolds x s = true) id fun u ws fl =>
      let p := quantPos x (u.rd x.c)
      let m := u.me.r.mask x.q
      ∃ v h, ws = [.v x.d v h] ∧
        (∀ b < pbCount x.k,
          let on := blkOn x.k m b = true ∧ p ≤ b ∧ b < p + quantBlocks x.f
          let y := (quantise x.k (quantSrc x.f (u.rdV x.a) (u.rdV x.b) (b - p))).1
          lane (16 * pbBits x.k) v b =
            (if on then packNat (pbBits x.k) (y.codes x.k) % 2 ^ (16 * pbBits x.k)
             else lane (16 * pbBits x.k) (u.rdV x.d) b) ∧
          h.toNat / 2 ^ (16 * b) % 2 ^ 16 = if on then y.hdr % 2 ^ 16 else (u.rdH x.d).toNat / 2 ^ (16 * b) % 2 ^ 16) ∧
        (fl.getLsbD 5 = true ↔ ∃ b < pbCount x.k, blkOn x.k m b = true ∧ p ≤ b ∧ b < p + quantBlocks x.f ∧
          (quantise x.k (quantSrc x.f (u.rdV x.a) (u.rdV x.b) (b - p))).1.isNan = true)) ∧
  (∀ x : BfgF,
    let w := fpWidth x.f
    let e := 512 / w
    LanesPut (.bdeq x) (vform x.q 15 [x.d, x.a] [x.b]) w x.d (fun u i =>
      let p := (u.rd x.b).toNat % (pbCount x.k * 16 / e)
      deqLane (fmtOf x.f) x.k (u.blk x.k x.a ((p * e + i) / 16)) ((p * e + i) % 16))) ∧
  (∀ x : B3,
    let n := 2 ^ pbCount x.k - 1
    Queues (.bdot x) (vform x.q 15 [x.d, x.a, x.b]) (fun s => s.me.r.mask x.q &&& BitVec.ofNat 16 n ≠ 0) id fun u ws fl =>
      ∃ v, ws = [.v x.d v (u.rdH x.d)] ∧
        LanesOk (u.me.r.mask x.q &&& BitVec.ofNat 16 n) 32 (u.rdV x.d) v
          (fun i => dotLane x.k (u.blk x.k x.a i) (u.blk x.k x.b i) (lane 32 (u.rdV x.d) i)) fl)

/-- R192, R209: the registers that a vector operation writes pend until it completes; at VECTOR_COMPLETE its writes and its
flags appear together, in the slot that issued it; FLG waits for the slot's operations, reads the flags and clears those it
names. -/
def Obligations.VectorCompletionAndFlags : Prop :=
  (∀ (k : CoreId) (i : Nat) (o : VecOp) (s : State), (s.core k).vops[i]? = some o →
    ∃ t, exec (.vectorComplete k i) s = .next t ∧
      (t.core k).vops = (s.core k).vops.eraseIdx i ∧
      (t.slot k o.slot).r = { o.writes.foldl Regs.write (s.slot k o.slot).r with
        flags := (s.slot k o.slot).r.flags ||| o.flags } ∧
      (∀ n, n ≠ o.slot → t.slot k n = s.slot k n) ∧ (∀ j, j ≠ k → t.core j = s.core j) ∧ t.gmem = s.gmem) ∧
  (let idle := fun u : State => ∀ o ∈ (u.core u.cur.core).vops, o.slot ≠ u.cur.slot
   let clear := fun (m : BitVec 8) (u : State) =>
     u.modRegs u.cur.core u.cur.slot fun r => { r with flags := r.flags &&& ~~~m }
   let flg := fun (i : Instr) (f : Form) (d : GOp) (m : State → BitVec 8) =>
     Does i f (fun u => idle u ∧ u.slimRefuses d (u.me.r.flags.setWidth 64) = false)
       (fun u => (clear (m u) u).wr d (u.me.r.flags.setWidth 64)) ∧
     Waits i f (fun u => ¬ idle u) .unit
   (∀ d, flg (.flg d) (mkForm Guard.always 1 [] [d]) d (fun _ => 0xFF)) ∧
   (∀ x : GG, flg (.flgMasked x) (mkForm x.q 1 [x.a] [x.d]) x.d (fun u => (u.rd x.a).extractLsb' 0 8)))

/-! ### Local memory (02, 09) -/

/-- R242, R243: LD and ST of every type. The address is gA plus the offset within gA's window; outside the local window it
raises WINDOW, misaligned ALIGN_ACCESS, both with the address in TADDR; an uncorrectable word raises UNCORRECTABLE at the
load (R372); else LD writes the extended value and ST the low bytes of the source. R248: AMO writes the old value, extended,
to gD and the new value of its operation to memory; the eight operations of R248 on the operand's width. -/
def Obligations.LocalLoadsAndStores : Prop :=
  ((∀ a d : Word, (addOff a d).toNat / 2 ^ 60 = a.toNat / 2 ^ 60 ∧
     (addOff a d).toNat % 2 ^ 60 = (a.toNat + d.toNat) % 2 ^ 60) ∧
   (∀ a : Word, isLocal a = true ↔ 0xE000000000000000 ≤ a.toNat ∧ a.toNat ≤ 0xE00000000000FFFF) ∧
   (∀ x : LdF,
     let n := tyBytes x.t
     let ea := fun u : State => addOff (u.rd x.a) (match x.o with
       | .reg r => u.rd r
       | .imm (.i16 v) => v.signExtend 64
       | .imm (.i32 v) => v.signExtend 64)
     let v := fun u : State => putTy x.t (u.sramAt (ea u) n)
     let f := ldForm x.q 5 x.a x.o [x.d]
     let g := ldForm x.q 5 x.a x.o [] [x.d]
     let good := fun u : State => LocalOk (ea u) n ∧ u.sound (ea u) n
     Does (.ld x) f (fun u => good u ∧ u.slimRefuses x.d (v u) = false) (fun u => (u.corrects (ea u) n).wr x.d (v u)) ∧
     Traps (.ld x) f (fun u => good u ∧ u.slimRefuses x.d (v u) = true) 0x0B v ∧
     LocalTraps (.ld x) f ea n ∧
     (∀ w, Traps (.ld x) f (fun u => LocalOk (ea u) n ∧ (u.core u.cur.core).badWord (offOf (ea u)) n = some w) 0x0F
       (fun _ => localAddr w)) ∧
     Does (.st x) g (fun u => LocalOk (ea u) n) (fun u => u.sramPut u.cur.core (offOf (ea u)) n (u.rd x.d).toNat (some u.cur.slot)) ∧
     LocalTraps (.st x) g ea n)) ∧
  ((∀ x : AmoF,
     let ty := amoIntTy x.t
     let n := tyBytes ty
     let ea := fun u : State => u.eaOpt x.a x.off
     let f := mkForm x.q 5 (x.a :: x.b :: (if x.op = .cas then [x.c] else [])) [x.d]
     let old := fun u : State => putTy ty (u.sramAt (ea u) n)
     Does (.amo x) f (fun u => LocalOk (ea u) n ∧ u.sound (ea u) n ∧ u.slimRefuses x.d (old u) = false)
       (fun u => ((u.corrects (ea u) n).wr x.d (old u)).sramPut u.cur.core (offOf (ea u)) n
         (amoNew x.op x.t (old u) (u.rd x.b) (u.rd x.c)).toNat (some u.cur.slot)) ∧
     (∀ w, Traps (.amo x) f (fun u => LocalOk (ea u) n ∧ (u.core u.cur.core).badWord (offOf (ea u)) n = some w) 0x0F
       (fun _ => localAddr w)) ∧
     LocalTraps (.amo x) f ea n) ∧
   (∀ (t : AmoTy) (old b c : Word),
     let ty := amoIntTy t
     let new := fun op => getTy ty (amoNew op t old b c)
     let x := getTy ty old
     let y := getTy ty b
     (new .add - (x + y)) % 2 ^ tyWidth ty = 0 ∧ new .swap = y ∧ (x = y → new .cas = getTy ty c) ∧ (x ≠ y → new .cas = x) ∧
     new .min = min x y ∧ new .max = max x y ∧
     let pat := fun v : Word => v.toNat % 2 ^ tyWidth ty
     let bits := fun op => pat (amoNew op t old b c)
     bits .and = pat old &&& pat b ∧ bits .or = pat old ||| pat b ∧ bits .xor = pat old ^^^ pat b))

/-- R20, R244, R245: LDS waits while its granule is empty, then loads, and `.c` empties the granule as it retires; STF stores
and fills the granule; FESET sets or clears a run of granules and FETEST reads one. -/
def Obligations.FullEmptyBits : Prop :=
  let bit := fun (u : State) (g : Nat) => (u.core u.cur.core).mem.full.getLsbD g
  (∀ x : LdsF,
    let n := tyBytes x.t
    let ea := fun u : State => u.ea x.a x.o
    let v := fun u : State => putTy x.t (u.sramAt (ea u) n)
    let f := ldForm x.q 5 x.a x.o [x.d]
    let full := fun u : State => bit u (offOf (ea u) / 16) = true
    Does (.lds x) f (fun u => LocalOk (ea u) n ∧ full u ∧ u.sound (ea u) n ∧ u.slimRefuses x.d (v u) = false)
      (fun u =>
        let t := (u.corrects (ea u) n).wr x.d (v u)
        if x.clr then t.setFull u.cur.core (offOf (ea u) / 16) 1 false else t) ∧
    Waits (.lds x) f (fun u => LocalOk (ea u) n ∧ ¬ full u) .granule ∧ LocalTraps (.lds x) f ea n) ∧
  (∀ x : LdF,
    let n := tyBytes x.t
    let ea := fun u : State => u.ea x.a x.o
    let f := ldForm x.q 5 x.a x.o [] [x.d]
    Does (.stf x) f (fun u => LocalOk (ea u) n)
      (fun u => (u.sramPut u.cur.core (offOf (ea u)) n (u.rd x.d).toNat (some u.cur.slot)).setFull u.cur.core (offOf (ea u) / 16) 1 true) ∧
    LocalTraps (.stf x) f ea n) ∧
  (∀ (x : FesetF) (b : Bool),
    let f := mkForm x.q 5 (x.a :: r16Ops x.n) []
    let n := fun u : State => match x.n with | .imm v => v.toNat | .reg r => (u.rd r).toNat % 2 ^ 13
    let i := if b then Instr.fesetFull x else Instr.fesetEmpty x
    Does i f (fun u => LocalOk (u.rd x.a) 16 ∧ n u = 0) id ∧
    Does i f (fun u => LocalOk (u.rd x.a) 16 ∧ n u ≠ 0 ∧ offOf (u.rd x.a) / 16 + n u ≤ 4096)
      (fun u => u.setFull u.cur.core (offOf (u.rd x.a) / 16) (n u) b) ∧
    Traps i f (fun u => LocalOk (u.rd x.a) 16 ∧ 4096 < offOf (u.rd x.a) / 16 + n u) 0x07 (fun u => u.rd x.a) ∧
    LocalTraps i f (fun u => u.rd x.a) 16) ∧
  (∀ x : FetestF,
    let f := mkForm x.q 5 (x.a :: r16Ops x.n) [x.d]
    let n := fun u : State => match x.n with | .imm v => v.toNat | .reg r => (u.rd r).toNat % 2 ^ 7
    ∃ v : BitVec 4096 → Nat → Nat → Word,
      (∀ full g m i, m ≤ 64 → i < 64 → (v full g m).getLsbD i = (decide (i < m) && full.getLsbD (g + i))) ∧
      Puts (.fetest x) f x.d (fun u => v (u.core u.cur.core).mem.full (offOf (u.rd x.a) / 16) (n u))
        (ok := fun u => LocalOk (u.rd x.a) 16 ∧ n u ≠ 0 ∧ n u ≤ 64 ∧ offOf (u.rd x.a) / 16 + n u ≤ 4096) ∧
      Traps (.fetest x) f (fun u => LocalOk (u.rd x.a) 16 ∧ (n u = 0 ∨ 64 < n u)) 0x09 (fun u => BitVec.ofNat 64 (n u)) ∧
      Traps (.fetest x) f (fun u => LocalOk (u.rd x.a) 16 ∧ n u ≠ 0 ∧ n u ≤ 64 ∧ 4096 < offOf (u.rd x.a) / 16 + n u) 0x07
        (fun u => u.rd x.a) ∧
      LocalTraps (.fetest x) f (fun u => u.rd x.a) 16) ∧
  (∀ (f : BitVec 4096) (g n : Nat) (b : Bool) (i : Nat), g + n ≤ 4096 → i < 4096 →
    (setFullRun f g n b).getLsbD i = if g ≤ i ∧ i < g + n then b else f.getLsbD i)

/-- R246, R247: LDV, STV, LDB and STB: the active lanes or blocks are loaded or stored, the others of the register or of
memory are as before, and a load's header lane is zero or the loaded headers. -/
def Obligations.LocalVectors : Prop :=
  (∀ x : LdvF,
    let ea := fun u : State => u.ea x.a x.o
    let f := ldForm x.q 6 x.a x.o [] [] [.v x.d]
    ∀ s : State, s.issuesMasked f → s.me.r.mask x.q ≠ 0 →
      let u := s.took f
      let m := s.me.r.mask x.q
      let o := offOf (ea u)
      (LocalOk (ea u) 64 → u.sound (ea u) 64 → ∃ v,
        exec (.ldv x) s = .next (((u.corrects (ea u) 64).wrV x.d v 0).retire 6) ∧
        ∀ i < 16, lane 32 v i =
          if m.getLsbD i then (u.core u.cur.core).mem.sram.readLE (o + 4 * i) 4 else lane 32 (u.rdV x.d) i) ∧
      (LocalOk (ea u) 64 → (u.core u.cur.core).MemOk → ∃ t c, exec (.stv x) s = .next (State.retire t 6) ∧ t = u.setCore u.cur.core c ∧
        c.slots = (u.core u.cur.core).slots ∧ c.mem = { (u.core u.cur.core).mem with sram := c.mem.sram } ∧
        ∀ a, c.mem.sram.get a =
          if o ≤ a ∧ a < o + 64 ∧ m.getLsbD ((a - o) / 4) then BitVec.ofNat 8 ((u.rdV x.d).toNat / 256 ^ (a - o))
          else (u.core u.cur.core).mem.sram.get a)) ∧
  (∀ x : LdbF,
    let f := mkForm x.q 6 [x.a, x.b] [] [.v x.d]
    let k := match x.off with | none => 0#64 | some (.i16 v) => v.signExtend 64 | some (.i32 v) => v.signExtend 64
    let n := 2 * pbCount x.k
    let sz := 16 * pbBits x.k
    let e := fun u : State => addOff (u.rd x.a) (k * 64)
    let h := fun u : State => addOff (u.rd x.b) (k * BitVec.ofNat 64 n)
    let good := fun u : State =>
      LocalOk (e u) (if x.k = .pb4 then 8 else 16) ∧ LocalOk (h u) 2 ∧ offOf (e u) + 64 ≤ 65536 ∧ offOf (h u) + n ≤ 65536
    ∀ s : State, s.issuesMasked f → (∃ b < pbCount x.k, blkOn x.k (s.me.r.mask x.q) b = true) →
      let u := s.took f
      let m := s.me.r.mask x.q
      (good u → u.sound (e u) 64 → (u.corrects (e u) 64).sound (h u) n → ∃ v w,
        exec (.ldb x) s = .next ((((u.corrects (e u) 64).corrects (h u) n).wrV x.d v w).retire 6) ∧
        ∀ b < pbCount x.k, lane sz v b =
            (if blkOn x.k m b then u.sramAt (e u + BitVec.ofNat 64 (sz / 8 * b)) (sz / 8) else lane sz (u.rdV x.d) b) ∧
          w.toNat / 2 ^ (16 * b) % 2 ^ 16 =
            if blkOn x.k m b then u.sramAt (h u + BitVec.ofNat 64 (2 * b)) 2 else (u.rdH x.d).toNat / 2 ^ (16 * b) % 2 ^ 16) ∧
      (good u → exec (.stb x) s = .next (((List.range (pbCount x.k)).foldl (fun t b =>
        if blkOn x.k m b then
          (t.sramPut u.cur.core (offOf (e u) + sz / 8 * b) (sz / 8) (lane sz (u.rdV x.d) b) (some u.cur.slot)).sramPut u.cur.core
            (offOf (h u) + 2 * b) 2 ((u.rdH x.d).toNat / 2 ^ (16 * b) % 2 ^ 16) (some u.cur.slot)
        else t) u).retire 6)))

/-- The frames of the register instructions, transfers, vector operations, and local and global loads and stores: wherever one
of them answers a next state in which its slot is not trapped, nothing changes but its destination, the flags where R159 has
it, and the bytes that it stores (for AMO, ST, STF and STV those of its own address). A vector or block operation changes no register
of the slot until it completes (R192), and a global access no byte of memory until it is performed (R249). -/
def Obligations.RegisterAndLocalFrames : Prop :=
  (∀ x : Alu2, let ss := x.a :: srcOps x.b
    (∀ i ∈ [Instr.add x, .sub x, .mul x, .mulh x, .and x, .or x, .xor x, .andn x, .shl x, .shr x, .sar x, .rot x, .min x, .max x],
      Frames i ss [gopReg x.d]) ∧
    ∀ i ∈ [Instr.div x, .rem x], Frames i ss [gopReg x.d] true) ∧
  (∀ x : Alu1, ∀ i ∈ [Instr.clz x, .ctz x, .popc x, .abs x, .neg x, .ext x], Frames i [x.a] [gopReg x.d]) ∧
  (∀ x : CmpF, Frames (.cmp x) (x.a :: srcOps x.b) [.p x.d]) ∧
  (∀ x : MoviF, Frames (.movi x) [] [gopReg x.d]) ∧ (∀ x : MovhiF, Frames (.movhi x) [] [gopReg x.d]) ∧
  (∀ x : BitF, Frames (.bfx x) [x.a] [gopReg x.d] ∧ Frames (.bfi x) [x.a] [gopReg x.d]) ∧
  (∀ x : LdF,
    Frames (.ld x) (x.a :: srcOps x.o) [gopReg x.d] ∧
    (∀ i ∈ [Instr.st x, .stf x], Frames i (x.a :: srcOps x.o ++ [x.d]) []
      (st := fun s a =>
        let o := offOf ((s.took (ldForm x.q 5 x.a x.o [] [x.d])).ea x.a x.o)
        o ≤ a ∧ a < o + tyBytes x.t))) ∧
  (∀ x : LdvF,
    Frames (.ldv x) (x.a :: srcOps x.o) [.v x.d] ∧
    Frames (.stv x) (x.a :: srcOps x.o) [] (st := fun s a =>
      let o := offOf ((s.took (ldForm x.q 6 x.a x.o [] [] [.v x.d])).ea x.a x.o)
      o ≤ a ∧ a < o + 64)) ∧
  (∀ x : AmoF, Frames (.amo x) (x.a :: x.b :: (if x.op = .cas then [x.c] else [])) [gopReg x.d] (st := fun s a =>
    let o := offOf ((s.took (mkForm x.q 5 (x.a :: x.b :: (if x.op = .cas then [x.c] else [])) [x.d])).eaOpt x.a x.off)
    o ≤ a ∧ a < o + tyBytes (amoIntTy x.t))) ∧
  (∀ x : SelF, Frames (.sel x) [x.a, x.b] [gopReg x.d]) ∧ (∀ x : GG, Frames (.mov x) [x.a] [gopReg x.d]) ∧
  (∀ x : MadrF, Frames (.madr x) [x.a, x.b, x.c] [gopReg x.d]) ∧ (∀ x : LeaF, Frames (.lea x) [x.a, x.b] [gopReg x.d]) ∧
  (∀ x : PPP, ∀ i ∈ [Instr.pand x, .por x, .pxor x], Frames i [] [.p x.d]) ∧ (∀ x : PP, Frames (.pnot x) [] [.p x.d]) ∧
  (∀ x : PmovF, Frames (.pmov x) [x.a] [.p x.d]) ∧ (∀ x : PanyF, Frames (.pany x) [] [gopReg x.d]) ∧
  (∀ x : AptestF, Frames (.aptest x) [x.a] [.p x.d]) ∧ (∀ x : ApcvtF, Frames (.apcvt x) [x.a] [gopReg x.d]) ∧
  (∀ x : TaskidF, Frames (.taskid x) (r16Ops x.sel) [gopReg x.d]) ∧ (∀ x : TaggetF, Frames (.tagget x) (r16Ops x.t) [gopReg x.d]) ∧
  (∀ x : SemgetF, Frames (.semget x) [] [gopReg x.d]) ∧ Frames .nop [] [] ∧ Frames .yield [] [] ∧
  (∀ off, Frames (.br off) [] [] ∧ Frames (.call off) [] [.g 1] ∧ ∀ q, Frames (.brp q off) [] []) ∧
  (∀ x : BcmpF, Frames (.bcmp x) [x.d, x.a] []) ∧ (∀ x : G1, Frames (.jmpi x) [x.a] [] ∧ Frames (.calli x) [x.a] [.g 1]) ∧
  (∀ x : V3, ∀ i ∈ [Instr.vadd x, .vsub x, .vmul x], Frames i [] []) ∧ (∀ x : V4, Frames (.vfma x) [] []) ∧
  (∀ x : VF3, Frames (.vdiv x) [] []) ∧ (∀ x : B3, ∀ i ∈ [Instr.badd x, .bmul x, .bdot x], Frames i [] []) ∧
  (∀ x : LdgF, Frames (.ldg x) (x.a :: srcOps x.o) [gopReg x.d] ∧ Frames (.stg x) (x.a :: srcOps x.o ++ [x.d]) [])

/-! ### Global memory (04, 09, 14) -/

/-- R242, R249, R250: a global load, store or atomic whose destination does not make it wait is handed to the fabric and
retires: exactly one access of its kind, size, DPA and ordering joins the core's list, if the slot has room for it (16 loads
or AMOGs, 16 stores), and no byte of memory changes; without room it waits; a wrong window or alignment traps, in each of the
five instructions, at the issue that hands it over. R316: a port entry that a waiting head has used is the last used. R249: a load
or an AMOG with destination g2 or a channel register is issued once and waits for its data, which it writes as it retires; a
cause that comes back instead is raised there. -/
def Obligations.GlobalAccessesAreHandedOver : Prop :=
  (let room := fun (u : State) (ret : Bool) => (u.core u.cur.core).gRoom u.cur.slot ret = true
   let count := fun (t : State) => t.count t.cur.core 12 (some t.cur.slot)
   let full := fun (i : Instr) (s : State) => ∃ v, s.Used v ∧ exec i s = .next (v.waitFor .accessRoom)
   let glob := fun (va : Word) (n : Nat) => va.toNat < 2 ^ 60 ∧ va.toNat % n = 0
   let traps := fun (i : Instr) (f : Form) (first : State → Prop) (va : State → Word) (n : Nat) =>
     Traps i f (fun u => first u ∧ 2 ^ 60 ≤ (va u).toNat) 0x0A va ∧
     Traps i f (fun u => first u ∧ (va u).toNat < 2 ^ 60 ∧ (va u).toNat % n ≠ 0) 0x07 va
   (∀ (x : LdgF) (s t : State) (d : Nat),
     let f := ldForm x.q 7 x.a x.o [x.d]
     let u := s.took f
     let va := u.ea x.a x.o
     let n := tyBytes x.t
     s.issues f → lateDest x.d = false → glob va n → u.Xlates va 0 false t d →
       (room u true → ∃ a, exec (.ldg x) s = .next ((count (t.addAcc a)).retire 7) ∧
         a.slot = s.cur.slot ∧ a.gtid = s.me.gtid ∧ a.kind = .load ∧ a.va = va ∧ a.dpa = d ∧ a.size = n ∧ a.ty = x.t ∧
         a.dest = destReg x.d ∧ a.acq = x.ord.isSome ∧ a.rel = false ∧ a.performed = false ∧ a.holds = false) ∧
       (¬ room u true → full (.ldg x) s)) ∧
   (∀ (x : LdgF) (s t : State) (d : Nat),
     let f := ldForm x.q 7 x.a x.o [] [x.d]
     let u := s.took f
     let va := u.ea x.a x.o
     let n := tyBytes x.t
     s.issues f → glob va n → u.Xlates va 1 false t d →
       (room u false → ∃ a, exec (.stg x) s = .next ((t.addAcc a).retire 7) ∧
         a.slot = s.cur.slot ∧ a.gtid = s.me.gtid ∧ a.kind = .store ∧ a.va = va ∧ a.dpa = d ∧ a.size = n ∧
         a.data = (u.rd x.d).setWidth 512 ∧ (∀ i < 64, a.mask.getLsbD i = true) ∧
         a.rel = x.ord.isSome ∧ a.acq = false ∧ a.performed = false) ∧
       (¬ room u false → full (.stg x) s)) ∧
   (∀ (x : LdgvF) (s t : State) (d : Nat),
     let f := ldForm x.q 7 x.a x.o [] [] [.v x.d]
     let u := s.took f
     let va := u.ea x.a x.o
     let m := s.me.r.mask x.q
     s.issuesMasked f → m ≠ 0 → glob va 64 →
       (room u true → u.Xlates va 0 false t d → ∃ a, exec (.ldgv x) s = .next ((count (t.addAcc a)).retire 7) ∧
         a.slot = s.cur.slot ∧ a.kind = .load ∧ a.va = va ∧ a.dpa = d ∧ a.size = 64 ∧ a.dest = some (.v x.d) ∧ a.lanes = m ∧
         a.acq = x.ord.isSome ∧ a.performed = false) ∧
       (¬ room u true → u.Xlates va 0 false t d → full (.ldgv x) s) ∧
       (¬ room u false → u.Xlates va 1 (m == 0xFFFF) t d → full (.stgv x) s) ∧
       (room u false → u.Xlates va 1 (m == 0xFFFF) t d → ∃ a, exec (.stgv x) s = .next ((t.addAcc a).retire 7) ∧
         a.slot = s.cur.slot ∧ a.kind = .store ∧ a.va = va ∧ a.dpa = d ∧ a.size = 64 ∧ a.data = u.rdV x.d ∧
         (∀ i < 64, a.mask.getLsbD i = m.getLsbD (i / 4)) ∧ a.rel = x.ord.isSome ∧ a.performed = false)) ∧
   (∀ (x : LdgvF) (s : State),
     let f := ldForm x.q 7 x.a x.o [] [] [.v x.d]
     let va := (s.took f).ea x.a x.o
     s.issuesMasked f → s.me.r.mask x.q ≠ 0 → ∀ i ∈ [Instr.ldgv x, .stgv x],
       (2 ^ 60 ≤ va.toNat → exec i s = .next (s.takeTrap s.cur.core s.cur.slot 0x0A va)) ∧
       (va.toNat < 2 ^ 60 → va.toNat % 64 ≠ 0 → exec i s = .next (s.takeTrap s.cur.core s.cur.slot 0x07 va))) ∧
   (∀ (x : AmogF) (s t : State) (d : Nat),
     let f := mkForm x.q 7 (x.a :: x.b :: (if x.op = .cas then [x.c] else [])) [x.d]
     let u := s.took f
     let va := u.eaOpt x.a x.off
     let n := tyBytes (amoIntTy x.t)
     s.issues f → lateDest x.d = false → glob va n → u.Xlates va 2 false t d →
       (¬ room u (destReg x.d).isSome → full (.amog x) s) ∧
       (room u (destReg x.d).isSome → ∃ a, exec (.amog x) s = .next (State.retire (if (destReg x.d).isSome then count (t.addAcc a) else t.addAcc a) 7) ∧
         a.slot = s.cur.slot ∧ a.kind = .amog ∧ a.va = va ∧ a.dpa = d ∧ a.size = n ∧ a.op = x.op ∧ a.ty = amoIntTy x.t ∧
         a.data = (u.rd x.b).setWidth 512 ∧ a.cmp = u.rd x.c ∧ a.dest = destReg x.d ∧ a.performed = false ∧
         (a.acq = true ↔ x.kind = .acq ∨ x.kind = .full) ∧ (a.rel = true ↔ x.kind = .rel ∨ x.kind = .full))) ∧
   (∀ x : AmogF, traps (.amog x) (mkForm x.q 7 (x.a :: x.b :: (if x.op = .cas then [x.c] else [])) [x.d])
     (fun u => lateDest x.d = true → u.me.asked = false) (fun u => u.eaOpt x.a x.off) (tyBytes (amoIntTy x.t))) ∧
   (∀ x : LdgF,
     traps (.ldg x) (ldForm x.q 7 x.a x.o [x.d]) (fun u => lateDest x.d = true → u.me.asked = false)
       (fun u => u.ea x.a x.o) (tyBytes x.t) ∧
     traps (.stg x) (ldForm x.q 7 x.a x.o [] [x.d]) (fun _ => True) (fun u => u.ea x.a x.o) (tyBytes x.t))) ∧
  (∀ (i : Instr) (f : Form) (d : GOp),
     (∃ x, i = .ldg x ∧ f = ldForm x.q 7 x.a x.o [x.d] ∧ d = x.d) ∨
     (∃ x, i = .amog x ∧ f = mkForm x.q 7 (x.a :: x.b :: (if x.op = .cas then [x.c] else [])) [x.d] ∧ d = x.d) →
     d = .g 2 ∨ (∃ n, d = .c n) →
     (∀ v, Puts i f d (fun _ => v) (ok := fun u => u.me.asked = true ∧ u.me.reply = some (.value v))) ∧
     (∀ c a, Traps i f (fun u => u.me.asked = true ∧ u.me.reply = some (.trap c a)) c (fun _ => a)) ∧
     Waits i f (fun u => u.me.asked = true ∧ u.me.reply = none) .load)

/-- R120, R122, R249: GLOBAL_ACCESS_PERFORM reads or writes its bytes at one instant: a load's value is what memory holds, a
store writes the bytes of its mask and no other, and an AMOG leaves the new value of its operation (R248) and returns the old
one. It is not performed while an earlier access of the slot that overlaps is not, nor, where its quay's queue of 512 has no
place for it (R398), until there is one. (Stated with no order log: mode 0 of R389.) R249, R368: GLOBAL_LOAD_RETURN delivers a performed
value: to its register, extended by the type, with the access gone from the list; or to the head that waits for it. A line
that fails its check is fetched again, then is bad. -/
def Obligations.GlobalAccessesArePerformed : Prop :=
  (∀ (k : CoreId) (i : Nat) (a : GAcc) (s : State),
     (s.core k).gaccs[i]? = some a → a.performed = false → a.net = none → mayPerform (s.core k).gaccs i a = true →
     a.kind ≠ .counterAdd → (∀ t ap off, homeOf a.dpa ≠ some (.remote t ap off)) →
     a.queued = true ∨ s.quayRoom (s.quayOf a.dpa) (a.kind == .load) = true → s.unlogged k → s.gmem.wf = true →
     let data := fun j => BitVec.ofNat 8 (a.data.toNat / 256 ^ j)
     ∃ t, exec (.globalAccessPerform k i false) s = .next t ∧
       (∀ j, (t.core j).mem.sram = (s.core j).mem.sram) ∧ t.gmem.wf = true ∧
       (a.kind = .load → t.gmem = s.gmem ∧ ∃ b, (t.core k).gaccs[i]? = some b ∧ b.performed = true ∧ b.dest = a.dest ∧
         b.value = BitVec.ofNat 512 (s.gmem.readLE a.dpa a.size)) ∧
       (a.kind = .store → (t.core k).gaccs = (s.core k).gaccs.eraseIdx i ∧ (a.size ≤ 64 → ∀ x, t.gmem.get x =
         if a.dpa ≤ x ∧ x < a.dpa + a.size ∧ a.mask.getLsbD (x - a.dpa) then data (x - a.dpa) else s.gmem.get x)) ∧
       (a.kind = .amog → (∀ x, x < a.dpa ∨ a.dpa + a.size ≤ x → t.gmem.get x = s.gmem.get x) ∧
         (∀ ty : AmoTy, a.ty = amoIntTy ty → t.gmem.readLE a.dpa a.size =
           (amoNew a.op ty (putTy a.ty (s.gmem.readLE a.dpa a.size)) (a.data.setWidth 64) a.cmp).toNat % 2 ^ (8 * a.size)) ∧
         (a.returns = true → ∃ b, (t.core k).gaccs[i]? = some b ∧ b.performed = true ∧
           b.value = BitVec.ofNat 512 (s.gmem.readLE a.dpa a.size)))) ∧
  (∀ (k : CoreId) (i : Nat) (a : GAcc) (bad : Bool) (s : State),
     (s.core k).gaccs[i]? = some a → a.kind ≠ .counterAdd →
     (∀ (j : Nat) (b : GAcc), j < i → (s.core k).gaccs[j]? = some b → b.slot = a.slot → b.performed = false →
       b.kind ≠ .counterAdd → a.dpa < b.dpa + b.size → b.dpa < a.dpa + a.size →
       exec (.globalAccessPerform k i bad) s = .next s) ∧
     (a.queued = false → s.quayRoom (s.quayOf a.dpa) (a.kind == .load) = false →
       (∀ t ap off, homeOf a.dpa ≠ some (.remote t ap off)) → exec (.globalAccessPerform k i false) s = .next s)) ∧
  (∀ (k : CoreId) (i : Nat) (a : GAcc) (s : State),
     (s.core k).gaccs[i]? = some a → a.returns = true → a.performed = true → a.bad = 0 →
     (a.holds = false → ∃ t, exec (.globalLoadReturn k i false) s = .next t ∧
       (t.core k).gaccs = (s.core k).gaccs.eraseIdx i ∧ t.gmem = s.gmem ∧
       (∀ n, a.dest = some (.g n) → (t.slot k a.slot).r = (s.slot k a.slot).r.wrG n (putTy a.ty (a.value.toNat % 2 ^ 64))) ∧
       (∀ n, a.dest = some (.v n) → ∃ v, (t.slot k a.slot).r = (s.slot k a.slot).r.wrV n v 0 ∧
         ∀ j < 16, lane 32 v j = lane 32 (if a.lanes.getLsbD j then a.value else (s.slot k a.slot).r.v[n]) j)) ∧
     (a.holds = true → (s.slot k a.slot).st = .wait → (s.slot k a.slot).wait = .load → (s.slot k a.slot).asked = true →
       ∃ t, exec (.globalLoadReturn k i false) s = .next t ∧ (t.core k).gaccs = (s.core k).gaccs.eraseIdx i ∧
         (t.slot k a.slot).reply = some (.value (putTy a.ty (a.value.toNat % 2 ^ 64)))) ∧
     (a.retried = false → ∃ t, exec (.globalLoadReturn k i true) s = .next t ∧
       (t.core k).gaccs[i]? = some { a with retried := true } ∧ ∀ n, t.slot k n = s.slot k n) ∧
     (a.retried = true → a.holds = false → ∃ t, exec (.globalLoadReturn k i true) s = .next t ∧
       (t.core k).gaccs[i]? = some { a with bad := 0x0F } ∧ ∀ n, t.slot k n = s.slot k n))

/-- R118, R119, R124, R251, R252: FENCE retires once the slot's earlier accesses are performed as its kind asks, and waits
before (a load whose data came back bad has its data back); MON arms the slot's one watch on its line; MWAIT returns 6 with no
watch armed, else waits, and returns the watch's cause once it has ended, with the watch gone; the timeout of a waiting MWAIT ends the watch with cause 1. (MWAIT is stated with no order log.) -/
def Obligations.FencesAndWatches : Prop :=
  (∀ x : FenceF,
    let f := mkForm x.q 1 [] []
    let mine := fun (u : State) (a : GAcc) => a ∈ (u.core u.cur.core).gaccs ∧ a.slot = u.cur.slot ∧ a.kind ≠ .counterAdd
    let done := fun u : State =>
      (x.kind = .acq ∨ x.kind = .full → ∀ a, mine u a → a.kind = .store ∨ a.bad ≠ 0) ∧
      (x.kind = .rel ∨ x.kind = .full → ∀ a, mine u a → a.performed = true)
    Does (.fence x) f done id ∧ Waits (.fence x) f (fun u => ¬ done u) .fence) ∧
  (∀ (x : MonF) (s t : State) (d : Nat),
    let f := mkForm x.q 7 (x.a :: r16Ops x.o) []
    let u := s.took f
    let va := u.ea16 x.a x.o
    s.issues f → va.toNat < 2 ^ 60 → u.Xlates va 3 false t d →
      ∃ y, exec (.mon x) s = .next (State.retire y 7) ∧ y.me.watch = ⟨true, d / 64 * 64, none⟩ ∧ y.me.r = t.me.r ∧
        y.gmem = s.gmem ∧ ⟨y.quayOf d, d / 64 * 64, s.cur.core, s.cur.slot⟩ ∈ y.watches ∧
        ∀ w ∈ y.watches, w.core = s.cur.core → w.slot = s.cur.slot → w.line = d / 64 * 64) ∧
  (∀ x : MwaitF,
    let f := mkForm x.q 1 (r16Ops x.t) [x.d]
    let quiet := fun u : State => ∀ p, u.partOf u.cur.core = some p → (u.part p).ctx.logMode = 0
    let drop := fun u : State => u.disarm u.cur.core u.cur.slot
    let ends := fun (c : BitVec 3) (u : State) => quiet u ∧ u.slimRefuses x.d (c.setWidth 64) = false ∧
      (u.me.watch.ended = some c ∨ c = 6 ∧ u.me.watch.ended = none ∧ u.me.watch.armed = false)
    (∀ c, Does (.mwait x) f (ends c) (fun u => (drop u).wr x.d (c.setWidth 64))) ∧
    (∀ s : State, s.issues f → quiet s → s.me.watch.ended = none → s.me.watch.armed = true → ∃ t, exec (.mwait x) s = .next t ∧
      t.me.st = .wait ∧ t.me.wait = .watch ∧ t.me.pc = s.me.pc ∧ t.me.r = s.me.r ∧ t.gmem = s.gmem)) ∧
  (∀ (k : CoreId) (sl : Fin 4) (s : State),
    (s.slot k sl).st = .wait → (s.slot k sl).wait = .watch → (s.slot k sl).asked = true → (s.slot k sl).watch.armed = true →
    ∃ t, exec (.mwaitTimeout k sl) s = .next t ∧ (t.slot k sl).watch.ended = some 1 ∧ (t.slot k sl).watch.armed = false ∧
      (t.slot k sl).ev = true ∧ (t.slot k sl).r = (s.slot k sl).r)

/-! ### Messages, tags and actions (01, 03, 09, 13) -/

/-- R253 to R256: SEND, SENDV and SENDB form one message to the rank in gD, with the tag and the count of the form or of gD,
and the payload of the first L registers, of L words of SRAM, or of L blocks; they raise ACCESS for a bad count, unequal blocks
of a locked send or a bad rank, SENDV its window and alignment, and wait while their class queue of four is full (which
messages take a place in it is the model's choice, log entry 94). -/
def Obligations.SendingMessages : Prop :=
  (∀ (x : SendF) (s : State),
    let gD := s.rd x.d
    let tl := match x.tag with
      | none => (gD.extractLsb' 22 6, (gD.extractLsb' 28 4).toNat)
      | some v => (v.extractLsb' 0 6, (v.extractLsb' 6 4).toNat)
    let f := mkForm x.q 31 (x.d :: [x.a, x.b, x.c].take tl.2) [] [] (if x.cls = .sys then 1 else 0)
    let u := s.took f
    s.issues f →
      (tl.2 ≤ 3 → u.rankOk gD → u.sendRoom x.cls → ∃ m, exec (.send x) s = .next ((u.enqueueMsg m).retire 31) ∧
        s.messageOk m gD x.cls tl.1 false (([x.a, x.b, x.c].map u.rd).take tl.2)) ∧
      (3 < tl.2 → exec (.send x) s = .next (s.takeTrap s.cur.core s.cur.slot 0x09 gD)) ∧
      (tl.2 ≤ 3 → s.SendGated u (.send x) gD x.cls)) ∧
  (∀ (x : SendvF) (s : State),
    let f := mkForm x.q 31 [x.d, x.a] [] [] (if x.cls = .sys then 1 else 0)
    let u := s.took f
    let gD := u.rd x.d
    let a := u.rd x.a
    let tl := msgTag x.tag gD
    let count := tl.2 ≠ 0 ∧ tl.2 ≤ 9
    s.issues f → LocalOk a 8 →
      (count → offOf a + 8 * tl.2 ≤ 65536 → u.rankOk gD → u.sendRoom x.cls → u.sound a (8 * tl.2) →
        ∃ m, exec (.sendv x) s = .next (((u.corrects a (8 * tl.2)).enqueueMsg m).retire 31) ∧
          s.messageOk m gD x.cls tl.1 false
            ((List.range tl.2).map fun i => BitVec.ofNat 64 ((u.core u.cur.core).mem.sram.readLE (offOf a + 8 * i) 8))) ∧
      (¬ count → exec (.sendv x) s = .next (s.takeTrap s.cur.core s.cur.slot 0x09 gD)) ∧
      (count → 65536 < offOf a + 8 * tl.2 → exec (.sendv x) s = .next (s.takeTrap s.cur.core s.cur.slot 0x07 a)) ∧
      (count → offOf a + 8 * tl.2 ≤ 65536 → s.SendGated u (.sendv x) gD x.cls)) ∧
  (∀ x : SendvF, LocalTraps (.sendv x) (mkForm x.q 31 [x.d, x.a] [] [] (if x.cls = .sys then 1 else 0)) (fun u => u.rd x.a) 8) ∧
  (∀ (x : SendbF) (s : State),
    let f := mkForm x.q 31 [x.d] [] [.v x.a] (if x.cls = .sys then 1 else 0)
    let u := s.took f
    let gD := u.rd x.d
    let tl := msgTag x.tag gD
    let bs := (List.range tl.2).map fun b => u.blk x.k x.a b
    let count := tl.2 ≠ 0 ∧ tl.2 ≤ (if x.k = .pb8 then 4 else 7) - (if x.lock then 1 else 0)
    let same := x.lock = true → ∀ b ∈ bs, b.isNan = false ∧ b.e = (u.blk x.k x.a 0).e
    s.issues f →
      (count → same → u.rankOk gD → u.sendRoom x.cls → ∃ m, exec (.sendb x) s =
          .next (State.retire (if bs.any Blk.isNan then (u.enqueueMsg m).setMyFlags flagNF else u.enqueueMsg m) 31) ∧
        s.messageOk m gD x.cls tl.1 true (blkPayload x.k tl.2 (u.rdV x.a) (u.rdH x.a)) ∧
        m.payload.length = tl.2 * (if x.k = .pb4 then 1 else 2) + (tl.2 + 3) / 4) ∧
      (¬ count → exec (.sendb x) s = .next (s.takeTrap s.cur.core s.cur.slot 0x09 gD)) ∧
      (count → ¬ same → exec (.sendb x) s = .next (s.takeTrap s.cur.core s.cur.slot 0x09 0)) ∧
      (count → same → s.SendGated u (.sendb x) gD x.cls))

/-- R17, R26, R126, R253, R306, R370: MESSAGE_INJECT puts a queued message on the mesh with the next sequence number of its
source and destination, for the core that holds its rank, its flits closed by a trailer that fits them; MESSAGE_ARRIVAL drops
a repeated sequence number, and otherwise puts the message at the end of its class queue, or in phase 2 of a pre-emption, where
the queue is full, into the overflow area; a notice of free space goes to the core's notices; a message whose trailer does not
fit sets ERR in its tag and defers UNCORRECTABLE with the source rank and the tag to the tag's slot. (Arrival is stated with no
order log and for queues whose heads can be acted on; what the trailer's check finds, log entry 86.) -/
def Obligations.MessagesTravel : Prop :=
  (∀ (k : CoreId) (i : Nat) (m : Msg) (h : Held) (s : State),
    (s.core k).inj[i]? = some m → s.phaseOf k = .run → s.inTransit m = false →
    (∀ n ∈ (s.core k).inj.take i, n.cls = m.cls → s.inTransit n = true ∧ n.sameDst m = false) →
    s.heldOf m.vf m.launch = some h →
    (∀ e ∈ s.cores, ∀ g, e.2.held = some g → g.vf = m.vf → g.launch = m.launch → g = h) →
    ∃ t g, exec (.messageInject k i) s = .next t ∧ (t.core k).inj = (s.core k).inj.eraseIdx i ∧
      t.mesh = s.mesh ++ [⟨g, (s.route h m.dst.toNat).1, g.wire⟩] ∧ trailerOk g.wire 0 = true ∧ g.wire.length = m.payload.length + 2 ∧
      g.seq = (mget (s.core k).seqOut m.pair).getD 0 ∧ mget (t.core k).seqOut m.pair = some (g.seq + 1) ∧
      g.payload = m.payload ∧ g.dst = m.dst ∧ g.src = m.src ∧ g.cls = m.cls ∧ g.tag = m.tag ∧ g.block = m.block ∧
      t.gmem = s.gmem) ∧
  (∀ (i : Nat) (f : Flight) (s : State),
    let m := f.msg
    let k := f.target
    let new := mget (s.core k).seqIn m.pair ≠ some m.seq
    let note := fun t : State => t.mesh = s.mesh.eraseIdx i ∧ mget (t.core k).seqIn m.pair = some m.seq ∧ ∀ n, t.slot k n = s.slot k n
    s.mesh[i]? = some f → s.mayArrive i f = true → s.unlogged k →
      (trailerOk f.wire 0 = true →
        (¬ new → ∃ t, exec (.messageArrival i 0) s = .next t ∧ note t ∧ (t.core k).arr = (s.core k).arr ∧
          (t.core k).notices = (s.core k).notices) ∧
        (∀ r n u c, new → m.kind = .freeSpace r n u c → ∃ t, exec (.messageArrival i 0) s = .next t ∧ note t ∧
          (t.core k).arr = (s.core k).arr ∧ (t.core k).notices = (s.core k).notices ++ [(r, n, u, c)]) ∧
        (new → m.forBerth = false → (∀ r n u c, m.kind ≠ .freeSpace r n u c) →
          let arr := (s.core k).arr.set m.cls ((s.core k).arr[m.cls] ++ [m])
          (s.phaseOf k ≠ .drain2 → (s.core k).settled arr →
            ∃ t, exec (.messageArrival i 0) s = .next t ∧ note t ∧ (t.core k).arr = arr) ∧
          (s.phaseOf k = .drain2 → Config.arrivalDepth ≤ (s.core k).arr[m.cls].length →
            ∃ t, exec (.messageArrival i 0) s = .next t ∧ t.mesh = s.mesh.eraseIdx i ∧ (t.core k).arr = (s.core k).arr ∧
              (t.part (s.partNum k)).ctx.overflow = (s.part (s.partNum k)).ctx.overflow ++ [(k, m)]))) ∧
      (∀ err, trailerOk f.wire err = false → m.cls.val < 2 →
        let sl := tagSlot (s.core k).mem.tags[m.tag.toFin].word
        ∃ t, exec (.messageArrival i err) s = .next t ∧ t.mesh = s.mesh.eraseIdx i ∧ (t.core k).arr = (s.core k).arr ∧
          (t.core k).mem.tags[m.tag.toFin].word.getLsbD 58 = true ∧ (t.core k).mem.sram = (s.core k).mem.sram ∧
          ((s.slot k sl).st ≠ .halting → (s.slot k sl).st ≠ .empty → (t.slot k sl).deferred = addDeferredTo (s.slot k sl).deferred
            ⟨0x0F, m.src.setWidth 64 ||| (m.tag.setWidth 64 <<< 24), false, false⟩)))

/-- R71, R72, R74, R178: what the actions of a tag do with the head of their class queue: DELIVER writes a channel whose
presence is clear, DEPOSIT writes the payload's bytes into its granules and fills them, and discards a message that would
pass the end of SRAM, and INLINE starts the handler with the payload. DELIVER and DEPOSIT set the slot's EV. R36, R37, R72, R99:
ADDBLOCK adds each block of the payload to its block in SRAM, element bytes and header, fills every granule that it writes, and
sets the flags of the additions in the tag's slot. (Stated with no order log, ADDBLOCK for areas that do not overlap and hold no bad
word; GRAN past the last granule is the model's choice, log entry 85.) -/
def Obligations.TagActions : Prop :=
  ((∀ (k : CoreId) (i : Nat) (q : Fin 4) (m : Msg) (e : Word) (s : State), s.tagHead k i 1 = some (q, m, e) → s.unlogged k →
     let n : Fin 8 := Fin.ofNat 8 (e.toNat % 8)
     (s.slot k (tagSlot e)).r.pres.getLsbD n.val = false →
       ∃ t, exec (.deliver k i) s = .next t ∧ (t.slot k (tagSlot e)).r.c[n] = m.payload.headD 0 ∧
         (t.slot k (tagSlot e)).r.pres.getLsbD n.val = true ∧ (t.slot k (tagSlot e)).ev = true ∧
         (∀ j : Fin 8, j ≠ n → (t.slot k (tagSlot e)).r.c[j] = (s.slot k (tagSlot e)).r.c[j]) ∧
         (t.core k).mem.sram = (s.core k).mem.sram ∧ t.gmem = s.gmem) ∧
   (∀ (k : CoreId) (i : Nat) (q : Fin 4) (m : Msg) (e : Word) (s : State), s.tagHead k i 2 = some (q, m, e) → s.unlogged k →
     let bs := payloadBytes m.payload
     let gs := depositGranules e (s.core k).mem.tags[m.tag.toFin].base ((bs.length + 15) / 16)
     ((∀ g ∈ gs, g < 4096) → gs.Nodup → (s.core k).MemOk → ∃ t, exec (.deposit k i) s = .next t ∧
       (∀ j < bs.length, (t.core k).mem.sram.get (16 * gs.getD (j / 16) 0 + j % 16) = bs.getD j 0) ∧
       (∀ a, a / 16 ∉ gs → (t.core k).mem.sram.get a = (s.core k).mem.sram.get a) ∧
       (∀ g < 4096, (t.core k).mem.full.getLsbD g = (decide (g ∈ gs) || (s.core k).mem.full.getLsbD g)) ∧
       ((t.core k).mem.tags[m.tag.toFin].word.extractLsb' 0 12 =
         if e.getLsbD 12 then depositNext e (s.core k).mem.tags[m.tag.toFin].base gs.length else tagGran e) ∧
       (t.slot k (tagSlot e)).ev = true ∧ (t.slot k (tagSlot e)).r = (s.slot k (tagSlot e)).r ∧ t.gmem = s.gmem) ∧
     ((∃ g ∈ gs, 4096 ≤ g) → ∃ t, exec (.deposit k i) s = .next t ∧ (t.core k).mem.sram = (s.core k).mem.sram ∧
       (t.core k).mem.tags[m.tag.toFin].word.getLsbD 58 = true)) ∧
   (∀ (k : CoreId) (i : Nat) (q : Fin 4) (m : Msg) (e : Word) (s : State), s.tagHead k i 4 = some (q, m, e) →
     s.phaseOf k = .run → (s.core k).handler = none → (s.core k).handlerDone = false → s.unlogged k →
     let cl := e.toNat % 8
     let nd := m.payload.length - cl
     ∃ t h, exec (.inline k i) s = .next t ∧ (t.core k).handler = some h ∧ h.slot = tagSlot e ∧ h.next = 0 ∧ h.cl = cl ∧
       h.msg = m ∧ (∀ j : Fin 8, h.m[j] = if j.val < nd then m.payload.getD j.val 0 else 0) ∧
       (∀ j < cl, h.line.extractLsb' (64 * j) 64 = m.payload.getD (nd + j) 0) ∧
       (∀ n, t.slot k n = s.slot k n) ∧ (t.core k).mem = (s.core k).mem)) ∧
  (∀ (k : CoreId) (i : Nat) (q : Fin 4) (m : Msg) (e : Word) (nb : Nat) (s : State),
     s.tagHead k i 3 = some (q, m, e) → e.getLsbD 27 = false → m.block = true → s.unlogged k →
     let ty := addblockTy e
     let a := (addblockAt e).1
     let h := (addblockAt e).2
     let eb := 2 * pbBits ty
     addblockCount (isPb4 ty) m.payload.length = some nb → a + eb * nb ≤ 65536 → h + 2 * nb ≤ 65536 →
     (a + eb * nb ≤ h ∨ h + 2 * nb ≤ a) → (s.core k).badWord a (eb * nb) = none → (s.core k).badWord h (2 * nb) = none →
     (s.core k).MemOk →
     let y := fun b => addBlk ty (s.sramBlk k ty (a + eb * b) (h + 2 * b)) (payloadBlk ty nb m.payload b)
     ∃ t, exec (.addblock k i) s = .next t ∧ t.gmem = s.gmem ∧ (t.slot k (tagSlot e)).ev = true ∧
       (∀ b < nb, (t.core k).mem.sram.readLE (a + eb * b) eb = packNat (pbBits ty) ((y b).1.codes ty) % 2 ^ (8 * eb) ∧
         (t.core k).mem.sram.readLE (h + 2 * b) 2 = (y b).1.hdr % 2 ^ 16) ∧
       (∀ x, (x < a ∨ a + eb * nb ≤ x) → (x < h ∨ h + 2 * nb ≤ x) →
         (t.core k).mem.sram.get x = (s.core k).mem.sram.get x) ∧
       (∀ g < 4096, ((t.core k).mem.full.getLsbD g = true ↔ (s.core k).mem.full.getLsbD g = true ∨
         ∃ x < 16, (a ≤ 16 * g + x ∧ 16 * g + x < a + eb * nb) ∨ (h ≤ 16 * g + x ∧ 16 * g + x < h + 2 * nb))) ∧
       (∀ b < nb, (y b).2 &&& (t.slot k (tagSlot e)).r.flags = (y b).2))

/-- R72, R73, R119, R179, R299: WAKE starts a sleeping slot at the line that its tag names, with the first eight words of the
payload in c0 upward (more of them set ERR), EV cleared and its semaphore signalled, or its SEM_OVERFLOW deferred; where its
frame holds no line the message is discarded. The head of class queue 3 wakes a sleeping supervisor slot: the first four words
in c0 to c3, the cause in TCAUSE, the argument in TADDR, the slot that the notice names in TSEL and, where TVEC is valid, the
program counter at TVEC's address; the core's armed watches end with SYSMSG. A class 3 message for a slot that is no supervisor
is discarded. A sleeping slot whose EV is set wakes by that event first: neither takes it. (Stated with no order log; where the
slot is READY and what it reports, for a task that no step stop takes, R381.) -/
def Obligations.WakingASlot : Prop :=
  (∀ (k : CoreId) (i : Nat) (q : Fin 4) (m : Msg) (e : Word) (tag : BitVec 49) (s : State),
    s.tagHead k i 5 = some (q, m, e) → s.phaseOf k = .run → (s.slot k (tagSlot e)).st = .sleep →
    (s.slot k (tagSlot e)).ev = false → s.unlogged k → (s.core k).mem.frames[e.toNat % 16].tag = some tag →
    let sum := (s.core k).mem.sem[(tagSem e).toFin].toNat + 1
    let arr := (s.core k).arr.set q ((s.core k).arr[q].drop 1)
    ∃ t, exec (.wake k i) s = .next t ∧
      let x := t.slot k (tagSlot e)
      x.ev = false ∧ x.pc = 0#4 ++ tag ++ e.extractLsb' 4 5 ++ 0#1 ++ e.extractLsb' 9 5 ∧ (s.stopless k → x.st = .ready) ∧
      (∀ j : Fin 8, x.r.c[j] = (if j.val < m.payload.length then m.payload.getD j.val 0 else (s.slot k (tagSlot e)).r.c[j]) ∧
        x.r.pres.getLsbD j.val = (decide (j.val < m.payload.length) || (s.slot k (tagSlot e)).r.pres.getLsbD j.val)) ∧
      x.r.g = (s.slot k (tagSlot e)).r.g ∧ x.r.v = (s.slot k (tagSlot e)).r.v ∧
      (8 < m.payload.length → (t.core k).mem.tags[m.tag.toFin].word.getLsbD 58 = true) ∧
      (tagSigen e = false ∨ 65535 < sum → (t.core k).mem.sem = (s.core k).mem.sem) ∧
      (tagSigen e = true → sum ≤ 65535 → (t.core k).mem.sem = (s.core k).mem.sem.set (tagSem e).toFin (BitVec.ofNat 16 sum)) ∧
      (tagSigen e = true → 65535 < sum → x.deferred = addDeferredTo (s.slot k (tagSlot e)).deferred
        ⟨0x0E, (tagSem e).setWidth 64, false, false⟩) ∧
      ((s.core k).settled arr → (t.core k).arr = arr) ∧ (t.core k).mem.sram = (s.core k).mem.sram ∧ t.gmem = s.gmem) ∧
  (∀ (k : CoreId) (i : Nat) (q : Fin 4) (m : Msg) (e : Word) (s : State),
    s.tagHead k i 5 = some (q, m, e) → s.phaseOf k = .run → (s.slot k (tagSlot e)).st = .sleep →
    ((s.slot k (tagSlot e)).ev = true → exec (.wake k i) s = .next s) ∧
    ((s.slot k (tagSlot e)).ev = false → s.unlogged k → (s.core k).mem.frames[e.toNat % 16].tag = none →
      ∃ t, exec (.wake k i) s = .next t ∧ (t.core k).mem.tags[m.tag.toFin].word.getLsbD 58 = true ∧
        ∀ n, t.slot k n = s.slot k n)) ∧
  (∀ (k : CoreId) (m : Msg) (l : List Msg) (sl : Fin 4) (s : State),
    s.phaseOf k = .run → (s.core k).arr[(3 : Fin 4)] = m :: l → s.slotOf k m = some sl → supvOf (s.slot k sl) = true →
    (s.slot k sl).st = .sleep →
    let w1 := m.payload.getD 1 0
    ((s.slot k sl).ev = true → exec (.sysmsg k 3) s = .next s) ∧
    ((s.slot k sl).ev = false → ∃ t, exec (.sysmsg k 3) s = .next t ∧ (t.core k).arr[(3 : Fin 4)] = l ∧ t.gmem = s.gmem ∧
      let x := t.slot k sl
      (∀ j : Fin 8, j.val < 4 → j.val < m.payload.length → x.r.c[j] = m.payload.getD j.val 0 ∧ x.r.pres.getLsbD j.val = true) ∧
      ((s.slot k sl).t.tvec.getLsbD 63 = true → x.pc = (s.slot k sl).t.tvec &&& ~~~(1#64 <<< 63)) ∧
      ((s.slot k sl).watch.armed = false → x.ev = false) ∧
      (s.unlogged k → ∀ n, (s.slot k n).watch.armed = true →
        (t.slot k n).watch.armed = false ∧ (t.slot k n).watch.ended = some 5 ∧ (t.slot k n).ev = true) ∧
      (s.stopless k → x.st = .ready ∧
        x.t.tcause = (if m.kind = .sysmsg then 0x25 else (w1.extractLsb' 0 8).setWidth 64) ∧
        x.t.taddr = (if m.kind = .sysmsg then m.src.setWidth 64 else m.payload.getD 2 0) ∧
        x.t.tsel = (if m.kind = .sysmsg ∨ m.payload.getD 0 0 = 0 then 0 else 0#32 ++ 1#1 ++ 0#8 ++ w1.extractLsb' 16 23)))) ∧
  (∀ (k : CoreId) (m : Msg) (l : List Msg) (s : State),
    s.phaseOf k = .run → (s.core k).arr[(3 : Fin 4)] = m :: l →
    (∀ sl, s.slotOf k m = some sl → supvOf (s.slot k sl) = false) →
    ∃ t, exec (.sysmsg k 3) s = .next t ∧ (t.core k).arr[(3 : Fin 4)] = l ∧ ∀ n, t.slot k n = s.slot k n)

/-- R38 to R41, R257, R258, R407: a contribution to an open locked reduction is held while the node is HELD or its own exponent
is higher, and is otherwise added, each element shifted right by L - e places with rounding to nearest, ties to even, at each
place. Where the partial then passes 2 × MMAX, a node keeps it, is HELD and sends a RENORM to its parent; the root raises: its
partial falls by one place, and every other rank from LO to HI gets a notice of the new exponent; at L = 0xFE it is clamped,
with BSAT. A new exponent is noted by one more raise and one more place; a RENORM raises the root and is passed on by any other
node. (Stated for a well-formed descriptor, and with no order log.) -/
def Obligations.LockedReductions : Prop :=
  (∀ (k : CoreId) (i : Nat) (q : Fin 4) (m : Msg) (e : Word) (x : LockCtx) (d : LockDesc) (ex nb : Nat) (els : List Int)
      (s : State),
    s.tagHead k i 3 = some (q, m, e) → q.val < 2 → e.getLsbD 27 = true → (s.core k).lockOf m.tag = some x →
    lockedBlocks x.pb4 m = some (ex, nb, els) → nb = x.nb → (s.core k).badWord (2 * x.haddr.toNat - 16) 16 = none →
    (s.core k).lockDesc (2 * x.haddr.toNat) = some d → s.unlogged k →
    exec (.lockedContribution k i) s =
      .next (((s.charge k x.slot 25 nb).popArr k q).putNode k m x ((x.node d).contribute m.dst.toNat ex els))) ∧
  (∀ (n : LockNode) (own e : Nat) (els : List Int),
    (n.d.state = 1 ∨ n.d.l < e → n.contribute own e els = { n with held := n.held ++ [(e, els)] }) ∧
    (n.d.state = 0 → e ≤ n.d.l → n.held = [] → els.length = n.part.length →
      let r := n.contribute own e els
      let lim := 2 * pbMax (lockTy n.pb4)
      let sum := fun j : Nat => n.part.getD j 0 + (shiftPlaces (els.getD j 0) (n.d.l - e)).1
      let fl := if els.any fun x => (shiftPlaces x (n.d.l - e)).2 then n.flags ||| flagNX else n.flags
      let passes := ∃ j < n.part.length, lim < (sum j).natAbs
      let is := fun f : Nat → Int => r.part.length = n.part.length ∧ ∀ j < n.part.length, r.part.getD j 0 = f j
      r.d.acc = n.d.acc + 1 ∧
      (¬ passes → is sum ∧ r.d = { n.d with acc := n.d.acc + 1 } ∧ r.flags = fl ∧ r.out = n.out ∧
        (r.isDone = true ↔ n.isDone = true ∨ n.d.acc + 1 = n.d.expect)) ∧
      (passes → n.d.l < 0xFE → n.d.root = false → is sum ∧ r.d = { n.d with acc := n.d.acc + 1, state := 1 } ∧ r.flags = fl ∧
        r.out = n.out ++ [.renorm n.d.parent] ∧ r.isDone = n.isDone) ∧
      (passes → n.d.l < 0xFE → n.d.root = true → is (fun j => (shiftPlaces (sum j) 1).1) ∧ r.d.l = n.d.l + 1 ∧
        r.d.raises = n.d.raises + 1 ∧
        ∀ o, o ∈ r.out ↔ o ∈ n.out ∨ ∃ k, n.d.lo ≤ k ∧ k ≤ n.d.hi ∧ k ≠ own ∧ o = .exponent k (n.d.l + 1)) ∧
      (passes → 0xFE ≤ n.d.l → is (fun j => max (-lim : Int) (min lim (sum j))) ∧ r.d = { n.d with acc := n.d.acc + 1 } ∧
        r.out = n.out ∧ r.flags = fl ||| flagBSAT))) ∧
  (∀ (x h : Int) (k : Nat), (shiftPlaces x 0).1 = x ∧ (shiftPlaces x 0).2 = false ∧
    (2 * h = x → shiftPlaces x (k + 1) = shiftPlaces h k) ∧
    (2 * h = x + 1 ∨ 2 * h = x - 1 → h % 2 = 0 → shiftPlaces x (k + 1) = ((shiftPlaces h k).1, true))) ∧
  (∀ (k : CoreId) (m : Msg) (x : LockCtx) (d : LockDesc) (s : State),
    s.head2 k 2 = some m → (s.core k).lockOf m.tag = some x → s.unlogged k →
    (s.core k).badWord (2 * x.haddr.toNat - 16) 16 = none → (s.core k).lockDesc (2 * x.haddr.toNat) = some d →
    (m.kind = .renorm → exec (.renorm k 2) s = .next (
      let n := if d.root then (x.node d).raise m.dst.toNat else { x.node d with out := [.renorm d.parent] }
      (s.popArr k 2).putNode k m x (n.settle m.dst.toNat (n.held.length + 1)))) ∧
    (∀ l, m.kind = .exponent l → exec (.newExponentNotice k 2) s = .next (
      let n := ({ x.node d with d := { d with l := l.toNat, raises := d.raises + 1 } }.halve).reopen
      (s.popArr k 2).putNode k m x (n.settle m.dst.toNat (n.held.length + 1)))))

/-! ### The tensor unit and the scan unit (08) -/

/-- R24, R225 to R230: the matrix instructions on a tile that the issuing slot holds (MCFG: that nobody else holds). MCFG
takes or releases a tile with its values in place, or raises ACCESS, also for a release of a tile that it does not hold and for
a link that leaves the launch; MRUN and MFEED queue their commands once their semaphore wait is over and there is room, four
runs and two feeds of an edge, and wait before; MZERO, MLOAD and MDRAIN act on the 64 accumulators at once, MCFG, MZERO and
MLOAD after a run of the tile; MSTAT reads the tile. A slot that does not hold the tile takes ACCESS with the tile's number.
(That an MLOAD without addition sets no flag is the model's choice, log entry 94.) -/
def Obligations.MatrixCommands : Prop :=
  let tile := fun (u : State) (n : Fin 4) => (u.unit u.cur.core).tiles[n]
  let mine := fun (u : State) (n : Fin 4) => (tile u n).owner = some u.cur.slot
  let put := fun (u : State) (n : Fin 4) (t : Tile) => u.modUnits u.cur.core fun v => v.setTile n t
  let no := fun (i : Instr) (f : Form) (n : Fin 4) => Traps i f (fun u => ¬ mine u n) 0x09 (fun _ => BitVec.ofNat 64 n.val)
  let area := fun a : Word => LocalOk a 16 ∧ offOf a + 256 ≤ 65536
  (∀ x : McfgF,
    let f := mkForm x.q 1 [] []
    let idle := fun u : State => (u.unit u.cur.core).tileRuns x.d = false ∧ (u.unit u.cur.core).tileFeeds x.d = false
    let neighbours := fun u : State => (x.flags.getLsbD 2 = true → (u.core u.cur.core).hasEast u.cur.core = true) ∧
      (x.flags.getLsbD 3 = true → (u.core u.cur.core).hasSouth u.cur.core = true)
    Does (.mcfg x) f (fun u => x.flags.getLsbD 4 = true ∧ mine u x.d ∧ neighbours u ∧ idle u)
      (fun u => put u x.d { tile u x.d with owner := none }) ∧
    Does (.mcfg x) f (fun u => x.flags.getLsbD 4 = false ∧ ((tile u x.d).owner = none ∨ mine u x.d) ∧ neighbours u ∧ idle u)
      (fun u => put u x.d ((tile u x.d).config u.cur.slot x.t (x.flags.extractLsb' 0 5))) ∧
    Traps (.mcfg x) f (fun u => ((tile u x.d).owner ≠ none ∨ x.flags.getLsbD 4 = true) ∧ ¬ mine u x.d ∨
      ((tile u x.d).owner = none ∨ mine u x.d) ∧ ¬ neighbours u) 0x09 (fun _ => BitVec.ofNat 64 x.d.val) ∧
    Waits (.mcfg x) f (fun u => (mine u x.d ∨ x.flags.getLsbD 4 = false ∧ (tile u x.d).owner = none) ∧ neighbours u ∧ ¬ idle u) .tile) ∧
  (∀ x : MrunF, no (.mrun x) (mkForm x.q 1 (ctrOps x.ctr) []) x.d ∧
    ∀ s t : State,
      let f := mkForm x.q 1 (ctrOps x.ctr) []
      let u := s.took f
      let count := (x.imm.extractLsb' 0 24).toNat
      let room := (u.unit u.cur.core).runs.length < 4
      let links := ((tile u x.d).cfg.getLsbD 0 = true ∨ (u.core u.cur.core).hasWest u.cur.core = true) ∧
        ((tile u x.d).cfg.getLsbD 1 = true ∨ (u.core u.cur.core).hasNorth u.cur.core = true)
      let whole := x.imm.getLsbD 24 = true → count % kMultiple (tile u x.d).ty = 0
      let r : Run := ⟨x.d, s.cur.slot, x.imm.getLsbD 24, count, 0, false, 0, u.doneOf x.sync x.ctr⟩
      s.issues f → mine u x.d →
      (¬ links → exec (.mrun x) s = .next (s.takeTrap s.cur.core s.cur.slot 0x09 (BitVec.ofNat 64 x.d.val))) ∧
      (links → ¬ whole → exec (.mrun x) s = .next (s.takeTrap s.cur.core s.cur.slot 0x03 (s.cur.head.setWidth 64))) ∧
      (links → whole → u.counterOk x.ctr → s.SyncGated u (.mrun x) x.sync .unit room) ∧
      (links → whole → u.counterOk x.ctr → u.Syncs x.sync t → room → exec (.mrun x) s = .next ((t.modUnits s.cur.core fun v =>
        let v' : Units := { v with runs := v.runs ++ [r] }
        if v.runs.isEmpty then Units.startRun v' else v').retire 1))) ∧
  (∀ x : MfeedF, no (.mfeed x) (mkForm x.q 1 (x.d :: x.a :: ctrOps x.ctr) []) x.b ∧
    ∀ s t : State,
      let f := mkForm x.q 1 (x.d :: x.a :: ctrOps x.ctr) []
      let u := s.took f
      let e : Fin 2 := if x.imm.getLsbD 24 then 1 else 0
      let nb := (x.imm.extractLsb' 0 24).toNat
      let sb := scaleBytes (tile u x.b).ty
      let src := u.rd x.d
      let sc := u.rd x.a
      let room := ((u.unit u.cur.core).feeds[e]).length < 2
      s.issues f → mine u x.b → (tile u x.b).cfg.getLsbD e.val = true → u.counterOk x.ctr →
      (LocalOk src 16 ∧ offOf src + nb * (flitsOf (tile u x.b).ty * 8) ≤ 65536 ∧
        (sb = 0 ∧ x.a = .g 0 ∨ sb ≠ 0 ∧ LocalOk sc sb ∧ offOf sc + nb * sb ≤ 65536) ∨
       isBerth src = true ∧ src.toNat % 16 = 0 ∧ x.a = .g 0) →
      s.SyncGated u (.mfeed x) x.sync .unit room ∧ (u.Syncs x.sync t → room → exec (.mfeed x) s = .next ((t.modUnits s.cur.core fun v => { v with feeds := v.feeds.set e (v.feeds[e] ++
        [⟨x.b, s.cur.slot, src, sc, nb, 0, false, 0, [], false, u.doneOf x.sync x.ctr⟩]) }).retire 1))) ∧
  (∀ x : MzeroF, no (.mzero x) (mkForm x.q 19 [] []) x.d ∧
    Does (.mzero x) (mkForm x.q 19 [] []) (fun u => mine u x.d ∧ (u.unit u.cur.core).tileRuns x.d = false)
      (fun u => put u x.d { tile u x.d with acc := Vector.replicate 64 0, work := Vector.replicate 64 0 }) ∧
    Waits (.mzero x) (mkForm x.q 19 [] []) (fun u => mine u x.d ∧ (u.unit u.cur.core).tileRuns x.d = true) .tile) ∧
  (∀ x : MloadF,
    let f := mkForm x.q 19 [x.a, x.b] []
    no (.mload x) f x.d ∧
    Traps (.mload x) f (fun u => mine u x.d ∧ isLocal (u.rd x.a) = false) 0x0A (fun u => u.rd x.a) ∧
    Traps (.mload x) f (fun u => mine u x.d ∧ isLocal (u.rd x.a) = true ∧ ¬ area (u.rd x.a)) 0x07 (fun u => u.rd x.a) ∧
    Waits (.mload x) f (fun u => mine u x.d ∧ area (u.rd x.a) ∧ (u.unit u.cur.core).tileRuns x.d = true) .tile ∧
    ∀ s : State,
    let u := s.took f
    let v := fun i : Nat => (u.core u.cur.core).mem.sram.readLE (offOf (u.rd x.a) + 4 * i) 4
    s.issues f → mine u x.d → area (u.rd x.a) → u.sound (u.rd x.a) 256 → (u.unit u.cur.core).tileRuns x.d = false →
    ∃ (acc : Vector (BitVec 32) 64) (fl : BitVec 8),
      exec (.mload x) s = .next
        (((put (u.corrects (u.rd x.a) 256) x.d { tile u x.d with acc := acc, work := acc }).setMyFlags fl).retire 19) ∧
      (∀ i : Fin 64, acc[i] = BitVec.ofNat 32
        (if (u.rd x.b).getLsbD 0 then (loadT (v i.val) (tile u x.d).acc[i].toNat).1 else v i.val)) ∧
      ((u.rd x.b).getLsbD 0 = false → fl = 0)) ∧
  (∀ x : MdrainVF, no (.mdrainVector x) (mkForm x.q 19 [x.b] [] [.v x.d]) x.a ∧
    ∀ s : State,
      let f := mkForm x.q 19 [x.b] [] [.v x.d]
      let u := s.took f
      let q := (u.rd x.b).toNat % 4
      s.issues f → mine u x.a → ∃ (v : VWord) (acc : Vector (BitVec 32) 64),
        exec (.mdrainVector x) s = .next (State.retire
          (if (u.rd x.b).getLsbD 2 then put (u.wrV x.d v 0) x.a { tile u x.a with acc := acc } else u.wrV x.d v 0) 19) ∧
        (∀ i : Fin 64, i.val / 16 = q → lane 32 v (i.val % 16) = (tile u x.a).acc[i].toNat) ∧
        ∀ i : Fin 64, acc[i] = if i.val / 16 = q then 0 else (tile u x.a).acc[i]) ∧
  (∀ x : MdrainSF, no (.mdrainSram x) (mkForm x.q 19 [x.b, x.c] []) x.a ∧
    ∀ s : State,
      let f := mkForm x.q 19 [x.b, x.c] []
      let u := s.took f
      let o := offOf (u.rd x.c)
      let k := s.cur.core
      s.issues f → mine u x.a → area (u.rd x.c) → (s.core k).MemOk → ∃ t, exec (.mdrainSram x) s = .next (State.retire t 19) ∧
        (∀ i : Fin 64, (t.core k).mem.sram.readLE (o + 4 * i.val) 4 = (tile u x.a).acc[i].toNat) ∧
        (∀ a, a < o ∨ o + 256 ≤ a → (t.core k).mem.sram.get a = (s.core k).mem.sram.get a) ∧
        (∀ g < 4096, (t.core k).mem.full.getLsbD g = (((u.rd x.b).getLsbD 3 && decide (o / 16 ≤ g ∧ g < o / 16 + 16)) ||
          (s.core k).mem.full.getLsbD g)) ∧
        (tile t x.a) = { tile u x.a with acc := if (u.rd x.b).getLsbD 2 then Vector.replicate 64 0 else (tile u x.a).acc } ∧
        t.me = u.me ∧ t.gmem = s.gmem) ∧
  (∀ x : MstatF, no (.mstat x) (mkForm x.q 1 [] [x.d]) x.a ∧
    Puts (.mstat x) (mkForm x.q 1 [] [x.d]) x.d (fun u => (tile u x.a).index ++ (tile u x.a).done ++ encFull (tile u x.a).ty ++
      (u.unit u.cur.core).tileState x.a ++ BitVec.ofBool (tile u x.a).err ++ BitVec.ofNat 2 u.cur.slot.val ++ 0#1 ++
      (tile u x.a).cfg) (ok := fun u => mine u x.a))

/-- R56, R218, R221, R222, R229 to R231, R353: the events of the unit: a pair of flits is taken, computed and forwarded, with
the tokens at hand, and owes those that it lacks; a token is checked, and latches its scales, or commits the block that it
follows, or makes the run fail; a run that has taken its count commits and completes; a feed completes once its last byte has
been read, injects the flits that it has formed, and closes its flow. (Stated with no order log; when a tile's working copy is taken
is the model's choice, log entry 94.) -/
def Obligations.MatrixRuns : Prop :=
  (∀ (k : CoreId) (r : Run) (l : List Run) (a b : Word × BitVec 8) (s : State),
    let t := (s.unit k).tiles[r.tile]
    let got := if r.unit then kOfFlit t.ty t.flits else if t.flits + 1 = flitsOf t.ty then 1 else 0
    (s.unit k).runs = r :: l → s.phaseOf k = .run → r.drain = false → (s.unit k).pairReady r = some (a, b) →
    (s.unit k).owedT = 0 → 0 < (s.unit k).tokens → s.fwdRoom k t 0 1 = true → s.fwdRoom k t 1 1 = true →
    ∃ s', exec (.operandPairTake k) s = .next s' ∧ (s'.unit k).tiles[r.tile] = t.pair a b ∧
      (s'.unit k).tokens = (s.unit k).tokens - 2 ∧ (s'.unit k).owedT = 2 - (s.unit k).tokens ∧
      (s'.unit k).runs = { r with taken := r.taken + got } :: l ∧
      (∀ e : Fin 2, (s'.unit k).queues[t.queue e] = ((s.unit k).queues[t.queue e]).drop 1) ∧
      (∀ e : Fin 2, t.forwards e = true → (s'.unit (nextCore k e)).queues[(if e = 0 then (0 : Fin 4) else 1)] =
        (s.unit (nextCore k e)).queues[(if e = 0 then (0 : Fin 4) else 1)] ++ ((s.unit k).queues[t.queue e]).take 1) ∧
      (∀ n, (s'.slot k n).r = (s.slot k n).r) ∧ (s'.core k).mem = (s.core k).mem) ∧
  (∀ (t : Tile) (a b : Word × BitVec 8),
    let t' := t.pair a b
    t'.flits = t.flits + 1 ∧ t'.acc = t.acc ∧
    (t.group.length + 1 ≠ groupFlits t.ty → t'.group = t.group ++ [(a.1, a.2, b.1, b.2)] ∧
      t'.work = (if t.flits = 0 then t.acc else t.work) ∧ t'.flags = t.flags) ∧
    (t.group.length + 1 = groupFlits t.ty → t'.group = [] ∧ ∀ i : Fin 64, t'.work[i] = BitVec.ofNat 32
      (elemAcc t.ty (t.flow[(0 : Fin 2)]).scales (t.flow[(1 : Fin 2)]).scales (t.group ++ [(a.1, a.2, b.1, b.2)])
        (if t.flits = 0 then t.acc[i] else t.work[i]).toNat i.val).1)) ∧
  (∀ (k : CoreId) (e : Edge) (r : Run) (l : List Run) (sc w : Word) (s : State),
    let i : Fin 2 := match e with | .west => 0 | .north => 1
    let t := (s.unit k).tiles[r.tile]
    (s.unit k).runs = r :: l → (s.unit k).tokenReady r i = some (sc, w) → s.fwdRoom k t i 2 = true → s.phaseOf k = .run →
    r.drain = false → (s.unit k).owedT = 0 → s.unlogged k →
    ∃ s', exec (.scaleTokenTake k e) s = .next s' ∧ (∀ n, (s'.slot k n).r = (s.slot k n).r) ∧
      let t' := (s'.unit k).tiles[r.tile]
      (tokenOk t t.flow[i] w = false → t'.err = true ∧ t'.fault = true ∧ t'.acc = t.acc ∧ t'.work = t.acc ∧
        ∃ r', (s'.unit k).runs = r' :: l ∧ r'.drain = true ∧ r'.done = r.done) ∧
      (tokenOk t t.flow[i] w = true → (s'.unit k).runs = r :: l ∧
        (closes w = false → (t'.flow[i]).scales = sc ∧ (t'.flow[i]).isOpen = true ∧
          (t'.flow[i]).index = (t.flow[i]).index + 1) ∧
        (closes w = true → (t'.flow[i]).scales = (t.flow[i]).scales ∧ (t'.flow[i]).isOpen = false) ∧
        (t.flits ≠ 0 → (t.flow[1 - i]).seen = true →
          t'.acc = t.work ∧ t'.flits = 0 ∧ t'.done = BitVec.ofNat 24 r.taken) ∧
        (t.flits = 0 ∨ (t.flow[1 - i]).seen = false → t'.acc = t.acc ∧ t'.flits = t.flits))) ∧
  (∀ (k : CoreId) (r : Run) (l : List Run) (s : State),
    let t := (s.unit k).tiles[r.tile]
    (s.unit k).runs = r :: l → r.ready t = true → (s.unit k).owedT = 0 → s.unlogged k →
    ∃ s', exec (.mrunComplete k) s = .next s' ∧ (s'.unit k).runs = l ∧ (s'.slot k r.slot).ev = true ∧
      (r.drain = false → ((s'.unit k).tiles[r.tile]).acc = (if t.flits = 0 then t.acc else t.work) ∧
        ((∀ q ∈ l.head?, q.tile ≠ r.tile) → ((s'.unit k).tiles[r.tile]).done = BitVec.ofNat 24 r.taken) ∧
        (s'.slot k r.slot).r.flags = (s.slot k r.slot).r.flags ||| t.flags) ∧
      (r.drain = true → ((s'.unit k).tiles[r.tile]).acc = t.acc ∧ (s'.core k).mem.sf.getLsbD r.done.faultSem.toNat = true)) ∧
  (∀ (k : CoreId) (e : Edge) (f : Feed) (l : List Feed) (s : State),
    let i : Fin 2 := match e with | .west => 0 | .north => 1
    let q : Fin 4 := match e with | .west => 2 | .north => 3
    (s.unit k).feeds[i] = f :: l → s.unlogged k →
      (s.phaseOf k = .run → f.nb ≤ f.blk → f.told = false →
        ∃ s', exec (.mfeedComplete k e) s = .next s' ∧ (s'.unit k).feeds[i] = { f with told := true } :: l ∧
          (s'.slot k f.slot).ev = true ∧ (s'.unit k).queues[q] = (s.unit k).queues[q]) ∧
      (∀ x p, f.pend = x :: p → x.len ≤ s.queueRoom k q →
        ∃ s', runChoice s (.feed k e) = .next s' ∧ (s'.unit k).feeds[i] = { f with pend := p } :: l ∧
          (s'.unit k).queues[q] = (s.unit k).queues[q] ++ [x] ∧ ∀ n, s'.slot k n = s.slot k n) ∧
      (f.pend = [] → f.nb ≤ f.blk → f.told = true → 2 ≤ s.queueRoom k q →
        ∃ s', runChoice s (.feed k e) = .next s' ∧ (s'.unit k).feeds[i] = l ∧ (∀ n, s'.slot k n = s.slot k n) ∧
          (s'.unit k).queues[q] = (s.unit k).queues[q] ++ if f.isOpen then
            [.token 0 (tokenWord ((s.unit k).tiles[f.tile].feedIdx[i]) ((s.unit k).tiles[f.tile]).ty 2 f.crc)] else []))

/-- R233 to R239, R353: SCANCFG takes the unit with a zero state or releases it; SCAN queues its records, three at most; SCANST
saves and loads the state; each raises ACCESS in a slot that does not own the unit, and waits as its rule says. SCAN_STEP and
SCAN_CHUNK take the next steps of the oldest SCAN for 1 and 16 power tokens, owe those that are not at hand, write the y of each
step and channel (of a padding step none), and leave the state after them, as R236 and R237 compute both; SCAN_COMPLETE makes
the flags and the completion. (The steps are stated for records in SRAM with no uncorrectable word, y of elements that do not
overlap, and with no order log; that the y of a padding step sets flags is the model's choice, log entry 94.) -/
def Obligations.ScanUnit : Prop :=
  let mine := fun u : State => (u.unit u.cur.core).scanOwner = some u.cur.slot
  let idle := fun u : State => (u.unit u.cur.core).scans = []
  (∀ x : ScancfgF,
    let f := mkForm x.q 1 (r16Ops x.src) []
    let v := fun u : State => (u.r16 x.src).extractLsb' 0 16
    Does (.scancfg x) f (fun u => scanCfgWf (v u) = true ∧ (v u).getLsbD 15 = true ∧ mine u ∧ idle u)
      (fun u => u.modUnits u.cur.core fun c => { c with scanOwner := none }) ∧
    Does (.scancfg x) f
      (fun u => scanCfgWf (v u) = true ∧ (v u).getLsbD 15 = false ∧ ((u.unit u.cur.core).scanOwner = none ∨ mine u) ∧ idle u)
      (fun u => u.modUnits u.cur.core fun c =>
        let h : List (BitVec 32) := List.replicate (((v u).toNat / 128 % 16 + 1) * ((v u).toNat % 128)) 0
        { c with scanOwner := some u.cur.slot, scanCfg := v u, scanH := h }) ∧
    Traps (.scancfg x) f (fun u => scanCfgWf (v u) = false) 0x03 (fun u => u.cur.head.setWidth 64) ∧
    Traps (.scancfg x) f (fun u => scanCfgWf (v u) = true ∧ ((u.unit u.cur.core).scanOwner ≠ none ∨ (v u).getLsbD 15 = true) ∧ ¬ mine u)
      0x09 (fun _ => 0) ∧
    Waits (.scancfg x) f (fun u => scanCfgWf (v u) = true ∧ mine u ∧ ¬ idle u) .unit) ∧
  (∀ x : ScanF, Traps (.scan x) (mkForm x.q 1 (ctrOps x.ctr) []) (fun u => ¬ mine u) 0x09 (fun _ => 0)) ∧
  (∀ (x : ScanF) (s t : State),
    let f := mkForm x.q 1 (ctrOps x.ctr) []
    let u := s.took f
    let c := u.core u.cur.core
    let n := x.len.toNat
    let fits := fun (h : Shp) (es m : Nat) =>
      (isLocal h.base = true ∨ isBerth h.base = true) ∧ h.conv = 0 ∧ h.esCode = es ∧ m ≤ h.total
    s.issues f → mine u → u.counterOk x.ctr →
    fits c.mem.shapes[x.a] 2 (n * c.unit.scanP) → fits c.mem.shapes[x.b] (if c.unit.scanAF then 1 else 2) (n * c.unit.scanP) →
    fits c.mem.shapes[x.c] 2 (n * 2 * c.unit.scanN) → fits c.mem.shapes[x.d] 2 (n * c.unit.scanP) →
    s.SyncGated u (.scan x) x.sync .unit (c.unit.scans.length < 3) ∧
    (u.Syncs x.sync t → c.unit.scans.length < 3 → exec (.scan x) s = .next ((t.modCore s.cur.core fun c' => Core.pullBerths { c' with unit := { c'.unit with
      scans := c'.unit.scans ++ [⟨s.cur.slot, x.form, c.mem.shapes[x.a], c.mem.shapes[x.b], c.mem.shapes[x.c],
        c.mem.shapes[x.d], n, 0, Vector.replicate 3 [], 0, u.doneOf x.sync x.ctr⟩] } } s.cur.core).retire 1))) ∧
  (∀ (x : G1) (s : State),
    let f := mkForm x.q 1 [x.a] []
    let u := s.took f
    let k := s.cur.core
    let n := (u.unit k).scanP * (u.unit k).scanN
    let o := offOf (u.rd x.a)
    s.issues f → mine u → idle u → LocalOk (u.rd x.a) 16 → o + 4 * n ≤ 65536 → (s.core k).MemOk →
      ((u.unit k).scanH.length = n → ∃ t, exec (.scanstSave x) s = .next (State.retire t 1) ∧ t.me = u.me ∧ t.gmem = s.gmem ∧
        (∀ i < n, (t.core k).mem.sram.readLE (o + 4 * i) 4 = ((u.unit k).scanH.getD i 0).toNat) ∧
        ∀ a, a < o ∨ o + 4 * n ≤ a → (t.core k).mem.sram.get a = (s.core k).mem.sram.get a) ∧
      (u.sound (u.rd x.a) (4 * n) → ∃ h : List (BitVec 32),
        exec (.scanstLoad x) s = .next
          (((u.corrects (u.rd x.a) (4 * n)).modUnits k fun c => { c with scanH := h }).retire 1) ∧
        h.length = n ∧ ∀ i < n, (h.getD i 0).toNat = (u.core k).mem.sram.readLE (o + 4 * i) 4)) ∧
  (∀ x : G1, ∀ i ∈ [Instr.scanstSave x, .scanstLoad x],
    let f := mkForm x.q 1 [x.a] []
    let fits := fun u : State => LocalOk (u.rd x.a) 16 ∧
      offOf (u.rd x.a) + 4 * ((u.unit u.cur.core).scanP * (u.unit u.cur.core).scanN) ≤ 65536
    Traps i f (fun u => ¬ mine u) 0x09 (fun _ => 0) ∧ Waits i f (fun u => mine u ∧ fits u ∧ ¬ idle u) .unit) ∧
  (∀ (k : CoreId) (r : Scan) (l : List Scan) (s : State),
    let u := s.unit k
    let cost := if r.chunked then 16 else 1
    let m := if r.chunked then r.next else 1
    let ya := fun j : Nat => ((offOf r.y.base : Int) + r.y.off (r.at_ * u.scanP + j)).toNat
    let ch := fun p : Nat =>
      let h := (List.range u.scanN).map fun j => (u.scanH.getD (p * u.scanN + j) 0).toNat
      if r.chunked then
        chunkChannel h ((List.range m).map (fun i => (s.scanIn k r (r.at_ + i) p).1) ++
          List.replicate (16 - m) ⟨0, 0x3F800000, List.replicate u.scanN 0, List.replicate u.scanN 0⟩)
      else
        let y := stepChannel h (s.scanIn k r r.at_ p).1
        ([y.1], y.2)
    u.scans = r :: l → r.at_ < r.len → u.owedS = 0 → 0 < u.tokens → s.phaseOf k = .run → s.scanFed k r = true → s.unlogged k →
    (s.core k).regs.ue = [] → isLocal r.y.base = true → (∀ i : Fin 3, isLocal (r.rec_ i).base = true) →
    ∃ t, exec (if r.chunked then .scanChunk k else .scanStep k) s = .next t ∧ (t.unit k).tokens = u.tokens - cost ∧
      (t.unit k).owedS = cost - u.tokens ∧
      (∃ fl st, (t.unit k).scans = { r with at_ := r.at_ + m, flags := fl, stage := st } :: l ∧ r.flags &&& fl = r.flags) ∧
      (t.unit k).scanH.length = u.scanP * u.scanN ∧ (∀ n, t.slot k n = s.slot k n) ∧ t.gmem = s.gmem ∧
      (∀ p < u.scanP, ∀ n < u.scanN, (t.unit k).scanH.getD (p * u.scanN + n) 0 = BitVec.ofNat 32 ((ch p).2.1.getD n 0)) ∧
      ((s.core k).MemOk → (∀ i < m * u.scanP, ∀ j < m * u.scanP, i ≠ j → ya i + 4 ≤ ya j ∨ ya j + 4 ≤ ya i) →
        (∀ i < m, ∀ p < u.scanP, (t.core k).mem.sram.readLE (ya (i * u.scanP + p)) 4 = (ch p).1.getD i 0 % 2 ^ 32) ∧
        ∀ a, (∀ j < m * u.scanP, a < ya j ∨ ya j + 4 ≤ a) → (t.core k).mem.sram.get a = (s.core k).mem.sram.get a)) ∧
  (∀ (k : CoreId) (r : Scan) (l : List Scan) (s : State),
    (s.unit k).scans = r :: l → r.len ≤ r.at_ → (s.unit k).owedS = 0 → s.unlogged k → (∀ b, (s.core k).berthReady b false = false) →
    ∃ t, exec (.scanComplete k) s = .next t ∧ (t.unit k).scans = l ∧ (t.slot k r.slot).ev = true ∧
      (t.slot k r.slot).r.flags = (s.slot k r.slot).r.flags ||| r.flags)

/-! ### Shapes, streams and counters (04, 09, 13) -/

/-- R105 to R108, R112, R113, R117, R262 to R265: SHAPE loads a checked record; COPY and COPY.ring take the lowest free
stream once their semaphore wait is over, and wait with none free; SPACE frees the oldest filled tiles of a ring, clears their
full/empty bits and returns the credits; CNTWAIT goes on once the counter has reached its bound, and waits before. (Readings of
the model: a grant takes nothing until the granted head issues, log entry 18; TADDR of ACCESS at SPACE is gA, entry 24; a ring
fed by a berth returns its credits by a message, entry 26.) -/
def Obligations.StreamInstructions : Prop :=
  (∀ x : ShapeF,
    let f := mkForm x.q 26 [x.a] []
    let h := fun u : State => (BitVec.ofNat 256 (u.sramAt (u.rd x.a) 32) : Shp)
    let good := fun u : State => LocalOk (u.rd x.a) 16 ∧ offOf (u.rd x.a) + 32 ≤ 65536 ∧ u.sound (u.rd x.a) 32
    Does (.shape x) f (fun u => good u ∧ Shp.illegal (h u) = false ∧ Shp.misaligned (h u) = false)
      (fun u => (u.corrects (u.rd x.a) 32).modMem u.cur.core fun m => { m with shapes := m.shapes.set x.d (h u) }) ∧
    Traps (.shape x) f (fun u => good u ∧ Shp.illegal (h u) = true) 0x03 (fun u => u.cur.head.setWidth 64) ∧
    Traps (.shape x) f (fun u => good u ∧ Shp.illegal (h u) = false ∧ Shp.misaligned (h u) = true) 0x05 (fun u => Shp.base (h u))) ∧
  (∀ (src dst : Shp) (sb db : Word) (fb ring : Bool) (k : Act),
    let sizes := match convSizes src.conv with
      | some (_, d) => d = dst.esCode
      | none => src.esCode = dst.esCode
    (ring = true ∨ src.total = dst.total) → sizes → sb.toNat % src.es = 0 → db.toNat % dst.es = 0 →
    (isLocal src.base = true → src.inside sb = true) → (isLocal dst.base = true → dst.inside db = true) →
    validWindow sb = true → validWindow db = true → ¬ (isGlobal sb = true ∧ isGlobal db = true) →
    (fb = true → isLocal db = true) → copyCheck src dst sb db fb ring k = k) ∧
  (∀ (src dst : Shp) (sb db : Word) (k : Act),
    src.total = dst.total → src.conv = 0 → src.esCode = dst.esCode → sb.toNat % src.es = 0 → db.toNat % dst.es = 0 →
    (isLocal src.base = true → src.inside sb = true) → (isLocal dst.base = true → dst.inside db = true) →
    validWindow sb = true → validWindow db = true →
    (isGlobal sb = true → isGlobal db = true → copyCheck src dst sb db false false k = .trap 0x0A db) ∧
    (isGlobal sb = false → isLocal db = false → copyCheck src dst sb db true false k = .trap 0x0A dst.base)) ∧
  (∀ (x : CopyF) (s : State),
    let f := mkForm x.q 26 (x.c :: x.d :: ctrOps (cmdCtr x.cmd)) []
    let u := s.took f
    let src := (u.core u.cur.core).mem.shapes[x.a]
    let dst := (u.core u.cur.core).mem.shapes[x.b]
    s.issues f → (∀ k, copyCheck src dst (addOff src.base (u.rd x.c)) (addOff dst.base (u.rd x.d)) x.fb false k = k) →
    u.counterOk (cmdCtr x.cmd) →
    s.SyncGated u (.copy x) (cmdSync x.cmd) .stream ((u.core u.cur.core).freeStream.isSome = true)) ∧
  (∀ (x : CopyF) (s t : State) (n : Fin 8),
    let f := mkForm x.q 26 (x.c :: x.d :: ctrOps (cmdCtr x.cmd)) []
    let u := s.took f
    let src := (u.core u.cur.core).mem.shapes[x.a]
    let dst := (u.core u.cur.core).mem.shapes[x.b]
    let sb := addOff src.base (u.rd x.c)
    let db := addOff dst.base (u.rd x.d)
    s.issues f → (∀ k, copyCheck src dst sb db x.fb false k = k) → u.counterOk (cmdCtr x.cmd) →
    u.Syncs (cmdSync x.cmd) t → (u.core u.cur.core).freeStream = some n →
    exec (.copy x) s = .next
      ((t.startStream n (withBase src sb) (withBase dst db) false x.fb (u.doneOf (cmdSync x.cmd) (cmdCtr x.cmd))).retire 26)) ∧
  (∀ (x : CopyRingF) (s t : State) (n : Fin 8),
    let f := mkForm x.q 26 (ctrOps (cmdCtr x.cmd)) [x.d]
    let u := s.took f
    let src := (u.core u.cur.core).mem.shapes[x.a]
    let dst := (u.core u.cur.core).mem.shapes[x.b]
    s.issues f → (∀ k, copyCheck src dst src.base dst.base false true k = k) → dst.ringOk = true →
    u.counterOk (cmdCtr x.cmd) → u.Syncs (cmdSync x.cmd) t → (u.core u.cur.core).freeStream = some n →
    u.slimRefuses x.d (BitVec.ofNat 64 n.val) = false →
    exec (.copyRing x) s = .next (((t.wr x.d (BitVec.ofNat 64 n.val)).startStream n src dst true true
      (u.doneOf (cmdSync x.cmd) (cmdCtr x.cmd))).retire 26)) ∧
  (∀ (x : SpaceF) (s : State) (k : CoreId) (r : Stream),
    let f := mkForm x.q 26 (x.a :: r16Ops x.n) []
    let u := s.took f
    let n : Fin 8 := Fin.ofNat 8 (u.rd x.a).toNat
    let m := match x.n with | .imm v => v.toNat | .reg g => (u.rd g).toNat % 2 ^ 12
    let g := r.dst.tile * r.dst.es / 16
    let b := offOf r.dst.base / 16
    s.issues f → u.ringOf s.cur.core n = some (k, r) →
      (m ≤ r.filled → ∃ t r', exec (.space x) s = .next (State.retire t 26) ∧ t.me = u.me ∧ t.gmem = s.gmem ∧
        (t.core k).streams[n] = some r' ∧ r'.filled = r.filled - m ∧ r'.oldest = (r.oldest + m) % r.ringTiles ∧
        (isBerth r.src.base = false → r'.credit = r.credit + m ∧ (t.core k).inj = (s.core k).inj) ∧
        (isBerth r.src.base = true → r'.credit = r.credit ∧ ∃ q, (t.core k).inj = (s.core k).inj ++ [q] ∧
          q.kind = .freeSpace k n r.at_ m) ∧
        (t.core s.cur.core).mem.sram = (s.core s.cur.core).mem.sram ∧
        (∀ i < 4096, (t.core s.cur.core).mem.full.getLsbD i = ((s.core s.cur.core).mem.full.getLsbD i &&
          decide (∀ j < m, ¬ (b + (r.oldest + j) % r.ringTiles * g ≤ i ∧ i < b + (r.oldest + j) % r.ringTiles * g + g))))) ∧
      (r.filled < m → exec (.space x) s = .next (s.takeTrap s.cur.core s.cur.slot 0x09 (u.rd x.a)))) ∧
  (∀ (x : G2) (s t : State) (d : Nat),
    let f := mkForm x.q 7 [x.a, x.b] []
    let u := s.took f
    let a := u.rd x.a
    s.issues f →
      (s.me.reply = some (.value 0) → exec (.cntwait x) s = .next ((u.endCount s.cur.core s.cur.slot).retire 7)) ∧
      (s.me.reply ≠ some (.value 0) → a.toNat < 2 ^ 60 → a.toNat % 8 = 0 → u.Xlates a 4 false t d →
        (∀ g ∈ (u.core u.cur.core).gaccs, g.slot = s.cur.slot → g.performed = true ∨ g.kind = .counterAdd ∨
          (g.acq = false ∧ (d + 8 ≤ g.dpa ∨ g.dpa + g.size ≤ d))) →
        ((u.rd x.b).toNat ≤ s.gmem.readLE d 8 → exec (.cntwait x) s = .next ((t.endCount s.cur.core s.cur.slot).retire 7)) ∧
        (s.gmem.readLE d 8 < (u.rd x.b).toNat → ∃ v, s.Used v ∧
          let w := v.endCount s.cur.core s.cur.slot
          exec (.cntwait x) s = .next (State.waitFor
            { w with cntwaits := w.cntwaits ++ [⟨s.cur.core, s.cur.slot, d, (u.rd x.b).toNat⟩] } .counter))))

/-- R106, R108, R111 to R113, R116, R300: a stream's tile moves every element of the tile to its place, or stops at an
uncorrectable word; its last tile makes it complete; credits come back; and STRCTL makes a stopped stream go on or end.
(Tiles are stated for SRAM to SRAM, completion with no order log and for a stream that no move has left behind. The model's
choices: a tile is made at one instant and writes nothing where it stops, log entry 22; credits go to the ring's stream only,
entry 26; one event at the completion of a ring's COPY, entry 94.) -/
def Obligations.StreamEvents : Prop :=
  (∀ (k : CoreId) (n : Fin 8) (t : Stream) (s : State),
    let at_ := fun (h : Shp) (j : Nat) => ((offOf h.base : Int) + h.off (t.tile * t.dst.tile + j)).toNat
    let len := t.tileLen t.tile
    (s.core k).streams[n] = some t → s.tileGate k t = true → t.ring = false → t.redirect = none →
    isLocal t.src.base = true → isLocal t.dst.base = true → isBerth t.src.base = false → isBerth t.dst.base = false →
    s.unlogged k →
      ((s.core k).regs.ue = [] → (s.core k).MemOk →
        (∀ i < len, ∀ j < len, i ≠ j → at_ t.dst i + t.dst.es ≤ at_ t.dst j ∨ at_ t.dst j + t.dst.es ≤ at_ t.dst i) →
        ∃ s' t', exec (.copyTileComplete k n false) s = .next s' ∧ (s'.core k).streams[n] = some t' ∧
          t'.tile = t.tile + 1 ∧ (t'.ended = true ↔ t.tiles ≤ t.tile + 1) ∧ t'.faulted = t.faulted ∧ s'.gmem = s.gmem ∧
          (∀ j < len, (s'.core k).mem.sram.readLE (at_ t.dst j) t.dst.es =
            (convElem t.src.conv ((s.core k).mem.sram.readLE (at_ t.src j) t.src.es)).1 % 256 ^ t.dst.es) ∧
          (∀ a, (∀ j < len, a < at_ t.dst j ∨ at_ t.dst j + t.dst.es ≤ a) →
            (s'.core k).mem.sram.get a = (s.core k).mem.sram.get a)) ∧
      (∀ w, ((List.range len).map (at_ t.src)).findSome? (fun o => (s.core k).badWord o t.src.es) = some w →
        ∃ s', exec (.copyTileComplete k n false) s = .next s' ∧ (s'.core k).streams[n] =
            some { t with faulted := true, addrs := [], asked := false, got := [] } ∧
          (s'.core k).regs.strflt[n] = 1#1 ++ 2#3 ++ (localAddr w).extractLsb' 0 60 ∧
          (s'.core k).mem.sf.getLsbD t.done.faultSem.toNat = true ∧ (s'.core k).mem.sram = (s.core k).mem.sram)) ∧
  (∀ (k : CoreId) (n : Fin 8) (t : Stream) (s : State),
    (s.core k).streams[n] = some t → t.ended = true → s.phaseOf k = .run → t.redirect = none → s.unlogged k →
    s.framesOut k n = false →
    ∃ s', exec (.copyComplete k n) s = .next s' ∧ (s'.core k).streams[n] = none ∧ (s'.slot k t.slot).ev = true ∧
      (s'.slot k t.slot).r.flags = (s.slot k t.slot).r.flags ||| t.flags) ∧
  (∀ (k ring : CoreId) (i issued m : Nat) (n : Fin 8) (t : Stream) (s : State),
    (s.core k).notices[i]? = some (ring, n, issued, m) → s.phaseOf k = .run → (s.core ring).streams[n] = some t →
    ∃ s', exec (.freeSpaceNotice k i) s = .next s' ∧ (s'.core k).notices = (s.core k).notices.eraseIdx i ∧
      (s'.core ring).streams[n] = some (if t.ring = true ∧ t.at_ = issued then { t with credit := t.credit + m } else t) ∧
      ∀ j l, s'.slot j l = s.slot j l) ∧
  (∀ (k : CoreId) (n : Fin 8) (s : State),
    let c := s.core k
    c.hasFault n = true →
      (c.faultIsAdd n = false → ∃ s', exec (.streamRestart k n) s = .next s' ∧ (s'.core k).hasFault n = false ∧
        (s'.core k).streams[n] = c.streams[n].map fun t => { t with faulted := false }) ∧
      (∀ sl va inc sem g, c.faultIsAdd n = true → c.heldAdd n = some (sl, va, inc, sem, g) →
        let h := (s.findTask g).getD (k, sl)
        ∃ s' a, exec (.streamRestart k n) s = .next s' ∧ (s'.core k).hasFault n = false ∧
          (s'.core h.1).gaccs = (s.core h.1).gaccs ++ [a] ∧ a.slot = h.2 ∧
          a.kind = .counterAdd ∧ a.va = va ∧ a.data = inc.setWidth 512 ∧ a.cmp = sem.setWidth 64) ∧
      ∃ s', exec (.streamEnd k n) s = .next s' ∧ (s'.core k).hasFault n = false ∧
        (c.faultIsAdd n = false → (∀ t, c.streams[n] = some t → t.redirect = none) → (s'.core k).streams[n] = none))

/-- R114, R115, R266: BERTH.out and BERTH.in open a closed berth and tell the peer, and close waits for its users and closes
it; the word of an open joins two berths that name each other in opposite directions with 512 bytes of credit; data joins the
IN side's buffer and is acknowledged, and the acknowledgement gives the OUT side its credit. (The model's choices: data at a
berth that is not joined for input is discarded and its credit returned at once, log entry 97; the order of several readers of
a berth is entry 25, and the data that joins is stated with no reader.) -/
def Obligations.BerthsAndTheirTraffic : Prop :=
  (∀ (out : Bool) (x : BerthF) (s : State) (h : Held),
    let f := mkForm x.q 26 [x.a, x.b] []
    let u := s.took f
    let a := u.rd x.a
    let peer := (u.rd x.b).extractLsb' 0 22
    let b : Fin 4 := Fin.ofNat 4 (a.toNat % 4)
    let k := s.cur.core
    s.issues f → isBerth a = true → s.launchOf k s.me.gtid = some h → peer.toNat < h.ranks → (s.core k).berths[b].st = .closed →
    ∃ t m, exec (if out then .berthOut x else .berthIn x) s = .next (State.retire t 26) ∧ t.me = u.me ∧ t.gmem = s.gmem ∧
      (t.core k).berths[b] = ⟨.opened, out, peer, Fin.ofNat 4 x.pb.toNat, gtidRank s.me.gtid, gtidLaunch s.me.gtid, [], 0, 0⟩ ∧
      (∀ j, j ≠ b → (t.core k).berths[j] = (s.core k).berths[j]) ∧ (t.core k).inj = (s.core k).inj ++ [m] ∧
      m.kind = .berthOpen (Fin.ofNat 4 x.pb.toNat) b ∧ m.dst = peer ∧ m.src = gtidRank s.me.gtid) ∧
  (∀ x : G1,
    let f := mkForm x.q 26 [x.a] []
    let b := fun u : State => berthNo (u.rd x.a)
    let y := fun u : State => (u.core u.cur.core).berths[b u]
    let busy := fun u : State => (u.core u.cur.core).berthUsed (b u) = true ∨ (y u).out = true ∧ ((y u).buf ≠ [] ∨ (y u).flying ≠ 0)
    Does (.berthClose x) f (fun u => isBerth (u.rd x.a) = true ∧ ¬ busy u ∧ ((y u).out = true ∨ (y u).buf = []))
      (fun u => u.modCore u.cur.core fun c => { c with berths := c.berths.set (b u) Berth.closed }) ∧
    Waits (.berthClose x) f (fun u => isBerth (u.rd x.a) = true ∧ busy u) .berth ∧
    Traps (.berthClose x) f (fun u => isBerth (u.rd x.a) = false) 0x0A (fun u => u.rd x.a)) ∧
  (∀ (k : CoreId) (m : Msg) (l : List Msg) (b mine : Fin 4) (n : Nat) (s : State),
    s.phaseOf k = .run → (s.core k).queueHeld 1 = false → (s.core k).arr[(1 : Fin 4)] = m :: l → m.kind = .berthData b mine n →
    (s.core k).berthReady b false = false →
    ∃ t g, exec (.berthDataArrival k 1) s = .next t ∧ g.kind = .berthFree mine n n ∧ g.dst = m.src ∧ g ∈ (t.core k).inj ∧
      (∀ j, t.slot k j = s.slot k j)) ∧
  (∀ (k : CoreId) (m : Msg) (l : List Msg) (b mine : Fin 4) (n : Nat) (s : State),
    s.phaseOf k = .run → (s.core k).queueHeld 1 = false → (s.core k).arr[(1 : Fin 4)] = m :: l → m.kind = .berthData b mine n →
    (s.core k).berthReady b false = true → (∀ i : Fin 8, (s.core k).streams[i] = none) → (s.unit k).scans = [] →
    ∃ t g, exec (.berthDataArrival k 1) s = .next t ∧ g.kind = .berthFree mine n 0 ∧ g.dst = m.src ∧ g ∈ (t.core k).inj ∧
      (t.core k).berths[b].buf = (s.core k).berths[b].buf ++ berthBytes m.payload n) ∧
  (∀ (i : Nat) (k : CoreId) (m : Msg) (b : Fin 4) (ack n : Nat) (s : State),
    s.berthFlight i = some (k, m) → m.kind = .berthFree b ack n →
    (s.core k).berths[b].st = .joined → (s.core k).berths[b].out = true → (s.core k).berths[b].buf = [] →
    ∃ t, exec (.berthCredit i) s = .next t ∧ t.mesh = s.mesh.eraseIdx i ∧
      (t.core k).berths[b].credit = (s.core k).berths[b].credit + n ∧
      (t.core k).berths[b].flying = (s.core k).berths[b].flying - ack) ∧
  (∀ (i : Nat) (k : CoreId) (m : Msg) (b mine : Fin 4) (h : Held) (s : State),
    let k2 := (s.route h m.src.toNat).1
    s.berthFlight i = some (k, m) → m.kind = .berthOpen b mine → s.heldOf m.vf m.launch = some h → k2 ≠ k →
    let y := (s.core k).berths[b]
    let z := (s.core k2).berths[mine]
    ∃ t, exec (.berthJoin i) s = .next t ∧ t.mesh = s.mesh.eraseIdx i ∧
      (y.st = .opened → z.st = .opened → y.peer = z.own → z.peer = y.own → y.peerBerth = mine → z.peerBerth = b →
        y.out = true → z.out = false → y.launch = z.launch → y.own = m.dst → z.own = m.src →
        (t.core k).berths[b] = { y with st := .joined, credit := 512 } ∧
        (t.core k2).berths[mine] = { z with st := .joined, credit := 0 }) ∧
      (y.st ≠ .opened ∨ z.st ≠ .opened ∨ y.out = z.out → (t.core k).berths[b] = y ∧ (t.core k2).berths[mine] = z))

/-! ### Tides (03, 09, 10) -/

/-- R89, R90, R93, R94, R267 to R270, R406: TIDE sends one contribution with the membership's round as its tag and raises
ROUND and OUT, waiting while two are out; TIDEWAIT takes the answer to the oldest; TIDEQ reads the entry, the membership or
the home; CHUNKINIT and GETCHUNK ask the home and retire with its reply; the TIDE tag action contributes a payload (stated with no
order log). An invalid membership, or a TIDEWAIT with no contribution out, raises ACCESS. -/
def Obligations.TideInstructions : Prop :=
  (∀ (s : State) (k : CoreId) (sl n : Fin 4) (lanes : VWord) (hdr : BitVec 128) (flag : BitVec 16),
    let w := (s.slot k sl).r.gm[n]
    let t := s.contribute k sl n lanes hdr flag
    (t.slot k sl).r.gm[n] = gmWord (gmGroup w) (gmRound w + 1) (gmOut w + 1) ∧
    ∃ c, (t.part (s.partNum k)).ctx.hub = (s.part (s.partNum k)).ctx.hub ++ [.contrib (gmGroup w) c] ∧
      c.gtid = (s.slot k sl).gtid ∧ c.gm = n ∧ c.tag = gmRound w ∧ c.lanes = lanes ∧ c.hdr = hdr ∧ c.flag = flag) ∧
  (∀ (x : TideF) (s : State) (sh : Nat),
    let f := mkForm x.q 31 ((if sh = 0 then [x.a] else []) ++ r16Ops x.fl) [] (if sh = 0 then [] else vRegs x.a)
    let u := s.took f
    let flag := (u.r16 x.fl).extractLsb' 0 16
    s.gmShape x.gm = some sh → s.issues f →
      (gmOut s.me.r.gm[x.gm] ≠ 2#2 → sh = 0 → exec (.tide x) s =
        .next ((u.contribute s.cur.core s.cur.slot x.gm ((u.rd x.a).setWidth 512) 0 flag).retire 31)) ∧
      (∀ v, gmOut s.me.r.gm[x.gm] ≠ 2#2 → sh ≠ 0 → asV x.a = some v → exec (.tide x) s =
        .next ((u.contribute s.cur.core s.cur.slot x.gm (u.rdV v) (if sh = 2 then u.rdH v else 0) flag).retire 31)) ∧
      (gmOut s.me.r.gm[x.gm] = 2#2 → sh = 0 → exec (.tide x) s = .next (s.waitFor .tideOut))) ∧
  (∀ (x : TideF) (s : State), s.gmShape x.gm = none → s.issues (mkForm x.q 31 (r16Ops x.fl) []) →
    exec (.tide x) s = .next (s.takeTrap s.cur.core s.cur.slot 0x09 (BitVec.ofNat 64 x.gm.val))) ∧
  (∀ (x : TidewaitF) (s : State) (sh : Nat),
    let f := mkForm x.q 31 [] (x.a :: (if sh = 0 then [x.d] else [])) (if sh = 0 then [] else vRegs x.d)
    let u := s.took f
    let w := s.me.r.gm[x.gm]
    let mine := fun (a : TideAns) => a.gm == x.gm && a.tag == gmRound w - (gmOut w).setWidth 32
    s.gmShape x.gm = some sh → s.issues f → gmOut w ≠ 0#2 →
      (∀ a, s.me.answers.find? mine = some a → u.slimRefuses x.a a.status = false → u.slimRefuses x.d (a.lanes.setWidth 64) = false →
        let t := u.modMe fun y =>
          { y with answers := y.answers.eraseP mine, r := { y.r with gm := y.r.gm.set x.gm (gmAfter w a) } }
        (sh = 0 → exec (.tidewait x) s = .next (((t.wr x.d (a.lanes.setWidth 64)).wr x.a a.status).retire 31)) ∧
        (∀ v, sh ≠ 0 → asV x.d = some v → exec (.tidewait x) s = .next (((t.wrV v a.lanes a.hdr).wr x.a a.status).retire 31))) ∧
      (s.me.answers.find? mine = none → (sh = 0 ∨ asV x.d ≠ none) →
        (x.nb ≠ some true → exec (.tidewait x) s = .next (s.waitFor .tide)) ∧
        (x.nb = some true → u.slimRefuses x.a 0xC0 = false → exec (.tidewait x) s = .next ((u.wr x.a 0xC0).retire 31)))) ∧
  (∀ (x : TidewaitF) (s : State),
    let sh := s.gmShape x.gm
    let f := mkForm x.q 31 [] (x.a :: (if sh = some 0 then [x.d] else [])) (if sh.isSome ∧ sh ≠ some 0 then vRegs x.d else [])
    s.issues f → sh = none ∨ gmOut s.me.r.gm[x.gm] = 0#2 →
    exec (.tidewait x) s = .next (s.takeTrap s.cur.core s.cur.slot 0x09 (BitVec.ofNat 64 x.gm.val))) ∧
  (∀ (w : Word) (a : TideAns),
    let next := a.status.extractLsb' 32 32 + 1
    gmV (gmAfter w a) = true ∧ gmGroup (gmAfter w a) = gmGroup w ∧ gmOut (gmAfter w a) = gmOut w - 1 ∧
    gmRound (gmAfter w a) = if gmOut w = 1#2 ∧ a.status.extractLsb' 6 2 ≠ 2#2 ∧ 0 < (next - gmRound w).toInt then next
      else gmRound w) ∧
  (∀ x : TideqF,
    let f := mkForm x.q 31 (r16Ops x.sel) [x.d]
    let sel := fun u : State => (u.r16 x.sel).toNat % 8
    let w := fun u : State => u.me.r.gm[x.gm]
    let e := fun u : State => (u.group (u.partNum u.cur.core) (gmGroup (w u))).entry
    Puts (.tideq x) f x.d w (ok := fun u => sel u = 3) ∧
    (∀ i < 3, Puts (.tideq x) f x.d (fun u => (e u).extractLsb' (64 * i) 64) (ok := fun u => sel u = i ∧ gmV (w u) = true)) ∧
    (∀ v, Puts (.tideq x) f x.d (fun _ => v) (ok := fun u => sel u = 4 ∧ gmV (w u) = true ∧ u.me.reply = some (.value v))) ∧
    Traps (.tideq x) f (fun u => 4 < sel u) 0x09 (fun u => BitVec.ofNat 64 (sel u)) ∧
    Traps (.tideq x) f (fun u => sel u ≤ 4 ∧ sel u ≠ 3 ∧ gmV (w u) = false) 0x09 (fun _ => BitVec.ofNat 64 x.gm.val)) ∧
  (let chunk := fun (u : State) (n : Fin 4) => gmV u.me.r.gm[n] = true ∧
     geChk (u.group (u.partNum u.cur.core) (gmGroup u.me.r.gm[n])).entry = true
   (∀ x : ChunkinitF,
     let f := mkForm x.q 31 (x.a :: r16Ops x.sz) []
     Does (.chunkinit x) f (fun u => chunk u x.gm ∧ ∃ v, u.me.reply = some (.value v)) id ∧
     Traps (.chunkinit x) f (fun u => ¬ chunk u x.gm) 0x09 (fun _ => BitVec.ofNat 64 x.gm.val) ∧
     (∀ s : State, s.issues f → chunk (s.took f) x.gm → s.me.reply = none → s.me.asked = false → ∃ t,
       exec (.chunkinit x) s = .next t ∧ t.me.st = .wait ∧ t.me.wait = .reply ∧ t.me.asked = true ∧ t.me.r = s.me.r ∧
       (t.part (s.partNum s.cur.core)).ctx.hub = (s.part (s.partNum s.cur.core)).ctx.hub ++
         [.chunkInit (gmGroup s.me.r.gm[x.gm]) (gtidRank s.me.gtid) s.cur.core s.cur.slot
           (((s.took f).rd x.a).extractLsb' 0 48) (((s.took f).r16 x.sz).extractLsb' 0 16)
           (match x.sz with | .reg _ => ((s.took f).r16 x.sz).getLsbD 16 | .imm _ => false)])) ∧
   (∀ x : GetchunkF,
     let f := mkForm x.q 31 [] [x.d]
     (∀ v, Puts (.getchunk x) f x.d (fun _ => v) (ok := fun u => chunk u x.gm ∧ u.me.reply = some (.value v))) ∧
     (∀ s : State, s.issues f → chunk (s.took f) x.gm → s.me.reply = none → s.me.asked = false → ∃ t,
       exec (.getchunk x) s = .next t ∧ t.me.st = .wait ∧ t.me.wait = .reply ∧ t.me.asked = true ∧ t.me.r = s.me.r ∧
       (t.part (s.partNum s.cur.core)).ctx.hub = (s.part (s.partNum s.cur.core)).ctx.hub ++
         [.getChunk (gmGroup s.me.r.gm[x.gm]) (gtidRank s.me.gtid) s.cur.core s.cur.slot (x.cap.getD 0)]))) ∧
  (∀ (k : CoreId) (i : Nat) (q : Fin 4) (m : Msg) (e : Word) (l : VWord) (h : BitVec 128) (fl : BitVec 16) (s : State),
    let n : Fin 4 := Fin.ofNat 4 (e.toNat % 4)
    let x := s.slot k (tagSlot e)
    s.tagHead k i 6 = some (q, m, e) → x.st ≠ .empty → x.st ≠ .halting → gmV x.r.gm[n] = true → gmOut x.r.gm[n] ≠ 2#2 →
    tidePayload (s.group (s.partNum k) (gmGroup x.r.gm[n])).entry m.payload = some (l, h, fl) → s.unlogged k →
    exec (.tideAction k i) s = .next ((s.contribute k (tagSlot e) n l h fl).tagFinish k q e))

/-- R90 to R94, R178, R269, R285: the home. A contribution of a later round is held, one of the open round or an earlier one
joins it, or is answered at once from a retained result; a round closes when its test holds, with one answer for every
contribution in it; a withdrawn member is no longer asked for, and a withdrawal of another launch's task changes nothing; a
query reads ρ and N′; a chunk request serves at most the rest; an answer sets its member's EV. (Stated with no order log. That
contributions held for the next round become on time together, and it is tested once, is the model's choice, log entry 94.) -/
def Obligations.TideHome : Prop :=
  (∀ (p i g : Nat) (c : Contrib) (s : State),
    s.hubHead p i = some (.contrib g c) → (s.part p).ctx.logMode = 0 →
    let x := s.group p g
    let y := x.take c
    let z := y.1.test y.1.fuel
    ∃ t, exec (.tideContributionArrival p i) s = .next t ∧ { t.group p g with hubsAsked := [] } = { z.1 with hubsAsked := [] } ∧
      t.gmem = s.gmem ∧
      (t.part p).ctx.hub = (s.part p).ctx.hub.eraseIdx i ++ y.2 ++ z.2) ∧
  (∀ (x : Group) (c : Contrib),
    let d := (c.tag - x.rho).toInt
    (0 < d → x.take c = ({ x with early := x.early ++ [c] }, [])) ∧
    (d = 0 → x.take c = ({ x with incl := x.incl ++ [{ c with dropped := false }] }, [])) ∧
    (∀ r, d < 0 → x.result c.tag = some r → ∃ a, (x.take c).2 = [.answer c.gtid a] ∧ a.gm = c.gm ∧ a.tag = c.tag ∧
      a.lanes = r.lanes ∧ a.hdr = r.hdr)) ∧
  (∀ x : Group,
    (x.closes = false → x.test x.fuel = (x, [])) ∧
    (x.close.1.rho = x.rho + 1 ∧ x.close.2.length = (x.incl.filter fun c => !c.answered).length ∧
      (∀ m ∈ x.close.2, ∃ a c, m = .answer c.gtid a ∧ c ∈ x.incl ∧ a.gm = c.gm ∧ a.tag = c.tag ∧
        a.lanes = (combineAll x.entry x.rho x.included).1 ∧ a.status.extractLsb' 32 32 = x.rho))) ∧
  (∀ (p i g l : Nat) (r : BitVec 22) (s : State), s.hubHead p i = some (.withdraw g r l) →
    (s.part p).ctx.logMode = 0 →
    let x := s.group p g
    let w : Group := { x with members := x.members.map fun m => if m.rank = r then { m with present := false } else m }
    (geV x.entry = true → geLaunch x.entry = l → ∃ t, exec (.tideWithdrawal p i) s = .next t ∧
      { t.group p g with hubsAsked := [] } = { (w.test w.fuel).1 with hubsAsked := [] } ∧ t.gmem = s.gmem) ∧
    (geV x.entry = false ∨ geLaunch x.entry ≠ l → ∃ t, exec (.tideWithdrawal p i) s = .next t ∧ t.group p g = x)) ∧
  (∀ (p i g : Nat) (r : BitVec 22) (k : CoreId) (sl : Fin 4) (s : State), s.hubHead p i = some (.query g r k sl) →
    (s.slot k sl).st = .wait → (s.slot k sl).wait = .reply → (s.slot k sl).asked = true →
    ∃ t v, exec (.homeQueryRequest p i) s = .next t ∧ (t.slot k sl).reply = some (.value v) ∧
      v.extractLsb' 0 32 = (s.group p g).rho ∧ v.extractLsb' 32 22 = BitVec.ofNat 22 (s.group p g).nPrime) ∧
  (∀ (p i g : Nat) (r : BitVec 22) (k : CoreId) (sl : Fin 4) (s : State),
    (s.part p).ctx.logMode = 0 → (s.slot k sl).st = .wait → (s.slot k sl).wait = .reply → (s.slot k sl).asked = true →
    let x := s.group p g
    (∀ total size guided, s.hubHead p i = some (.chunkInit g r k sl total size guided) → ∃ t v,
      exec (.chunkRequest p i) s = .next t ∧ (t.group p g).chunk = ⟨0, total, size, guided⟩ ∧
      (t.slot k sl).reply = some (.value v)) ∧
    (∀ cap, s.hubHead p i = some (.getChunk g r k sl cap) → ∃ t n, exec (.chunkRequest p i) s = .next t ∧
      (t.slot k sl).reply = some (.value (BitVec.ofNat 16 n ++ x.chunk.next)) ∧
      (t.group p g).chunk.next = x.chunk.next + BitVec.ofNat 48 n ∧ n ≤ x.chunk.total.toNat - x.chunk.next.toNat ∧
      (cap ≠ 0 → n ≤ cap.toNat) ∧
      (x.chunk.guided = false → cap = 0 →
        n = min (x.chunk.total.toNat - x.chunk.next.toNat) (max 1 x.chunk.size.toNat)))) ∧
  (∀ (p i : Nat) (g : Word) (a : TideAns) (k : CoreId) (sl : Fin 4) (s : State),
    s.hubHead p i = some (.answer g a) → (s.hubPop p i).findTask g = some (k, sl) →
    ∃ t, exec (.tideAnswerArrival p i) s = .next t ∧ (t.slot k sl).answers = (s.slot k sl).answers ++ [a] ∧
      (t.slot k sl).ev = true ∧ (t.slot k sl).r = (s.slot k sl).r)

/-! ### Laces and tasks (03, 09, 16) -/

/-- R79, R80, R84, R85, R271 to R273: LACE fails at once outside its limits or on a core already laced, joins the wait, and
returns 0 to the leader and 1 to each follower once every member waits; all fail where parameters differ; followers keep
their frames and receive the leader's others. UNLACE leaves, and a leader's dissolves the lace. RELACE answers by the slot's
lace state; a stray that waits at the leader's own RELACE re-attaches as the leader arrives there, and one that arrives after
the leader re-attaches at once. (Readings of the model: what a binding compares, log entry 27; which followers RELACE waits
for, entry 28; followers of a dissolved lace, entry 29; a RELACE at dissolution returns 0, and a slot that was lost to an
earlier lace stays so until it is bound again, entry 85; a member that leaves is not lost, entry 95.) -/
def Obligations.Laces : Prop :=
  let fresh := fun u : State => u.me.lace.result = none ∧ u.me.lace.code ≠ .binding
  let setLace := fun (u : State) (g : LaceSt → LaceSt) => u.modMe fun y => { y with lace := g y.lace }
  (∀ x : LaceF,
    let f := mkForm x.q 26 [] [x.d]
    let xl := (x.imm.extractLsb' 0 11).toNat
    let w := (x.imm.extractLsb' 11 7).toNat
    let e := (x.imm.extractLsb' 18 5).toNat
    let c := fun u : State => u.core u.cur.core
    let kx := fun u : State => (c u).kernelX u.cur.core
    let fits := fun u : State => 2 ≤ w ∧ w ≤ 64 ∧ xl + w ≤ (c u).kernelW u.cur.core ∧ xl ≤ kx u ∧ kx u < xl + w ∧ 10 ≤ e ∧
      e ≤ 30 ∧ (c u).laced = false
    Puts (.lace x) f x.d (fun _ => 2) (ok := fun u => fresh u ∧ ¬ fits u) ∧
    Puts (.lace x) f x.d (fun _ => 2) (ok := fun u => u.me.lace.result = some 2)
      (post := fun u => setLace u fun l => { l with result := none }) ∧
    Waits (.lace x) f (fun u => u.me.lace.result = none ∧ u.me.lace.code = .binding) .lace ∧
    (∀ s : State, s.issues f → fresh (s.took f) → fits (s.took f) →
      let t := (s.took f).laceJoin s.cur.core s.cur.slot xl w e
      (t.me.lace.result ≠ some 2 → exec (.lace x) s = .next (t.waitFor .lace)) ∧
      (t.me.lace.result = some 2 → (s.took f).slimRefuses x.d 2 = false →
        exec (.lace x) s = .next (((setLace t fun _ => s.me.lace).wr x.d 2).retire 26))) ∧
    (∀ (s : State) (r : BitVec 2), s.issues f → (s.took f).me.lace.result = some r → r = 0 ∨ r = 1 →
      (s.took f).slimRefuses x.d (r.setWidth 64) = false →
      exec (.lace x) s = .next
        ((setLace (((s.took f).wr x.d (r.setWidth 64)).retireHead 26) fun l =>
          { l with code := if r = 0 then .leader else .attached, result := none, waited := 0, lost := false,
                   joined := false }).stepStop
            s.cur.core s.cur.slot))) ∧
  (∀ (s : State) (k : CoreId) (sl : Fin 4) (xl w e : Nat),
    let kx := (s.core k).kernelX k
    let me : LaceSt := { LaceSt.solo with lost := (s.slot k sl).lace.lost, code := .binding, xl := BitVec.ofNat 11 xl, w := BitVec.ofNat 7 w,
                                          index := BitVec.ofNat 6 (kx - xl), e := BitVec.ofNat 5 e }
    let t := s.laceResult k sl me
    let ms := t.binders k xl w kx
    let agree := ∀ m ∈ ms, (t.slot m.1 m.2).lace.xl = me.xl ∧ (t.slot m.1 m.2).lace.w = me.w ∧ (t.core m.1).binder.length = 1
    (¬ agree → ∀ m ∈ ms, ((s.laceJoin k sl xl w e).slot m.1 m.2).lace =
      { LaceSt.solo with lost := (s.slot m.1 m.2).lace.lost, result := some 2 }) ∧
    (agree → ms.length < w → s.laceJoin k sl xl w e = t) ∧
    (agree → w ≤ ms.length → (∃ m ∈ ms, m.1 = k + xl - kx) → ∀ m ∈ ms,
      ((s.laceJoin k sl xl w e).slot m.1 m.2).lace.result = some (if m.1 = k + xl - kx then 0 else 1))) ∧
  (∀ src dst : CoreMem,
    let r := copyFrames src dst
    r = { dst with frames := r.frames } ∧
    (∀ j : Fin 16, r.frames[j] ≠ dst.frames[j] → dst.frames[j].tag = none ∧ ∃ i : Fin 16, r.frames[j] = src.frames[i]) ∧
    (∀ (i : Fin 16) (tag : BitVec 49), src.frames[i].tag = some tag →
      (∃ j : Fin 16, r.frames[j].tag = some tag) ∨ ∀ j : Fin 16, r.frames[j].tag ≠ none)) ∧
  (let leave := fun (t : State) => (((t.retireHead 26).endLace t.cur.core t.cur.slot).modSlot t.cur.core t.cur.slot fun x =>
     { x with buf := [] }).stepStop t.cur.core t.cur.slot
   (∀ s : State, let f := mkForm Guard.always 26 [] []
     s.issues f → exec .unlace s = .next (leave (s.took f))) ∧
   (∀ (x : GD) (s : State), let f := mkForm x.q 26 [] [x.d]
     s.issues f → (s.took f).slimRefuses x.d s.me.lace.word = false →
     exec (.unlaceStatus x) s = .next (leave ((s.took f).wr x.d s.me.lace.word)))) ∧
  (∀ (s : State) (k : CoreId) (sl : Fin 4),
    let old := (s.slot k sl).lace
    ((s.endLace k sl).slot k sl).lace =
      { LaceSt.solo with lost := old.lost && (old.code == .solo || old.code == .binding) } ∧
    ((s.endLace k sl).slot k sl).buf = [] ∧ (∀ f ∈ (s.endLace k sl).laces, (f.core, f.slot) ≠ (k, sl)) ∧
    ∀ (i : Nat) (n : Fin 4), i ≠ 0 →
      let l := (s.slot (k + i) n).lace
      let y := ((s.endLace k sl).slot (k + i) n).lace
      let led := i < (s.slot k sl).lace.w.toNat ∧ ((s.slot k sl).lace.code = .leader ∨ (s.slot k sl).lace.code = .leaderWait) ∧
        l.leadCore = k ∧ l.leadSlot = sl
      (led → l.code = .detached → y = LaceSt.solo) ∧
      (led → l.code = .rejoining → y = { l with code := .solo, result := some 0 }) ∧
      (¬ led ∨ l.code ≠ .detached ∧ l.code ≠ .rejoining → y = l)) ∧
  (∀ x : GD,
    let f := mkForm x.q 26 [] [x.d]
    let i := Instr.relace x
    let no := fun u : State => u.me.lace.result = none
    let solo := fun u : State => setLace u fun _ => LaceSt.solo
    Puts i f x.d (fun u => if u.me.lace.lost then 3 else 0) (ok := fun u => no u ∧ u.me.lace.code = .solo) (post := solo) ∧
    Puts i f x.d (fun _ => 1) (ok := fun u => no u ∧ u.me.lace.code = .attached) ∧
    (∀ r : BitVec 2, Puts i f x.d (fun _ => r.setWidth 64)
      (ok := fun u => u.me.lace.result = some r ∧ u.me.lace.code ≠ .attached) (post := solo)) ∧
    (∀ (s : State) (r : BitVec 2), s.issues f → s.me.lace.result = some r → s.me.lace.code = .attached →
      (s.took f).slimRefuses x.d (r.setWidth 64) = false →
      exec i s = .next ((setLace (((s.took f).wr x.d (r.setWidth 64)).retireHead 26) fun l =>
        { l with code := .attached, result := none, waited := 0, lost := false }).stepStop s.cur.core s.cur.slot)) ∧
    (∀ s : State, s.issues f → s.me.lace.result = none → s.me.lace.code = .detached →
      (s.leaderAt s.me.lace s.me.pc = false →
        exec i s = .next ((setLace s fun l => { l with code := .rejoining, waited := 0 }).waitFor .relace)) ∧
      (s.leaderAt s.me.lace s.me.pc = true →
        let u := (s.took f).dropWire (s.cur.core, s.cur.slot)
        u.slimRefuses x.d 2 = false →
        exec i s = .next ((setLace ((u.wr x.d 2).retireHead 26) fun l =>
          { l with code := .attached, result := none, waited := 0, lost := false, joined := true }).stepStop
            s.cur.core s.cur.slot))) ∧
    Waits i f (fun u => no u ∧ u.me.lace.code = .rejoining) .relace ∧
    (∀ s : State, s.issues f → s.me.lace.result = none → s.me.lace.code = .leader ∨ s.me.lace.code = .leaderWait →
      let u := s.took f
      let ms := u.strays s.cur.core s.cur.slot
      let r : Word := if s.me.lace.lost then 3 else 1
      ((∀ m ∈ ms, u.waitsAt s.me.pc m = true) → u.slimRefuses x.d r = false →
        exec i s = .next ((setLace ((((u.wr x.d r).retireHead 26).dropRelace s.cur.core s.cur.slot).rejoin ms false) fun l =>
          { l with code := .leader, lost := false, waited := 0 }).stepStop s.cur.core s.cur.slot)) ∧
      ((∃ m ∈ ms, u.waitsAt s.me.pc m = false) →
        exec i s = .next ((setLace (s.rejoin (ms.filter (u.waitsAt s.me.pc)) true) fun l =>
          { l with code := .leaderWait }).waitFor .relace)))) ∧
  (∀ (s : State) (ms : List (CoreId × Fin 4)) (b : Bool),
    let t := s.rejoin ms b
    (∀ m ∈ ms, (t.slot m.1 m.2).lace = { (s.slot m.1 m.2).lace with
          code := .attached, result := some 2, waited := 0, joined := b } ∧
      (t.slot m.1 m.2).buf = [] ∧ ∀ f ∈ t.laces, (f.core, f.slot) ≠ m) ∧
    ∀ k n, (k, n) ∉ ms → t.slot k n = s.slot k n) ∧
  (∀ (i : Nat) (f : LaceFly) (s : State), s.laces[i]? = some f → s.phaseOf f.core ≠ .out →
    (∀ g ∈ s.laces.take i, (g.core, g.slot) ≠ (f.core, f.slot)) →
    ∃ t, exec (.laceForwardHead i) s = .next t ∧ t.laces = s.laces.eraseIdx i ∧ t.gmem = s.gmem ∧
      (∀ k n, (k, n) ≠ (f.core, f.slot) → t.slot k n = s.slot k n) ∧
      t.slot f.core f.slot = { s.slot f.core f.slot with
        buf := (s.slot f.core f.slot).buf ++ if (s.slot f.core f.slot).lace.follows then [f.head] else [] }) ∧
  (∀ (k : CoreId) (n : Fin 4) (s : State), s.phaseOf k ≠ .out → (s.slot k n).lace.result = none →
    let i := Instr.laceTimeout k n
    let l := (s.slot k n).lace
    ((s.slot k n).st = .wait → l.code = .binding → ∃ t, exec i s = .next t ∧
      t.slot k n = { s.slot k n with lace := { LaceSt.solo with lost := l.lost, result := some 2 } }) ∧
    ((s.slot k n).st = .wait → l.code = .rejoining → ∃ t, exec i s = .next t ∧
      t.slot k n = { s.slot k n with lace := { LaceSt.solo with result := some 3 } }) ∧
    (l.code = .attached → s.backPressures k n = true → ∃ t, exec i s = .next t ∧
      t.slot k n = { s.slot k n with lace := { l with code := .detached, joined := false }, buf := [] } ∧
      ∀ f ∈ t.laces, (f.core, f.slot) ≠ (k, n)) ∧
    ((s.slot k n).st = .wait → l.code = .leaderWait → ∃ t, exec i s = .next t ∧
      ∀ m ∈ s.strays k n, m ≠ (k, n) → s.waitsAt (s.slot k n).pc m = false →
        (t.slot m.1 m.2).lace = { LaceSt.solo with
          lost := (s.slot m.1 m.2).lace.code != .rejoining
          result := if (s.slot m.1 m.2).lace.code = .rejoining then some 3 else none }))

/-- R274, R275, R304, R358, R360: SPAWN reads its packet, queues it at the dispatcher and waits for its answer; RANKSET sends
its update and returns the old entry; MIGRATE answers a status of R275, or begins a move, which takes an entry with TRANSIT
at the task's present place, and answers 0 when it has moved. A MIGT request acts as a self-move at a tide boundary, and fails
with the status that holds by then where it has waited. (Readings of the model: SPAWN's packet is read with the error check of
a load, log entry 38; RANKSET's TADDR and bit 23, entry 37; the order of the statuses, the waits and a reserved target, entry
31; a held MIGT request, entry 32.) -/
def Obligations.SpawningAndMoving : Prop :=
  let ask := fun (s : State) (w : Wait) => (s.modMe fun y => { y with asked := true }).waitFor w
  let asking := fun (s : State) (f : Form) => s.issues f ∧ s.me.reply = none ∧ s.me.asked = false
  (∀ x : GG,
    let f := mkForm x.q 31 [x.a] [x.d]
    let a := fun u : State => u.rd x.a
    (∀ v, Puts (.spawn x) f x.d (fun _ => v) (ok := fun u => u.me.reply = some (.value v))) ∧
    (∀ s : State, let u := s.took f
      asking s f → LocalOk (a u) 64 → fenceDone (s.core s.cur.core) s.cur.slot .rel = true → u.sound (a u) 64 →
      exec (.spawn x) s = .next (ask ((s.corrects (a u) 64).modPart (s.partNum s.cur.core) fun y => { y with
        packets := y.packets ++
          [(.spawn s.cur.core s.cur.slot, gtidVf s.me.gtid, toBytes (u.sramAt (a u) 64) 64)] }) .reply)) ∧
    (∀ (s t : State) (d : Nat), let u := s.took f
      asking s f → isGlobal (a u) = true → (a u).toNat % 64 = 0 → fenceDone (s.core s.cur.core) s.cur.slot .rel = true →
      u.Xlates (a u) 9 true t d → ∃ v, s.Used v ∧
      exec (.spawn x) s = .next (ask (v.modPart (s.partNum s.cur.core) fun y => { y with packets := y.packets ++
        [(.spawn s.cur.core s.cur.slot, gtidVf s.me.gtid, toBytes (t.homeLE d 64) 64)] }) .reply))) ∧
  (∀ x : GrpF,
    let f := mkForm x.q 29 (x.a :: r16Ops x.n) [x.d] [] 1
    let i := fun u : State => ((u.r16 x.n).extractLsb' 0 6).toFin
    let old := fun u : State => (u.part (u.partNum u.cur.core)).ranksAfter[i u]
    let waits := fun u : State => u.me.reply = none ∧ u.me.asked = false
    (∀ v, Puts (.rankset x) f x.d (fun _ => v) (ok := fun u => u.me.reply = some (.value v))) ∧
    Traps (.rankset x) f (fun u => waits u ∧ ((old u).getLsbD 62 = true ∨ (u.rd x.a).getLsbD 62 = true)) 0x09
      (fun u => u.rd x.a) ∧
    (∀ s : State, let u := s.took f
      asking s f → (old u).getLsbD 62 = false → (u.rd x.a).getLsbD 62 = false →
      exec (.rankset x) s = .next (ask (s.pushUpd (s.partNum s.cur.core)
        ⟨(i u).val, u.rd x.a &&& ~~~(1#64 <<< 23), some (s.cur.core, s.cur.slot), false⟩) .reply))) ∧
  (∀ x : MigrateF,
    let f := mkForm x.q 31 [x.a, x.b] [x.d] [] (if x.b = .g 0 then 0 else 1)
    let i := Instr.migrate x
    let pos := fun u : State => (u.rd x.a).extractLsb' 0 21
    let tsl := fun u : State => (Fin.ofNat 4 ((u.rd x.a).extractLsb' 21 2).toNat : Fin 4)
    let task := fun (u : State) (t : CoreId × Fin 4) => x.b = .g 0 ∧ t = (u.cur.core, u.cur.slot) ∨
      x.b ≠ .g 0 ∧ u.findTask (u.rd x.b) = some t ∧ u.partOf t.1 = u.partOf u.cur.core ∧ (u.slot t.1 t.2).st = .trapped
    Puts i f x.d (fun _ => 0) (ok := fun u => u.me.reply = some .moved) ∧
    (∀ v, Puts i f x.d (fun _ => v) (ok := fun u => u.me.reply = some (.value v))) ∧
    (∀ s : State, asking s f → (∀ v, (s.took f).slimRefuses x.d v = false) → (∀ t, ¬ task (s.took f) t) →
      exec i s = .next (((s.took f).wr x.d 4).retire 31)) ∧
    (∀ (s : State) (t : CoreId × Fin 4), let u := s.took f
      let st := u.moveStatus t.1 t.2 (pos u) (tsl u)
      asking s f → (∀ v, u.slimRefuses x.d v = false) → task u t → u.moving t.1 t.2 = false →
      (st ≠ 0 → exec i s = .next ((u.wr x.d (BitVec.ofNat 64 st)).retire 31)) ∧
      (st = 0 → u.moveWaits t.1 t.2 = true → exec i s = .next (s.waitFor .commands)) ∧
      (st = 0 → u.moveWaits t.1 t.2 = false → ∀ to_, unpackPos (pos u) = some to_ →
        (x.b = .g 0 → exec i s = .next ((s.beginMove t.1 t.2 to_ (tsl u) none none).waitFor .moved)) ∧
        (x.b ≠ .g 0 →
          exec i s = .next (ask (s.beginMove t.1 t.2 to_ (tsl u) none (some (s.cur.core, s.cur.slot))) .reply))))) ∧
  (∀ (s : State) (k : CoreId) (sl : Fin 4) (pos : BitVec 21) (tsl : Fin 4),
    let st := s.moveStatus k sl pos tsl
    let p := s.part (s.partNum k)
    let h := s.launchD k (s.slot k sl).gtid
    (unpackPos pos = none → st = 3) ∧
    ∀ t, unpackPos pos = some t →
      let good := s.partOf t = s.partOf k ∧ ¬ (t = k ∧ tsl = sl) ∧ tsl.val < h.s
      let free := (s.slot t tsl).st = .empty ∧ (∀ m ∈ p.moves, ¬ (m.toCore = t ∧ m.toSlot = tsl)) ∧
        ∀ g, (s.core t).held = some g → g.vf = h.vf ∧ g.launch = h.launch
      let boundary := (s.slot k sl).tideBoundary = true
      let g := (s.slot k sl).gtid
      let entry := takeEntry p.ranksAfter (gtidLaunch g) (gtidRank g).toNat ≠ none
      let clash := s.slotOnly k sl t = true ∧ s.claimClash k sl t = true
      (¬ good → st = 3) ∧ (good → ¬ free → st = 1) ∧ (good → free → ¬ boundary → st = 2) ∧
      (good → free → boundary → ¬ entry → st = 5) ∧ (good → free → boundary → entry → clash → st = 6) ∧
      (good → free → boundary → entry → ¬ clash → st = 0)) ∧
  (∀ (s : State) (k : CoreId) (sl : Fin 4) (t : CoreId) (tsl : Fin 4) (mg : Option (Fin 4)) (who : Option (CoreId × Fin 4))
      (e : Nat),
    let p := s.partNum k
    let g := (s.slot k sl).gtid
    takeEntry (s.part p).ranksAfter (gtidLaunch g) (gtidRank g).toNat = some e →
    s.beginMove k sl t tsl mg who = s.modPart p fun y => { y with
      upds := y.upds ++ [⟨e, rankWord ⟨true, true, gtidLaunch g, (gtidRank g).toNat, sl, packPos k⟩, none, false⟩]
      moves := y.moves ++ [⟨k, sl, t, tsl, g, e, mg, who, .entry⟩] }) ∧
  (∀ (k : CoreId) (n : Fin 4) (s : State),
    let x := s.slot k n
    let v := (s.core k).regs.migt[n]
    let pos := v.extractLsb' 0 21
    let tsl : Fin 4 := Fin.ofNat 4 (v.extractLsb' 21 2).toNat
    let st := s.moveStatus k n pos tsl
    v.getLsbD 63 = true → x.st = .ready → x.tideBoundary = true → s.moving k n = false →
    ∃ t, exec (.migtRequestAct k n) s = .next t ∧ (t.slot k n).r = x.r ∧ t.gmem = s.gmem ∧
      (st ≠ 0 → (t.slot k n).st = .ready ∧ (t.core k).regs.migt[n] = migtDone v st) ∧
      (st = 0 → (t.slot k n).st = .wait ∧ (t.slot k n).wait = .moved) ∧
      (st = 0 → (t.core k).regs.migt[n] = v &&& ~~~(1#64 <<< 63) ∧ ∀ to_, unpackPos pos = some to_ →
        ∃ e, (t.part (s.partNum k)).moves = (s.part (s.partNum k)).moves ++
          [⟨k, n, to_, tsl, x.gtid, e, some n, none, if s.moveWaits k n then .waits else .entry⟩])) ∧
  (∀ (k : CoreId) (n : Fin 4) (m : Move) (e : Nat) (s : State),
    let g := (s.slot k n).gtid
    let entry := takeEntry (s.part (s.partNum k)).ranksAfter (gtidLaunch m.gtid) (gtidRank m.gtid).toNat
    let clash := s.slotOnly m.core m.slot m.toCore = true ∧ s.claimClash m.core m.slot m.toCore = true
    let others := (s.part (s.partNum k)).moves.filter fun y => y.gtid != g
    s.migtWaiting k n = some m → s.moveWaits k n = false → m.gtid = g →
    (entry = some e → ¬ clash →
      ∃ t, exec (.migtRequestAct k n) s = .next t ∧ (∀ j, t.slot k j = s.slot k j) ∧
        (t.part (s.partNum k)).moves = others ++ [⟨k, n, m.toCore, m.toSlot, g, e, some n, none, .entry⟩]) ∧
    (∀ st, (st = 5 ∧ entry = none ∨ st = 6 ∧ entry ≠ none ∧ clash) →
      ∃ t, exec (.migtRequestAct k n) s = .next t ∧ (t.part (s.partNum k)).moves = others ∧ (t.slot k n).st = .ready ∧
        (t.slot k n).r = (s.slot k n).r ∧ (t.core k).regs.migt[n] = migtDone (s.core k).regs.migt[n] st))

/-- R358, R359 (steps 2 to 7), R380: an update of a table is complete when every copy has taken it, and answers its issuer;
the end of the update that began a move lets it flush; once every earlier message has been acted on, the copy carries the
slot image to the target, leaves the old slot EMPTY and releases the entry; the end of that update lets the task go on at the
target. The table word of the task's new place names it, with TRANSIT 0. Where a task at the target has by then claimed what
the copy would overwrite, nothing moves and the status is 6. (Stated with no record held at a network quay. Readings of the
model: a held MIGT request and the target's register, log entry 32; what reaches a moving task, entry 33; what a whole-core
move carries, entry 34; the accesses under way that go with the task, entry 87; the status at the copy and the parked commands
that go with the task, entry 95.) -/
def Obligations.MovesProceed : Prop :=
  (∀ (p i : Nat) (u : TabUpd) (s : State),
    (s.part p).upds[i]? = some u → (∀ v ∈ (s.part p).upds.take i, ¬ (v.stop = u.stop ∧ v.entry = u.entry)) →
    (s.part p).netHeld = [] →
    ∃ t, exec (.rankTableUpdateAck p i) s = .next t ∧ (t.part p).upds = (s.part p).upds.eraseIdx i ∧ t.gmem = s.gmem ∧
      (t.part p).ctx = (if u.stop then (s.part p).ctx.setStop u.entry u.value
        else { (s.part p).ctx with ranks := (s.part p).ctx.ranks.set (Fin.ofNat 64 u.entry) u.value }) ∧
      (∀ k sl, u.issuer = some (k, sl) → (t.slot k sl).reply =
        some (.value (if u.stop then 0 else (s.part p).ctx.ranks[Fin.ofNat 64 u.entry]))) ∧
      (∀ m, u.issuer = none → u.stop = false → (s.part p).moves.find? (fun m => m.entry == u.entry && m.step != .waits) = some m →
        (m.step = .entry → (t.part p).moves =
          (s.part p).moves.map fun n => if n.gtid = m.gtid then { n with step := .flush } else n) ∧
        (m.step = .failed → (t.part p).moves = (s.part p).moves.filter (·.gtid != m.gtid) ∧
          (m.migt = none → m.issuer = none → (t.slot m.core m.slot).reply = some (.value 6)) ∧
          (∀ k sl, m.issuer = some (k, sl) → (t.slot k sl).reply = some (.value 6)) ∧
          ∀ n, m.migt = some n → (t.core m.core).regs.migt[n] = migtDone (s.core m.core).regs.migt[n] 6) ∧
        (m.step = .release → (t.part p).moves = (s.part p).moves.filter (·.gtid != m.gtid) ∧
          ((s.slot m.toCore m.toSlot).st = .wait → (s.slot m.toCore m.toSlot).wait = .moved →
            (t.slot m.toCore m.toSlot).st = .ready) ∧
          (m.migt = none → m.issuer = none → (t.slot m.toCore m.toSlot).reply = some .moved) ∧
          (∀ k sl, m.issuer = some (k, sl) → (t.slot k sl).reply = some (.value 0)) ∧
          (∀ n, m.migt = some n →
            let v := (s.core m.toCore).regs.migt[n]
            let w := (t.core m.toCore).regs.migt[n]
            w.getLsbD 62 = true ∧ w.extractLsb' 56 3 = 0 ∧ w.getLsbD 63 = v.getLsbD 63 ∧
            (v.getLsbD 63 = false → w.extractLsb' 0 21 = packPos m.toCore ∧ (w.extractLsb' 21 2).toNat = m.toSlot.val) ∧
            (v.getLsbD 63 = true → w.extractLsb' 0 23 = v.extractLsb' 0 23))))) ∧
  (∀ (k : CoreId) (m : Move) (s : State), s.moveAt k .flush = some m → s.unflushed k m.gtid = false →
    ∃ t, exec (.moveFlushMarker k) s = .next t ∧ t.cores = s.cores ∧ t.gmem = s.gmem ∧
      (t.part (s.partNum k)).moves =
        (s.part (s.partNum k)).moves.map fun n => if n.gtid = m.gtid then { n with step := .copy } else n) ∧
  (∀ (k : CoreId) (m : Move) (s : State), s.moveAt k .copy = some m → s.copyReady m = true →
    let clash := s.slotOnly k m.slot m.toCore = true ∧ s.claimClash k m.slot m.toCore = true
    (clash → ∃ t, exec (.moveCopy k) s = .next t ∧ (∀ j n, t.slot j n = s.slot j n) ∧
      (t.part (s.partNum k)).moves = (s.part (s.partNum k)).moves.map fun n =>
        if n.gtid = m.gtid then { m with toCore := m.core, toSlot := m.slot, step := .failed } else n) ∧
    ((m.toCore, m.toSlot) ≠ (k, m.slot) → ¬ clash →
    ∃ t, exec (.moveCopy k) s = .next t ∧ (t.slot k m.slot).st = .empty ∧ t.gmem = s.gmem ∧
      (∀ e ∈ (s.core k).parked, e.1 = m.slot → (m.toSlot, e.2) ∈ (t.core m.toCore).parked) ∧
      (let y := t.slot m.toCore m.toSlot
       let x := s.slot k m.slot
       y.r = x.r ∧ y.t = x.t ∧ y.pc = x.pc ∧ y.gtid = x.gtid ∧ y.st = x.st ∧ y.deferred = x.deferred ∧
         y.lace = x.lace.left ∧ y.watch.armed = false) ∧
      (t.part (s.partNum k)).moves =
        ((s.part (s.partNum k)).moves.map fun n => if n.gtid = m.gtid then { n with step := .release } else n) ∧
      ∃ v, (t.part (s.partNum k)).upds = (s.part (s.partNum k)).upds ++
        [⟨m.entry, rankWord ⟨v, false, gtidLaunch m.gtid, (gtidRank m.gtid).toNat, m.toSlot, packPos m.toCore⟩, none, false⟩]))

/-! ### System registers and SYS (13, 16, 17, 18) -/

/-- R291, R292, R293, R294, R303, R304, R380: MFS gives the register's value and MTS writes it, at the issuing slot or core, or
with `.t` at the one that TSEL names; a reserved number raises ILLEGAL_FORM, too low a level PRIVILEGE with the number in
TADDR, and a TSEL that names no slot of the partition ACCESS. At another core the access travels, and its reply is used. The
tables say what a read gives, and that a read after a write gives the writable bits. (Readings of the model: TADDR of an ACCESS
and reserved bits written, log entry 41; `.t` on a register of a wider scope acts at the issuer's instance, entry 42; a write
of a STOP register retires at the acknowledgement of its update, entry 43.) -/
def Obligations.SpecialRegisters : Prop :=
  let place := fun (u : State) (w : Word) (wr : Bool) (t : CoreId × Fin 4) => ∃ r, regInfo (srNum w) = some r ∧
    (if wr then r.wr else r.rd) ≤ (lvlOf u.me).toNat ∧
    (srDot w = false ∧ t = (u.cur.core, u.cur.slot) ∨
     srDot w = true ∧ ∃ sel, u.selected = some sel ∧ t = if r.slot || r.core then sel else (u.cur.core, u.cur.slot))
  let illegal := fun (i : Instr) (f : Form) (w : State → Word) (wr : Bool) =>
    Traps i f (fun u => regInfo (srNum (w u)) = none) 0x03 (fun u => u.headWord) ∧
    Traps i f (fun u => ∃ r, regInfo (srNum (w u)) = some r ∧ (lvlOf u.me).toNat < if wr then r.wr else r.rd) 0x04
      (fun u => BitVec.ofNat 64 (srNum (w u))) ∧
    Traps i f (fun u => (∃ r, regInfo (srNum (w u)) = some r ∧ (if wr then r.wr else r.rd) ≤ (lvlOf u.me).toNat) ∧
      srDot (w u) = true ∧ u.selected = none) 0x09 (fun u => u.me.t.tsel)
  let travels := fun (i : Instr) (f : Form) (t : State → CoreId × Fin 4 → Prop) (a b : State → Word) => ∀ (s : State) (y : CoreId × Fin 4),
    s.issues f → t (s.took f) y → y.1 ≠ s.cur.core → s.me.reply = none → s.me.asked = false →
    exec i s = .next ((State.modMe { s with sys := s.sys ++
      [⟨s.cur.core, s.cur.slot, i, s.me.t.tsel, a (s.took f), b (s.took f), s.me.pc⟩] } fun y => { y with asked := true }).waitFor
        .reply)
  (∀ x : MfsF,
    let f := mkForm x.q 29 (r16Ops x.sr) [x.d]
    let w := fun u : State => u.r16 x.sr
    illegal (.mfs x) f w false ∧
    travels (.mfs x) f (fun u y => place u (w u) false y) w (fun _ => 0) ∧
    (∀ (v : Word) (y : CoreId × Fin 4), Puts (.mfs x) f x.d (fun _ => v)
      (ok := fun u => place u (w u) false y ∧ y.1 ≠ u.cur.core ∧ u.me.reply = some (.value v) ∧ srNum (w u) ≠ 0x106) ∧
      Puts (.mfs x) f x.d (fun _ => v)
        (ok := fun u => place u (w u) false y ∧ y.1 ≠ u.cur.core ∧ u.me.reply = some (.value v) ∧ srNum (w u) = 0x106)
        (post := fun u => u.modCoreRegs y.1 fun r => { r with eccstat := r.eccstat &&& 0x0000FFFFFFFFFFFF })) ∧
    ∀ (s t : State) (y : CoreId × Fin 4) (v : Word), let u := s.took f
      s.issues f → place u (w u) false y → y.1 = s.cur.core →
      (regRead u s.cur.core (lvlOf s.me) y.1 y.2 (srNum (w u)) = .ok t v → t.slimRefuses x.d v = false →
        let t' := if srNum (w u) = 0x106
          then t.modCoreRegs y.1 fun r => { r with eccstat := r.eccstat &&& 0x0000FFFFFFFFFFFF } else t
        exec (.mfs x) s = .next ((t'.wr x.d v).retire 29)) ∧
      (∀ c a, regRead u s.cur.core (lvlOf s.me) y.1 y.2 (srNum (w u)) = .trap c a →
        exec (.mfs x) s = .next (s.takeTrap s.cur.core s.cur.slot c a))) ∧
  (∀ x : MtsF,
    let f := mkForm x.q 29 (x.a :: r16Ops x.sr) []
    let w := fun u : State => u.r16 x.sr
    let stop := fun u : State => 0x140 ≤ srNum (w u) ∧ srNum (w u) ≤ 0x150
    let to_ := fun (u : State) (y : CoreId × Fin 4) => place u (w u) true y ∧ ¬ stop u
    illegal (.mts x) f w true ∧
    travels (.mts x) f to_ w (fun u => u.rd x.a) ∧
    (∀ v, Does (.mts x) f (fun u => (∃ y, to_ u y ∧ y.1 ≠ u.cur.core) ∧ u.me.reply = some (.value v)) id) ∧
    (∀ (s t : State) (y : CoreId × Fin 4) (v : Word), let u := s.took f
      s.issues f → to_ u y → y.1 = s.cur.core →
      (srDot (w u) = true → (∃ r, regInfo (srNum (w u)) = some r ∧ r.slot = true) → (u.slot y.1 y.2).st ≠ .trapped →
        exec (.mts x) s = .next (s.takeTrap s.cur.core s.cur.slot 0x09 s.me.t.tsel)) ∧
      (srDot (w u) = false ∨ (u.slot y.1 y.2).st = .trapped ∨ (∃ r, regInfo (srNum (w u)) = some r ∧ r.slot = false) →
        (regWrite u s.cur.core (lvlOf s.me) y.1 y.2 (srNum (w u)) (u.rd x.a) = .ok t v →
          exec (.mts x) s = .next (if t.me.st = .empty then t else t.retire 29)) ∧
        ∀ c a, regWrite u s.cur.core (lvlOf s.me) y.1 y.2 (srNum (w u)) (u.rd x.a) = .trap c a →
          exec (.mts x) s = .next (s.takeTrap s.cur.core s.cur.slot c a))) ∧
    (∀ (s : State) (p : Nat), let u := s.took f
      let r := srNum (w u) - 0x140
      s.issues f → stop u → (∃ y, place u (w u) true y) → u.partOf s.cur.core = some p → s.me.reply = none → s.me.asked = false →
      stopRefused (u.part p) (lvlOf s.me) r (u.rd x.a) = false →
      exec (.mts x) s = .next (((s.pushUpd p ⟨r, stopMask r (u.rd x.a), some (s.cur.core, s.cur.slot), true⟩).modMe
        fun y => { y with asked := true }).waitFor .reply)) ∧
    (∀ v, Does (.mts x) f (fun u => stop u ∧ (∃ y, place u (w u) true y) ∧ u.me.reply = some (.value v)) id)) ∧
  (∀ (s : State) (k : CoreId) (lvl : BitVec 2) (tk : CoreId) (n : Fin 4),
    (∀ e ∈ ([(0x000, fun x => x.t.tpc), (0x001, fun x => x.tstRead), (0x002, fun x => x.t.tcause), (0x003, fun x => x.t.taddr),
        (0x004, fun x => x.t.tvec), (0x005, fun x => x.t.tsel), (0x006, fun x => x.t.sbase), (0x007, fun x => x.t.slim),
        (0x008, fun x => x.r.flags.setWidth 64), (0x009, fun x => x.gtid), (0x00C, fun x => x.r.gm[0]), (0x00D, fun x => x.r.gm[1]),
        (0x00E, fun x => x.r.gm[2]), (0x00F, fun x => x.r.gm[3]), (0x010, fun x => x.r.lc[0].count ++ x.r.lc[0].value),
        (0x011, fun x => x.r.lc[0].start), (0x012, fun x => x.r.lc[0].fin), (0x013, fun x => x.r.lc[1].count ++ x.r.lc[1].value),
        (0x014, fun x => x.r.lc[1].start), (0x015, fun x => x.r.lc[1].fin), (0x042, fun x => x.t.xinfo)] :
        List (Nat × (Slot → Word))),
      regRead s k lvl tk n e.1 = .ok s (e.2 (s.slot tk n))) ∧
    (∀ e ∈ ([(0x020, fun c => c.regs.supr), (0x021, fun c => c.regs.hsupr), (0x022, fun c => c.regs.wdog),
        (0x0CC, fun c => c.regs.nextid), (0x107, fun c => c.regs.linkstat)] : List (Nat × (Core → Word))),
      regRead s k lvl tk n e.1 = .ok s (e.2 (s.core tk))) ∧
    (∀ e ∈ ([(0x040, fun p => p.ctx.s1root), (0x041, fun p => p.ctx.s2root), (0x082, fun p => p.qcur), (0x083, fun p => p.rollp),
        (0x0C0, fun p => p.ctx.rvote), (0x150, fun p => p.ctx.stopown), (0x161, fun p => p.ctx.sampbase),
        (0x162, fun p => p.ctx.sampdrop), (0x170, fun p => p.ctx.ologctl), (0x171, fun p => p.ctx.ologbase),
        (0x172, fun p => p.ctx.ologsize), (0x173, fun p => p.ctx.ologstat)] : List (Nat × (Partition → Word))),
      ∀ p, s.partOf k = some p → regRead s k lvl tk n e.1 = .ok s (e.2 (s.part p))) ∧
    (∀ e ∈ ([(0x081, fun m => m.vfcbase), (0x0B0, fun m => m.qshsel), (0x0C1, fun m => m.railsel), (0x0C5, fun m => m.thsel),
        (0x100, fun m => m.lcstate.setWidth 64), (0x101, fun m => m.moderr), (0x116, fun m => m.idtype),
        (0x151, fun m => m.evver), (0x168, fun m => m.skewsel)] : List (Nat × (ModRegs → Word))),
      regRead s k lvl tk n e.1 = .ok s (e.2 s.regs)) ∧
    regRead s k lvl tk n 0x080 = .ok s (s.field (fieldOf k)).partdef) ∧
  (∀ x : Slot, x.stat.extractLsb' 0 8 = x.r.pres ∧ x.stat.getLsbD 8 = x.ev ∧ x.stat.extractLsb' 9 3 = slotStNo x.st ∧
    x.stat.getLsbD 12 = x.watch.armed ∧ x.stat.extractLsb' 13 3 = x.watch.ended.getD 0 ∧ x.stat.extractLsb' 16 48 = 0) ∧
  (∀ (s : State) (k : CoreId) (lvl : BitVec 2) (tk : CoreId) (n : Fin 4) (v : Word),
    (∀ e ∈ ([(0x000, 0x0FFFFFFFFFFFFFDF), (0x002, 0xFF), (0x003, 0xFFFFFFFFFFFFFFFF), (0x005, 0x807FFFFF), (0x008, 0xFF),
        (0x010, 0xFFFFFFFFFFFFFFFF), (0x011, 0x0FFFFFFFFFFFFFDF), (0x012, 0x0FFFFFFFFFFFFFDF), (0x013, 0xFFFFFFFFFFFFFFFF),
        (0x014, 0x0FFFFFFFFFFFFFDF), (0x015, 0x0FFFFFFFFFFFFFDF), (0x020, 0x00007FFFFFFFFFFF), (0x021, 0x00007FFFFFFFFFFF),
        (0x022, 0xFFFFFFFF), (0x0CC, 0x80007FFFFFFFFFFF)] : List (Nat × Word)),
      ∃ t, regWrite s k lvl tk n e.1 v = .ok t 0 ∧ regRead t k lvl tk n e.1 = .ok t (v &&& e.2) ∧ t.gmem = s.gmem ∧
        (t.core tk).mem = (s.core tk).mem ∧ (∀ j, j ≠ tk → t.core j = s.core j) ∧ (∀ i, i ≠ n → t.slot tk i = s.slot tk i) ∧
        (∀ e' < 0x010, e' ≠ e.1 → ∀ z, regRead s k lvl tk n e' = .ok s z → regRead t k lvl tk n e' = .ok t z)) ∧
    (v.extractLsb' 0 5 ≠ 31#5 → ∃ t, regWrite s k lvl tk n 0x004 v = .ok t 0 ∧
      regRead t k lvl tk n 0x004 = .ok t (v &&& 0x8FFFFFFFFFFFFFDF)) ∧
    (v.extractLsb' 0 5 = 31#5 → regWrite s k lvl tk n 0x004 v = .trap 0x09 v) ∧
    (∀ m : Fin 4, (v.getLsbD 63 = true → geV (s.group (s.partNum tk) (v.extractLsb' 0 8).toNat).entry = true) →
      ∃ t, regWrite s k lvl tk n (0x00C + m.val) v = .ok t 0 ∧
        regRead t k lvl tk n (0x00C + m.val) = .ok t (v &&& 0x80FFFFFFFF0003FF)) ∧
    (∀ m : Fin 4, v.getLsbD 63 = true → geV (s.group (s.partNum tk) (v.extractLsb' 0 8).toNat).entry = false →
      regWrite s k lvl tk n (0x00C + m.val) v = .trap 0x09 v) ∧
    ∀ p, s.partOf k = some p → ∀ e ∈ ([(0x040, 0x8FFFFFFFFFFFC000), (0x041, 0x8FFFFFFFFFFFC000), (0x083, 0xFFFF)] :
        List (Nat × Word)),
      ∃ t, regWrite s k lvl tk n e.1 v = .ok t 0 ∧ regRead t k lvl tk n e.1 = .ok t (v &&& e.2))

/-- R293: MTS TST writes LVL, SUPV, DEFER, ORIGIN and MORE, raises PRIVILEGE where it would raise LVL above the issuer's or
change SUPV below level H, and a read shows a bit for each pending deferred cause. R292, R296, R330, R350, R351, R366, R373,
R374, R380, R384, R390: the writes of the other registers that have rules of their own. (The model's choices: an OWNER change
outside the table of R384, log entry 44; numbering restarts with MODE, entry 45; DEFER in a WATCHDOG notice, entry 54; a
life-cycle change removes every partition, entry 60; PARTDEF is refused in RETURNED, entry 95.) -/
def Obligations.RegisterWriteEvents : Prop :=
  (∀ (k : CoreId) (n : Fin 4) (ctr : Fin 2) (v : Word) (s : State),
    exec (.lcWrite k n ctr v) s = .next (s.modRegs k n fun r =>
      let l : LoopCtr := { r.lc[ctr] with value := v.extractLsb' 0 32, count := v.extractLsb' 32 32 }
      { r with lc := r.lc.set ctr l })) ∧
  (∀ (k : CoreId) (n : Fin 4) (v : Word) (s : State),
    let t := (s.slot k n).t
    (isLocal v = true ∨ v = 0xE000000000010000 → t.slim ≤ v →
      exec (.stackRegWrite k n false v) s = .next (s.modTrap k n fun t => { t with sbase := v })) ∧
    (isLocal v = true → v ≤ t.sbase →
      exec (.stackRegWrite k n true v) s = .next (s.modTrap k n fun t => { t with slim := v })) ∧
    (isLocal v = false ∧ v ≠ 0xE000000000010000 ∨ v < t.slim → writeStack s k n false v = .trap 0x09 v) ∧
    (isLocal v = false ∨ t.sbase < v → writeStack s k n true v = .trap 0x09 v)) ∧
  (∀ (k : CoreId) (n lvl : Fin 4) (v : Word) (s : State),
    let old := (s.slot k n).t.tst
    let bad := lvl.val < (v.extractLsb' 0 2).toNat ∨ lvl.val < 2 ∧ v.getLsbD 4 ≠ old.getLsbD 4
    (bad → writeTst s k n (BitVec.ofFin lvl) v = .trap 0x04 0x001) ∧
    (¬ bad → ∃ t, exec (.tstWrite k n lvl v) s = .next t ∧
      (let z := (t.slot k n).t.tst
       t = s.modTrap k n fun y => { y with tst := z }) ∧
      ∀ i < 64, (t.slot k n).t.tst.getLsbD i =
        if i ∈ [0, 1, 4, 6, 7, 13] then v.getLsbD i else old.getLsbD i)) ∧
  (∀ x : Slot, ∀ i < 64, x.tstRead.getLsbD i = (x.t.tst.getLsbD i || decide (∃ d ∈ x.deferred, d.bit = i))) ∧
  (∀ (k : CoreId) (v : Word) (s : State),
    exec (.wdogWrite k v) s = .next (s.modCoreRegs k fun r => { r with wdog := v &&& 0xFFFFFFFF })) ∧
  (∀ (k : CoreId) (n : Fin 4) (s : State), (s.core k).regs.wdog ≠ 0 → s.phaseOf k ≠ .out →
    let addr : Word := (s.core k).regs.wdog.extractLsb' 0 32 ++ 0#29 ++ slotStNo (s.slot k n).st
    ((s.slot k n).st = .wait ∨ (s.slot k n).st = .sleep → exec (.watchdog k n) s = .next (s.modSlot k n fun x =>
      { x with deferred := addDeferredTo x.deferred ⟨0x26, addr, false, false⟩ })) ∧
    ((s.slot k n).st = .halting → exec (.watchdog k n) s =
      .next (s.slotNotice k n (s.supTarget k (lvlOf (s.slot k n))) true false 0x26 addr 0))) ∧
  (∀ (f : Nat) (v : Word) (s : State), s.fieldInUse f = false →
    let w := v &&& 0x80000000001FFFFF
    (pdValid w = true → s.partdefOk f w = false ∨ s.regs.lcstate = 3 → writePartdef s f v = .trap 0x09 w) ∧
    ((pdValid w = true → s.partdefOk f w = true) → ∃ t, exec (.partdefWrite f v) s = .next t ∧ (t.field f).partdef = w ∧
      t.gmem = s.gmem ∧ (w = (s.field f).partdef → t.cores = s.cores) ∧
      (w ≠ (s.field f).partdef → ∀ k, fieldOf k = f → (t.core k).mem.sram = [] ∧
        ∀ n, (t.slot k n).st = .empty ∧ (t.slot k n).gtid = 0))) ∧
  (∀ (p : Nat) (v : Word) (s : State),
    let n := (v.extractLsb' 0 10).toNat
    n = 0 ∨ 320 ≤ n ∧ n ≤ 550 →
    exec (.rvoteWrite p v) s = .next (s.modCtx p fun c => { c with rvote := v &&& 0x3FF })) ∧
  (∀ (k : CoreId) (n : Fin 4) (v : Word) (s : State), ∃ t, exec (.migtWrite k n v) s = .next t ∧
    let w := (t.core k).regs.migt[n]
    w.extractLsb' 0 23 = v.extractLsb' 0 23 ∧ w.getLsbD 62 = false ∧
    w.getLsbD 63 = (v.getLsbD 63 && decide ((s.slot k n).st ≠ .empty)) ∧ (∀ j i, t.slot j i = s.slot j i)) ∧
  (∀ (v : Word) (s : State),
    let new := (v.extractLsb' 0 3).toNat
    let old := s.regs.lcstate.toNat
    (old = 0 ∧ new = 1 ∨ old = 1 ∧ new = 2 ∨ old = 2 ∧ new = 3 ∨ old = 3 ∧ new = 1 ∧ s.regs.returns < 8 ∨ new = 4) →
    ∃ t, exec (.lcstateWrite v) s = .next t ∧ t.regs.lcstate = v.extractLsb' 0 3 ∧ t.parts = [] ∧
      (∀ f, (t.field f).partdef = 0) ∧ (new = 4 → t.regs.keyLive = false) ∧ (new = 1 → t.regs.keyLive = true) ∧
      t.regs.returns = s.regs.returns + (if old = 3 ∧ new = 1 then 1 else 0)) ∧
  (∀ (f : Nat) (v : Word) (s : State), reprowBad v = false →
    exec (.reprowWrite f v) s = .next (s.modField f fun x => { x with staged := mset x.staged x.repsel.toNat (v &&& 0xFFFFF) })) ∧
  (∀ (p : Nat) (r : Fin 17) (v : Word) (s : State),
    (r.val < 8 → gtidVf v = ((s.part p).qcur.extractLsb' 32 9).toNat) →
    exec (.stopEntryWrite p r v) s = .next (s.modPart p fun x => { x with upds := x.upds ++ [⟨r.val,
      v &&& (if r.val < 8 then 0xF0007FFFFFFFFFFF else if r.val < 16 then 0x0FFFFFFFFFFFFFDF else 0x80007FFFFFFFFFFF), none,
      true⟩] })) ∧
  (∀ (k : CoreId) (lvl : Fin 4) (v : Word) (s : State),
    let r := (s.core k).regs
    let now := bankOwner r.bank.ctl
    let new := bankOwner v
    let low := lvl.val ≤ 1
    let ctl := v &&& 0x3070F
    let fresh : Bank := { Bank.zero with ctl := ctl, ver := s.regs.evver.extractLsb' 0 16 }
    let frozen := r.bankShadow.toList ++ r.bankFrozen
    let to_ := fun (b : Bank) (l : List Bank) => exec (.ownerWrite k false lvl v) s =
      .next (s.modCoreRegs k fun r => { r with bank := b, bankShadow := l.head?, bankFrozen := l.tail })
    (now = 0 → new = (if low then 1 else 2) → to_ fresh []) ∧
    (¬ low → now = 1 → new = 2 → to_ fresh ({ r.bank with ctl := r.bank.ctl ||| 0x8000000000000000 } :: frozen)) ∧
    (now = (if low then 1 else 2) → new = 0 → r.bankShadow = none → to_ Bank.zero []) ∧
    (∀ b, now = (if low then 1 else 2) → new = 0 → r.bankShadow = some b → to_ b r.bankFrozen) ∧
    (now = (if low then 1 else 2) → new = now →
      to_ { r.bank with ctl := ctl ||| (r.bank.ctl &&& ~~~v &&& 0x8000000000000000) } frozen) ∧
    (low → now = 2 ∨ new = 2 → writeCntctl s k (BitVec.ofFin lvl) v = .trap 0x09 v)) ∧
  (∀ (k : CoreId) (lvl : Fin 4) (v : Word) (s : State),
    let r := (s.core k).regs
    let now := bankOwner r.samp
    let low := lvl.val ≤ 1
    let to_ := fun (b : Word × Nat) (sh : Option (Word × Nat)) => exec (.ownerWrite k true lvl v) s =
      .next (s.modCoreRegs k fun r => { r with samp := b.1, sampCount := b.2, sampShadow := sh })
    (now = 0 → bankOwner v = (if low then 1 else 2) → to_ (v &&& 0x3FFFE, 0) none) ∧
    (¬ low → now = 1 → bankOwner v = 2 → to_ (v &&& 0x3FFFE, 0) (some (r.samp ||| 0x8000000000000000, r.sampCount))) ∧
    (now = (if low then 1 else 2) → bankOwner v = 0 → to_ (r.sampShadow.getD (0, 0)) none)) ∧
  (∀ (p : Nat) (v : Word) (s : State),
    let new := v.extractLsb' 62 2
    let old := (s.part p).ctx.ologctl.extractLsb' 62 2
    new ≠ 3 → new = old ∨ (s.part p).launches = [] → ∃ t, exec (.ologctlWrite p v) s = .next t ∧
      ((t.part p).ctx.ologctl.extractLsb' 62 2) = new ∧ t.cores = s.cores ∧ t.gmem = s.gmem ∧
      (new ≠ old → (t.part p).ctx.seqs = [] ∧ (t.part p).ctx.segs = [])) ∧
  (∀ (k : CoreId) (s : State), exec (.eccstatRead k) s =
    .next (s.modCoreRegs k fun r => { r with eccstat := r.eccstat &&& 0x0000FFFFFFFFFFFF }))

/-- R182, R303, R304, R323, R324: ERET makes the selected TRAPPED slot READY at its TPC; INVAL waits for its drop, which
reaches every port entry of the partition, and then for no access issued before it to be on its way, and adds 1 to its
counter; FRMLD loads and tags a frame of the selected core in one access and FRMINV empties it; SRAMCLR clears a granule at a
time and retires with the last; GRPSET writes an accepted entry, without its reserved bits, and returns 0, or returns 1. An access to
another core is made there, and answers. (The model's choices: FRMLD and GRPSET at one instant, log entry 46; an open round,
entry 50; INVAL waits for every access that the VF issued before its drop, entry 51, where R324 asks for those that used a
dropped entry; a fault at the counter, entry 52.) -/
def Obligations.SystemOperations : Prop :=
  (let f := mkForm Guard.always 29 [] [] [] 1
   (∀ y : CoreId × Fin 4, Does .eret f
     (fun u => u.selected = some y ∧ y.1 = u.cur.core ∧ (u.slot y.1 y.2).st = .trapped)
     (fun u => u.modSlot y.1 y.2 fun x => { x with st := .ready, pc := x.t.tpc, readyAt := u.now })) ∧
   Does .eret f (fun u => (∃ y, u.selected = some y ∧ y.1 ≠ u.cur.core) ∧ ∃ v, u.me.reply = some (.value v)) id ∧
   Traps .eret f (fun u => u.selected = none ∨ ∃ y, u.selected = some y ∧ y.1 = u.cur.core ∧ (u.slot y.1 y.2).st ≠ .trapped)
     0x09 (fun u => u.me.t.tsel)) ∧
  (∀ (x : G2) (s : State) (p : Nat) (kind : Fin 4),
    let lvl : BitVec 2 := if kind.val < 2 then 1 else 2
    let f := mkForm x.q 29 [x.a, x.b] [] [] lvl
    let i := match kind with | 0 => Instr.invalS1Page x | 1 => .invalS1All x | 2 => .invalS2Page x | 3 => .invalS2All x
    let u := s.took f
    s.issues f →
      (∀ v, s.me.reply = some (.value v) →
        exec i s = .next (if s.ownDone s.cur.core s.cur.slot then u.retire 29 else s.waitFor .inval)) ∧
      (s.me.reply = none → s.me.asked = false → (kind = 0 ∨ kind = 2 → isGlobal (u.rd x.a) = true) →
        isGlobal (u.rd x.b) = true → (u.rd x.b).toNat % 8 = 0 → u.invalPart = some p →
        (fenceDone (s.core s.cur.core) s.cur.slot .rel = false → exec i s = .next (s.waitFor .inval)) ∧
        (fenceDone (s.core s.cur.core) s.cur.slot .rel = true → exec i s = .next ((State.modMe { s with drops := s.drops ++
          [⟨p, ((s.part p).qcur.extractLsb' 32 9).toNat, kind, u.rd x.a, u.rd x.b, (s.cur.core, s.cur.slot), none⟩] }
          fun y => { y with asked := true }).waitFor .inval)))) ∧
  (∀ (i : Nat) (d : Drop) (s : State), s.drops[i]? = some d →
    (d.dropped = none → ∃ t, exec (.invalDrop i) s = .next t ∧ t.gmem = s.gmem ∧
      t.drops = s.drops.set i { d with dropped := some s.now } ∧
      (∀ k, s.partOf k = some d.part → (t.core k).ports = (s.core k).ports.filter fun e => !d.hits e) ∧
      (∀ k, s.partOf k ≠ some d.part → t.core k = s.core k) ∧
      (∀ f ∈ (s.part d.part).fields, (t.field f).cache = (s.field f).cache.filter fun e => !d.hitsCache e)) ∧
    (∀ t0 a, d.dropped = some t0 → (∀ e ∈ s.cores, s.partOf e.1 = some d.part → ∀ g ∈ e.2.gaccs, d.waits t0 g = false) →
      (∀ f ∈ (s.part d.part).fields, ∀ w ∈ (s.field f).walks, w.stale = true → w.miss.vf ≠ d.vf) →
      s.framesOf d.part d.vf = false →
      s.translateFor d.issuer.1 d.issuer.2 d.ctr 5 false = .ok a → isRemote a = false →
      ∃ t, exec (.invalDrop i) s = .next t ∧ t.drops = s.drops.eraseIdx i ∧
        t.gmem = s.gmem.writeLE a 8 ((s.gmem.readLE a 8 + 1) % 2 ^ 64) ∧
        (t.slot d.issuer.1 d.issuer.2).reply = some (.value 0))) ∧
  (∀ (d : Drop) (e : TEntry), d.hits e = true ↔ e.vf = d.vf ∧
    (d.kind = 0 → e.covers d.vf d.addr.toNat = true) ∧
    (d.kind = 2 → d.addr.toNat % 2 ^ 60 / 2 ^ e.gbits = e.gpa / 2 ^ e.gbits)) ∧
  (∀ (x : G2) (s : State),
    let f := mkForm x.q 29 [x.a, x.b] [] [] 1
    let u := s.took f
    let a := u.rd x.a
    let n := (u.rd x.b).toNat
    let i := s.me.progress
    let clear := fun v : State => (v.sramPut s.cur.core (offOf a + 16 * i) 16 0 (some s.cur.slot)).setFull s.cur.core (offOf a / 16 + i) 1 false
    s.issues f → LocalOk a 16 → n % 16 = 0 → offOf a + n ≤ 65536 →
      (n ≤ 16 * i → exec (.sramclr x) s = .next (u.retire 29)) ∧
      (n = 16 * (i + 1) → exec (.sramclr x) s = .next ((clear u).retire 29)) ∧
      (16 * (i + 1) < n → exec (.sramclr x) s =
        .next ((clear s).modMe fun y => { y with reply := some (.value (BitVec.ofNat 64 (i + 1))), readyAt := s.now + 1 }))) ∧
  (∀ (x : FrmldF) (s : State) (y : CoreId × Fin 4) (d : Nat),
    let f := mkForm x.q 29 (x.a :: r16Ops x.n) [] [] 1
    let u := s.took f
    let a := u.rd x.a
    let n : Fin 16 := ((u.r16 x.n).extractLsb' 0 4).toFin
    s.issues f → u.selected = some y → y.1 = s.cur.core → isGlobal a = true → a.toNat % 2048 = 0 →
    u.translateFor y.1 y.2 a 6 false = .ok d →
    let l : Vector Line 32 := Vector.ofFn fun i : Fin 32 => BitVec.ofNat 512 (u.homeLE (d + 64 * i.val) 64)
    exec (.frmld x) s = .next (((u.modMem y.1 fun m =>
      { m with frames := m.frames.set n ⟨some (a.extractLsb' 11 49), l, lvlOf (u.slot y.1 y.2) == 0⟩ }).charge y.1 y.2 30 32).retire 29)) ∧
  (∀ (x : FrminvF) (y : CoreId × Fin 4),
    let f := mkForm x.q 29 (r16Ops x.n) [] [] 1
    let n := fun u : State => (((u.r16 x.n).extractLsb' 0 4).toFin : Fin 16)
    Does (.frminv x) f (fun u => u.selected = some y ∧ y.1 = u.cur.core)
      (fun u => u.modMem y.1 fun m => { m with frames := m.frames.set (n u) { m.frames[n u] with tag := none } }) ∧
    Traps (.frminv x) f (fun u => u.selected = none) 0x09 (fun u => u.me.t.tsel)) ∧
  (∀ (x : GrpF) (p : Nat) (l : List Byte),
    let f := mkForm x.q 29 (x.a :: r16Ops x.n) [x.d] [] 1
    let g := fun u : State => ((u.r16 x.n).extractLsb' 0 8).toNat
    let e := BitVec.ofNat 192 (leBytes l)
    let reads := fun u : State => (isLocal (u.rd x.a) = true ∨ isGlobal (u.rd x.a) = true) ∧ (u.rd x.a).toNat % 8 = 0 ∧
      u.ownDone u.cur.core u.cur.slot = true ∧ u.sysRead u.cur.core u.cur.slot (u.rd x.a) 8 3 = .ok l ∧
      u.partOf u.cur.core = some p
    (∀ n, Puts (.grpset x) f x.d (fun _ => 0)
      (ok := fun u => reads u ∧ u.grpAccept p (g u) (gtidVf u.me.gtid) e = some n)
      (post := fun u => (u.freeSlots p (g u)).setGroup p (g u) n)) ∧
    Puts (.grpset x) f x.d (fun _ => 1) (ok := fun u => reads u ∧ u.grpAccept p (g u) (gtidVf u.me.gtid) e = none)) ∧
  (∀ (s : State) (p g vf : Nat) (e : BitVec 192),
    let old := s.group p g
    (geV e = false → ∃ z, s.grpAccept p g vf e = some { Group.unset with entry := z } ∧
      ∀ i < 192, z.getLsbD i = (e.getLsbD i && decide (¬ (128 ≤ i ∧ i < 152 ∨ 60 ≤ i ∧ i < 84 ∨ i < 6)))) ∧
    (geV e = true → geV old.entry = true → old.incl ≠ [] ∨ old.early ≠ [] → s.grpAccept p g vf e = none) ∧
    (∀ n, geV e = true → s.grpAccept p g vf e = some n → (geLate e ≠ 3 → n.entry = e) ∧ n.rho = 0 ∧
      geHome e ∈ (s.part p).fields ∧
      ∃ ranks ms, s.launchRanks p vf (geLaunch e) = some ranks ∧ s.entryMembers p vf ranks e = some ms ∧
        geOk e ms ranks = true ∧ n.members.map (·.rank) = ms.map (BitVec.ofNat 22))) ∧
  (∀ (i : Nat) (q : SysAcc) (y : CoreId × Fin 4) (s : State), s.sys[i]? = some q →
    let t : State := { s with sys := s.sys.eraseIdx i }
    (s.selOf q.core q.tsel = none → exec (.sysRemoteAccess i) s = .next (t.sysReply q (.trap 0x09 q.tsel))) ∧
    (s.selOf q.core q.tsel = some y → ∀ w v, q.run y.1 y.2 t = .ok w v →
      exec (.sysRemoteAccess i) s = .next (w.sysReply q (.value v))) ∧
    (s.selOf q.core q.tsel = some y → ∀ c a, q.run y.1 y.2 t = .trap c a →
      exec (.sysRemoteAccess i) s = .next (t.sysReply q (.trap c a))) ∧
    (s.selOf q.core q.tsel = some y → ∀ g, q.run y.1 y.2 t = .fault g →
      exec (.sysRemoteAccess i) s = .next (t.sysReply q (.fault g)))) ∧
  (∀ (q : SysAcc) (k : CoreId) (n : Fin 4) (s : State),
    (q.instr = .eret → (s.slot k n).st = .trapped → q.run k n s =
      .ok (s.modSlot k n fun x => { x with st := .ready, pc := x.t.tpc, readyAt := s.now }) 0) ∧
    (q.instr = .eret → (s.slot k n).st ≠ .trapped → q.run k n s = .trap 0x09 q.tsel) ∧
    (∀ x, q.instr = .mfs x → q.run k n s = regRead s q.core (lvlOf (s.slot q.core q.slot)) k n (srNum q.a)) ∧
    (∀ x, q.instr = .mts x → (s.slot k n).st = .trapped →
      q.run k n s = regWrite s q.core (lvlOf (s.slot q.core q.slot)) k n (srNum q.a) q.b))

/-- R301, R304, R360: CTXSV stores the image of the selected TRAPPED slot and CTXLD loads an image that is well formed and within
its level; the image has the layout of R301, and loading what was saved gives the slot's registers back. (Readings of the model:
the wait for the issuer's own accesses, log entry 46; what makes an image malformed, entry 47; the wait for what would write the
slot's registers, and the launch that then holds a free core, entry 87.) -/
def Obligations.SlotContexts : Prop :=
  let to_ := fun (u : State) (y : CoreId × Fin 4) (a : Word) =>
    u.selected = some y ∧ y.1 = u.cur.core ∧ (isLocal a = true ∨ isGlobal a = true) ∧ a.toNat % 64 = 0
  (∀ (x : G1) (s t : State) (y : CoreId × Fin 4),
    let f := mkForm x.q 29 [x.a] [] [] 1
    let u := s.took f
    s.issues f → to_ u y (u.rd x.a) → (u.slot y.1 y.2).st = .trapped → s.me.reply = none →
      let busy := (u.core y.1).slotBusy y.2 = true ∨ u.ownDone s.cur.core s.cur.slot = false
      (busy → exec (.ctxsv x) s = .next (s.waitFor .commands)) ∧
      (¬ busy → u.sysWrite s.cur.core s.cur.slot (u.rd x.a) 32 ((u.slot y.1 y.2).image noRecords) = .ok t →
        t.ownDone s.cur.core s.cur.slot = true → exec (.ctxsv x) s = .next (t.retire 29))) ∧
  (∀ (x : G1) (s : State) (y : CoreId × Fin 4),
    let f := mkForm x.q 29 [x.a] [] [] 1
    s.issues f → (s.took f).selected = some y → y.1 = s.cur.core → s.me.reply ≠ none →
      exec (.ctxsv x) s = .next (if s.ownDone s.cur.core s.cur.slot then (s.took f).retire 29 else s.waitFor .fence)) ∧
  (∀ (s t : State) (k : CoreId) (n : Fin 4) (a : Word) (l : List Byte), isLocal a = true → l.length = 2048 →
    s.sysWrite k n a 32 l = .ok t → (s.core k).MemOk → (t.core k).mem.sram.readBytes (offOf a) 2048 = l) ∧
  (∀ (x : Slot) (r : List Byte), r.length = 256 →
    (x.image r).length = 2048 ∧ (x.image r).drop 0x700 = r ∧
    (∀ i : Fin 32, imgW (x.image r) (8 * i.val) = if i = 0 then 0 else x.r.g[i]) ∧
    (∀ i : Fin 8, imgW (x.image r) (0x100 + 8 * i.val) = x.r.c[i]) ∧
    (∀ e ∈ ([(0x140, x.stat), (0x148, x.t.tpc), (0x150, x.tstRead), (0x158, x.t.tcause), (0x160, x.t.taddr), (0x168, x.t.tvec),
        (0x170, x.t.tsel), (0x178, x.t.sbase), (0x180, x.t.slim), (0x188, x.r.flags.setWidth 64), (0x190, x.r.lc[0].word),
        (0x198, x.r.lc[0].start), (0x1A0, x.r.lc[0].fin), (0x1A8, x.r.lc[1].word), (0x1B0, x.r.lc[1].start),
        (0x1B8, x.r.lc[1].fin), (0x1C0, x.r.gm[0]), (0x1C8, x.r.gm[1]), (0x1D0, x.r.gm[2]), (0x1D8, x.r.gm[3]),
        (0x1E0, x.lace.imageWord), (0x1E8, x.lace.waited)] : List (Nat × Word)),
      imgW (x.image r) e.1 = e.2) ∧
    (∀ i : Fin 8, leBytes (((x.image r).drop (0x1F0 + 2 * i.val)).take 2) = (x.r.rdP i).toNat) ∧
    (∀ i : Fin 16, leBytes (((x.image r).drop (0x200 + 80 * i.val)).take 64) = x.r.v[i].toNat ∧
      leBytes (((x.image r).drop (0x240 + 80 * i.val)).take 16) = x.r.hdr[i].toNat)) ∧
  (∀ (x : G1) (s : State) (y : CoreId × Fin 4) (l : List Byte),
    let f := mkForm x.q 29 [x.a] [] [] 1
    let u := s.took f
    let z := u.slot y.1 y.2
    let tst := imgW l 0x150
    s.issues f → to_ u y (u.rd x.a) → z.st = .trapped → (u.core y.1).writing y.2 = false →
    u.ownDone s.cur.core s.cur.slot = true → u.sysRead s.cur.core s.cur.slot (u.rd x.a) 64 32 = .ok l →
      (imageBad u y.1 l = true → exec (.ctxld x) s = .next (s.takeTrap s.cur.core s.cur.slot 0x09 (u.rd x.a))) ∧
      (imageBad u y.1 l = false → (lvlOf s.me < tst.extractLsb' 0 2 ∨
          (lvlOf s.me).toNat < 2 ∧ tst.getLsbD 4 ≠ z.t.tst.getLsbD 4) →
        exec (.ctxld x) s = .next (s.takeTrap s.cur.core s.cur.slot 0x04 s.headWord)) ∧
      (imageBad u y.1 l = false → tst.extractLsb' 0 2 ≤ lvlOf s.me → tst.getLsbD 4 = z.t.tst.getLsbD 4 →
        ∃ t, exec (.ctxld x) s = .next (State.retire t 29) ∧ t.gmem = s.gmem ∧
          t.slot y.1 y.2 = z.load l (laceOfImage u y.1 z.lace l))) ∧
  (∀ (x : G1) (s : State) (y : CoreId × Fin 4) (l : List Byte),
    let f := mkForm x.q 29 [x.a] [] [] 1
    let u := s.took f
    let id := (u.core y.1).regs.nextid
    s.issues f → to_ u y (u.rd x.a) → (u.slot y.1 y.2).st = .empty → id.getLsbD 63 = true →
    u.findTask (0#1 ++ id.extractLsb' 0 63) = none → (u.core y.1).writing y.2 = false →
    u.ownDone s.cur.core s.cur.slot = true → u.sysRead s.cur.core s.cur.slot (u.rd x.a) 64 32 = .ok l →
    imageBad u y.1 l = false → (imgW l 0x150).extractLsb' 0 2 ≤ lvlOf s.me →
    2 ≤ (lvlOf s.me).toNat ∨ (imgW l 0x150).getLsbD 4 = (u.slot y.1 y.2).t.tst.getLsbD 4 →
    ∃ t, exec (.ctxld x) s = .next (State.retire t 29) ∧ (t.slot y.1 y.2).gtid = 0#1 ++ id.extractLsb' 0 63 ∧
      (t.slot y.1 y.2).st = .trapped ∧ (t.core y.1).regs.nextid = 0#1 ++ id.extractLsb' 0 63 ∧
      (t.core y.1).held = match (u.core y.1).held with
        | some h => some h
        | none => u.launchOf y.1 (0#1 ++ id.extractLsb' 0 63)) ∧
  (∀ (x z : Slot) (r : List Byte) (lace : LaceSt), r.length = 256 →
    let y := z.load (x.image r) lace
    y.r = { x.r with g := x.r.g.set 0 0, p := x.r.p.set 0 0 } ∧
    y.t = { x.t with tst := x.tstRead &&& 0x20D3, xinfo := z.t.xinfo } ∧ y.ev = x.ev ∧ y.watch.armed = x.watch.armed ∧
    y.st = .trapped ∧ y.lace = lace)

/-! ### Launches and pre-emption (13, 15) -/

/-- R27, R274, R332 to R334, R396, R397: a packet in a launch aperture is queued at its partition's dispatcher, any other write
there is counted, and one beyond it does nothing; the dispatcher's first failing check refuses the packet with its code, in the
order of R334, and a packet that passes is accepted under the VF's next number that is not 0 and that no resident launch of it
holds, HELD with a dependence and else QUEUED; the status word answers a SPAWN. (Code 3 for a member list that faults is the
model's reading, log entry 62.) -/
def Obligations.LaunchPackets : Prop :=
  (∀ (vf p off : Nat) (bytes : List Byte) (s : State),
    (s.part p).valid = true → vf < 512 →
    (0x40 ≤ off → exec (.launchApertureWrite vf p off bytes) s = .next s) ∧
    (off < 0x40 → (s.part p).phase = .run ∨
      ((s.part p).packets.filter fun q => q.1 == .host && q.2.1 / 256 == vf / 256).length < 16 →
    (off = 0 → bytes.length = 64 → exec (.launchApertureWrite vf p off bytes) s =
      .next (s.modPart p fun x => { x with packets := x.packets ++ [(.host, vf, bytes)] })) ∧
    (off ≠ 0 ∨ bytes.length ≠ 64 → exec (.launchApertureWrite vf p off bytes) s =
      .next (s.modVf vf fun v => { v with refused := v.refused + 1 })))) ∧
  (∀ (p i : Nat) (src : PktSrc) (vf : Nat) (bytes : List Byte) (s : State),
    let k := packetOf (packetWords bytes)
    let rest := (s.part p).packets.eraseIdx i
    let u := s.modPart p fun x => { x with packets := rest }
    let unmet := fun (l : Launch) => { l with met := false }
    (s.part p).packetDue = some i → (s.part p).packets[i]? = some (src, vf, bytes) → (s.part p).valid = true →
    ∃ t, exec (.launchPacket p) s = .next t ∧ (t.part p).packets = rest ∧
      (∀ n, u.validate p vf src k = .error n → (t.part p).launches.map unmet = (s.part p).launches.map unmet ∧
        (t.vf vf).refused = (s.vf vf).refused + 1 ∧ (t.vf vf).accepted = (s.vf vf).accepted ∧
        ∀ c sl, src = .spawn c sl → (s.slot c sl).asked = true → (t.slot c sl).reply = some (.value (statusWord n 0))) ∧
      (∀ img, u.validate p vf src k = .ok img → ∃ l : Launch,
        (t.part p).launches.map unmet = ((s.part p).launches ++ [l]).map unmet ∧ l.vf = vf ∧
        l.img = img ∧ l.st = (if k.depen then .held else .queued) ∧ (t.vf vf).lastLaunch = l.num ∧
        l.num = nextNumber (s.vfLaunches vf) (s.vf vf).lastLaunch 65536 ∧
        (t.vf vf).accepted = (s.vf vf).accepted + 1 ∧
        ∀ c sl, src = .spawn c sl → (s.slot c sl).asked = true → (t.slot c sl).reply = some (.value (statusWord 0 l.num)))) ∧
  (∀ (x : Partition) (i : Nat), x.packetDue = some i →
    (x.phase = .run → i = 0) ∧ (x.phase ≠ .run → ∃ k sl y, x.packets[i]? = some (.spawn k sl, y) ∧
      ∀ j < i, ∀ q, x.packets[j]? = some q → q.1.isSpawn = false)) ∧
  (∀ (s : State) (p vf : Nat) (src : PktSrc) (k : Packet),
    let c := (s.part p).vfCtx vf
    (k.malformed = true → s.validate p vf src k = .error 1) ∧
    (k.malformed = false → s.notPermitted vf src k = true → s.validate p vf src k = .error 2) ∧
    (k.malformed = false → s.notPermitted vf src k = false →
      (∀ n, s.readImage c vf k = .error n → s.validate p vf src k = .error n) ∧
      (∀ r, s.readImage c vf k = .ok r → r.lists = true → s.templates c vf r.img.ranks r.img.groups = none →
        s.validate p vf src k = .error 3) ∧
      (∀ r, s.readImage c vf k = .ok r → r.lists = false ∨ s.templates c vf r.img.ranks r.img.groups ≠ none → r.ok = false →
        s.validate p vf src k = .error 4) ∧
      (∀ r ts, s.readImage c vf k = .ok r → r.ok = true → r.lists = true →
        s.templates c vf r.img.ranks r.img.groups = some ts →
        let shape := s.shapeBad p vf k r.img = true
        let group := templatesBad c r.img.ranks ts = true
        let full := s.full p vf = true
        let power := k.any = false ∧ s.admits p vf k.x0 k.y0 r.img.w r.img.h = false
        (shape → s.validate p vf src k = .error 5) ∧ (¬ shape → group → s.validate p vf src k = .error 6) ∧
        (¬ shape → ¬ group → full → s.validate p vf src k = .error 7) ∧
        (¬ shape → ¬ group → ¬ full → power → s.validate p vf src k = .error 8) ∧
        (¬ shape → ¬ group → ¬ full → ¬ power → s.validate p vf src k = .ok r.img)))) ∧
  (∀ n, 0 < n → n < 256 → (statusWord n 0).getLsbD 63 = true ∧ (statusWord n 0).extractLsb' 48 8 = BitVec.ofNat 8 n ∧
    (statusWord n 0).extractLsb' 0 48 = 0) ∧
  (∀ n, n < 65536 → statusWord 0 n = BitVec.ofNat 64 n) ∧
  (∀ (held : List Nat) (last : Nat), (∃ n, 0 < n ∧ n < 65536 ∧ n ∉ held) →
    let n := nextNumber held last 65536
    0 < n ∧ n < 65536 ∧ n ∉ held ∧ ∃ j, 1 ≤ j ∧ j ≤ 65536 ∧ n = (last + j) % 65536 ∧
      ∀ i, 1 ≤ i → i < j → (last + i) % 65536 = 0 ∨ (last + i) % 65536 ∈ held)

/-- R20, R28, R336 to R339, R408: a HELD launch is QUEUED once its counter has reached its target; the head of the current
VF's queue is placed, which holds and loads its cores; the tasks start at the entry with their launch values and the words
at ARGS as they then are (as they were, where they can no longer be read: log entry 88); when all are
over, the cores, the groups and the launch go (what the launch leaves behind is the model's reading, log entry 65), the
registers that named its tasks are 0, and the completion add is made. (Placement is stated with no order log; that completion
waits for the withdrawals of its tasks is a reading, entry 95.) -/
def Obligations.LaunchesRun : Prop :=
  (∀ (p i : Nat) (l : Launch) (d : Nat) (e : TEntry) (s : State),
    let k := packetOf l.packet
    (s.part p).launches[i]? = some l → l.st = .held → l.met = true ∨
      s.translateIn ((s.part p).vfCtx l.vf) l.vf k.depaddr 0 true false = .ok (d, e) ∧ k.deptgt.toNat ≤ s.homeLE d 8 →
    let t := s.modPart p fun x => { x with launches := x.launches.map fun y =>
      if y.vf == l.vf && y.num == l.num then { y with st := .queued } else y }
    exec (.dependenceSatisfied p i) s = .next
      { t with deps := s.deps.filter fun w => !(w.part == p && w.vf == l.vf && w.num == l.num) }) ∧
  (∀ (p : Nat) (l : Launch) (x0 y0 : Nat) (s : State),
    (s.part p).phase = .run → (s.part p).queueHead = some l → s.cornerFor p l = some (x0, y0) → (s.part p).ctx.logMode = 0 →
    let img := s.imageNow (s.part p).ctx l.vf (packetOf l.packet) l.img
    ∃ t, exec (.launchPlace p) s = .next t ∧ t.gmem = s.gmem ∧
      (t.part p).launches = ((s.part p).launches.map fun y =>
        if y.vf == l.vf && y.num == l.num then { y with st := .loading, img := img, x0 := x0, y0 := y0, loaded := true }
        else y) ∧
      (∀ k ∈ rectCores x0 y0 l.img.w l.img.h,
        let c := t.core k
        c.held = some ⟨p, l.vf, l.num, x0, y0, l.img.w, l.img.h, l.img.s⟩ ∧
        c.mem.sram = Memory.writeBytes [] 0 img.sram ∧ c.mem.sem = Vector.replicate 256 0 ∧ c.mem.sf = 0 ∧
        (∀ g < 4096, c.mem.full.getLsbD g = decide (g < (img.sram.length + 15) / 16)) ∧
        c.slots = (s.core k).slots ∧ ∀ n : Fin 4, (c.unit.tiles[n]).owner = none ∧ c.berths[n] = Berth.closed) ∧
      (∀ k, k ∉ rectCores x0 y0 l.img.w l.img.h → t.core k = s.core k)) ∧
  (∀ (x : Partition) (l : Launch), x.queueHead = some l → l ∈ x.launches ∧ l.st = .queued ∧ some l.vf = x.current ∧
    ∀ m ∈ x.launches, m.st = .queued → some m.vf = x.current → m.before l = false) ∧
  (∀ (p i : Nat) (l : Launch) (s : State),
    (s.part p).launches[i]? = some l → l.st = .loading → l.loaded = true → (s.part p).phase = .run →
    (s.part p).current = some l.vf →
    let h : Held := ⟨p, l.vf, l.num, l.x0, l.y0, l.img.w, l.img.h, l.img.s⟩
    let args := s.argsNow (s.part p).ctx l
    ∃ t, exec (.launchStart p i) s = .next t ∧ t.gmem = s.gmem ∧
      (∀ k ∈ rectCores l.x0 l.y0 l.img.w l.img.h, ∀ n : Fin 4,
        let x := t.slot k n
        let rank := h.rankAt k n
        let sbase : Word := 0xE000000000010000 - BitVec.ofNat 64 (n.val * l.img.stack)
        (l.img.s ≤ n.val → x = s.slot k n) ∧
        (n.val < l.img.s → x.st = .ready ∧ x.pc = l.img.entry ∧ x.gtid = mkGtid l.vf l.num (BitVec.ofNat 22 rank) ∧
          lvlOf x = 0 ∧ x.t.sbase = sbase ∧ x.t.slim = sbase - BitVec.ofNat 64 l.img.stack ∧ x.r.flags = 0 ∧ x.r.pres = 0 ∧
          x.deferred = [] ∧ ∀ i : Fin 32, x.r.g[i] =
            if i.val = 2 then sbase
            else if 4 ≤ i.val ∧ i.val ≤ 11 then args[i.val - 4]?.getD 0
            else if i.val = 28 then l.img.gp
            else if i.val = 29 then
              (if (packetOf l.packet).taskp = 0 then 0
               else BitVec.ofNat 64 (((packetOf l.packet).taskp.toNat + rank * (packetOf l.packet).stride) % 2 ^ 60))
            else 0)) ∧
      (t.part p).launches = ((s.part p).launches.map fun y =>
        if y.vf == l.vf && y.num == l.num then { y with st := .running, args := args } else y)) ∧
  (∀ (s : State) (c : PartCtx) (l : Launch),
    let a := (packetOf l.packet).args
    (a = 0 → s.argsNow c l = Vector.replicate 8 0) ∧
    ∀ b, a ≠ 0 → s.vread c l.vf 0 a.toNat 64 2 = .ok b → ∀ i : Fin 8,
      (s.argsNow c l)[i] = BitVec.ofNat 64 (leBytes ((b.drop (8 * i.val)).take 8))) ∧
  (∀ (p i : Nat) (l : Launch) (s : State),
    (s.part p).launches[i]? = some l → l.st = .running → (s.part p).phase = .run → (s.part p).current = some l.vf →
    (∀ e ∈ s.cores, s.partOf e.1 = some p → e.2.busyFor l.vf l.num = false) →
    (∀ g r, .withdraw g r l.num ∉ (s.part p).ctx.hub) →
    let k := packetOf l.packet
    let u := s.endLaunch p l.vf l.num
    let named := fun w : Word => w ≠ 0 ∧ gtidVf w = l.vf ∧ gtidLaunch w = l.num
    ∃ t, exec (.launchComplete p i) s = .next t ∧
      (t.part p).launches = ((s.part p).launches.filter fun y => !(y.vf == l.vf && y.num == l.num)) ∧
      (t.part p).ctx.groups = ((s.part p).ctx.groups.filter fun g => !(geV g.2.entry && geLaunch g.2.entry == l.num)) ∧
      (∀ c h, (s.core c).held = some h → (t.core c).held = if h.vf = l.vf ∧ h.launch = l.num then none else some h) ∧
      (∀ c, (named (s.core c).regs.supr → (t.core c).regs.supr = 0) ∧ (named (s.core c).regs.hsupr → (t.core c).regs.hsupr = 0)) ∧
      (k.doneen = false → t.gmem = s.gmem) ∧
      (∀ d e, k.doneen = true → u.translateIn (u.part p).ctx l.vf k.doneaddr 5 true false = .ok (d, e) → isRemote d = false →
        t.gmem = s.gmem.writeLE d 8 ((s.gmem.readLE d 8 + 1) % 2 ^ 64)))

/-- R305 to R308, R325, R340: phase 1 begins at a running partition and ends when every core has reported; phase 2 ends when
nothing of the partition is on its way, and ends every armed watch; phase 3 saves the contexts and leaves the cores empty;
the resumption brings the VF of the chosen entry back, with what the save area then holds, and not while OLOGSTAT.V is set.
(Readings of the model: what the area has no place for, or cannot give back, is as it was saved, log entry 57; a move still in
its waits has not begun, entry 55; no resumption while OLOGSTAT.V is set, entry 59; slots at levels H and M leave with the VF,
entry 60. The resumption is stated with nothing in the overflow area or held at a network quay.) -/
def Obligations.Preemption : Prop :=
  (∀ (p : Nat) (s : State), (s.part p).valid = true → qIdle (s.part p).qcur = false →
    ((s.part p).phase = .run → ∃ t, exec (.preemptPhase1 p) s = .next t ∧ (t.part p).phase = .stop1 ∧
      (t.part p).next = s.nextEntry p ∧ t.cores = s.cores ∧ t.gmem = s.gmem) ∧
    ((s.part p).phase = .stop1 → (∀ m ∈ (s.part p).moves, m.step = .waits) → (s.part p).upds = [] →
      (∀ k ∈ s.coresOf p, s.mayReport k = true) →
      ∃ t, exec (.preemptPhase1 p) s = .next t ∧ (t.part p).phase = .drain2 ∧ t.gmem = s.gmem ∧
        ∀ k n, t.slot k n = s.slot k n)) ∧
  (∀ (s : State) (p : Nat) (e : Fin 16) (w : Word), s.nextEntry p = some (e, w) →
    let x := s.part p
    w = x.qtNow[e] ∧ w.getLsbD 63 = true ∧ 0 < s.balance (qtVf w) ∧ ∃ l ∈ x.launches, l.vf = qtVf w) ∧
  (∀ (p : Nat) (s : State), (s.part p).phase = .drain2 → s.quiet p = true → (∀ k, s.partOf k = some p → s.logMode k ≠ 2) →
    ∃ t, exec (.preemptPhase2 p) s = .next t ∧ (t.part p).phase = .save3 ∧ (t.part p).ended = [] ∧ t.gmem = s.gmem ∧
      (∀ k n, s.partOf k = some p → (t.slot k n).watch.armed = false ∧ (t.core k).misses = []) ∧
      ((s.part p).ended = [] → ∀ k n, (t.slot k n).r = (s.slot k n).r ∧ (t.slot k n).t = (s.slot k n).t ∧
        (t.slot k n).st = (s.slot k n).st)) ∧
  (∀ (p : Nat) (s : State), (s.part p).phase = .save3 → (s.part p).ended = [] →
    let vf := qVf (s.part p).qcur
    let unmet := fun (l : Launch) => { l with met := false }
    ∃ t, exec (.preemptPhase3 p) s = .next t ∧ (t.part p).phase = .out ∧ qIdle (t.part p).qcur = true ∧
      (t.part p).launches.map unmet = (s.part p).launches.map unmet ∧
      (∃ kept rs, mget (t.part p).saved vf = some ({ (s.part p).ctx with redSlots := rs }, kept) ∧
        (∀ f g, (f, g) ∈ rs ↔ f ∈ (s.part p).fields ∧ g ∈ (s.field f).redSlots) ∧ kept.map Prod.fst = (s.part p).allCores ∧
        ∀ e ∈ kept, e.2.mem = (s.core e.1).mem ∧ e.2.ports = [] ∧ ∀ n,
          (∃ fl, (e.2.slot n).r = { (s.slot e.1 n).r with flags := fl } ∧
            (s.slot e.1 n).r.flags &&& fl = (s.slot e.1 n).r.flags) ∧
          (e.2.slot n).t = (s.slot e.1 n).t ∧ (e.2.slot n).pc = (s.slot e.1 n).pc ∧ (e.2.slot n).gtid = (s.slot e.1 n).gtid ∧
          (e.2.slot n).st = (s.slot e.1 n).st) ∧
      ∀ k ∈ (s.part p).allCores, (t.core k).mem.sram = [] ∧ (t.core k).ports = [] ∧ ∀ n, t.slot k n = Slot.wiped) ∧
  (∀ (p : Nat) (e : Fin 16) (w : Word) (s : State),
    let vf := qtVf w
    (s.part p).next = some (e, w) → (s.part p).valid = true → (s.part p).phase = .out →
    (∀ f ∈ (s.part p).fields, ∀ b : Fin 4, ((s.field f).rails[b]).trip = false) →
    ((s.part p).ctx.ologstat.getLsbD 63 = true → exec (.preemptResume p vf) s = .next s) ∧
    ((s.part p).ctx.ologstat.getLsbD 63 = false → (s.part p).netHeld = [] →
    ∃ t, exec (.preemptResume p vf) s = .next t ∧ (t.part p).phase = .run ∧ (t.part p).current = some vf ∧ t.gmem = s.gmem ∧
      mget (t.part p).saved vf = none ∧
      ∀ ctx kept, mget (s.part p).saved vf = some (ctx, kept) → ctx.overflow = [] →
        (t.part p).ctx = { ctx with ologstat := 0, overflow := [], pieces := [] } ∧
        ((kept.map Prod.fst).Nodup → ∀ y ∈ kept,
          let c := t.core y.1
          let z := s.readBack p vf { ctx with ologstat := 0 } y.1 y.2
          c.mem.sram = z.mem.sram ∧ c.mem.full = z.mem.full ∧ c.mem.sem = z.mem.sem ∧ c.mem.tags = z.mem.tags ∧
          ∀ n, t.slot y.1 n = z.slot n))) ∧
  (∀ (s : State) (p vf : Nat) (c : PartCtx) (k : CoreId) (y : Core),
    let va := s.saveAt p vf k
    let z := s.readBack p vf c k y
    (∀ l, s.loadBytes c vf va 65536 3 = some l → z.mem.sram = Memory.writeBytes [] 0 l) ∧
    (∀ l, s.loadBytes c vf (va + 0x10000) 0x2000 3 = some l → ∀ n : Fin 4,
      z.slot n = (y.slot n).restore ((l.drop (0x800 * n.val)).take 0x800)) ∧
    (s.loadBytes c vf va 65536 3 = none → s.loadBytes c vf (va + 0x10000) 0x2000 3 = none →
      s.loadBytes c vf (va + 0x12000) 0x980 3 = none → z = y)) ∧
  (∀ (x : Slot) (r : List Byte), r.length = 256 →
    let y := x.restore (x.image r)
    y.r = { x.r with g := x.r.g.set 0 0 } ∧ y.pc = x.pc ∧ y.gtid = x.gtid ∧ y.st = x.st ∧ y.ev = x.ev)

/-! ### Address translation (14) -/

/-- R309, R311, R312, R314 to R323, R368: a core's oldest unsent miss goes to its field's hub, four at most and in order; there it
joins a walk of its page, starts one of at most 256, or waits; a started walk answers everyone that waits for it, with a port
entry, or its fault for the slot that waits, and the waiting requests are looked at again; a stale walk is restarted, and a
read whose line fails its check is UNDECODED. A level takes the entry of its eleven index bits from the hub's cache, or reads
it; an entry that is not valid is NOT PRESENT, one that R311 does not allow MALFORMED, a leaf ends the walk, and any other
names the next table; valid entries of levels 1 to 3 are kept. A port entry permits what R315 asks. -/
def Obligations.Translation : Prop :=
  (∀ (k : CoreId) (i : Nat) (m : Miss) (s : State),
    (s.core k).misses[i]? = some m → m.sent = false → ((s.core k).misses.filter (·.sent)).length < 4 →
    (∀ y ∈ (s.core k).misses.take i, y.sent = true) →
    ∃ t, exec (.translationRequest k i) s = .next t ∧ t.gmem = s.gmem ∧
      (t.core k).misses = (s.core k).misses.set i { m with sent := true } ∧
      (t.field (fieldOf k)).walks = admitWalk (s.field (fieldOf k)).walks ⟨k, m, false, false, []⟩ ∧
      ∀ j n, t.slot j n = s.slot j n) ∧
  (∀ (f i : Nat) (w : WalkReq) (s : State), (s.field f).walks[i]? = some w → w.started = true →
    (∀ bad, w.stale = true → ∃ t, exec (.walkComplete f i bad) s = .next t ∧ t.cores = s.cores ∧ t.gmem = s.gmem ∧
      (t.field f).walks = (s.field f).walks.set i { w with stale := false }) ∧
    (w.stale = false →
      let c := (s.part (s.partNum w.core)).ctx
      let r := s.walkVia c w.miss.vf w.miss.va.toNat (s.field f).cache 0
      let asks := w.waiters = [] ∧ w.miss.stream = none ∧ ∃ y ∈ (s.core w.core).misses, y.asks w.miss true = true
      ∃ t, exec (.walkComplete f i 0) s = .next t ∧ t.gmem = s.gmem ∧
        (t.field f).walks = settleWalks ((s.field f).walks.eraseIdx i) ∧ (t.field f).cache = r.1 ∧
        (∀ e, r.2 = .ok e → ∀ q ∈ (w.core, w.miss) :: w.waiters, q.2.stream = none →
          { e with used := s.now } ∈ (t.core q.1).ports) ∧
        (∀ g n, r.2 = .error g → asks → w.miss.party = some n → (s.slot w.core n).st = .wait → (s.slot w.core n).wait = .walk →
          (t.slot w.core n).reply = some (.fault { g with va := w.miss.va })) ∧
        (∀ n, asks → w.miss.party = some n → (s.slot w.core n).st = .wait → (s.slot w.core n).wait = .walk →
          c.s1root.getLsbD 63 = true → c.s2root.getLsbD 63 = false → (s.field f).cache = [] →
          ∃ t g, exec (.walkComplete f i 1) s = .next t ∧ (t.slot w.core n).reply = some (.fault g) ∧ g.kind = 6))) ∧
  (∀ (ws vs : List WalkReq) (w r : WalkReq), r.started = false → (∀ y ∈ ws, ¬ (y.started = true ∧ y.same r = true)) →
    admitWalk ws r = ws ++ [{ r with started := decide ((ws.filter (·.started)).length < 256) }] ∧
    (w.started = true → w.same r = true → w.waiters.length < 1024 →
      admitWalk (ws ++ w :: vs) r = ws ++ { w with waiters := w.waiters ++ (r.core, r.miss) :: r.waiters } :: vs)) ∧
  (∀ ws : List WalkReq, (ws.filter (·.started)).length ≤ 256 → ((settleWalks ws).filter (·.started)).length ≤ 256) ∧
  (∀ (rd : WalkSt → Nat → Nat → WalkSt × Except XFault Word) (stage2 tf : Bool) (gpa a tbl n sh : Nat) (w : WalkSt)
      (rest : List (Nat × Nat)),
    let y := walkTree rd stage2 tf gpa a w tbl ((n, sh) :: rest)
    (∀ e, w.pte? stage2 n (a / 2 ^ sh) = some e →
      y = if e.getLsbD 1 then (w, .ok ⟨pteAddr e, sh, n, e⟩) else walkTree rd stage2 tf gpa a w (pteAddr e) rest) ∧
    (w.pte? stage2 n (a / 2 ^ sh) = none →
      let x := rd w (tbl + 8 * (a / 2 ^ sh % 2048)) n
      (∀ v f, x = (v, .error f) → y = (v, .error f)) ∧
      ∀ v e, x = (v, .ok e) →
        let v' := if n ≤ 3 then v.keep (.pte v.vf stage2 n (a / 2 ^ sh) e) else v
        (e.getLsbD 0 = false → ∃ f, y = (v, .error f) ∧ f.kind = 0) ∧
        (e.getLsbD 0 = true → pteBad stage2 n sh e = true → ∃ f, y = (v, .error f) ∧ f.kind = 1) ∧
        (e.getLsbD 0 = true → pteBad stage2 n sh e = false → e.getLsbD 1 = true → y = (v', .ok ⟨pteAddr e, sh, n, e⟩)) ∧
        (e.getLsbD 0 = true → pteBad stage2 n sh e = false → e.getLsbD 1 = false →
          y = walkTree rd stage2 tf gpa a v' (pteAddr e) rest))) ∧
  (∀ (w : WalkSt) (e : CacheEnt), e ∈ (w.keep e).cache ∧ (w.cache.length ≤ 4096 → (w.keep e).cache.length ≤ 4096) ∧
    (w.cache.length < 4096 → ∀ x ∈ w.cache, x ∈ (w.keep e).cache)) ∧
  (∀ (e : TEntry) (va : Nat) (acc : BitVec 8) (user : Bool),
    (e.check va acc user = none ↔
      (acc ∉ [1, 5, 6, 8] → e.r = true) ∧ (acc ∈ [1, 2, 5, 8] → e.w = true) ∧ (acc = 6 → e.x = true) ∧
      (user = true → e.u = true)) ∧
    ∀ f, e.check va acc user = some f → f.kind = 2 ∧ e.r = false ∨ f.kind = 3 ∧ e.w = false ∨ f.kind = 4 ∧ e.x = false ∨
      f.kind = 5 ∧ e.u = false) ∧
  (∀ (c : Core) (e : TEntry), (c.ports.length < 8 → (c.addPort e).ports = c.ports ++ [e]) ∧
    (c.ports.length = 8 → c.ports.Nodup → ∃ o ∈ c.ports, (∀ y ∈ c.ports, o.used ≤ y.used) ∧
      (c.addPort e).ports = (c.ports.filter fun y => y ≠ o) ++ [e])) ∧
  (∀ (s : State) (c : PartCtx) (vf va : Nat), c.s1root.getLsbD 63 = false → ∃ f, s.walk c vf va = .error f ∧ f.kind = 7)

/-! ### Energy, supply and heat (15, 16) -/

/-- R340, R345 to R347, R352 to R356: a metering boundary makes an add for every VF charged, and a rail's shares add up to its
residual; at the end of a roll-up period each VF charged within it gets what CONSUMED gains, in a partition or outside any
(log entry 90); the adds reach BALANCE and CONSUMED, and a balance that is 0 or less ends the slice of the VF wherever it
runs, with a QUOTA notice owed to that VF; a rail's set-point moves by at most 20 mV up and 10 mV down a microsecond toward
its target, from the vote of the VF that runs and those held; a refill gives tokens in two passes, the floors and then an equal
share of what is left to each core that asked; a reading sets its sensor's level, and one of 115 °C trips the rail, whose cores
lose all state until it is powered again, with one THERMAL notice to the device manager. (The model's choices: the balance and
the slice that it ends, in whichever partition, and the owed notice, log entry 70; when a rail may be powered again, entry 71.) -/
def Obligations.EnergyAndHeat : Prop :=
  (∀ (f : Nat) (energy : List Nat) (s : State), f < 84 → energy.length = 4 → ∃ t, exec (.meteringBoundary f energy) s = .next t ∧
    (t.field f).time = BitVec.ofNat 64 (((s.field f).time.toNat / 10000 + 1) * 10000) ∧ t.gmem = s.gmem ∧
    (∀ k n, t.slot k n = s.slot k n) ∧
    let cs := s.fieldCharges f energy (s.meteredVfs f)
    let rolled := rollUp (s.field f).rolled cs
    let roll := (match s.partOfField f with
      | some p => max 1 ((s.part p).rollp.extractLsb' 0 16).toNat
      | none => 1) ≤ (s.field f).rollAt + 1
    ∃ l, t.adds = s.adds ++ l ∧ (∀ a ∈ l, a.field = f ∧ a.part = s.partOfField f) ∧
      (∀ c ∈ cs, ∃ a ∈ l, a.vf = c.1 ∧ a.charge = some c.2) ∧ (∀ a ∈ l, ∀ c, a.charge = some c → (a.vf, c) ∈ cs) ∧
      (¬ roll → l.map (·.vf) = cs.map (·.1) ∧ (∀ a ∈ l, a.consumed = none) ∧ (t.field f).rolled = rolled ∧
        (t.field f).rollAt = (s.field f).rollAt + 1) ∧
      (roll → l.map (·.vf) = rolled.map (·.1) ∧ (∀ a ∈ l, a.consumed = (mget rolled a.vf).map Int.ofNat) ∧
        (t.field f).rolled = [] ∧ (t.field f).rollAt = 0)) ∧
  (∀ (res : Int) (ts : List (Nat × Nat)), ts ≠ [] → (∀ t ∈ ts, 0 < t.2) → ((shares res ts).map (·.2)).sum = res ∧
    (shares res ts).map (·.1) = ts.map (·.1)) ∧
  (∀ (i : Nat) (a : BalAdd) (s : State), s.adds[i]? = some a →
    let d := s.cbAddr a.vf
    let g := match a.consumed with
      | none => s.gmem
      | some c => s.gmem.writeLE (d + 8) 8 (s.cbWord a.vf 8 + BitVec.ofInt 64 c).toNat
    ∃ t, exec (.balanceAddReturn i) s = .next t ∧ t.adds = s.adds.eraseIdx i ∧
      (a.charge = none → t.gmem = g ∧ ∀ p, (t.part p).phase = (s.part p).phase) ∧
      ∀ c, a.charge = some c →
        let bal := s.cbWord a.vf 0 - BitVec.ofInt 64 c
        t.gmem = g.writeLE d 8 bal.toNat ∧
        (0 < bal.toInt → ∀ p, (t.part p).phase = (s.part p).phase ∧ (t.part p).exhausted = (s.part p).exhausted ∧
          (t.part p).owed = (s.part p).owed) ∧
        (bal.toInt ≤ 0 → ∀ p, (s.part p).current = some a.vf → (s.part p).exhausted = false → (s.part p).phase = .run →
          (t.part p).phase = .stop1 ∧ (t.part p).exhausted = true ∧
          (t.part p).owed = (s.part p).owed ++ [(a.vf, 0x21, bal)]) ∧
        (bal.toInt ≤ 0 → ∀ p e, (s.part p).current ≠ some a.vf → (s.part p).next = some e → qtVf e.2 = a.vf →
          ∀ y, (t.part p).next = some y → qtVf y.2 ≠ a.vf)) ∧
  (∀ (r : Nat) (s : State), r < 336 →
    let votes := fun (l : List (BitVec 10)) => exec (.railVoteUpdate r) s = .next (s.modRail r fun x => x.vote l)
    ((s.rail r).off = true → exec (.railVoteUpdate r) s = .next s) ∧
    ((s.rail r).off = false → s.partOfField (r / 4) = none → votes []) ∧
    ∀ p, (s.rail r).off = false → s.partOfField (r / 4) = some p →
      let x := s.part p
      (qIdle x.qcur = false → x.phase = .run → votes [x.ctx.rvote.extractLsb' 0 10]) ∧
      (qIdle x.qcur = true ∨ x.phase ≠ .run → votes [])) ∧
  (∀ (x : Rail) (own : List (BitVec 10)),
    let y := x.vote own
    let old := x.setpt.toNat
    let new := y.setpt.toNat
    let target := y.target.toNat
    let lo := (x.ctl.extractLsb' 0 10).toNat
    let hi := (x.ctl.extractLsb' 10 10).toNat
    (lo ≤ hi → lo ≤ target ∧ target ≤ hi) ∧ (old < target → new = min target (old + 20)) ∧
    (target < old → new = old ∨ new = max target (old - 10)) ∧ (target < old → x.holds = [] → new = max target (old - 10)) ∧
    (old = target → new = old) ∧ y.ctl = x.ctl ∧ y.trip = x.trip) ∧
  (∀ (r : Nat) (s : State), r < 336 → ∃ t, exec (.tokenRefill r) s = .next t ∧ t.gmem = s.gmem ∧
    (∀ k, onRail r k = false → t.core k = s.core k) ∧
    ∀ k, (s.unit k).tokens ≤ 2048 → (s.unit k).tokens ≤ (t.unit k).tokens ∧ (t.unit k).tokens ≤ 2048 ∧
      (t.core k).mem = (s.core k).mem ∧ ∀ n, t.slot k n = s.slot k n) ∧
  (∀ (r : Nat) (s : State), r < 336 → (s.cores.map Prod.fst).Nodup →
    let ks := (s.cores.map (·.1)).filter (onRail r)
    let y := s.floorPass ks ((s.rail r).ctl.extractLsb' 40 24).toNat
    let asks := fun k : CoreId =>
      ((s.unit k).wanted = true ∨ s.stalled k = true) ∧ (y.1.unit k).tokens < 2048 ∧ s.hot k = false
    ∃ (t : State) (d : List CoreId), exec (.tokenRefill r) s = .next t ∧ (∀ k, k ∈ d ↔ k ∈ ks ∧ asks k) ∧ d.Nodup ∧ ∀ k ∈ ks,
      let v := (y.1.unit k).give (if k ∈ d then min (y.2 / d.length) (2048 - (y.1.unit k).tokens) else 0)
      (t.unit k).tokens = v.tokens ∧ (t.unit k).owedT = v.owedT ∧ (t.unit k).owedS = v.owedS) ∧
  (∀ (s : State) (k : CoreId) (l : List CoreId) (left : Nat) (h : Held),
    let f := s.floorOf h.vf
    let cal := (s.core k).regs.cal[(16 : Fin 32)].toNat
    let ask := if cal * s.mscale k = 0 then 2048 else min 2048 (f * 2 ^ 20 / (cal * s.mscale k))
    let g := min (min ask (2048 - (s.unit k).tokens)) left
    ((s.core k).held = none → s.floorPass (k :: l) left = s.floorPass l left) ∧
    ((s.core k).held = some h → f = 0 ∨ s.hot k = true → s.floorPass (k :: l) left = s.floorPass l left) ∧
    ((s.core k).held = some h → f ≠ 0 → s.hot k = false →
      s.floorPass (k :: l) left = (s.addTokens k g).floorPass l (left - g))) ∧
  (∀ (sn temp : Nat) (s : State), sn < 64512 → temp < 1024 → (s.sensor sn).level ≠ 3 →
    ∃ t, exec (.sensorRead sn temp) s = .next t ∧ (t.sensor sn).temp = BitVec.ofNat 10 temp ∧ t.gmem = s.gmem ∧
      (t.sensor sn).level = (
        if (s.sensor sn).level = 0 then (if temp < 380 then 0 else if temp < 420 then 1 else 2)
        else if (s.sensor sn).level = 1 then (if temp < 360 then 0 else if temp < 420 then 1 else 2)
        else (if temp < 360 then 0 else if temp < 400 then 1 else 2)) ∧
      (temp < 460 → ∀ k n, t.slot k n = s.slot k n) ∧
      (460 ≤ temp → (s.rail (railOfSensor sn)).trip = false → (t.rail (railOfSensor sn)).trip = true ∧
        (∃ m l, t.fw = m :: l ∧ m.kind = .notice ∧ m.payload = [0, 0x22, sensorThermal sn temp 3, 0]) ∧
        ∀ k, onRail (railOfSensor sn) k = true → (t.core k).mem.sram = [] ∧ ∀ n, t.slot k n = Slot.wiped)) ∧
  (∀ (r : Nat) (s : State), r < 336 → (s.rail r).trip = true → (∀ n ∈ railSensors r, (s.sensor n).temp.toNat < 340) →
    ∃ t, exec (.railRepower r) s = .next t ∧ (t.rail r).trip = false ∧ t.gmem = s.gmem ∧
      (∀ k, onRail r k = true → (t.core k).mem.sram = []) ∧ ∀ k, onRail r k = false → t.core k = s.core k)

/-! ### Reliability, bring-up and debug (17, 18) -/

/-- R362 to R364, R366, R367, R369, R372, R375 to R378, R387, R388, R390: what each failure, measurement and request leaves:
retries, spare wires of a core's and spare lanes of a hub's links, and MODERR with the link stopped both ways and the partitions
at its two ends pre-empted; a marked wire; the scrub's next word; UNCORRECTABLE for the slot, or for all four; the start of the
module as far as its fuses, keys, signatures and security versions let it, with the fields that link training left out; a quote
and the next leaf; a log entry where it fits, and its discard where not; OLOGSTAT and a stopped partition; a repair map made by
the fixed rule is consistent and leaves every position of its field on a good core, and a row with three dead cores has none.
(The model's choices: both ends of a failed link, log entry 72; an image refused in the start, entry 73; a refused attestation,
entry 76; the root field's own offset, entry 95.) -/
def Obligations.HealthAndBringUp : Prop :=
  let moderr := fun (t : State) (fld : BitVec 8) (code : BitVec 8) => t.regs.moderr = 1#1 ++ 0#47 ++ fld ++ code
  (∀ (k q : CoreId) (l : Fin 4) (n : Nat) (s : State), n ≤ 3 → linkPeer k l = some q →
    (s.wireLink (linkTo q k)).stopped = true → exec (.flitCheckFail k (.core l) n) s = .next s) ∧
  (∀ (k q : CoreId) (l : Fin 4) (n : Nat) (s : State), n ≤ 3 → linkPeer k l = some q →
    (s.wireLink (linkTo q k)).stopped = false →
    let w := (s.core k).regs.linkstat
    ∃ t, exec (.flitCheckFail k (.core l) n) s = .next t ∧ t.gmem = s.gmem ∧ (∀ j i, t.slot j i = s.slot j i) ∧
      ((t.core k).regs.linkstat.extractLsb' 32 32).toNat = min (2 ^ 32 - 1) ((w.extractLsb' 32 32).toNat + min 3 (n + 1)) ∧
      (n = 3 → linkSpares w l < 4 → linkSpares (t.core k).regs.linkstat l = linkSpares w l + 1) ∧
      (n = 3 → 4 ≤ linkSpares w l → moderr t (BitVec.ofNat 8 (fieldOf k)) 6 ∧
        (∀ i ∈ [linkTo k q, linkTo q k], (mget t.links i).map LinkSt.stopped = some true) ∧
        ∀ p, s.partOf k = some p ∨ s.partOf q = some p → (s.part p).phase = .run → qIdle (s.part p).qcur = false →
          (t.part p).phase = .stop1)) ∧
  (∀ (k : CoreId) (l : Fin 4) (n g : Nat) (s : State), n ≤ 3 → hubPeer (fieldOf k) l = some g →
    let f := fieldOf k
    let used := (s.field f).hubLanes[l]
    let stopped := (s.field f).hubStopped[l] = true
    (n < 3 ∨ stopped → exec (.flitCheckFail k (.hub l) n) s = .next s) ∧
    (n = 3 → ¬ stopped → used < 2 → exec (.flitCheckFail k (.hub l) n) s =
      .next (s.modField f fun x => { x with hubLanes := x.hubLanes.set l (used + 1) })) ∧
    (n = 3 → ¬ stopped → 2 ≤ used → ∃ t, exec (.flitCheckFail k (.hub l) n) s = .next t ∧
      moderr t (BitVec.ofNat 8 f) 6 ∧ (t.field f).hubStopped[l] = true ∧ (t.field g).hubStopped[l + 2] = true ∧
      t.cores = s.cores ∧ t.gmem = s.gmem ∧
      ∀ p, s.partOfField f = some p ∨ s.partOfField g = some p → (s.part p).phase = .run → qIdle (s.part p).qcur = false →
        (t.part p).phase = .stop1)) ∧
  (∀ (k : CoreId) (l : Fin 4) (wire : Nat) (s : State), wire < 80 → linkPeer k l ≠ none → exec (.ageingMonitorMeasure k l wire) s =
    .next (s.modField (fieldOf k) fun f =>
      if (k, l, wire) ∈ f.marked then f else { f with marked := f.marked ++ [(k, l, wire)] })) ∧
  (∀ (k : CoreId) (s : State),
    let o := (s.core k).regs.scrub.toNat / 8 * 8
    ∃ t, exec (.sramScrub k) s = .next t ∧ (t.core k).regs.scrub = BitVec.ofNat 16 (o + 8) ∧
      (t.core k).mem = (s.core k).mem ∧ (∀ j i, t.slot j i = s.slot j i) ∧
      (∀ b, (s.core k).badWord o 8 = some b → (t.core k).regs.eccstat.getLsbD 47 = true ∧
        (t.core k).regs.eccstat.extractLsb' 0 16 = BitVec.ofNat 16 o ∧ (t.core k).regs.ue = (s.core k).regs.ue) ∧
      ((s.core k).badWord o 8 = none → o ∉ (t.core k).regs.ce)) ∧
  (∀ (k : CoreId) (n : Fin 4) (s : State),
    (∀ i, (s.slot k i).st ≠ .halting ∧ (s.slot k i).st ≠ .empty) →
    let hit := fun i : Fin 4 => { s.slot k i with
      deferred := addDeferredTo (s.slot k i).deferred ⟨0x0F, 0xFFFFFFFFFFFFFFFF, false, false⟩ }
    (∃ t, exec (.parityError k (some n)) s = .next t ∧ t.slot k n = hit n ∧ (∀ i, i ≠ n → t.slot k i = s.slot k i)) ∧
    ∃ t, exec (.parityError k none) s = .next t ∧ ∀ i, t.slot k i = hit i) ∧
  (∀ (fuseOk : Bool) (root dm : FwImage) (raise : BitVec 32) (untrained : List Nat) (quays : QuayStart) (s : State),
    s.started = false → root.hash.length = 4 → dm.hash.length = 4 →
    let i := Instr.powerOn fuseOk root dm raise untrained quays
    let runs := fun (x : FwImage) (least : BitVec 32) => decide (x.key = s.regs.vendorKey) && x.sig && decide (least ≤ x.ver)
    let least := if s.regs.minVer ≤ raise then raise else s.regs.minVer
    (fuseOk = false → ∃ t, exec i s = .next t ∧ t.started = false ∧ moderr t 0xFF 2) ∧
    (fuseOk = true → s.regs.lcstate = 4 → exec i s = .next { s with answers := (0, true, toBytes 4 8) :: s.answers }) ∧
    (fuseOk = true → s.regs.lcstate ≠ 4 → runs root s.regs.minVer = false →
      ∃ t, exec i s = .next t ∧ t.started = false ∧ moderr t 0xFF 1) ∧
    (fuseOk = true → s.regs.lcstate ≠ 4 → runs root s.regs.minVer = true →
      ∃ t, exec i s = .next t ∧ t.started = runs dm least ∧ t.parts = [] ∧ t.gmem = s.gmem ∧ t.regs.minVer = least ∧
        t.regs.rootLvl = some 3 ∧ (runs dm least = true → t.regs.dmLvl = some 2) ∧
        (∀ j : Fin 8, j.val < 4 → t.regs.meas[j] = root.hash.getD j.val 0) ∧
        (∀ f ∈ untrained, f < 84 → (t.field f).repctl.getLsbD 63 = true) ∧
        (runs dm least = false → moderr t 0xFF 1) ∧
        (runs dm least = true → (∀ j : Fin 8, 4 ≤ j.val → t.regs.meas[j] = dm.hash.getD (j.val - 4) 0) ∧
          ∀ q < 130, (t.quay q).trained = true ∧ (t.quay q).up = true))) ∧
  (∀ (r : Nat) (s : State), r < 336 → r / 4 ≠ 5 → s.partOfField (r / 4) = none → (s.rail r).off = false →
    ∃ t, (t.rail r).off = true ∧ exec (.railRegulationTimeout r) s = .next t ∧ moderr t (BitVec.ofNat 8 (r / 4)) 5 ∧
      (t.field (r / 4)).repctl.getLsbD 63 = true ∧ t.cores = s.cores ∧ t.gmem = s.gmem) ∧
  (∀ (f : Nat) (ofs : BitVec 32) (err : BitVec 16) (s : State), f < 84 → err.toNat ≤ 16 →
    (ofs.toInt - 8 * ((s.field f).time.toNat - (s.field 5).time.toNat : Int)).natAbs ≤ err.toNat → (f = 5 → ofs = 0) →
    exec (.skewMeasure f ofs err) s = .next (s.modField f fun x => { x with skew := 0#16 ++ err ++ ofs })) ∧
  (∀ (nonce : List Byte) (s : State), nonce.length = 32 → s.regs.rootLvl ≠ none →
    (s.regs.keyLive = false ∨ 32768 ≤ s.regs.leaf →
      exec (.attestationRequest nonce) s = .next { s with answers := (0, false, []) :: s.answers }) ∧
    (s.regs.keyLive = true → s.regs.leaf < 32768 → ∃ t q, exec (.attestationRequest nonce) s = .next t ∧
      t.quotes = q :: s.quotes ∧ q = s.quote nonce ++ lmsSignature s.regs.idkey.toList s.regs.leaf (s.quote nonce) ∧ t.regs.leaf = s.regs.leaf + 1 ∧ t.regs.leaf ≤ 256 * t.regs.fusedCtr ∧
      t.regs.meas = s.regs.meas ∧ (q.drop 8).take 32 = nonce ∧ q.length = 160 + 4 + 4 + 2176 + 4 + 480)) ∧
  (∀ (q id : Nat) (s : State), q = 64 ∨ q = 65 → s.regs.lcstate ≠ 4 →
    exec (.configurationRequest ⟨q, id⟩) s = .next { s with answers := (id, (s.quay q).trained, []) :: s.answers }) ∧
  (∀ (i : Nat) (x : Sample) (s : State), s.samples[i]? = some x →
    (s.part x.part).phase ≠ .save3 → (s.part x.part).phase ≠ .out →
    let c := (s.part x.part).ctx
    let size := c.sampbase.toNat % 4096 * 4096
    ∃ t, exec (.sampleLogWrite i) s = .next t ∧ t.samples = s.samples.eraseIdx i ∧
      ∀ d e, s.translateIn c 0 (BitVec.ofNat 64 (c.sampbase.toNat / 4096 * 4096 % 2 ^ 60)) 2 false false = .ok (d, e) →
        let off := s.gmem.readLE d 8
        let entry := s.sampleEntry x
        let va := c.sampbase.toNat / 4096 * 4096 % 2 ^ 60 + off
        (size < off + entry.length → t.gmem = s.gmem ∧
          (c.sampdrop.toNat < 2 ^ 32 - 1 → (t.part x.part).ctx.sampdrop = c.sampdrop + 1)) ∧
        (off + entry.length ≤ size → s.GmemOk →
          let u := State.gwrite { s with samples := s.samples.eraseIdx i, free := s.free + 254 } d 8 (off + entry.length)
          ∀ b e', va % 65536 + entry.length ≤ 65536 → u.translateIn c 0 (BitVec.ofNat 64 va) 1 false false = .ok (b, e') →
            isRemote b = false → d + 8 ≤ b ∨ b + entry.length ≤ d →
            t.gmem.readLE d 8 = off + entry.length ∧ t.gmem.readBytes b entry.length = entry)) ∧
  (∀ (p place seg : Nat) (why : Fin 4) (pos : BitVec 21) (seq : BitVec 32) (s : State),
    (s.part p).phase = .run → qIdle (s.part p).qcur = false → (place, seg) ∈ (s.part p).placesAt pos →
    s.logStops p why place seg = true → seq.toNat = (s.part p).ctx.nextSeq place % 2 ^ 32 →
    ∃ t, exec (.orderLogStop p why pos seq) s = .next t ∧ (t.part p).phase = .stop1 ∧ t.cores = s.cores ∧ t.gmem = s.gmem ∧
      (t.part p).ctx.ologstat = 1#1 ++ BitVec.ofNat 3 why.val ++ 0#7 ++ pos ++ seq) ∧
  (∀ (dead : List Nat) (m : List (Nat × Word)), repairMap dead = some m → repairOk (rowWord m) = true ∧
    ∀ f : Field, f.rows = m → f.dead = dead → f.fenced = false → f.complete = true) ∧
  (∀ (dead : List Nat) (y : Nat), y < 128 → 3 ≤ ((List.range 97).filter fun c => dead.contains (97 * y + c)).length →
    repairMap dead = none)

/-! ### Quays (15, 19) -/

/-- R341, R342, R368, R394, R397 to R404: a window of a quay grants in one direction, no partition more than it asks for and no
more than it has; throttles and load answers set its bandwidth, and a further report sends no notice; a host write is
performed within its line, a management table takes a whole entry, and a write or frame whose data fails its check twice leaves
nothing; a snoop ends the watches on its line; frames of a peer are taken in order, once, by a quay that is up; one that fails
the tenant check, or its own, is refused and counted; a read or write stays within the export; an acknowledgement performs the
access that it answers, marks a refused load, or stops a refused stream; the ninth timeout marks the peer down; a failed lane
narrows a link or takes it down. (The model's choices: what a frame meets whose partition is out, log entry 79; the narrower
width of a host or memory quay, entry 90; reads of BAR0 and requests passed on, entry 93.) -/
def Obligations.QuayTraffic : Prop :=
  (∀ (q : Nat) (dir : Fin 2) (demand : List (Nat × Nat)) (s : State), q < 64 → ∃ cs, (∀ c ∈ cs, c.1.got = 0 ∧
      c.1.demand = (mget demand c.1.part).getD 0 ∧ 1 ≤ c.1.weight) ∧
    exec (.quayGrantWindow q ⟨dir, demand⟩) s = .next (s.modQuay q fun y =>
      { y with grants := y.grants.set dir ((windowGrants (125 * y.b) cs).map fun c => (c.part, c.got)) })) ∧
  (∀ (b : Nat) (cs : List (Claim × Nat)), (∀ c ∈ cs, c.1.got = 0) →
    (∀ c ∈ windowGrants b cs, c.got ≤ c.demand) ∧ ((windowGrants b cs).map (·.got)).sum ≤ b) ∧
  (∀ (q : Nat) (s : State), q < 64 →
    (∀ b, ∃ t, exec (.memoryThrottleReport q (some b)) s = .next t ∧ (t.quay q).b = b ∧ (t.quay q).throttled = true ∧
      ((s.quay q).throttled = true → t.cores = s.cores ∧ t.parts = s.parts)) ∧
    ((s.quay q).throttled = true → ∃ t, exec (.memoryThrottleReport q none) s = .next t ∧ (t.quay q).b = (s.quay q).full ∧
      (t.quay q).throttled = false) ∧
    (∀ severe, exec (.devloadResponse q severe) s =
      .next (s.modQuay q fun y => { y with b := if severe then y.full / 2 else y.full * 3 / 4 })) ∧
    ((s.quay q).b ≠ (s.quay q).full → (s.quay q).throttled = false →
      exec (.devloadRestore q) s = .next (s.modQuay q fun y => { y with b := y.full }))) ∧
  (∀ (d m : Nat) (bytes : List Byte) (s : State), homeOf d = some (.mem m) → s.decodes d = true → bytes ≠ [] →
    d % 64 + bytes.length ≤ 64 → ∃ t, exec (.hostWrite (.mem d) ⟨bytes, 0, 0⟩) s = .next t ∧
      t.gmem = s.gmem.writeBytes d bytes ∧ ∀ k n, (t.slot k n).r = (s.slot k n).r) ∧
  (∀ (x : HostDest) (bytes : List Byte) (err : LineErr) (s : State),
    ((∃ d, x = .mem d) ∨ (∃ vf va, x = .bar2 vf va) ∨ ∃ off, x = .pf0 off) → bytes ≠ [] → linesPass bytes err.first = false →
    linesPass bytes err.second = false → exec (.hostWrite x ⟨bytes, err⟩) s = .next s) ∧
  (∀ (off : Nat) (v : Word) (s : State), off % 8 = 0 →
    let w := (toBytes v.toNat 8)
    (∀ i : Fin 256, off = 0x10000 + 8 * i.val → exec (.hostWrite (.pf0 off) ⟨w, 0, 0⟩) s =
      .next (s.modMod fun m => { m with tenants := m.tenants.set i (v &&& 0xFFFFFFF80000FFFF) })) ∧
    (off = 0x21000 → exec (.hostWrite (.pf0 off) ⟨w, 0, 0⟩) s = .next (s.modMod fun m => { m with udp := v &&& 0xFFFF }))) ∧
  (∀ (i : Fin 256) (v : BitVec 128) (s : State), ∃ t,
    exec (.hostWrite (.pf0 (0x20000 + 16 * i.val)) ⟨toBytes v.toNat 16, 0, 0⟩) s = .next t ∧ t.gmem = s.gmem ∧
    t.regs.peers[i] = v ∧ ∀ j, j ≠ i → t.regs.peers[j] = s.regs.peers[j]) ∧
  (∀ (vf id : Nat) (x : LineData) (s : State), vf < 512 →
    exec (.hostWrite (.readBar0 vf 0x40 8 id) x) s =
      .next { s with answers := (id, true, toBytes (s.vf vf).accepted.toNat 8) :: s.answers } ∧
    exec (.hostWrite (.readBar0 vf 0x48 8 id) x) s =
      .next { s with answers := (id, true, toBytes (s.vf vf).refused.toNat 8) :: s.answers }) ∧
  (∀ (h line : Nat) (s : State), h < 2 → line < 2 ^ 44 → line % 64 = 0 → (s.quay (64 + h)).pcie = false →
    ∃ t, exec (.cxlSnoop h line) s = .next t ∧ t.gmem = s.gmem ∧
      (∀ w ∈ s.watches, w.line = 2 ^ 45 + h * 2 ^ 44 + line → (t.slot w.core w.slot).watch.armed = false) ∧
      (∀ k n, (t.slot k n).r = (s.slot k n).r) ∧ ∀ k n, (∀ w ∈ s.watches, w.core = k → w.slot = n →
        w.line ≠ 2 ^ 45 + h * 2 ^ 44 + line) → t.slot k n = s.slot k n) ∧
  (∀ (x : NetFrame) (s : State), (s.quay x.quay).up = false → exec (.netRequestFrame x) s = .next s) ∧
  (∀ (x : NetFrame) (s : State), 66 ≤ x.quay → x.quay < 130 → (s.quay x.quay).up = true →
    let peer := x.peer.toNat
    let next := (s.quay x.quay).taken peer
    let does := s.netPerform x.quay x.lvf ⟨peer, x.seq⟩ x.op
    (x.seq ≠ next → exec (.netRequestFrame x) s = .next s) ∧
    (x.seq = next → x.err = ⟨0, 0⟩ → s.tenantOk x = false → ∃ t, exec (.netRequestFrame x) s = .next t ∧ t.gmem = s.gmem ∧ t.cores = s.cores ∧
      t.answers = (x.seq, false, []) :: s.answers ∧ (t.quay x.quay).taken peer = next + 1 ∧
      (t.vf x.lvf).refused = (s.vf x.lvf).refused + 1) ∧
    (x.seq = next → s.tenantOk x = true → linesPass (netPayload x.op) x.err.first = false →
      linesPass (netPayload x.op) x.err.second = false → exec (.netRequestFrame x) s = .next s) ∧
    (x.seq = next → x.err = ⟨0, 0⟩ → s.tenantOk x = true →
      (∀ u data, does = .done u data →
        ∃ t, exec (.netRequestFrame x) s = .next t ∧ t.gmem = u.gmem ∧ (t.quay x.quay).taken peer = next + 1 ∧
          t.answers = (x.seq, true, data) :: u.answers) ∧
      (does = .refused ∨ does = .discarded →
        ∃ t ok, exec (.netRequestFrame x) s = .next t ∧ t.gmem = s.gmem ∧ t.cores = s.cores ∧
          (ok = false ↔ does = .refused) ∧
          t.answers = (x.seq, ok, []) :: s.answers ∧ (t.vf x.lvf).refused = (s.vf x.lvf).refused + 1) ∧
      (does = .later → exec (.netRequestFrame x) s = .next s) ∧
      ∀ u, does = .wait u → exec (.netRequestFrame x) s = .next u)) ∧
  (∀ (q vf off : Nat) (id : NetId) (bs : List Byte) (s : State),
    (8192 < bs.length ∨ s.exportAt vf 1 off bs.length = none → s.netPerform q vf id (.write off bs) = .refused) ∧
    ((s.exportOf vf).2.toNat < off + bs.length → s.exportAt vf 1 off bs.length = none)) ∧
  (∀ (q : Nat) (id : NetId) (k : CoreId) (i : Nat) (o : NetOut) (a : GAcc) (bs : List Byte) (s : State),
    (s.quay q).up = true → s.netNext q id = some o → o.what = .access → s.netAccess q id = some (k, i, a) →
    (a.returns = true → bs.length = a.size) →
    ∃ t, exec (.netAckFrame q id (some bs)) s = .next t ∧ t.gmem = s.gmem ∧
      (∀ o ∈ (t.quay q).outst, o.id ≠ id) ∧
      (a.returns = false → (t.core k).gaccs = (s.core k).gaccs.eraseIdx i) ∧
      (a.returns = true → ∃ b, (t.core k).gaccs[i]? = some b ∧ b.performed = true ∧
        b.value = BitVec.ofNat 512 (leBytes bs) ∧ b.dest = a.dest)) ∧
  (∀ (q : Nat) (id : NetId) (o : NetOut) (s : State), (s.quay q).outst.find? (fun p => p.id == id) = some o →
    (o.tries < 8 → exec (.netRetransmitTimeout q id) s = .next (s.modQuay q fun y =>
      { y with outst := y.outst.map fun p => if p.id == id then { p with tries := p.tries + 1 } else p })) ∧
    (8 ≤ o.tries → ∃ t, exec (.netRetransmitTimeout q id) s = .next t ∧ id.peer ∈ (t.quay q).down ∧
      ∀ p ∈ (t.quay q).outst, p.id.peer ≠ id.peer)) ∧
  (∀ (q : Nat) (id : NetId) (k : CoreId) (i : Nat) (o : NetOut) (a : GAcc) (s : State),
    (s.quay q).up = true → s.netNext q id = some o → o.what = .access → s.netAccess q id = some (k, i, a) → a.holds = false →
    a.returns = true → ∃ t, exec (.netAckFrame q id none) s = .next t ∧ t.gmem = s.gmem ∧
      (∀ o ∈ (t.quay q).outst, o.id ≠ id) ∧
      (t.core k).gaccs[i]? = some { a with performed := true, bad := 0x09, net := none }) ∧
  (∀ (q : Nat) (id : NetId) (n : Fin 8) (els : List Nat) (o : NetOut) (z : Stream) (h : Shp) (acc : BitVec 8) (s : State),
    (s.quay q).up = true → s.netNext q id = some o → o.what = .tile n els → (s.core o.core).streams[n] = some z →
    z.globalEnd = some (h, acc) → z.asked = true →
    let va := h.addr h.base ((z.tileElems h).getD (els.headD 0) 0)
    ∃ t y, exec (.netAckFrame q id none) s = .next t ∧ t.gmem = s.gmem ∧ (t.core o.core).streams[n] = some y ∧
      y.faulted = true ∧ y.tile = z.tile ∧ (t.core o.core).regs.strflt[n] = 1#1 ++ 1#3 ++ va.extractLsb' 0 60) ∧
  (∀ (q : Nat) (s : State), 66 ≤ q → q < 130 → exec (.quayLaneFailure q) s =
    .next (s.modQuay q fun y => { y with up := false, lanes := y.lanes - 1 })) ∧
  (∀ (q : Nat) (s : State), q < 66 → ∃ t, exec (.quayLaneFailure q) s = .next t ∧ t.gmem = s.gmem ∧ t.cores = s.cores ∧
    let y := s.quay q
    let w := if 8 < y.lanes then 8 else if 64 ≤ q ∧ 4 < y.lanes then 4 else 0
    (t.quay q).lanes = w ∧ (w = 0 → (t.quay q).up = false) ∧ (w ≠ 0 → (t.quay q).up = y.up))

/-! ### Taking an exception, and returning from it (06, 13) -/

/-- R180, R181, R182, R297, R298, R314, R322, R378, R408: a cause taken by a slot: TPC, TCAUSE, TADDR, TST's DEFER, ORIGIN
and MORE, and XINFO for a translation fault; the slot is TRAPPED, with its registers as they were; and one notice goes to
SUPR, HSUPR or the root firmware, with the four words of R297, or the module stops. A deferred cause is held for its slot,
sent as a notice for a HALTING or EMPTY one, and the one of lowest code is taken first; at level M MODERR keeps the cause in
FIELD. TRAP and BKPT take theirs, and a trapped slot resumes at its TPC. -/
def Obligations.TakingAnException : Prop :=
  (∀ (k : CoreId) (sl : Fin 4) (cause : BitVec 8) (taddr : Word) (d o m : Bool) (xf : Option (XFault × BitVec 8)) (s : State),
    let x := s.slot k sl
    let t := s.takeTrap k sl cause taddr d o m xf
    let y := t.slot k sl
    let r := (s.core k).regs
    let to_ : Word :=
      if (xf.map fun f => f.1.stage2) = some true ∨ lvlOf x = 1 then r.hsupr
      else if lvlOf x = 0 then (if r.supr = 0 then r.hsupr else r.supr) else 0
    y.st = .trapped ∧ y.pc = x.pc ∧ y.t.tpc = x.pc ∧ y.t.tcause = cause.setWidth 64 ∧ y.t.taddr = taddr ∧
    (∀ i < 64, y.t.tst.getLsbD i =
      if i = 6 then d else if i = 7 then o else if i = 13 then m else x.t.tst.getLsbD i) ∧
    y.t.xinfo = (match xf with | some (f, a) => f.word a | none => x.t.xinfo) ∧
    y.r = x.r ∧ y.t.tvec = x.t.tvec ∧ y.t.tsel = x.t.tsel ∧ y.t.sbase = x.t.sbase ∧ y.t.slim = x.t.slim ∧
    y.gtid = x.gtid ∧ y.deferred = x.deferred ∧ y.ev = x.ev ∧
    t.gmem = s.gmem ∧ (t.core k).mem = { (s.core k).mem with semQ := (t.core k).mem.semQ } ∧
    (∀ e ∈ (t.core k).mem.semQ, e ∈ (s.core k).mem.semQ ∧ e.1 ≠ sl) ∧ y.lace = x.lace.detach ∧ y.grant = none ∧
    (∀ j, j ≠ k → t.core j = s.core j) ∧ (∀ n, n ≠ sl → ∃ g, t.slot k n = { s.slot k n with grant := g }) ∧
    (cause = 0x0F → isLocal taddr = true → (t.core k).regs.eccstat.getLsbD 47 = true ∧
      (t.core k).regs.eccstat.extractLsb' 0 16 = BitVec.ofNat 16 (offOf taddr / 8 * 8)) ∧
    (lvlOf x ≠ 3 → t.stopped = s.stopped ∧ ∃ (q : Msg) (w : Word), (t.core k).inj = (s.core k).inj ++ [q] ∧ q.kind = .notice ∧
      q.cls = 3 ∧ q.src = 0x3FFFBF ∧ q.vf = gtidVf to_ ∧ q.launch = gtidLaunch to_ ∧ q.dst = gtidRank to_ ∧
      q.payload = [x.gtid, w, taddr, x.pc] ∧ w.extractLsb' 0 8 = cause ∧ w.extractLsb' 8 2 = lvlOf x ∧ w.getLsbD 10 = o ∧
      w.getLsbD 11 = d ∧ w.extractLsb' 12 4 = 0 ∧ w.extractLsb' 16 21 = packPos k ∧ (w.extractLsb' 37 2).toNat = sl.val ∧
      w.extractLsb' 39 25 = 0) ∧
    (lvlOf x = 3 → t.stopped = true ∧ t.regs.moderr = 1#1 ++ 0#47 ++ cause ++ 4#8 ∧
      (t.core k).inj = (s.core k).inj) ∧
    ∀ now, (y.resume now).st = .ready ∧ (y.resume now).pc = x.pc ∧ (y.resume now).r = x.r) ∧
  (∀ (k : CoreId) (sl : Fin 4) (s : State),
    let x := s.slot k sl
    (x.st = .ready ∨ x.st = .wait ∨ x.st = .sleep) → s.mayInterrupt k sl = true → s.moving k sl = false → x.deferred ≠ [] →
    ∃ d ∈ x.deferred, (∀ e ∈ x.deferred, d.cause ≤ e.cause) ∧ exec (.deferredCauseTake k sl) s =
      .next (((s.unask k sl).modSlot k sl fun y => { y with deferred := y.deferred.filter fun e => e.bit != d.bit }).takeTrap k sl d.cause
        d.taddr true d.origin d.merged)) ∧
  (∀ (k : CoreId) (sl : Fin 4) (cause : BitVec 8) (taddr : Word) (o : Bool) (s : State),
    let x := s.slot k sl
    (x.st ≠ .halting → x.st ≠ .empty →
      s.defer k sl cause taddr o = (s.noteUE k cause taddr).modSlot k sl fun y =>
        { y with deferred := addDeferredTo y.deferred ⟨cause, taddr, o, false⟩ }) ∧
    (cause ≠ 0x0F ∨ isLocal taddr = false → s.noteUE k cause taddr = s) ∧
    (x.st = .halting ∨ x.st = .empty →
      let t := s.defer k sl cause taddr o
      let r := (s.core k).regs
      let to_ : Word := if lvlOf x = 0 then (if r.supr = 0 then r.hsupr else r.supr) else if lvlOf x = 1 then r.hsupr else 0
      (∀ n, t.slot k n = s.slot k n) ∧ ∃ (q : Msg) (w : Word), (t.core k).inj = (s.core k).inj ++ [q] ∧ q.kind = .notice ∧
        q.cls = 3 ∧ q.src = 0x3FFFBF ∧ q.vf = gtidVf to_ ∧ q.launch = gtidLaunch to_ ∧ q.dst = gtidRank to_ ∧
        q.payload = [if x.st = .empty then 0 else x.gtid, w, taddr, 0] ∧ w.extractLsb' 0 8 = cause ∧
        w.extractLsb' 8 2 = lvlOf x ∧ w.getLsbD 10 = o ∧ w.getLsbD 11 = true ∧ w.extractLsb' 12 4 = 0 ∧
        w.extractLsb' 16 21 = packPos k ∧ (w.extractLsb' 37 2).toNat = sl.val ∧ w.extractLsb' 39 25 = 0)) ∧
  (∀ (l : List Deferred) (d : Deferred),
    ((∀ e ∈ l, e.bit ≠ d.bit) → addDeferredTo l d = l ++ [d]) ∧
    ((∃ e ∈ l, e.bit = d.bit) → (addDeferredTo l d).map Deferred.bit = l.map Deferred.bit ∧
      (addDeferredTo l d).map Deferred.taddr = l.map Deferred.taddr ∧ ∃ e ∈ addDeferredTo l d, e.bit = d.bit ∧ e.merged = true)) ∧
  (∀ (k : CoreId) (sl : Fin 4) (w : BitVec 16 × BitVec 128 × Word) (s : State),
    let x := s.slot k sl
    x.st = .sleep → x.ev = true → x.slept = some w → s.coreRuns k = true →
    (∀ p, s.partOf k = some p → (s.part p).ctx.stopown.getLsbD 63 = false) →
    ∃ t, exec (.eventWake k sl) s = .next t ∧ (t.slot k sl).st = .ready ∧ (t.slot k sl).ev = false ∧
      (t.slot k sl).pc = (loopEnd x.r.lc x.pc w.2.2).2 ∧ (t.slot k sl).r = { x.r with lc := (loopEnd x.r.lc x.pc w.2.2).1 } ∧
      (t.slot k sl).t = x.t ∧ t.gmem = s.gmem) ∧
  (let f := mkForm Guard.always 1 [] []
   (∀ (code : BitVec 6) (s : State), s.issues f →
     let t := ((s.took f).retireHead 1).takeTrap s.cur.core s.cur.slot 0x10 (code.setWidth 64)
     exec (.trap code) s = .next t ∧ t.me.st = .trapped ∧ t.me.t.tcause = 0x10 ∧ t.me.t.taddr = code.setWidth 64 ∧
     t.me.t.tpc = (s.retireHead 1).me.pc ∧ t.me.pc = (s.retireHead 1).me.pc) ∧
   (∀ code : BitVec 6, Traps (.bkpt code) f (fun u => u.stopAt u.cur.core u.cur.slot 0 = none) 0x11
     (fun _ => code.setWidth 64)) ∧
   (∀ (code : BitVec 6) (s : State) (e : Fin 8), s.issues f → (s.took f).stopAt s.cur.core s.cur.slot 0 = some e →
     exec (.bkpt code) s = .next ((s.took f).takeStop s.cur.core s.cur.slot 0 e)))

/-! ### What stands before every instruction (01, 05, 07, 09) -/

/-- R29, R135, R138, R157, R192, R249: before its operands are read, an instruction of each scalar form looks at its level,
its guard, its pending registers, its bad loads and its channel sources, in this order; and what the register accessors do:
g0 and p0 discard writes and read as constants, a channel write sets its presence, and consumption clears the presence of the
channels named and nothing else. -/
def Obligations.GatesAndRegisters : Prop :=
  (∀ x : Alu2, ∀ e ∈ [(Instr.add x, (1 : Fin 32)), (.sub x, 1), (.mul x, 2), (.mulh x, 2), (.div x, 3), (.rem x, 3), (.and x, 1),
      (.or x, 1), (.xor x, 1), (.andn x, 1), (.shl x, 1), (.shr x, 1), (.sar x, 1), (.rot x, 1), (.min x, 1), (.max x, 1)],
    Gated e.1 (alu2Form x e.2)) ∧
  (∀ x : Alu1, ∀ i ∈ [Instr.clz x, .ctz x, .popc x, .abs x, .neg x, .ext x], Gated i (mkForm x.q 1 [x.a] [x.d])) ∧
  (∀ x : CmpF, Gated (.cmp x) (mkForm x.q 1 (x.a :: srcOps x.b) [] [.p x.d])) ∧
  (∀ x : SelF, Gated (.sel x) (mkForm x.q 1 [x.a, x.b] [x.d] [.p x.c])) ∧
  (∀ x : MovhiF, Gated (.movhi x) (mkForm x.q 1 [] [x.d])) ∧
  (∀ x : G1, Gated (.jmpi x) (mkForm x.q 1 [x.a] [])) ∧
  (∀ x : LdF, Gated (.ld x) (ldForm x.q 5 x.a x.o [x.d]) ∧ Gated (.st x) (ldForm x.q 5 x.a x.o [] [x.d])) ∧
  (∀ x : LdsF, Gated (.lds x) (ldForm x.q 5 x.a x.o [x.d])) ∧
  (∀ x : LdgF, Gated (.ldg x) (ldForm x.q 7 x.a x.o [x.d]) ∧ Gated (.stg x) (ldForm x.q 7 x.a x.o [] [x.d])) ∧
  (∀ x : AmogF, Gated (.amog x) (mkForm x.q 7 (x.a :: x.b :: (if x.op = .cas then [x.c] else [])) [x.d])) ∧
  (∀ x : SemwaitF, Gated (.semwait x) (mkForm x.q 26 (semOps x.i) [x.d])) ∧
  (∀ x : MfsF, Gated (.mfs x) (mkForm x.q 29 (r16Ops x.sr) [x.d])) ∧
  Gated .eret (mkForm Guard.always 29 [] [] [] 1) ∧
  (∀ x : G2, Gated (.invalS1Page x) (mkForm x.q 29 [x.a, x.b] [] [] 1) ∧ Gated (.invalS1All x) (mkForm x.q 29 [x.a, x.b] [] [] 1) ∧
    Gated (.invalS2Page x) (mkForm x.q 29 [x.a, x.b] [] [] 2) ∧ Gated (.invalS2All x) (mkForm x.q 29 [x.a, x.b] [] [] 2)) ∧
  (∀ x : G1, Gated (.ctxsv x) (mkForm x.q 29 [x.a] [] [] 1) ∧ Gated (.ctxld x) (mkForm x.q 29 [x.a] [] [] 1)) ∧
  (∀ x : GrpF, Gated (.grpset x) (mkForm x.q 29 (x.a :: r16Ops x.n) [x.d] [] 1) ∧
    Gated (.rankset x) (mkForm x.q 29 (x.a :: r16Ops x.n) [x.d] [] 1)) ∧
  (∀ (r : Regs) (n : Fin 32) (v : Word),
    r.rdG 0 = 0 ∧ r.wrG 0 v = r ∧
    (n ≠ 0 → (r.wrG n v).rdG n = v ∧ ∀ m, m ≠ n → (r.wrG n v).rdG m = r.rdG m)) ∧
  (∀ (r : Regs) (n : Fin 8) (v : BitVec 16),
    r.rdP 0 = 0xFFFF ∧ r.wrP 0 v = r ∧
    (n ≠ 0 → (r.wrP n v).rdP n = v ∧ ∀ m, m ≠ n → (r.wrP n v).rdP m = r.rdP m)) ∧
  (∀ (r : Regs) (n : Fin 8) (v : Word), (r.wrC n v).c[n] = v ∧ (r.wrC n v).pres.getLsbD n.val = true ∧
    ∀ m : Fin 8, m ≠ n → (r.wrC n v).c[m] = r.c[m] ∧ (r.wrC n v).pres.getLsbD m.val = r.pres.getLsbD m.val) ∧
  (∀ (r : Regs) (l : List GOp), r.consume l = { r with pres := (r.consume l).pres } ∧
    ∀ n : Fin 8, (r.consume l).pres.getLsbD n.val = (r.pres.getLsbD n.val && !decide (GOp.c n ∈ l)))

/-- R74 to R76: the handler's heads. m0 to m7 stand where g0 to g7 do, m0 a register like the others; an instruction writes m
or a channel of the slot, waiting while the channel's word is present; after a head comes the next one, and the last one ends
the handler, takes its message off its queue and sets EV; a cause abandons it, marks the tag and defers the cause to the slot
with ORIGIN. -/
def Obligations.InlineHandlers : Prop :=
  (∀ (s : State) (h : Handler), s.cur.inline = true → (s.core s.cur.core).handler = some h →
    let k := s.cur.core
    (∀ n : Fin 8, s.rd (.g (Fin.castLE (by omega) n)) = h.m[n]) ∧
    (∀ (n : Fin 8) (v : Word), s.wr (.g (Fin.castLE (by omega) n)) v =
      s.modCore k fun c => { c with handler := some { h with m := h.m.set n v } }) ∧
    (∀ x : Alu2, let v := putTy x.t (getTy x.t (s.rd x.a) + getTy x.t (s.src x.t x.b))
      (s.chanBusy x.d = false → exec (.add x) s = .next ((s.wr x.d v).handlerNext k h)) ∧
      (s.chanBusy x.d = true → exec (.add x) s = .next s)) ∧
    (∀ x : LdF, let a := s.ea x.a x.o
      (isLocal a = false → exec (.ld x) s = .next (s.handlerFail k h 0x0A a)) ∧
      (LocalOk a (tyBytes x.t) → exec (.st x) s =
        .next ((s.sramPut k (offOf a) (tyBytes x.t) (s.rd x.d).toNat (some s.cur.slot)).handlerNext k h)))) ∧
  (∀ (s : State) (k : CoreId) (h g : Handler), (s.core k).handler = some g →
    let t := s.handlerNext k h
    (h.next + 1 < lineHC h.line → (t.core k).handler = some { g with next := g.next + 1 } ∧ (t.core k).arr = (s.core k).arr ∧
      ∀ n, t.slot k n = s.slot k n) ∧
    let arr := (s.core k).arr.set h.msg.cls ((s.core k).arr[h.msg.cls].drop 1)
    (lineHC h.line ≤ h.next + 1 → (t.core k).handler = none ∧ (t.core k).handlerDone = true ∧
      ((s.core k).settled arr → (t.core k).arr = arr) ∧ (t.slot k h.slot).ev = true ∧
      ∀ n, (t.slot k n).r = (s.slot k n).r)) ∧
  (∀ (s : State) (k : CoreId) (h : Handler) (cause : BitVec 8) (taddr : Word),
    let t := s.handlerFail k h cause taddr
    let arr := (s.core k).arr.set h.msg.cls ((s.core k).arr[h.msg.cls].drop 1)
    (t.core k).handler = none ∧ ((s.core k).settled arr → (t.core k).arr = arr) ∧
    (t.core k).mem.tags[h.tag.toFin].word.getLsbD 58 = true ∧ (t.core k).mem.sram = (s.core k).mem.sram ∧
    ((s.slot k h.slot).st ≠ .halting → (s.slot k h.slot).st ≠ .empty →
      (t.slot k h.slot).deferred = addDeferredTo (s.slot k h.slot).deferred ⟨cause, taddr, true, false⟩))

/-! ### Encoding, the step, reset and the invariant (01, 05) -/

/-- R130, R133 to R143 and the opcode table: the words of the spec's worked examples (05 to 09, 11, 13, 14, 16, 17) decode to
the instructions that they are given for. -/
def Obligations.DecodeWords : Prop :=
  let q := Guard.always
  decode 0x0845 0x0184 = .ok (.add ⟨q, .i64, .g 5, .g 4, .reg (.g 6)⟩) ∧
  decode 0x2EC4 0x004000000000 = .ok (.movi ⟨q, .i64, .g 4, .i16 0x40⟩) ∧
  decode 0x0885 0x140C0184 = .ok (.add ⟨⟨3, false⟩, .n32, .g 5, .g 4, .reg (.g 6)⟩) ∧
  decode 0x4F06 0x0000000500400000 = .ok (.loop 1 (.g 6) 5) ∧
  decode 0xB684 0x04083081 = .ok (.vfma ⟨⟨2, false⟩, .fp .f32 .rtz, 4, 1, 2, 3⟩) ∧
  decode 0xC6C5 0x050A00000081 = .ok (.vcvt ⟨q, .f16, .f32, .rtz, 5, 1, .v 2⟩) ∧
  decode 0x72C5 0x0008A0000006 = .ok (.ldg ⟨q, .i64, some .dev, .g 5, .g 6, .imm (.i16 8)⟩) ∧
  decode 0x80C7 0x004C04000004 = .ok (.send ⟨q, .rsp, .g 7, .g 4, .g 0, .g 0, some 0x4C⟩) ∧
  decode 0xA4CD 0x000400000000 = .ok (.tideq ⟨q, 0, .g 13, .imm 4⟩) ∧
  decode 0x9340 0x01010000000000000400D040 =
    .ok (.copy ⟨q, true, 0, 1, .g 13, .g 0, some (⟨1, 1, 0, 0⟩, none)⟩) ∧
  decode 0xF0C1 0x000F3C000000 = .ok (.mcfg ⟨q, .pb4, 1, 0xF⟩) ∧
  decode 0xFCC0 0x800000400006 = .ok (.mts ⟨q, .imm 0x8000, .g 6⟩) ∧
  decode 0xFCC0 0x00000080034C = .ok (.invalS1Page ⟨q, .g 12, .g 13⟩) ∧
  decode 0x5400 0 = .ok .eret ∧ decode 0x0200 0 = .ok .halt ∧
  decode 0xFE00 0 = .error .illegalOp ∧ decode 0x0884 0x00200000 = .error .illegalForm

/-- Decoding gives a well-formed encoded instruction, and decoding what `encode` makes of one gives it back, with every
operand at every value that R137 to R143 admit. -/
def Obligations.RoundTrip : Prop :=
  (∀ (i : Instr) (h : BitVec 16) (t : BitVec 128), i.wf = true → encode i = some (h, t) → decode h t = .ok i) ∧
  (∀ (h : BitVec 16) (t : BitVec 128) (i : Instr), decode h t = .ok i → i.wf = true ∧ i.encoded = true)

/-- R18, R68, R74, R75, R131, R132, R138, R278, R381, R385, R389: an issue turn of a core, in which no handler runs and the oldest-ready
slot is SOLO, not moving, with nothing deferred and no request or stop for it, runs `exec` of the instruction that its line
holds at its program counter, over the state in which the turn's counts and wakes have been made (an issue turn is counted in
code 1 for its slot); a head that does not decode
raises ILLEGAL_OP or ILLEGAL_FORM with the head in TADDR, and one that cannot be fetched CODE_FRAME or ILLEGAL_LINE. Where
the partition's order log records or replays, the access that the instruction makes is noted with it. A turn in which a
handler runs gives `exec` the head that the handler has next, or fails it where the form is not one of R75. -/
def Obligations.StepRunsDecoded : Prop :=
  (∀ (s : State) (k : CoreId) (rest : List Choice) (n : Fin 4), s.agenda = .issue k :: rest →
    let s1 : State := { s with now := s.now + 2, agenda := rest }
    let u := (((s1.countWaits k).countStall k).wakeSlots k).inlineDue k
    let v := u.modCore k fun c => { c with handlerDone := false }
    let x := v.slot k n
    s1.coreRuns k = true → (u.core k).handler = none → (u.core k).oldest = some n →
    x.lace.code = .solo → v.moving k n = false → x.deferred = [] → (v.core k).regs.migt[n].getLsbD 63 = false →
    v.boundaryStop k n false = none →
    (v.logMode k = 0 → ∀ c a, fetchAt (v.core k) x.pc = .error (c, a) → step s = .next (v.takeTrap k n c a)) ∧
    ∀ f, fetchAt (v.core k) x.pc = .ok f → v.boundaryStop k n (isHalt f.head) = none →
      let w : State := { (v.count k 1 (some n)).modCore k (fun c => c.unpark n) with cur := ⟨k, n, false, f.head, f.tail, f.next⟩ }
      (∀ i t t', decode f.head f.tail = .ok i → exec i w = .next t →
        v.noteAccess t k n n.val (v.turned t k n) = .ok t' → step s = .next t') ∧
      (v.logMode k = 0 → ∀ i, decode f.head f.tail = .ok i → step s = exec i w) ∧
      (v.logMode k = 0 → decode f.head f.tail = .error .illegalOp → step s = .next (w.takeTrap k n 0x02 (f.head.setWidth 64))) ∧
      (v.logMode k = 0 → decode f.head f.tail = .error .illegalForm → step s = .next (w.takeTrap k n 0x03 (f.head.setWidth 64)))) ∧
  (∀ (s : State) (k : CoreId) (rest : List Choice) (h : Handler), s.agenda = .issue k :: rest →
    let s1 : State := { s with now := s.now + 2, agenda := rest }
    let u := (((s1.countWaits k).countStall k).wakeSlots k).inlineDue k
    let w : State := { u.count k 1 (some h.slot) with cur := ⟨k, h.slot, true, lineHead h.line h.next, lineTail (64 * h.cl) h.line h.next, 0⟩ }
    s1.coreRuns k = true → (u.core k).handler = some h → u.logMode k = 0 → h.next < lineHC h.line → lineHC h.line ≤ 4 →
    lineLegal (64 * h.cl) h.line = true →
    ∀ i, decode w.cur.head w.cur.tail = .ok i →
      (handlerForm i = none → step s = .next (w.handlerFail k h 0x02 (w.cur.head.setWidth 64))) ∧
      (handlerForm i = some false → step s = .next (w.handlerFail k h 0x03 (w.cur.head.setWidth 64))) ∧
      (handlerForm i = some true → ∀ t, exec i w = .next t → (t.core k).handler.map Handler.next ≠ some h.next →
        step s = .next t)) ∧
  (∀ (c : Core) (pc : Word),
    (c.mem.lineAt pc = none → fetchAt c pc = .error (0x0C, cpLine pc)) ∧
    ∀ l, c.mem.lineAt pc = some l →
      let bad := pc.toNat / 2 ^ 60 ≠ 0 ∨ pc.getLsbD 5 = true ∨ pc.toNat % 32 = 31 ∨ lineLegal 512 l = false ∨
        lineHC l ≤ pc.toNat % 32
      (bad → fetchAt c pc = .error (0x01, pc)) ∧
      (¬ bad → ∃ f, fetchAt c pc = .ok f ∧ f.head = lineHead l (pc.toNat % 32) ∧ f.tail = lineTail 512 l (pc.toNat % 32) ∧
        f.next = if pc.toNat % 32 + 1 < lineHC l then pc + 1 else cpLine pc + 64)) ∧
  (∀ c : Core, (c.oldest = none ↔ ∀ n, (c.slot n).st ≠ .ready) ∧
    ∀ n, c.oldest = some n → (c.slot n).st = .ready ∧ ∀ m, (c.slot m).st = .ready → (c.slot n).readyAt ≤ (c.slot m).readyAt ∧
      ((c.slot m).readyAt = (c.slot n).readyAt → n ≤ m))

/-- R20, R28, R62, R329, R351, R374, R378, R380, R395 and the reset columns of 13 to 19: what reset leaves: slots EMPTY with
zero registers, memories of zeros, no partition, rails at 400 mV; and the memory invariant holds there. (That every unlisted
register is 0 at reset is the model's choice where the spec gives no value, log entries 2 and 3.) -/
def Obligations.ResetState : Prop :=
  let s := State.reset
  (∀ k n, let x := s.slot k n
    x.st = .empty ∧ (∀ i : Fin 32, x.r.g[i] = 0) ∧ (∀ i : Fin 8, x.r.c[i] = 0) ∧ x.r.pres = 0 ∧ (∀ i : Fin 8, x.r.p[i] = 0) ∧
    (∀ i : Fin 16, x.r.v[i] = 0 ∧ x.r.hdr[i] = 0) ∧ (∀ i : Fin 2, x.r.lc[i].value = 0 ∧ x.r.lc[i].count = 0) ∧
    x.r.flags = 0 ∧ x.t.tst = 0 ∧ x.lace.code = .solo ∧ x.watch.armed = false) ∧
  (∀ k, (∀ a, (s.core k).mem.sram.get a = 0) ∧ (s.core k).mem.full = 0 ∧ (s.core k).mem.sf = 0 ∧
    (∀ i : Fin 256, (s.core k).mem.sem[i] = 0) ∧ (∀ i : Fin 64, (s.core k).mem.tags[i].word = 0) ∧
    (∀ i : Fin 8, (s.core k).mem.shapes[i] = 0) ∧ (∀ i : Fin 16, (s.core k).mem.frames[i].tag = none) ∧
    (∀ i : Fin 4, ((s.unit k).tiles[i]).owner = none ∧ (s.core k).berths[i].st = .closed) ∧ (s.unit k).scanOwner = none ∧
    (s.core k).regs.wdog = 0 ∧ s.partOf k = none) ∧
  (∀ p, (s.part p).valid = false ∧ qIdle (s.part p).qcur = true) ∧
  (∀ f, (s.field f).partdef = 0 ∧ ∀ b : Fin 4, ((s.field f).rails[b]).setpt = 400 ∧ ((s.field f).rails[b]).target = 400) ∧
  (∀ a, s.gmem.get a = 0) ∧ s.regs.evver = 1 ∧ s.regs.udp = 21320 ∧ s.started = false ∧ s.stopped = false ∧ s.MemInv

/-- Memory keeps its canonical form: wherever module memory, every core's SRAM and the SRAM of every saved context rise
strictly by address and list no zero byte, they do so after any step. R5, R14, R19: what a store to SRAM leaves: the n bytes
from its offset hold the value, least significant first, every other byte is as before, and the canonical form of memory is
kept; a read gives the bytes back. -/
def Obligations.StepKeepsMemory : Prop :=
  ((∀ s t : State, s.MemInv → step s = .next t → t.MemInv) ∧
   (∀ (m : Memory) (a : Nat) (b : Byte), m.wf = true → (m.put a b).wf = true ∧ (m.put a b).get a = b ∧
     ∀ x, x ≠ a → (m.put a b).get x = m.get x) ∧
   (∀ m n : Memory, m.wf = true → n.wf = true → (∀ a, m.get a = n.get a) → m = n)) ∧
  (∀ (m : Memory) (o n v : Nat), m.wf = true →
     (m.writeLE o n v).wf = true ∧
     (∀ a, a < o ∨ o + n ≤ a → (m.writeLE o n v).get a = m.get a) ∧
     (∀ i < n, (m.writeLE o n v).get (o + i) = BitVec.ofNat 8 (v / 256 ^ i)) ∧
     (m.writeLE o n v).readLE o n = v % 256 ^ n)
end

