-- ==== Sys2Proof/Laws/State.lean ====
section
/-! SUPPORT. Reads after writes of the state: of the sparse maps, of cores and slots, and each field of `State` under each
update. -/

namespace Sys2Proof.Machine

/-! ### Sparse maps -/

@[simp] theorem mget_mset_self {α : Type} (l : List (Nat × α)) (k : Nat) (v : α) : mget (mset l k v) k = some v := by
  induction l with
  | nil => simp [mset, mget]
  | cons e l ih =>
    obtain ⟨j, w⟩ := e
    by_cases h : k = j
    · simp [mset, mget, h]
    · by_cases h' : k < j
      · simp [mset, mget, h, h']
      · simp [mset, mget, h, h', ih]

@[simp] theorem mget_mset_ne {α : Type} (l : List (Nat × α)) (k j : Nat) (v : α) (h : j ≠ k) :
    mget (mset l k v) j = mget l j := by
  induction l with
  | nil => simp [mset, mget, h]
  | cons e l ih =>
    obtain ⟨i, w⟩ := e
    by_cases hk : k = i
    · subst hk; simp [mset, mget, h]
    · by_cases h' : k < i
      · simp [mset, mget, hk, h', h]
      · by_cases hj : j = i
        · simp [mset, mget, hk, h', hj]
        · simp [mset, mget, hk, h', hj, ih]

/-! ### Cores and slots -/

@[simp] theorem State.core_setCore (s : State) (k : CoreId) (c : Core) : (s.setCore k c).core k = c := by
  simp [State.core, State.setCore]
@[simp] theorem State.core_setCore_ne (s : State) (k j : CoreId) (c : Core) (h : j ≠ k) : (s.setCore k c).core j = s.core j := by
  simp [State.core, State.setCore, h]
@[simp] theorem State.core_modCore (s : State) (k : CoreId) (g : Core → Core) : (s.modCore k g).core k = g (s.core k) := by
  simp [State.modCore]
@[simp] theorem State.core_modCore_ne (s : State) (k j : CoreId) (g : Core → Core) (h : j ≠ k) :
    (s.modCore k g).core j = s.core j := by
  simp [State.modCore, h]

@[simp] theorem Core.slot_setSlot (c : Core) (n : Fin 4) (x : Slot) : (c.setSlot n x).slot n = x := by
  simp [Core.slot, Core.setSlot]
@[simp] theorem Core.slot_setSlot_ne (c : Core) (n m : Fin 4) (x : Slot) (h : m ≠ n) : (c.setSlot n x).slot m = c.slot m := by
  have : n.val ≠ m.val := fun e => h (Fin.ext e.symm)
  simp [Core.slot, Core.setSlot, this]
@[simp] theorem State.slot_modSlot (s : State) (k : CoreId) (n : Fin 4) (g : Slot → Slot) :
    (s.modSlot k n g).slot k n = g (s.slot k n) := by
  simp [State.modSlot, State.slot]
theorem State.slot_modSlot_ne (s : State) (k j : CoreId) (n m : Fin 4) (g : Slot → Slot) (h : ¬(j = k ∧ m = n)) :
    (s.modSlot k n g).slot j m = s.slot j m := by
  simp only [State.slot, State.modSlot]
  by_cases hj : j = k
  · subst hj
    simp [show m ≠ n from fun e => h ⟨rfl, e⟩]
  · simp [hj]
@[simp] theorem State.me_modMe (s : State) (g : Slot → Slot) : (s.modMe g).me = g s.me := by
  show (s.modSlot _ _ g).slot _ _ = _
  exact State.slot_modSlot _ _ _ _

@[simp] theorem State.field_modField (s : State) (f : Nat) (g : Field → Field) : (s.modField f g).field f = g (s.field f) := by
  simp [State.field, State.modField]
@[simp] theorem State.field_modField_ne (s : State) (f j : Nat) (g : Field → Field) (h : j ≠ f) :
    (s.modField f g).field j = s.field j := by
  simp [State.field, State.modField, h]
@[simp] theorem State.part_modPart (s : State) (p : Nat) (g : Partition → Partition) :
    (s.modPart p g).part p = g (s.part p) := by
  simp [State.part, State.modPart]
@[simp] theorem State.part_modPart_ne (s : State) (p j : Nat) (g : Partition → Partition) (h : j ≠ p) :
    (s.modPart p g).part j = s.part j := by
  simp [State.part, State.modPart, h]
@[simp] theorem State.quay_modQuay (s : State) (q : Nat) (g : Quay → Quay) : (s.modQuay q g).quay q = g (s.quay q) := by
  simp [State.quay, State.modQuay]
@[simp] theorem State.quay_modQuay_ne (s : State) (q j : Nat) (g : Quay → Quay) (h : j ≠ q) :
    (s.modQuay q g).quay j = s.quay j := by
  simp [State.quay, State.modQuay, h]
@[simp] theorem State.vf_modVf (s : State) (v : Nat) (g : VfSt → VfSt) : (s.modVf v g).vf v = g (s.vf v) := by
  simp [State.vf, State.modVf]

/-! ### `State.setCore` leaves the other fields -/

@[simp] theorem State.setCore_fields (s : State) (k : CoreId) (c : Core) : (s.setCore k c).fields = s.fields := rfl
@[simp] theorem State.setCore_parts (s : State) (k : CoreId) (c : Core) : (s.setCore k c).parts = s.parts := rfl
@[simp] theorem State.setCore_vfs (s : State) (k : CoreId) (c : Core) : (s.setCore k c).vfs = s.vfs := rfl
@[simp] theorem State.setCore_quays (s : State) (k : CoreId) (c : Core) : (s.setCore k c).quays = s.quays := rfl
@[simp] theorem State.setCore_sensors (s : State) (k : CoreId) (c : Core) : (s.setCore k c).sensors = s.sensors := rfl
@[simp] theorem State.setCore_regs (s : State) (k : CoreId) (c : Core) : (s.setCore k c).regs = s.regs := rfl
@[simp] theorem State.setCore_gmem (s : State) (k : CoreId) (c : Core) : (s.setCore k c).gmem = s.gmem := rfl
@[simp] theorem State.setCore_watches (s : State) (k : CoreId) (c : Core) : (s.setCore k c).watches = s.watches := rfl
@[simp] theorem State.setCore_cntwaits (s : State) (k : CoreId) (c : Core) : (s.setCore k c).cntwaits = s.cntwaits := rfl
@[simp] theorem State.setCore_deps (s : State) (k : CoreId) (c : Core) : (s.setCore k c).deps = s.deps := rfl
@[simp] theorem State.setCore_mesh (s : State) (k : CoreId) (c : Core) : (s.setCore k c).mesh = s.mesh := rfl
@[simp] theorem State.setCore_links (s : State) (k : CoreId) (c : Core) : (s.setCore k c).links = s.links := rfl
@[simp] theorem State.setCore_laces (s : State) (k : CoreId) (c : Core) : (s.setCore k c).laces = s.laces := rfl
@[simp] theorem State.setCore_drops (s : State) (k : CoreId) (c : Core) : (s.setCore k c).drops = s.drops := rfl
@[simp] theorem State.setCore_sys (s : State) (k : CoreId) (c : Core) : (s.setCore k c).sys = s.sys := rfl
@[simp] theorem State.setCore_adds (s : State) (k : CoreId) (c : Core) : (s.setCore k c).adds = s.adds := rfl
@[simp] theorem State.setCore_records (s : State) (k : CoreId) (c : Core) : (s.setCore k c).records = s.records := rfl
@[simp] theorem State.setCore_started (s : State) (k : CoreId) (c : Core) : (s.setCore k c).started = s.started := rfl
@[simp] theorem State.setCore_stopped (s : State) (k : CoreId) (c : Core) : (s.setCore k c).stopped = s.stopped := rfl
@[simp] theorem State.setCore_quotes (s : State) (k : CoreId) (c : Core) : (s.setCore k c).quotes = s.quotes := rfl
@[simp] theorem State.setCore_answers (s : State) (k : CoreId) (c : Core) : (s.setCore k c).answers = s.answers := rfl
@[simp] theorem State.setCore_fw (s : State) (k : CoreId) (c : Core) : (s.setCore k c).fw = s.fw := rfl
@[simp] theorem State.setCore_samples (s : State) (k : CoreId) (c : Core) : (s.setCore k c).samples = s.samples := rfl
@[simp] theorem State.setCore_cur (s : State) (k : CoreId) (c : Core) : (s.setCore k c).cur = s.cur := rfl
@[simp] theorem State.setCore_agenda (s : State) (k : CoreId) (c : Core) : (s.setCore k c).agenda = s.agenda := rfl
@[simp] theorem State.setCore_now (s : State) (k : CoreId) (c : Core) : (s.setCore k c).now = s.now := rfl
@[simp] theorem State.setCore_free (s : State) (k : CoreId) (c : Core) : (s.setCore k c).free = s.free := rfl

/-! ### `State.modCore` leaves the other fields -/

@[simp] theorem State.modCore_fields (s : State) (k : CoreId) (g : Core → Core) : (s.modCore k g).fields = s.fields := rfl
@[simp] theorem State.modCore_parts (s : State) (k : CoreId) (g : Core → Core) : (s.modCore k g).parts = s.parts := rfl
@[simp] theorem State.modCore_vfs (s : State) (k : CoreId) (g : Core → Core) : (s.modCore k g).vfs = s.vfs := rfl
@[simp] theorem State.modCore_quays (s : State) (k : CoreId) (g : Core → Core) : (s.modCore k g).quays = s.quays := rfl
@[simp] theorem State.modCore_sensors (s : State) (k : CoreId) (g : Core → Core) : (s.modCore k g).sensors = s.sensors := rfl
@[simp] theorem State.modCore_regs (s : State) (k : CoreId) (g : Core → Core) : (s.modCore k g).regs = s.regs := rfl
@[simp] theorem State.modCore_gmem (s : State) (k : CoreId) (g : Core → Core) : (s.modCore k g).gmem = s.gmem := rfl
@[simp] theorem State.modCore_watches (s : State) (k : CoreId) (g : Core → Core) : (s.modCore k g).watches = s.watches := rfl
@[simp] theorem State.modCore_cntwaits (s : State) (k : CoreId) (g : Core → Core) : (s.modCore k g).cntwaits = s.cntwaits := rfl
@[simp] theorem State.modCore_deps (s : State) (k : CoreId) (g : Core → Core) : (s.modCore k g).deps = s.deps := rfl
@[simp] theorem State.modCore_mesh (s : State) (k : CoreId) (g : Core → Core) : (s.modCore k g).mesh = s.mesh := rfl
@[simp] theorem State.modCore_links (s : State) (k : CoreId) (g : Core → Core) : (s.modCore k g).links = s.links := rfl
@[simp] theorem State.modCore_laces (s : State) (k : CoreId) (g : Core → Core) : (s.modCore k g).laces = s.laces := rfl
@[simp] theorem State.modCore_drops (s : State) (k : CoreId) (g : Core → Core) : (s.modCore k g).drops = s.drops := rfl
@[simp] theorem State.modCore_sys (s : State) (k : CoreId) (g : Core → Core) : (s.modCore k g).sys = s.sys := rfl
@[simp] theorem State.modCore_adds (s : State) (k : CoreId) (g : Core → Core) : (s.modCore k g).adds = s.adds := rfl
@[simp] theorem State.modCore_records (s : State) (k : CoreId) (g : Core → Core) : (s.modCore k g).records = s.records := rfl
@[simp] theorem State.modCore_started (s : State) (k : CoreId) (g : Core → Core) : (s.modCore k g).started = s.started := rfl
@[simp] theorem State.modCore_stopped (s : State) (k : CoreId) (g : Core → Core) : (s.modCore k g).stopped = s.stopped := rfl
@[simp] theorem State.modCore_quotes (s : State) (k : CoreId) (g : Core → Core) : (s.modCore k g).quotes = s.quotes := rfl
@[simp] theorem State.modCore_answers (s : State) (k : CoreId) (g : Core → Core) : (s.modCore k g).answers = s.answers := rfl
@[simp] theorem State.modCore_fw (s : State) (k : CoreId) (g : Core → Core) : (s.modCore k g).fw = s.fw := rfl
@[simp] theorem State.modCore_samples (s : State) (k : CoreId) (g : Core → Core) : (s.modCore k g).samples = s.samples := rfl
@[simp] theorem State.modCore_cur (s : State) (k : CoreId) (g : Core → Core) : (s.modCore k g).cur = s.cur := rfl
@[simp] theorem State.modCore_agenda (s : State) (k : CoreId) (g : Core → Core) : (s.modCore k g).agenda = s.agenda := rfl
@[simp] theorem State.modCore_now (s : State) (k : CoreId) (g : Core → Core) : (s.modCore k g).now = s.now := rfl
@[simp] theorem State.modCore_free (s : State) (k : CoreId) (g : Core → Core) : (s.modCore k g).free = s.free := rfl

/-! ### `State.modSlot` leaves the other fields -/

@[simp] theorem State.modSlot_fields (s : State) (k : CoreId) (n : Fin 4) (g : Slot → Slot) : (s.modSlot k n g).fields = s.fields := rfl
@[simp] theorem State.modSlot_parts (s : State) (k : CoreId) (n : Fin 4) (g : Slot → Slot) : (s.modSlot k n g).parts = s.parts := rfl
@[simp] theorem State.modSlot_vfs (s : State) (k : CoreId) (n : Fin 4) (g : Slot → Slot) : (s.modSlot k n g).vfs = s.vfs := rfl
@[simp] theorem State.modSlot_quays (s : State) (k : CoreId) (n : Fin 4) (g : Slot → Slot) : (s.modSlot k n g).quays = s.quays := rfl
@[simp] theorem State.modSlot_sensors (s : State) (k : CoreId) (n : Fin 4) (g : Slot → Slot) : (s.modSlot k n g).sensors = s.sensors := rfl
@[simp] theorem State.modSlot_regs (s : State) (k : CoreId) (n : Fin 4) (g : Slot → Slot) : (s.modSlot k n g).regs = s.regs := rfl
@[simp] theorem State.modSlot_gmem (s : State) (k : CoreId) (n : Fin 4) (g : Slot → Slot) : (s.modSlot k n g).gmem = s.gmem := rfl
@[simp] theorem State.modSlot_watches (s : State) (k : CoreId) (n : Fin 4) (g : Slot → Slot) : (s.modSlot k n g).watches = s.watches := rfl
@[simp] theorem State.modSlot_cntwaits (s : State) (k : CoreId) (n : Fin 4) (g : Slot → Slot) : (s.modSlot k n g).cntwaits = s.cntwaits := rfl
@[simp] theorem State.modSlot_deps (s : State) (k : CoreId) (n : Fin 4) (g : Slot → Slot) : (s.modSlot k n g).deps = s.deps := rfl
@[simp] theorem State.modSlot_mesh (s : State) (k : CoreId) (n : Fin 4) (g : Slot → Slot) : (s.modSlot k n g).mesh = s.mesh := rfl
@[simp] theorem State.modSlot_links (s : State) (k : CoreId) (n : Fin 4) (g : Slot → Slot) : (s.modSlot k n g).links = s.links := rfl
@[simp] theorem State.modSlot_laces (s : State) (k : CoreId) (n : Fin 4) (g : Slot → Slot) : (s.modSlot k n g).laces = s.laces := rfl
@[simp] theorem State.modSlot_drops (s : State) (k : CoreId) (n : Fin 4) (g : Slot → Slot) : (s.modSlot k n g).drops = s.drops := rfl
@[simp] theorem State.modSlot_sys (s : State) (k : CoreId) (n : Fin 4) (g : Slot → Slot) : (s.modSlot k n g).sys = s.sys := rfl
@[simp] theorem State.modSlot_adds (s : State) (k : CoreId) (n : Fin 4) (g : Slot → Slot) : (s.modSlot k n g).adds = s.adds := rfl
@[simp] theorem State.modSlot_records (s : State) (k : CoreId) (n : Fin 4) (g : Slot → Slot) : (s.modSlot k n g).records = s.records := rfl
@[simp] theorem State.modSlot_started (s : State) (k : CoreId) (n : Fin 4) (g : Slot → Slot) : (s.modSlot k n g).started = s.started := rfl
@[simp] theorem State.modSlot_stopped (s : State) (k : CoreId) (n : Fin 4) (g : Slot → Slot) : (s.modSlot k n g).stopped = s.stopped := rfl
@[simp] theorem State.modSlot_quotes (s : State) (k : CoreId) (n : Fin 4) (g : Slot → Slot) : (s.modSlot k n g).quotes = s.quotes := rfl
@[simp] theorem State.modSlot_answers (s : State) (k : CoreId) (n : Fin 4) (g : Slot → Slot) : (s.modSlot k n g).answers = s.answers := rfl
@[simp] theorem State.modSlot_fw (s : State) (k : CoreId) (n : Fin 4) (g : Slot → Slot) : (s.modSlot k n g).fw = s.fw := rfl
@[simp] theorem State.modSlot_samples (s : State) (k : CoreId) (n : Fin 4) (g : Slot → Slot) : (s.modSlot k n g).samples = s.samples := rfl
@[simp] theorem State.modSlot_cur (s : State) (k : CoreId) (n : Fin 4) (g : Slot → Slot) : (s.modSlot k n g).cur = s.cur := rfl
@[simp] theorem State.modSlot_agenda (s : State) (k : CoreId) (n : Fin 4) (g : Slot → Slot) : (s.modSlot k n g).agenda = s.agenda := rfl
@[simp] theorem State.modSlot_now (s : State) (k : CoreId) (n : Fin 4) (g : Slot → Slot) : (s.modSlot k n g).now = s.now := rfl
@[simp] theorem State.modSlot_free (s : State) (k : CoreId) (n : Fin 4) (g : Slot → Slot) : (s.modSlot k n g).free = s.free := rfl

/-! ### `State.modMe` leaves the other fields -/

@[simp] theorem State.modMe_fields (s : State) (g : Slot → Slot) : (s.modMe g).fields = s.fields := rfl
@[simp] theorem State.modMe_parts (s : State) (g : Slot → Slot) : (s.modMe g).parts = s.parts := rfl
@[simp] theorem State.modMe_vfs (s : State) (g : Slot → Slot) : (s.modMe g).vfs = s.vfs := rfl
@[simp] theorem State.modMe_quays (s : State) (g : Slot → Slot) : (s.modMe g).quays = s.quays := rfl
@[simp] theorem State.modMe_sensors (s : State) (g : Slot → Slot) : (s.modMe g).sensors = s.sensors := rfl
@[simp] theorem State.modMe_regs (s : State) (g : Slot → Slot) : (s.modMe g).regs = s.regs := rfl
@[simp] theorem State.modMe_gmem (s : State) (g : Slot → Slot) : (s.modMe g).gmem = s.gmem := rfl
@[simp] theorem State.modMe_watches (s : State) (g : Slot → Slot) : (s.modMe g).watches = s.watches := rfl
@[simp] theorem State.modMe_cntwaits (s : State) (g : Slot → Slot) : (s.modMe g).cntwaits = s.cntwaits := rfl
@[simp] theorem State.modMe_deps (s : State) (g : Slot → Slot) : (s.modMe g).deps = s.deps := rfl
@[simp] theorem State.modMe_mesh (s : State) (g : Slot → Slot) : (s.modMe g).mesh = s.mesh := rfl
@[simp] theorem State.modMe_links (s : State) (g : Slot → Slot) : (s.modMe g).links = s.links := rfl
@[simp] theorem State.modMe_laces (s : State) (g : Slot → Slot) : (s.modMe g).laces = s.laces := rfl
@[simp] theorem State.modMe_drops (s : State) (g : Slot → Slot) : (s.modMe g).drops = s.drops := rfl
@[simp] theorem State.modMe_sys (s : State) (g : Slot → Slot) : (s.modMe g).sys = s.sys := rfl
@[simp] theorem State.modMe_adds (s : State) (g : Slot → Slot) : (s.modMe g).adds = s.adds := rfl
@[simp] theorem State.modMe_records (s : State) (g : Slot → Slot) : (s.modMe g).records = s.records := rfl
@[simp] theorem State.modMe_started (s : State) (g : Slot → Slot) : (s.modMe g).started = s.started := rfl
@[simp] theorem State.modMe_stopped (s : State) (g : Slot → Slot) : (s.modMe g).stopped = s.stopped := rfl
@[simp] theorem State.modMe_quotes (s : State) (g : Slot → Slot) : (s.modMe g).quotes = s.quotes := rfl
@[simp] theorem State.modMe_answers (s : State) (g : Slot → Slot) : (s.modMe g).answers = s.answers := rfl
@[simp] theorem State.modMe_fw (s : State) (g : Slot → Slot) : (s.modMe g).fw = s.fw := rfl
@[simp] theorem State.modMe_samples (s : State) (g : Slot → Slot) : (s.modMe g).samples = s.samples := rfl
@[simp] theorem State.modMe_cur (s : State) (g : Slot → Slot) : (s.modMe g).cur = s.cur := rfl
@[simp] theorem State.modMe_agenda (s : State) (g : Slot → Slot) : (s.modMe g).agenda = s.agenda := rfl
@[simp] theorem State.modMe_now (s : State) (g : Slot → Slot) : (s.modMe g).now = s.now := rfl
@[simp] theorem State.modMe_free (s : State) (g : Slot → Slot) : (s.modMe g).free = s.free := rfl

/-! ### `State.modRegs` leaves the other fields -/

@[simp] theorem State.modRegs_fields (s : State) (k : CoreId) (n : Fin 4) (g : Regs → Regs) : (s.modRegs k n g).fields = s.fields := rfl
@[simp] theorem State.modRegs_parts (s : State) (k : CoreId) (n : Fin 4) (g : Regs → Regs) : (s.modRegs k n g).parts = s.parts := rfl
@[simp] theorem State.modRegs_vfs (s : State) (k : CoreId) (n : Fin 4) (g : Regs → Regs) : (s.modRegs k n g).vfs = s.vfs := rfl
@[simp] theorem State.modRegs_quays (s : State) (k : CoreId) (n : Fin 4) (g : Regs → Regs) : (s.modRegs k n g).quays = s.quays := rfl
@[simp] theorem State.modRegs_sensors (s : State) (k : CoreId) (n : Fin 4) (g : Regs → Regs) : (s.modRegs k n g).sensors = s.sensors := rfl
@[simp] theorem State.modRegs_regs (s : State) (k : CoreId) (n : Fin 4) (g : Regs → Regs) : (s.modRegs k n g).regs = s.regs := rfl
@[simp] theorem State.modRegs_gmem (s : State) (k : CoreId) (n : Fin 4) (g : Regs → Regs) : (s.modRegs k n g).gmem = s.gmem := rfl
@[simp] theorem State.modRegs_watches (s : State) (k : CoreId) (n : Fin 4) (g : Regs → Regs) : (s.modRegs k n g).watches = s.watches := rfl
@[simp] theorem State.modRegs_cntwaits (s : State) (k : CoreId) (n : Fin 4) (g : Regs → Regs) : (s.modRegs k n g).cntwaits = s.cntwaits := rfl
@[simp] theorem State.modRegs_deps (s : State) (k : CoreId) (n : Fin 4) (g : Regs → Regs) : (s.modRegs k n g).deps = s.deps := rfl
@[simp] theorem State.modRegs_mesh (s : State) (k : CoreId) (n : Fin 4) (g : Regs → Regs) : (s.modRegs k n g).mesh = s.mesh := rfl
@[simp] theorem State.modRegs_links (s : State) (k : CoreId) (n : Fin 4) (g : Regs → Regs) : (s.modRegs k n g).links = s.links := rfl
@[simp] theorem State.modRegs_laces (s : State) (k : CoreId) (n : Fin 4) (g : Regs → Regs) : (s.modRegs k n g).laces = s.laces := rfl
@[simp] theorem State.modRegs_drops (s : State) (k : CoreId) (n : Fin 4) (g : Regs → Regs) : (s.modRegs k n g).drops = s.drops := rfl
@[simp] theorem State.modRegs_sys (s : State) (k : CoreId) (n : Fin 4) (g : Regs → Regs) : (s.modRegs k n g).sys = s.sys := rfl
@[simp] theorem State.modRegs_adds (s : State) (k : CoreId) (n : Fin 4) (g : Regs → Regs) : (s.modRegs k n g).adds = s.adds := rfl
@[simp] theorem State.modRegs_records (s : State) (k : CoreId) (n : Fin 4) (g : Regs → Regs) : (s.modRegs k n g).records = s.records := rfl
@[simp] theorem State.modRegs_started (s : State) (k : CoreId) (n : Fin 4) (g : Regs → Regs) : (s.modRegs k n g).started = s.started := rfl
@[simp] theorem State.modRegs_stopped (s : State) (k : CoreId) (n : Fin 4) (g : Regs → Regs) : (s.modRegs k n g).stopped = s.stopped := rfl
@[simp] theorem State.modRegs_quotes (s : State) (k : CoreId) (n : Fin 4) (g : Regs → Regs) : (s.modRegs k n g).quotes = s.quotes := rfl
@[simp] theorem State.modRegs_answers (s : State) (k : CoreId) (n : Fin 4) (g : Regs → Regs) : (s.modRegs k n g).answers = s.answers := rfl
@[simp] theorem State.modRegs_fw (s : State) (k : CoreId) (n : Fin 4) (g : Regs → Regs) : (s.modRegs k n g).fw = s.fw := rfl
@[simp] theorem State.modRegs_samples (s : State) (k : CoreId) (n : Fin 4) (g : Regs → Regs) : (s.modRegs k n g).samples = s.samples := rfl
@[simp] theorem State.modRegs_cur (s : State) (k : CoreId) (n : Fin 4) (g : Regs → Regs) : (s.modRegs k n g).cur = s.cur := rfl
@[simp] theorem State.modRegs_agenda (s : State) (k : CoreId) (n : Fin 4) (g : Regs → Regs) : (s.modRegs k n g).agenda = s.agenda := rfl
@[simp] theorem State.modRegs_now (s : State) (k : CoreId) (n : Fin 4) (g : Regs → Regs) : (s.modRegs k n g).now = s.now := rfl
@[simp] theorem State.modRegs_free (s : State) (k : CoreId) (n : Fin 4) (g : Regs → Regs) : (s.modRegs k n g).free = s.free := rfl

/-! ### `State.modTrap` leaves the other fields -/

@[simp] theorem State.modTrap_fields (s : State) (k : CoreId) (n : Fin 4) (g : TrapRegs → TrapRegs) : (s.modTrap k n g).fields = s.fields := rfl
@[simp] theorem State.modTrap_parts (s : State) (k : CoreId) (n : Fin 4) (g : TrapRegs → TrapRegs) : (s.modTrap k n g).parts = s.parts := rfl
@[simp] theorem State.modTrap_vfs (s : State) (k : CoreId) (n : Fin 4) (g : TrapRegs → TrapRegs) : (s.modTrap k n g).vfs = s.vfs := rfl
@[simp] theorem State.modTrap_quays (s : State) (k : CoreId) (n : Fin 4) (g : TrapRegs → TrapRegs) : (s.modTrap k n g).quays = s.quays := rfl
@[simp] theorem State.modTrap_sensors (s : State) (k : CoreId) (n : Fin 4) (g : TrapRegs → TrapRegs) : (s.modTrap k n g).sensors = s.sensors := rfl
@[simp] theorem State.modTrap_regs (s : State) (k : CoreId) (n : Fin 4) (g : TrapRegs → TrapRegs) : (s.modTrap k n g).regs = s.regs := rfl
@[simp] theorem State.modTrap_gmem (s : State) (k : CoreId) (n : Fin 4) (g : TrapRegs → TrapRegs) : (s.modTrap k n g).gmem = s.gmem := rfl
@[simp] theorem State.modTrap_watches (s : State) (k : CoreId) (n : Fin 4) (g : TrapRegs → TrapRegs) : (s.modTrap k n g).watches = s.watches := rfl
@[simp] theorem State.modTrap_cntwaits (s : State) (k : CoreId) (n : Fin 4) (g : TrapRegs → TrapRegs) : (s.modTrap k n g).cntwaits = s.cntwaits := rfl
@[simp] theorem State.modTrap_deps (s : State) (k : CoreId) (n : Fin 4) (g : TrapRegs → TrapRegs) : (s.modTrap k n g).deps = s.deps := rfl
@[simp] theorem State.modTrap_mesh (s : State) (k : CoreId) (n : Fin 4) (g : TrapRegs → TrapRegs) : (s.modTrap k n g).mesh = s.mesh := rfl
@[simp] theorem State.modTrap_links (s : State) (k : CoreId) (n : Fin 4) (g : TrapRegs → TrapRegs) : (s.modTrap k n g).links = s.links := rfl
@[simp] theorem State.modTrap_laces (s : State) (k : CoreId) (n : Fin 4) (g : TrapRegs → TrapRegs) : (s.modTrap k n g).laces = s.laces := rfl
@[simp] theorem State.modTrap_drops (s : State) (k : CoreId) (n : Fin 4) (g : TrapRegs → TrapRegs) : (s.modTrap k n g).drops = s.drops := rfl
@[simp] theorem State.modTrap_sys (s : State) (k : CoreId) (n : Fin 4) (g : TrapRegs → TrapRegs) : (s.modTrap k n g).sys = s.sys := rfl
@[simp] theorem State.modTrap_adds (s : State) (k : CoreId) (n : Fin 4) (g : TrapRegs → TrapRegs) : (s.modTrap k n g).adds = s.adds := rfl
@[simp] theorem State.modTrap_records (s : State) (k : CoreId) (n : Fin 4) (g : TrapRegs → TrapRegs) : (s.modTrap k n g).records = s.records := rfl
@[simp] theorem State.modTrap_started (s : State) (k : CoreId) (n : Fin 4) (g : TrapRegs → TrapRegs) : (s.modTrap k n g).started = s.started := rfl
@[simp] theorem State.modTrap_stopped (s : State) (k : CoreId) (n : Fin 4) (g : TrapRegs → TrapRegs) : (s.modTrap k n g).stopped = s.stopped := rfl
@[simp] theorem State.modTrap_quotes (s : State) (k : CoreId) (n : Fin 4) (g : TrapRegs → TrapRegs) : (s.modTrap k n g).quotes = s.quotes := rfl
@[simp] theorem State.modTrap_answers (s : State) (k : CoreId) (n : Fin 4) (g : TrapRegs → TrapRegs) : (s.modTrap k n g).answers = s.answers := rfl
@[simp] theorem State.modTrap_fw (s : State) (k : CoreId) (n : Fin 4) (g : TrapRegs → TrapRegs) : (s.modTrap k n g).fw = s.fw := rfl
@[simp] theorem State.modTrap_samples (s : State) (k : CoreId) (n : Fin 4) (g : TrapRegs → TrapRegs) : (s.modTrap k n g).samples = s.samples := rfl
@[simp] theorem State.modTrap_cur (s : State) (k : CoreId) (n : Fin 4) (g : TrapRegs → TrapRegs) : (s.modTrap k n g).cur = s.cur := rfl
@[simp] theorem State.modTrap_agenda (s : State) (k : CoreId) (n : Fin 4) (g : TrapRegs → TrapRegs) : (s.modTrap k n g).agenda = s.agenda := rfl
@[simp] theorem State.modTrap_now (s : State) (k : CoreId) (n : Fin 4) (g : TrapRegs → TrapRegs) : (s.modTrap k n g).now = s.now := rfl
@[simp] theorem State.modTrap_free (s : State) (k : CoreId) (n : Fin 4) (g : TrapRegs → TrapRegs) : (s.modTrap k n g).free = s.free := rfl

/-! ### `State.modMem` leaves the other fields -/

@[simp] theorem State.modMem_fields (s : State) (k : CoreId) (g : CoreMem → CoreMem) : (s.modMem k g).fields = s.fields := rfl
@[simp] theorem State.modMem_parts (s : State) (k : CoreId) (g : CoreMem → CoreMem) : (s.modMem k g).parts = s.parts := rfl
@[simp] theorem State.modMem_vfs (s : State) (k : CoreId) (g : CoreMem → CoreMem) : (s.modMem k g).vfs = s.vfs := rfl
@[simp] theorem State.modMem_quays (s : State) (k : CoreId) (g : CoreMem → CoreMem) : (s.modMem k g).quays = s.quays := rfl
@[simp] theorem State.modMem_sensors (s : State) (k : CoreId) (g : CoreMem → CoreMem) : (s.modMem k g).sensors = s.sensors := rfl
@[simp] theorem State.modMem_regs (s : State) (k : CoreId) (g : CoreMem → CoreMem) : (s.modMem k g).regs = s.regs := rfl
@[simp] theorem State.modMem_gmem (s : State) (k : CoreId) (g : CoreMem → CoreMem) : (s.modMem k g).gmem = s.gmem := rfl
@[simp] theorem State.modMem_watches (s : State) (k : CoreId) (g : CoreMem → CoreMem) : (s.modMem k g).watches = s.watches := rfl
@[simp] theorem State.modMem_cntwaits (s : State) (k : CoreId) (g : CoreMem → CoreMem) : (s.modMem k g).cntwaits = s.cntwaits := rfl
@[simp] theorem State.modMem_deps (s : State) (k : CoreId) (g : CoreMem → CoreMem) : (s.modMem k g).deps = s.deps := rfl
@[simp] theorem State.modMem_mesh (s : State) (k : CoreId) (g : CoreMem → CoreMem) : (s.modMem k g).mesh = s.mesh := rfl
@[simp] theorem State.modMem_links (s : State) (k : CoreId) (g : CoreMem → CoreMem) : (s.modMem k g).links = s.links := rfl
@[simp] theorem State.modMem_laces (s : State) (k : CoreId) (g : CoreMem → CoreMem) : (s.modMem k g).laces = s.laces := rfl
@[simp] theorem State.modMem_drops (s : State) (k : CoreId) (g : CoreMem → CoreMem) : (s.modMem k g).drops = s.drops := rfl
@[simp] theorem State.modMem_sys (s : State) (k : CoreId) (g : CoreMem → CoreMem) : (s.modMem k g).sys = s.sys := rfl
@[simp] theorem State.modMem_adds (s : State) (k : CoreId) (g : CoreMem → CoreMem) : (s.modMem k g).adds = s.adds := rfl
@[simp] theorem State.modMem_records (s : State) (k : CoreId) (g : CoreMem → CoreMem) : (s.modMem k g).records = s.records := rfl
@[simp] theorem State.modMem_started (s : State) (k : CoreId) (g : CoreMem → CoreMem) : (s.modMem k g).started = s.started := rfl
@[simp] theorem State.modMem_stopped (s : State) (k : CoreId) (g : CoreMem → CoreMem) : (s.modMem k g).stopped = s.stopped := rfl
@[simp] theorem State.modMem_quotes (s : State) (k : CoreId) (g : CoreMem → CoreMem) : (s.modMem k g).quotes = s.quotes := rfl
@[simp] theorem State.modMem_answers (s : State) (k : CoreId) (g : CoreMem → CoreMem) : (s.modMem k g).answers = s.answers := rfl
@[simp] theorem State.modMem_fw (s : State) (k : CoreId) (g : CoreMem → CoreMem) : (s.modMem k g).fw = s.fw := rfl
@[simp] theorem State.modMem_samples (s : State) (k : CoreId) (g : CoreMem → CoreMem) : (s.modMem k g).samples = s.samples := rfl
@[simp] theorem State.modMem_cur (s : State) (k : CoreId) (g : CoreMem → CoreMem) : (s.modMem k g).cur = s.cur := rfl
@[simp] theorem State.modMem_agenda (s : State) (k : CoreId) (g : CoreMem → CoreMem) : (s.modMem k g).agenda = s.agenda := rfl
@[simp] theorem State.modMem_now (s : State) (k : CoreId) (g : CoreMem → CoreMem) : (s.modMem k g).now = s.now := rfl
@[simp] theorem State.modMem_free (s : State) (k : CoreId) (g : CoreMem → CoreMem) : (s.modMem k g).free = s.free := rfl

/-! ### `State.modUnits` leaves the other fields -/

@[simp] theorem State.modUnits_fields (s : State) (k : CoreId) (g : Units → Units) : (s.modUnits k g).fields = s.fields := rfl
@[simp] theorem State.modUnits_parts (s : State) (k : CoreId) (g : Units → Units) : (s.modUnits k g).parts = s.parts := rfl
@[simp] theorem State.modUnits_vfs (s : State) (k : CoreId) (g : Units → Units) : (s.modUnits k g).vfs = s.vfs := rfl
@[simp] theorem State.modUnits_quays (s : State) (k : CoreId) (g : Units → Units) : (s.modUnits k g).quays = s.quays := rfl
@[simp] theorem State.modUnits_sensors (s : State) (k : CoreId) (g : Units → Units) : (s.modUnits k g).sensors = s.sensors := rfl
@[simp] theorem State.modUnits_regs (s : State) (k : CoreId) (g : Units → Units) : (s.modUnits k g).regs = s.regs := rfl
@[simp] theorem State.modUnits_gmem (s : State) (k : CoreId) (g : Units → Units) : (s.modUnits k g).gmem = s.gmem := rfl
@[simp] theorem State.modUnits_watches (s : State) (k : CoreId) (g : Units → Units) : (s.modUnits k g).watches = s.watches := rfl
@[simp] theorem State.modUnits_cntwaits (s : State) (k : CoreId) (g : Units → Units) : (s.modUnits k g).cntwaits = s.cntwaits := rfl
@[simp] theorem State.modUnits_deps (s : State) (k : CoreId) (g : Units → Units) : (s.modUnits k g).deps = s.deps := rfl
@[simp] theorem State.modUnits_mesh (s : State) (k : CoreId) (g : Units → Units) : (s.modUnits k g).mesh = s.mesh := rfl
@[simp] theorem State.modUnits_links (s : State) (k : CoreId) (g : Units → Units) : (s.modUnits k g).links = s.links := rfl
@[simp] theorem State.modUnits_laces (s : State) (k : CoreId) (g : Units → Units) : (s.modUnits k g).laces = s.laces := rfl
@[simp] theorem State.modUnits_drops (s : State) (k : CoreId) (g : Units → Units) : (s.modUnits k g).drops = s.drops := rfl
@[simp] theorem State.modUnits_sys (s : State) (k : CoreId) (g : Units → Units) : (s.modUnits k g).sys = s.sys := rfl
@[simp] theorem State.modUnits_adds (s : State) (k : CoreId) (g : Units → Units) : (s.modUnits k g).adds = s.adds := rfl
@[simp] theorem State.modUnits_records (s : State) (k : CoreId) (g : Units → Units) : (s.modUnits k g).records = s.records := rfl
@[simp] theorem State.modUnits_started (s : State) (k : CoreId) (g : Units → Units) : (s.modUnits k g).started = s.started := rfl
@[simp] theorem State.modUnits_stopped (s : State) (k : CoreId) (g : Units → Units) : (s.modUnits k g).stopped = s.stopped := rfl
@[simp] theorem State.modUnits_quotes (s : State) (k : CoreId) (g : Units → Units) : (s.modUnits k g).quotes = s.quotes := rfl
@[simp] theorem State.modUnits_answers (s : State) (k : CoreId) (g : Units → Units) : (s.modUnits k g).answers = s.answers := rfl
@[simp] theorem State.modUnits_fw (s : State) (k : CoreId) (g : Units → Units) : (s.modUnits k g).fw = s.fw := rfl
@[simp] theorem State.modUnits_samples (s : State) (k : CoreId) (g : Units → Units) : (s.modUnits k g).samples = s.samples := rfl
@[simp] theorem State.modUnits_cur (s : State) (k : CoreId) (g : Units → Units) : (s.modUnits k g).cur = s.cur := rfl
@[simp] theorem State.modUnits_agenda (s : State) (k : CoreId) (g : Units → Units) : (s.modUnits k g).agenda = s.agenda := rfl
@[simp] theorem State.modUnits_now (s : State) (k : CoreId) (g : Units → Units) : (s.modUnits k g).now = s.now := rfl
@[simp] theorem State.modUnits_free (s : State) (k : CoreId) (g : Units → Units) : (s.modUnits k g).free = s.free := rfl

/-! ### `State.modCoreRegs` leaves the other fields -/

@[simp] theorem State.modCoreRegs_fields (s : State) (k : CoreId) (g : CoreRegs → CoreRegs) : (s.modCoreRegs k g).fields = s.fields := rfl
@[simp] theorem State.modCoreRegs_parts (s : State) (k : CoreId) (g : CoreRegs → CoreRegs) : (s.modCoreRegs k g).parts = s.parts := rfl
@[simp] theorem State.modCoreRegs_vfs (s : State) (k : CoreId) (g : CoreRegs → CoreRegs) : (s.modCoreRegs k g).vfs = s.vfs := rfl
@[simp] theorem State.modCoreRegs_quays (s : State) (k : CoreId) (g : CoreRegs → CoreRegs) : (s.modCoreRegs k g).quays = s.quays := rfl
@[simp] theorem State.modCoreRegs_sensors (s : State) (k : CoreId) (g : CoreRegs → CoreRegs) : (s.modCoreRegs k g).sensors = s.sensors := rfl
@[simp] theorem State.modCoreRegs_regs (s : State) (k : CoreId) (g : CoreRegs → CoreRegs) : (s.modCoreRegs k g).regs = s.regs := rfl
@[simp] theorem State.modCoreRegs_gmem (s : State) (k : CoreId) (g : CoreRegs → CoreRegs) : (s.modCoreRegs k g).gmem = s.gmem := rfl
@[simp] theorem State.modCoreRegs_watches (s : State) (k : CoreId) (g : CoreRegs → CoreRegs) : (s.modCoreRegs k g).watches = s.watches := rfl
@[simp] theorem State.modCoreRegs_cntwaits (s : State) (k : CoreId) (g : CoreRegs → CoreRegs) : (s.modCoreRegs k g).cntwaits = s.cntwaits := rfl
@[simp] theorem State.modCoreRegs_deps (s : State) (k : CoreId) (g : CoreRegs → CoreRegs) : (s.modCoreRegs k g).deps = s.deps := rfl
@[simp] theorem State.modCoreRegs_mesh (s : State) (k : CoreId) (g : CoreRegs → CoreRegs) : (s.modCoreRegs k g).mesh = s.mesh := rfl
@[simp] theorem State.modCoreRegs_links (s : State) (k : CoreId) (g : CoreRegs → CoreRegs) : (s.modCoreRegs k g).links = s.links := rfl
@[simp] theorem State.modCoreRegs_laces (s : State) (k : CoreId) (g : CoreRegs → CoreRegs) : (s.modCoreRegs k g).laces = s.laces := rfl
@[simp] theorem State.modCoreRegs_drops (s : State) (k : CoreId) (g : CoreRegs → CoreRegs) : (s.modCoreRegs k g).drops = s.drops := rfl
@[simp] theorem State.modCoreRegs_sys (s : State) (k : CoreId) (g : CoreRegs → CoreRegs) : (s.modCoreRegs k g).sys = s.sys := rfl
@[simp] theorem State.modCoreRegs_adds (s : State) (k : CoreId) (g : CoreRegs → CoreRegs) : (s.modCoreRegs k g).adds = s.adds := rfl
@[simp] theorem State.modCoreRegs_records (s : State) (k : CoreId) (g : CoreRegs → CoreRegs) : (s.modCoreRegs k g).records = s.records := rfl
@[simp] theorem State.modCoreRegs_started (s : State) (k : CoreId) (g : CoreRegs → CoreRegs) : (s.modCoreRegs k g).started = s.started := rfl
@[simp] theorem State.modCoreRegs_stopped (s : State) (k : CoreId) (g : CoreRegs → CoreRegs) : (s.modCoreRegs k g).stopped = s.stopped := rfl
@[simp] theorem State.modCoreRegs_quotes (s : State) (k : CoreId) (g : CoreRegs → CoreRegs) : (s.modCoreRegs k g).quotes = s.quotes := rfl
@[simp] theorem State.modCoreRegs_answers (s : State) (k : CoreId) (g : CoreRegs → CoreRegs) : (s.modCoreRegs k g).answers = s.answers := rfl
@[simp] theorem State.modCoreRegs_fw (s : State) (k : CoreId) (g : CoreRegs → CoreRegs) : (s.modCoreRegs k g).fw = s.fw := rfl
@[simp] theorem State.modCoreRegs_samples (s : State) (k : CoreId) (g : CoreRegs → CoreRegs) : (s.modCoreRegs k g).samples = s.samples := rfl
@[simp] theorem State.modCoreRegs_cur (s : State) (k : CoreId) (g : CoreRegs → CoreRegs) : (s.modCoreRegs k g).cur = s.cur := rfl
@[simp] theorem State.modCoreRegs_agenda (s : State) (k : CoreId) (g : CoreRegs → CoreRegs) : (s.modCoreRegs k g).agenda = s.agenda := rfl
@[simp] theorem State.modCoreRegs_now (s : State) (k : CoreId) (g : CoreRegs → CoreRegs) : (s.modCoreRegs k g).now = s.now := rfl
@[simp] theorem State.modCoreRegs_free (s : State) (k : CoreId) (g : CoreRegs → CoreRegs) : (s.modCoreRegs k g).free = s.free := rfl

/-! ### `State.modField` leaves the other fields -/

@[simp] theorem State.modField_cores (s : State) (k : Nat) (g : Field → Field) : (s.modField k g).cores = s.cores := rfl
@[simp] theorem State.modField_parts (s : State) (k : Nat) (g : Field → Field) : (s.modField k g).parts = s.parts := rfl
@[simp] theorem State.modField_vfs (s : State) (k : Nat) (g : Field → Field) : (s.modField k g).vfs = s.vfs := rfl
@[simp] theorem State.modField_quays (s : State) (k : Nat) (g : Field → Field) : (s.modField k g).quays = s.quays := rfl
@[simp] theorem State.modField_sensors (s : State) (k : Nat) (g : Field → Field) : (s.modField k g).sensors = s.sensors := rfl
@[simp] theorem State.modField_regs (s : State) (k : Nat) (g : Field → Field) : (s.modField k g).regs = s.regs := rfl
@[simp] theorem State.modField_gmem (s : State) (k : Nat) (g : Field → Field) : (s.modField k g).gmem = s.gmem := rfl
@[simp] theorem State.modField_watches (s : State) (k : Nat) (g : Field → Field) : (s.modField k g).watches = s.watches := rfl
@[simp] theorem State.modField_cntwaits (s : State) (k : Nat) (g : Field → Field) : (s.modField k g).cntwaits = s.cntwaits := rfl
@[simp] theorem State.modField_deps (s : State) (k : Nat) (g : Field → Field) : (s.modField k g).deps = s.deps := rfl
@[simp] theorem State.modField_mesh (s : State) (k : Nat) (g : Field → Field) : (s.modField k g).mesh = s.mesh := rfl
@[simp] theorem State.modField_links (s : State) (k : Nat) (g : Field → Field) : (s.modField k g).links = s.links := rfl
@[simp] theorem State.modField_laces (s : State) (k : Nat) (g : Field → Field) : (s.modField k g).laces = s.laces := rfl
@[simp] theorem State.modField_drops (s : State) (k : Nat) (g : Field → Field) : (s.modField k g).drops = s.drops := rfl
@[simp] theorem State.modField_sys (s : State) (k : Nat) (g : Field → Field) : (s.modField k g).sys = s.sys := rfl
@[simp] theorem State.modField_adds (s : State) (k : Nat) (g : Field → Field) : (s.modField k g).adds = s.adds := rfl
@[simp] theorem State.modField_records (s : State) (k : Nat) (g : Field → Field) : (s.modField k g).records = s.records := rfl
@[simp] theorem State.modField_started (s : State) (k : Nat) (g : Field → Field) : (s.modField k g).started = s.started := rfl
@[simp] theorem State.modField_stopped (s : State) (k : Nat) (g : Field → Field) : (s.modField k g).stopped = s.stopped := rfl
@[simp] theorem State.modField_quotes (s : State) (k : Nat) (g : Field → Field) : (s.modField k g).quotes = s.quotes := rfl
@[simp] theorem State.modField_answers (s : State) (k : Nat) (g : Field → Field) : (s.modField k g).answers = s.answers := rfl
@[simp] theorem State.modField_fw (s : State) (k : Nat) (g : Field → Field) : (s.modField k g).fw = s.fw := rfl
@[simp] theorem State.modField_samples (s : State) (k : Nat) (g : Field → Field) : (s.modField k g).samples = s.samples := rfl
@[simp] theorem State.modField_cur (s : State) (k : Nat) (g : Field → Field) : (s.modField k g).cur = s.cur := rfl
@[simp] theorem State.modField_agenda (s : State) (k : Nat) (g : Field → Field) : (s.modField k g).agenda = s.agenda := rfl
@[simp] theorem State.modField_now (s : State) (k : Nat) (g : Field → Field) : (s.modField k g).now = s.now := rfl
@[simp] theorem State.modField_free (s : State) (k : Nat) (g : Field → Field) : (s.modField k g).free = s.free := rfl

/-! ### `State.modPart` leaves the other fields -/

@[simp] theorem State.modPart_cores (s : State) (k : Nat) (g : Partition → Partition) : (s.modPart k g).cores = s.cores := rfl
@[simp] theorem State.modPart_fields (s : State) (k : Nat) (g : Partition → Partition) : (s.modPart k g).fields = s.fields := rfl
@[simp] theorem State.modPart_vfs (s : State) (k : Nat) (g : Partition → Partition) : (s.modPart k g).vfs = s.vfs := rfl
@[simp] theorem State.modPart_quays (s : State) (k : Nat) (g : Partition → Partition) : (s.modPart k g).quays = s.quays := rfl
@[simp] theorem State.modPart_sensors (s : State) (k : Nat) (g : Partition → Partition) : (s.modPart k g).sensors = s.sensors := rfl
@[simp] theorem State.modPart_regs (s : State) (k : Nat) (g : Partition → Partition) : (s.modPart k g).regs = s.regs := rfl
@[simp] theorem State.modPart_gmem (s : State) (k : Nat) (g : Partition → Partition) : (s.modPart k g).gmem = s.gmem := rfl
@[simp] theorem State.modPart_watches (s : State) (k : Nat) (g : Partition → Partition) : (s.modPart k g).watches = s.watches := rfl
@[simp] theorem State.modPart_cntwaits (s : State) (k : Nat) (g : Partition → Partition) : (s.modPart k g).cntwaits = s.cntwaits := rfl
@[simp] theorem State.modPart_deps (s : State) (k : Nat) (g : Partition → Partition) : (s.modPart k g).deps = s.deps := rfl
@[simp] theorem State.modPart_mesh (s : State) (k : Nat) (g : Partition → Partition) : (s.modPart k g).mesh = s.mesh := rfl
@[simp] theorem State.modPart_links (s : State) (k : Nat) (g : Partition → Partition) : (s.modPart k g).links = s.links := rfl
@[simp] theorem State.modPart_laces (s : State) (k : Nat) (g : Partition → Partition) : (s.modPart k g).laces = s.laces := rfl
@[simp] theorem State.modPart_drops (s : State) (k : Nat) (g : Partition → Partition) : (s.modPart k g).drops = s.drops := rfl
@[simp] theorem State.modPart_sys (s : State) (k : Nat) (g : Partition → Partition) : (s.modPart k g).sys = s.sys := rfl
@[simp] theorem State.modPart_adds (s : State) (k : Nat) (g : Partition → Partition) : (s.modPart k g).adds = s.adds := rfl
@[simp] theorem State.modPart_records (s : State) (k : Nat) (g : Partition → Partition) : (s.modPart k g).records = s.records := rfl
@[simp] theorem State.modPart_started (s : State) (k : Nat) (g : Partition → Partition) : (s.modPart k g).started = s.started := rfl
@[simp] theorem State.modPart_stopped (s : State) (k : Nat) (g : Partition → Partition) : (s.modPart k g).stopped = s.stopped := rfl
@[simp] theorem State.modPart_quotes (s : State) (k : Nat) (g : Partition → Partition) : (s.modPart k g).quotes = s.quotes := rfl
@[simp] theorem State.modPart_answers (s : State) (k : Nat) (g : Partition → Partition) : (s.modPart k g).answers = s.answers := rfl
@[simp] theorem State.modPart_fw (s : State) (k : Nat) (g : Partition → Partition) : (s.modPart k g).fw = s.fw := rfl
@[simp] theorem State.modPart_samples (s : State) (k : Nat) (g : Partition → Partition) : (s.modPart k g).samples = s.samples := rfl
@[simp] theorem State.modPart_cur (s : State) (k : Nat) (g : Partition → Partition) : (s.modPart k g).cur = s.cur := rfl
@[simp] theorem State.modPart_agenda (s : State) (k : Nat) (g : Partition → Partition) : (s.modPart k g).agenda = s.agenda := rfl
@[simp] theorem State.modPart_now (s : State) (k : Nat) (g : Partition → Partition) : (s.modPart k g).now = s.now := rfl
@[simp] theorem State.modPart_free (s : State) (k : Nat) (g : Partition → Partition) : (s.modPart k g).free = s.free := rfl

/-! ### `State.modCtx` leaves the other fields -/

@[simp] theorem State.modCtx_cores (s : State) (k : Nat) (g : PartCtx → PartCtx) : (s.modCtx k g).cores = s.cores := rfl
@[simp] theorem State.modCtx_fields (s : State) (k : Nat) (g : PartCtx → PartCtx) : (s.modCtx k g).fields = s.fields := rfl
@[simp] theorem State.modCtx_vfs (s : State) (k : Nat) (g : PartCtx → PartCtx) : (s.modCtx k g).vfs = s.vfs := rfl
@[simp] theorem State.modCtx_quays (s : State) (k : Nat) (g : PartCtx → PartCtx) : (s.modCtx k g).quays = s.quays := rfl
@[simp] theorem State.modCtx_sensors (s : State) (k : Nat) (g : PartCtx → PartCtx) : (s.modCtx k g).sensors = s.sensors := rfl
@[simp] theorem State.modCtx_regs (s : State) (k : Nat) (g : PartCtx → PartCtx) : (s.modCtx k g).regs = s.regs := rfl
@[simp] theorem State.modCtx_gmem (s : State) (k : Nat) (g : PartCtx → PartCtx) : (s.modCtx k g).gmem = s.gmem := rfl
@[simp] theorem State.modCtx_watches (s : State) (k : Nat) (g : PartCtx → PartCtx) : (s.modCtx k g).watches = s.watches := rfl
@[simp] theorem State.modCtx_cntwaits (s : State) (k : Nat) (g : PartCtx → PartCtx) : (s.modCtx k g).cntwaits = s.cntwaits := rfl
@[simp] theorem State.modCtx_deps (s : State) (k : Nat) (g : PartCtx → PartCtx) : (s.modCtx k g).deps = s.deps := rfl
@[simp] theorem State.modCtx_mesh (s : State) (k : Nat) (g : PartCtx → PartCtx) : (s.modCtx k g).mesh = s.mesh := rfl
@[simp] theorem State.modCtx_links (s : State) (k : Nat) (g : PartCtx → PartCtx) : (s.modCtx k g).links = s.links := rfl
@[simp] theorem State.modCtx_laces (s : State) (k : Nat) (g : PartCtx → PartCtx) : (s.modCtx k g).laces = s.laces := rfl
@[simp] theorem State.modCtx_drops (s : State) (k : Nat) (g : PartCtx → PartCtx) : (s.modCtx k g).drops = s.drops := rfl
@[simp] theorem State.modCtx_sys (s : State) (k : Nat) (g : PartCtx → PartCtx) : (s.modCtx k g).sys = s.sys := rfl
@[simp] theorem State.modCtx_adds (s : State) (k : Nat) (g : PartCtx → PartCtx) : (s.modCtx k g).adds = s.adds := rfl
@[simp] theorem State.modCtx_records (s : State) (k : Nat) (g : PartCtx → PartCtx) : (s.modCtx k g).records = s.records := rfl
@[simp] theorem State.modCtx_started (s : State) (k : Nat) (g : PartCtx → PartCtx) : (s.modCtx k g).started = s.started := rfl
@[simp] theorem State.modCtx_stopped (s : State) (k : Nat) (g : PartCtx → PartCtx) : (s.modCtx k g).stopped = s.stopped := rfl
@[simp] theorem State.modCtx_quotes (s : State) (k : Nat) (g : PartCtx → PartCtx) : (s.modCtx k g).quotes = s.quotes := rfl
@[simp] theorem State.modCtx_answers (s : State) (k : Nat) (g : PartCtx → PartCtx) : (s.modCtx k g).answers = s.answers := rfl
@[simp] theorem State.modCtx_fw (s : State) (k : Nat) (g : PartCtx → PartCtx) : (s.modCtx k g).fw = s.fw := rfl
@[simp] theorem State.modCtx_samples (s : State) (k : Nat) (g : PartCtx → PartCtx) : (s.modCtx k g).samples = s.samples := rfl
@[simp] theorem State.modCtx_cur (s : State) (k : Nat) (g : PartCtx → PartCtx) : (s.modCtx k g).cur = s.cur := rfl
@[simp] theorem State.modCtx_agenda (s : State) (k : Nat) (g : PartCtx → PartCtx) : (s.modCtx k g).agenda = s.agenda := rfl
@[simp] theorem State.modCtx_now (s : State) (k : Nat) (g : PartCtx → PartCtx) : (s.modCtx k g).now = s.now := rfl
@[simp] theorem State.modCtx_free (s : State) (k : Nat) (g : PartCtx → PartCtx) : (s.modCtx k g).free = s.free := rfl

/-! ### `State.modVf` leaves the other fields -/

@[simp] theorem State.modVf_cores (s : State) (k : Nat) (g : VfSt → VfSt) : (s.modVf k g).cores = s.cores := rfl
@[simp] theorem State.modVf_fields (s : State) (k : Nat) (g : VfSt → VfSt) : (s.modVf k g).fields = s.fields := rfl
@[simp] theorem State.modVf_parts (s : State) (k : Nat) (g : VfSt → VfSt) : (s.modVf k g).parts = s.parts := rfl
@[simp] theorem State.modVf_quays (s : State) (k : Nat) (g : VfSt → VfSt) : (s.modVf k g).quays = s.quays := rfl
@[simp] theorem State.modVf_sensors (s : State) (k : Nat) (g : VfSt → VfSt) : (s.modVf k g).sensors = s.sensors := rfl
@[simp] theorem State.modVf_regs (s : State) (k : Nat) (g : VfSt → VfSt) : (s.modVf k g).regs = s.regs := rfl
@[simp] theorem State.modVf_gmem (s : State) (k : Nat) (g : VfSt → VfSt) : (s.modVf k g).gmem = s.gmem := rfl
@[simp] theorem State.modVf_watches (s : State) (k : Nat) (g : VfSt → VfSt) : (s.modVf k g).watches = s.watches := rfl
@[simp] theorem State.modVf_cntwaits (s : State) (k : Nat) (g : VfSt → VfSt) : (s.modVf k g).cntwaits = s.cntwaits := rfl
@[simp] theorem State.modVf_deps (s : State) (k : Nat) (g : VfSt → VfSt) : (s.modVf k g).deps = s.deps := rfl
@[simp] theorem State.modVf_mesh (s : State) (k : Nat) (g : VfSt → VfSt) : (s.modVf k g).mesh = s.mesh := rfl
@[simp] theorem State.modVf_links (s : State) (k : Nat) (g : VfSt → VfSt) : (s.modVf k g).links = s.links := rfl
@[simp] theorem State.modVf_laces (s : State) (k : Nat) (g : VfSt → VfSt) : (s.modVf k g).laces = s.laces := rfl
@[simp] theorem State.modVf_drops (s : State) (k : Nat) (g : VfSt → VfSt) : (s.modVf k g).drops = s.drops := rfl
@[simp] theorem State.modVf_sys (s : State) (k : Nat) (g : VfSt → VfSt) : (s.modVf k g).sys = s.sys := rfl
@[simp] theorem State.modVf_adds (s : State) (k : Nat) (g : VfSt → VfSt) : (s.modVf k g).adds = s.adds := rfl
@[simp] theorem State.modVf_records (s : State) (k : Nat) (g : VfSt → VfSt) : (s.modVf k g).records = s.records := rfl
@[simp] theorem State.modVf_started (s : State) (k : Nat) (g : VfSt → VfSt) : (s.modVf k g).started = s.started := rfl
@[simp] theorem State.modVf_stopped (s : State) (k : Nat) (g : VfSt → VfSt) : (s.modVf k g).stopped = s.stopped := rfl
@[simp] theorem State.modVf_quotes (s : State) (k : Nat) (g : VfSt → VfSt) : (s.modVf k g).quotes = s.quotes := rfl
@[simp] theorem State.modVf_answers (s : State) (k : Nat) (g : VfSt → VfSt) : (s.modVf k g).answers = s.answers := rfl
@[simp] theorem State.modVf_fw (s : State) (k : Nat) (g : VfSt → VfSt) : (s.modVf k g).fw = s.fw := rfl
@[simp] theorem State.modVf_samples (s : State) (k : Nat) (g : VfSt → VfSt) : (s.modVf k g).samples = s.samples := rfl
@[simp] theorem State.modVf_cur (s : State) (k : Nat) (g : VfSt → VfSt) : (s.modVf k g).cur = s.cur := rfl
@[simp] theorem State.modVf_agenda (s : State) (k : Nat) (g : VfSt → VfSt) : (s.modVf k g).agenda = s.agenda := rfl
@[simp] theorem State.modVf_now (s : State) (k : Nat) (g : VfSt → VfSt) : (s.modVf k g).now = s.now := rfl
@[simp] theorem State.modVf_free (s : State) (k : Nat) (g : VfSt → VfSt) : (s.modVf k g).free = s.free := rfl

/-! ### `State.modQuay` leaves the other fields -/

@[simp] theorem State.modQuay_cores (s : State) (k : Nat) (g : Quay → Quay) : (s.modQuay k g).cores = s.cores := rfl
@[simp] theorem State.modQuay_fields (s : State) (k : Nat) (g : Quay → Quay) : (s.modQuay k g).fields = s.fields := rfl
@[simp] theorem State.modQuay_parts (s : State) (k : Nat) (g : Quay → Quay) : (s.modQuay k g).parts = s.parts := rfl
@[simp] theorem State.modQuay_vfs (s : State) (k : Nat) (g : Quay → Quay) : (s.modQuay k g).vfs = s.vfs := rfl
@[simp] theorem State.modQuay_sensors (s : State) (k : Nat) (g : Quay → Quay) : (s.modQuay k g).sensors = s.sensors := rfl
@[simp] theorem State.modQuay_regs (s : State) (k : Nat) (g : Quay → Quay) : (s.modQuay k g).regs = s.regs := rfl
@[simp] theorem State.modQuay_gmem (s : State) (k : Nat) (g : Quay → Quay) : (s.modQuay k g).gmem = s.gmem := rfl
@[simp] theorem State.modQuay_watches (s : State) (k : Nat) (g : Quay → Quay) : (s.modQuay k g).watches = s.watches := rfl
@[simp] theorem State.modQuay_cntwaits (s : State) (k : Nat) (g : Quay → Quay) : (s.modQuay k g).cntwaits = s.cntwaits := rfl
@[simp] theorem State.modQuay_deps (s : State) (k : Nat) (g : Quay → Quay) : (s.modQuay k g).deps = s.deps := rfl
@[simp] theorem State.modQuay_mesh (s : State) (k : Nat) (g : Quay → Quay) : (s.modQuay k g).mesh = s.mesh := rfl
@[simp] theorem State.modQuay_links (s : State) (k : Nat) (g : Quay → Quay) : (s.modQuay k g).links = s.links := rfl
@[simp] theorem State.modQuay_laces (s : State) (k : Nat) (g : Quay → Quay) : (s.modQuay k g).laces = s.laces := rfl
@[simp] theorem State.modQuay_drops (s : State) (k : Nat) (g : Quay → Quay) : (s.modQuay k g).drops = s.drops := rfl
@[simp] theorem State.modQuay_sys (s : State) (k : Nat) (g : Quay → Quay) : (s.modQuay k g).sys = s.sys := rfl
@[simp] theorem State.modQuay_adds (s : State) (k : Nat) (g : Quay → Quay) : (s.modQuay k g).adds = s.adds := rfl
@[simp] theorem State.modQuay_records (s : State) (k : Nat) (g : Quay → Quay) : (s.modQuay k g).records = s.records := rfl
@[simp] theorem State.modQuay_started (s : State) (k : Nat) (g : Quay → Quay) : (s.modQuay k g).started = s.started := rfl
@[simp] theorem State.modQuay_stopped (s : State) (k : Nat) (g : Quay → Quay) : (s.modQuay k g).stopped = s.stopped := rfl
@[simp] theorem State.modQuay_quotes (s : State) (k : Nat) (g : Quay → Quay) : (s.modQuay k g).quotes = s.quotes := rfl
@[simp] theorem State.modQuay_answers (s : State) (k : Nat) (g : Quay → Quay) : (s.modQuay k g).answers = s.answers := rfl
@[simp] theorem State.modQuay_fw (s : State) (k : Nat) (g : Quay → Quay) : (s.modQuay k g).fw = s.fw := rfl
@[simp] theorem State.modQuay_samples (s : State) (k : Nat) (g : Quay → Quay) : (s.modQuay k g).samples = s.samples := rfl
@[simp] theorem State.modQuay_cur (s : State) (k : Nat) (g : Quay → Quay) : (s.modQuay k g).cur = s.cur := rfl
@[simp] theorem State.modQuay_agenda (s : State) (k : Nat) (g : Quay → Quay) : (s.modQuay k g).agenda = s.agenda := rfl
@[simp] theorem State.modQuay_now (s : State) (k : Nat) (g : Quay → Quay) : (s.modQuay k g).now = s.now := rfl
@[simp] theorem State.modQuay_free (s : State) (k : Nat) (g : Quay → Quay) : (s.modQuay k g).free = s.free := rfl

/-! ### `State.modMod` leaves the other fields -/

@[simp] theorem State.modMod_cores (s : State) (g : ModRegs → ModRegs) : (s.modMod g).cores = s.cores := rfl
@[simp] theorem State.modMod_fields (s : State) (g : ModRegs → ModRegs) : (s.modMod g).fields = s.fields := rfl
@[simp] theorem State.modMod_parts (s : State) (g : ModRegs → ModRegs) : (s.modMod g).parts = s.parts := rfl
@[simp] theorem State.modMod_vfs (s : State) (g : ModRegs → ModRegs) : (s.modMod g).vfs = s.vfs := rfl
@[simp] theorem State.modMod_quays (s : State) (g : ModRegs → ModRegs) : (s.modMod g).quays = s.quays := rfl
@[simp] theorem State.modMod_sensors (s : State) (g : ModRegs → ModRegs) : (s.modMod g).sensors = s.sensors := rfl
@[simp] theorem State.modMod_gmem (s : State) (g : ModRegs → ModRegs) : (s.modMod g).gmem = s.gmem := rfl
@[simp] theorem State.modMod_watches (s : State) (g : ModRegs → ModRegs) : (s.modMod g).watches = s.watches := rfl
@[simp] theorem State.modMod_cntwaits (s : State) (g : ModRegs → ModRegs) : (s.modMod g).cntwaits = s.cntwaits := rfl
@[simp] theorem State.modMod_deps (s : State) (g : ModRegs → ModRegs) : (s.modMod g).deps = s.deps := rfl
@[simp] theorem State.modMod_mesh (s : State) (g : ModRegs → ModRegs) : (s.modMod g).mesh = s.mesh := rfl
@[simp] theorem State.modMod_links (s : State) (g : ModRegs → ModRegs) : (s.modMod g).links = s.links := rfl
@[simp] theorem State.modMod_laces (s : State) (g : ModRegs → ModRegs) : (s.modMod g).laces = s.laces := rfl
@[simp] theorem State.modMod_drops (s : State) (g : ModRegs → ModRegs) : (s.modMod g).drops = s.drops := rfl
@[simp] theorem State.modMod_sys (s : State) (g : ModRegs → ModRegs) : (s.modMod g).sys = s.sys := rfl
@[simp] theorem State.modMod_adds (s : State) (g : ModRegs → ModRegs) : (s.modMod g).adds = s.adds := rfl
@[simp] theorem State.modMod_records (s : State) (g : ModRegs → ModRegs) : (s.modMod g).records = s.records := rfl
@[simp] theorem State.modMod_started (s : State) (g : ModRegs → ModRegs) : (s.modMod g).started = s.started := rfl
@[simp] theorem State.modMod_stopped (s : State) (g : ModRegs → ModRegs) : (s.modMod g).stopped = s.stopped := rfl
@[simp] theorem State.modMod_quotes (s : State) (g : ModRegs → ModRegs) : (s.modMod g).quotes = s.quotes := rfl
@[simp] theorem State.modMod_answers (s : State) (g : ModRegs → ModRegs) : (s.modMod g).answers = s.answers := rfl
@[simp] theorem State.modMod_fw (s : State) (g : ModRegs → ModRegs) : (s.modMod g).fw = s.fw := rfl
@[simp] theorem State.modMod_samples (s : State) (g : ModRegs → ModRegs) : (s.modMod g).samples = s.samples := rfl
@[simp] theorem State.modMod_cur (s : State) (g : ModRegs → ModRegs) : (s.modMod g).cur = s.cur := rfl
@[simp] theorem State.modMod_agenda (s : State) (g : ModRegs → ModRegs) : (s.modMod g).agenda = s.agenda := rfl
@[simp] theorem State.modMod_now (s : State) (g : ModRegs → ModRegs) : (s.modMod g).now = s.now := rfl
@[simp] theorem State.modMod_free (s : State) (g : ModRegs → ModRegs) : (s.modMod g).free = s.free := rfl

end Sys2Proof.Machine
end

