-- ==== Sys2Proof/Laws/Issue.lean ====
section
/-! SUPPORT. What the frame of an encoded instruction does: where its head issues, only its body is left to be looked at. -/

namespace Sys2Proof.Machine

@[simp] theorem State.took_cur (s : State) (f : Form) : (s.took f).cur = s.cur := rfl
theorem State.issues_inline {s : State} {f : Form} (h : s.issues f) : s.cur.inline = false := h.1

theorem absent_false {r : Regs} {l : List GOp} (h : ∀ n : Fin 8, GOp.c n ∈ l → r.pres.getLsbD n.val = true) :
    r.absent l = false := by
  simp only [Regs.absent, List.any_eq_false]
  intro g hg
  cases g with
  | g n => simp
  | c n => simp [h n hg]

/-- A head that issues runs its body over the operands taken. -/
theorem issue_done {s : State} {f : Form} (body : State → Act) (h : s.issues f) :
    issue f body s = .next (finish s f.cls (body (s.took f))) := by
  obtain ⟨hi, hl, hg, hp, hr, hb, hc⟩ := h
  have hl' : ¬ (lvlOf s.me).toNat < f.lvl.toNat := by simpa [BitVec.le_def] using hl
  have hr' : (f.regs.any fun r => ((s.core s.cur.core).pendingRegs s.cur.slot).contains r) = false := by
    simp only [List.any_eq_false, List.contains_iff_mem]
    exact hr
  simp only [issue, hi, hl', hg, hb, hr', absent_false hc, List.contains_iff_mem, hp, Bool.false_eq_true, if_false,
    Bool.not_true, State.took]

theorem finish_ok {s t : State} (c : Fin 32) (h : s.cur.inline = false) : finish s c (.ok t) = t.retire c := by
  simp [finish, h]

theorem finish_jump {s t : State} (c : Fin 32) (w : Word) (h : s.cur.inline = false) :
    finish s c (.jump t w) = t.retire (if c = 1 then 4 else c) (some w) := by
  simp [finish, h]

theorem finish_trap {s : State} (c : Fin 32) (k : BitVec 8) (w : Word) (h : s.cur.inline = false) :
    finish s c (.trap k w) = s.takeTrap s.cur.core s.cur.slot k w := by
  simp [finish, h]

theorem finish_stay {s t : State} (c : Fin 32) (h : s.cur.inline = false) : finish s c (.stay t) = t := by
  simp [finish, h]

theorem finish_wait {s : State} (c : Fin 32) (w : Wait) (g : State → State) (h : s.cur.inline = false) :
    finish s c (.wait w g) = (g s).waitFor w := by
  simp [finish, h]

/-- A G destination that STACK_LIMIT lets through is written. -/
theorem writeG_done {u : State} {d : GOp} {v : Word} (k : State → Act) (hi : u.cur.inline = false)
    (hs : u.slimRefuses d v = false) : writeG u d v k = k (u.wr d v) := by
  simp [writeG, hs, State.chanBusy, hi]

/-- A body that is done makes the instruction complete. -/
theorem does_of {i : Instr} {f : Form} {ok : State → Prop} {eff : State → State} {body : State → Act}
    (he : ∀ s, exec i s = issue f body s) (hb : ∀ u : State, u.cur.inline = false → ok u → body u = .ok (eff u)) :
    Does i f ok eff := by
  intro s h ho
  rw [he, issue_done body h, hb _ (by simpa using h.1) ho, finish_ok _ h.1]

theorem puts_of {i : Instr} {f : Form} {d : GOp} {v : State → Word} {ok : State → Prop} {post : State → State}
    {body : State → Act} (he : ∀ s, exec i s = issue f body s)
    (hb : ∀ u : State, u.cur.inline = false → ok u → body u = writeG u d (v u) fun t => .ok (post t)) :
    Puts i f d v ok post := by
  intro s h ho
  have hi : (s.took f).cur.inline = false := by simpa using h.1
  refine ⟨fun hs => ?_, fun hs => ?_⟩
  · rw [he, issue_done body h, hb _ hi ho, writeG_done _ hi hs, finish_ok _ h.1]
  · rw [he, issue_done body h, hb _ hi ho, writeG, if_pos hs, finish_trap _ _ _ h.1]

theorem jumps_of {i : Instr} {f : Form} {ok : State → Prop} {eff : State → State} {t : State → Word} {body : State → Act}
    (hc : f.cls = 1) (he : ∀ s, exec i s = issue f body s)
    (hb : ∀ u : State, u.cur.inline = false → ok u → body u = .jump (eff u) (t u)) : Jumps i f ok eff t := by
  intro s h ho
  rw [he, issue_done body h, hb _ (by simpa using h.1) ho, finish_jump _ _ h.1, if_pos hc]

theorem traps_of {i : Instr} {f : Form} {bad : State → Prop} {c : BitVec 8} {a : State → Word} {body : State → Act}
    (he : ∀ s, exec i s = issue f body s)
    (hb : ∀ u : State, u.cur.inline = false → bad u → body u = .trap c (a u)) : Traps i f bad c a := by
  intro s h ho
  rw [he, issue_done body h, hb _ (by simpa using h.1) ho, finish_trap _ _ _ h.1]

theorem waits_of {i : Instr} {f : Form} {no : State → Prop} {w : Wait} {body : State → Act}
    (he : ∀ s, exec i s = issue f body s)
    (hb : ∀ u : State, u.cur.inline = false → no u → body u = .wait w id) : Waits i f no w := by
  intro s h ho
  rw [he, issue_done body h, hb _ (by simpa using h.1) ho, finish_wait _ _ _ h.1]
  rfl

theorem absent_true {r : Regs} {l : List GOp} {n : Fin 8} (hn : GOp.c n ∈ l) (h : r.pres.getLsbD n.val = false) :
    r.absent l = true := by
  simp only [Regs.absent, List.any_eq_true]
  exact ⟨.c n, hn, by simp only [h, Bool.not_false]⟩

/-- What stands before the body of an instruction that is one `issue`. -/
theorem gated_of {i : Instr} {f : Form} {body : State → Act} (he : ∀ s, exec i s = issue f body s) : Gated i f := by
  intro s hi
  simp only [he, issue, hi, Bool.false_eq_true, if_false, State.headWord, List.contains_iff_mem]
  refine ⟨fun h => by rw [if_pos h], fun ⟨h, hp⟩ => by rw [if_neg h, if_pos hp], fun ⟨⟨h, hp⟩, hg⟩ => ?_,
    fun b ⟨⟨⟨h, hp⟩, hg⟩, hb⟩ => ?_, fun ⟨⟨⟨h, hp⟩, hg⟩, hb, r, hr, hq⟩ => ?_, fun ⟨⟨⟨h, hp⟩, hg⟩, hb, hr, n, hn, hc⟩ => ?_⟩
  · simp [h, hp, hg]
  · simp [h, hp, hg, hb]
  · have : (f.regs.any fun r => ((s.core s.cur.core).pendingRegs s.cur.slot).contains r) = true := by
      simp only [List.any_eq_true, List.contains_iff_mem]
      exact ⟨r, hr, hq⟩
    rw [if_neg h, if_neg hp, hg, hb]
    simp only [Bool.not_true, Bool.false_eq_true, if_false] at this ⊢
    rw [if_pos this]
  · have : (f.regs.any fun r => ((s.core s.cur.core).pendingRegs s.cur.slot).contains r) = false := by
      simp only [List.any_eq_false, List.contains_iff_mem]
      exact hr
    rw [if_neg h, if_neg hp, hg, hb]
    simp only [Bool.not_true, Bool.false_eq_true, if_false] at this ⊢
    simp only [this, Bool.false_eq_true, if_false, absent_true hn hc, if_true]

end Sys2Proof.Machine
end

