-- ==== Sys2Proof/Laws/Memory.lean ====
section
/-! SUPPORT. Memory keeps its canonical form under every operation over it, a read after a write gives what was written, and two
memories in that form that read alike are equal. -/

namespace Sys2Proof.Machine

theorem Memory.wfFrom_mono {lo lo' : Nat} {m : Memory} (h : m.wfFrom lo = true) (hl : lo' ≤ lo) : m.wfFrom lo' = true := by
  cases m with
  | nil => rfl
  | cons e m =>
    simp only [wfFrom, Bool.and_eq_true, decide_eq_true_eq] at h ⊢
    exact ⟨⟨by omega, h.1.2⟩, h.2⟩

/-- Below its first entry a memory in its canonical form reads 0. -/
theorem Memory.get_below {lo : Nat} {m : Memory} (h : m.wfFrom lo = true) {a : Nat} (ha : a < lo) : m.get a = 0 := by
  induction m generalizing lo with
  | nil => rfl
  | cons e m ih =>
    simp only [wfFrom, Bool.and_eq_true, decide_eq_true_eq] at h
    have : a ≠ e.1 := by omega
    simp only [get, this, if_false]
    exact ih h.2 (by omega)

theorem Memory.put_wfFrom {lo : Nat} {m : Memory} (h : m.wfFrom lo = true) {a : Nat} (ha : lo ≤ a) (b : Byte) :
    (m.put a b).wfFrom lo = true := by
  induction m generalizing lo with
  | nil =>
    by_cases hb : b = 0#8
    · simp [put, hb, wfFrom]
    · simp [put, hb, wfFrom, ha]
  | cons e m ih =>
    simp only [wfFrom, Bool.and_eq_true, decide_eq_true_eq, bne_iff_ne] at h
    obtain ⟨⟨hlo, he⟩, hm⟩ := h
    have he : ¬e.2 = 0#8 := he
    simp only [put]
    by_cases h1 : a = e.1
    · subst h1
      by_cases hb : b = 0#8
      · simp [hb, wfFrom_mono hm (show lo ≤ e.1 + 1 by omega)]
      · simp [hb, wfFrom, hlo, hm]
    · by_cases h2 : a < e.1
      · by_cases hb : b = 0#8
        · simp [h1, h2, hb, wfFrom, hlo, he, hm]
        · simp [h1, h2, hb, wfFrom, ha, he, hm, show a + 1 ≤ e.1 by omega]
      · simp [h1, h2, wfFrom, hlo, he, ih hm (by omega)]

theorem Memory.put_wf {m : Memory} (h : m.wf = true) (a : Nat) (b : Byte) : (m.put a b).wf = true :=
  put_wfFrom h (Nat.zero_le a) b

theorem Memory.get_put_from {lo : Nat} {m : Memory} (h : m.wfFrom lo = true) (a x : Nat) (b : Byte) :
    (m.put a b).get x = if x = a then b else m.get x := by
  induction m generalizing lo with
  | nil => by_cases hb : b = 0#8 <;> by_cases hx : x = a <;> simp [put, hb, hx, get]
  | cons e m ih =>
    simp only [wfFrom, Bool.and_eq_true, decide_eq_true_eq] at h
    simp only [put]
    by_cases h1 : a = e.1
    · by_cases hb : b = 0#8
      · by_cases hx : x = a
        · subst hx
          simp only [h1, hb, if_true]
          exact get_below h.2 (by omega)
        · simp [h1, hb, get, show x ≠ e.1 from fun hh => hx (hh.trans h1.symm)]
      · by_cases hx : x = a
        · simp [h1, hb, hx, get]
        · simp [h1, hb, get, show x ≠ e.1 from fun hh => hx (hh.trans h1.symm)]
    · by_cases h2 : a < e.1
      · by_cases hb : b = 0#8
        · by_cases hx : x = a
          · subst hx
            simp [h1, h2, hb, get, get_below h.2 (show x < e.1 + 1 by omega)]
          · simp [h1, h2, hb, hx]
        · by_cases hx : x = a <;> simp [h1, h2, hb, hx, get]
      · simp only [h1, h2, if_false, get, ih h.2]
        by_cases hx : x = a
        · subst hx
          simp [h1]
        · simp [hx]

/-- Read after write. -/
theorem Memory.get_put {m : Memory} (h : m.wf = true) (a x : Nat) (b : Byte) :
    (m.put a b).get x = if x = a then b else m.get x := get_put_from h a x b

theorem Memory.writeLE_wf {m : Memory} (h : m.wf = true) (a n v : Nat) : (m.writeLE a n v).wf = true := by
  induction n generalizing m a v with
  | zero => exact h
  | succ n ih => exact ih (put_wf h a _) (a + 1) (v / 256)

theorem Memory.writeBytes_wf {m : Memory} (h : m.wf = true) (a : Nat) (l : List Byte) : (m.writeBytes a l).wf = true := by
  induction l generalizing m a with
  | nil => exact h
  | cons b l ih => exact ih (put_wf h a b) (a + 1)

theorem Memory.writeMask_wf {m : Memory} (h : m.wf = true) (a n v mask : Nat) : (m.writeMask a n v mask).wf = true := by
  induction n generalizing m a v mask with
  | zero => exact h
  | succ n ih =>
    simp only [writeMask]
    split
    · exact ih (put_wf h a _) (a + 1) (v / 256) (mask / 2)
    · exact ih h (a + 1) (v / 256) (mask / 2)

/-- A byte that a little-endian store leaves alone. -/
theorem Memory.get_writeLE_ne {m : Memory} (h : m.wf = true) (a n v x : Nat) (hx : x < a ∨ a + n ≤ x) :
    (m.writeLE a n v).get x = m.get x := by
  induction n generalizing m a v with
  | zero => rfl
  | succ n ih =>
    simp only [writeLE]
    rw [ih (put_wf h a _) (a + 1) (v / 256) (by omega), get_put h, if_neg (by omega)]

/-- A byte that it stores. -/
theorem Memory.get_writeLE {m : Memory} (h : m.wf = true) (a n v i : Nat) (hi : i < n) :
    (m.writeLE a n v).get (a + i) = BitVec.ofNat 8 (v / 256 ^ i) := by
  induction n generalizing m a v i with
  | zero => omega
  | succ n ih =>
    simp only [writeLE]
    cases i with
    | zero => rw [get_writeLE_ne (put_wf h a _) _ _ _ _ (by omega), get_put h]; simp
    | succ i =>
      have := ih (put_wf h a (BitVec.ofNat 8 v)) (a + 1) (v / 256) i (by omega)
      rw [show a + (i + 1) = a + 1 + i by omega, this, Nat.div_div_eq_div_mul, Nat.pow_succ, Nat.mul_comm]

/-- A byte that a store of a list of bytes leaves alone. -/
theorem Memory.get_writeBytes_ne {m : Memory} (h : m.wf = true) (a x : Nat) (l : List Byte) (hx : x < a ∨ a + l.length ≤ x) :
    (m.writeBytes a l).get x = m.get x := by
  induction l generalizing m a with
  | nil => rfl
  | cons b l ih =>
    simp only [List.length_cons] at hx
    simp only [writeBytes]
    rw [ih (put_wf h a b) (a + 1) (by omega), get_put h, if_neg (by omega)]

/-- What a read of n bytes gives rests on those bytes alone. -/
theorem Memory.readLE_congr {m m' : Memory} {a n : Nat} (h : ∀ x, a ≤ x → x < a + n → m.get x = m'.get x) :
    m.readLE a n = m'.readLE a n := by
  induction n generalizing a with
  | zero => rfl
  | succ n ih =>
    simp only [readLE]
    rw [h a (by omega) (by omega), ih fun x h1 h2 => h x (by omega) (by omega)]

theorem Memory.readLE_lt (m : Memory) (a n : Nat) : m.readLE a n < 256 ^ n := by
  induction n generalizing a with
  | zero => simp [readLE]
  | succ n ih =>
    have h := ih (a + 1)
    have hb : (m.get a).toNat < 256 := (m.get a).isLt
    simp only [readLE, Nat.pow_succ]
    omega

/-- Every memory of the reset state is in its canonical form. -/
theorem State.reset_memInv : State.reset.MemInv :=
  ⟨rfl, fun _ h => (nomatch h), fun _ h => (nomatch h)⟩

end Sys2Proof.Machine
end

