-- ==== Sys2Proof/Laws/PerInstr.lean ====
section
/-! SUPPORT. Every encoded instruction's tail is zero above the length that its head's TL code gives (R133, R134): no operand
lies outside the tail that the line holds. -/

namespace Sys2Proof

theorem headTL_rawHead (r : Raw) : headTL (rawHead r) = r.tl := by
  apply BitVec.eq_of_getLsbD_eq
  intro i hi
  simp only [headTL, rawHead, BitVec.getLsbD_extractLsb', BitVec.getLsbD_append]
  have h1 : ¬ (6 + i < 6) := by omega
  have h3 : i < 3 := hi
  simp [h1, h3]

theorem toNat_setWidth_lt {w : Nat} (x : BitVec w) (v : Nat) : (x.setWidth v).toNat < 2 ^ w := by
  rw [BitVec.toNat_setWidth]
  exact Nat.lt_of_le_of_lt (Nat.mod_le _ _) x.isLt

/-- The tail of the fields lies below its length. -/
theorem rawTail_fits (r : Raw) (h : r.tl ≠ 7#3) : (rawTail r).toNat < 2 ^ tailLen r.tl := by
  obtain ⟨_, tl, _, _, _, _, _, _, _, _, _, _, _⟩ := r
  simp only at h
  have : tl = 0#3 ∨ tl = 1#3 ∨ tl = 2#3 ∨ tl = 3#3 ∨ tl = 4#3 ∨ tl = 5#3 ∨ tl = 6#3 := by
    revert h; revert tl; decide
  rcases this with rfl | rfl | rfl | rfl | rfl | rfl | rfl
  all_goals first | exact toNat_setWidth_lt _ _ | exact BitVec.isLt _ | exact Nat.one_pos

namespace Laws.TailFits

/-- What is said of each instruction: encoded, its tail has no bit above the length of its TL code. -/
def Statement (i : Instr) : Prop :=
  i.wf = true → ∀ (h : BitVec 16) (t : BitVec 128), encode i = some (h, t) → headTL h ≠ 7#3 →
    t.toNat < 2 ^ tailLen (headTL h)

theorem of_raw {i : Instr} (e : encode i = (toRaw i).map fun r => (rawHead r, rawTail r)) : Statement i := by
  intro _ h t he hn
  rw [e] at he
  cases hr : toRaw i with
  | none => simp [hr] at he
  | some r =>
    simp only [hr, Option.map_some, Option.some.injEq, Prod.mk.injEq] at he
    obtain ⟨rfl, rfl⟩ := he
    rw [headTL_rawHead] at hn ⊢
    exact rawTail_fits r hn

theorem nop : Statement .nop := by
  intro _ h t he _
  cases he
  decide

theorem nopTail_len : ∀ tl : Fin 4, tailLen (headTL (0#7 ++ BitVec.ofNat 3 (tl.val + 1) ++ 0#6)) = 16 * (tl.val + 1) := by
  decide

theorem nopTail (tl : Fin 4) (bits : BitVec 64) : Statement (.nopTail tl bits) := by
  intro hw h t he _
  replace he : some (0#7 ++ BitVec.ofNat 3 (tl.val + 1) ++ 0#6, bits.setWidth 128) = some (h, t) := he
  simp only [Option.some.injEq, Prod.mk.injEq] at he
  obtain ⟨rfl, rfl⟩ := he
  replace hw : decide (bits.toNat < 2 ^ (16 * (tl.val + 1))) = true := hw
  simp only [decide_eq_true_eq] at hw
  have ht : tailLen (headTL (0#7 ++ BitVec.ofNat 3 (tl.val + 1) ++ 0#6)) = 16 * (tl.val + 1) := nopTail_len tl
  rw [ht, BitVec.toNat_setWidth]
  exact Nat.lt_of_le_of_lt (Nat.mod_le _ _) hw

theorem halt : Statement .halt := of_raw rfl
theorem yield : Statement .yield := of_raw rfl
theorem bkpt : ∀ a, Statement (.bkpt a) := fun _ => of_raw rfl
theorem add : ∀ a, Statement (.add a) := fun _ => of_raw rfl
theorem sub : ∀ a, Statement (.sub a) := fun _ => of_raw rfl
theorem mul : ∀ a, Statement (.mul a) := fun _ => of_raw rfl
theorem mulh : ∀ a, Statement (.mulh a) := fun _ => of_raw rfl
theorem div : ∀ a, Statement (.div a) := fun _ => of_raw rfl
theorem rem : ∀ a, Statement (.rem a) := fun _ => of_raw rfl
theorem and : ∀ a, Statement (.and a) := fun _ => of_raw rfl
theorem or : ∀ a, Statement (.or a) := fun _ => of_raw rfl
theorem xor : ∀ a, Statement (.xor a) := fun _ => of_raw rfl
theorem andn : ∀ a, Statement (.andn a) := fun _ => of_raw rfl
theorem shl : ∀ a, Statement (.shl a) := fun _ => of_raw rfl
theorem shr : ∀ a, Statement (.shr a) := fun _ => of_raw rfl
theorem sar : ∀ a, Statement (.sar a) := fun _ => of_raw rfl
theorem rot : ∀ a, Statement (.rot a) := fun _ => of_raw rfl
theorem clz : ∀ a, Statement (.clz a) := fun _ => of_raw rfl
theorem ctz : ∀ a, Statement (.ctz a) := fun _ => of_raw rfl
theorem popc : ∀ a, Statement (.popc a) := fun _ => of_raw rfl
theorem min : ∀ a, Statement (.min a) := fun _ => of_raw rfl
theorem max : ∀ a, Statement (.max a) := fun _ => of_raw rfl
theorem abs : ∀ a, Statement (.abs a) := fun _ => of_raw rfl
theorem neg : ∀ a, Statement (.neg a) := fun _ => of_raw rfl
theorem cmp : ∀ a, Statement (.cmp a) := fun _ => of_raw rfl
theorem sel : ∀ a, Statement (.sel a) := fun _ => of_raw rfl
theorem movi : ∀ a, Statement (.movi a) := fun _ => of_raw rfl
theorem movhi : ∀ a, Statement (.movhi a) := fun _ => of_raw rfl
theorem ext : ∀ a, Statement (.ext a) := fun _ => of_raw rfl
theorem bfx : ∀ a, Statement (.bfx a) := fun _ => of_raw rfl
theorem bfi : ∀ a, Statement (.bfi a) := fun _ => of_raw rfl
theorem lea : ∀ a, Statement (.lea a) := fun _ => of_raw rfl
theorem madr : ∀ a, Statement (.madr a) := fun _ => of_raw rfl
theorem mov : ∀ a, Statement (.mov a) := fun _ => of_raw rfl
theorem pand : ∀ a, Statement (.pand a) := fun _ => of_raw rfl
theorem por : ∀ a, Statement (.por a) := fun _ => of_raw rfl
theorem pxor : ∀ a, Statement (.pxor a) := fun _ => of_raw rfl
theorem pnot : ∀ a, Statement (.pnot a) := fun _ => of_raw rfl
theorem pmov : ∀ a, Statement (.pmov a) := fun _ => of_raw rfl
theorem pany : ∀ a, Statement (.pany a) := fun _ => of_raw rfl
theorem br : ∀ a, Statement (.br a) := fun _ => of_raw rfl
theorem brp : ∀ a b, Statement (.brp a b) := fun _ _ => of_raw rfl
theorem bcmp : ∀ a, Statement (.bcmp a) := fun _ => of_raw rfl
theorem call : ∀ a, Statement (.call a) := fun _ => of_raw rfl
theorem calli : ∀ a, Statement (.calli a) := fun _ => of_raw rfl
theorem ret : Statement .ret := of_raw rfl
theorem retReg : ∀ a, Statement (.retReg a) := fun _ => of_raw rfl
theorem jmpi : ∀ a, Statement (.jmpi a) := fun _ => of_raw rfl
theorem loop : ∀ a b c, Statement (.loop a b c) := fun _ _ _ => of_raw rfl
theorem waitev : Statement .waitev := of_raw rfl
theorem waitevGuarded : ∀ a, Statement (.waitevGuarded a) := fun _ => of_raw rfl
theorem eventWake : ∀ a b, Statement (.eventWake a b) := fun _ _ => of_raw rfl
theorem trap : ∀ a, Statement (.trap a) := fun _ => of_raw rfl
theorem eret : Statement .eret := of_raw rfl
theorem aptest : ∀ a, Statement (.aptest a) := fun _ => of_raw rfl
theorem apcvt : ∀ a, Statement (.apcvt a) := fun _ => of_raw rfl
theorem time : ∀ a, Statement (.time a) := fun _ => of_raw rfl
theorem meter : ∀ a, Statement (.meter a) := fun _ => of_raw rfl
theorem deferredCauseTake : ∀ a b, Statement (.deferredCauseTake a b) := fun _ _ => of_raw rfl
theorem vadd : ∀ a, Statement (.vadd a) := fun _ => of_raw rfl
theorem vsub : ∀ a, Statement (.vsub a) := fun _ => of_raw rfl
theorem vmul : ∀ a, Statement (.vmul a) := fun _ => of_raw rfl
theorem vfma : ∀ a, Statement (.vfma a) := fun _ => of_raw rfl
theorem vdiv : ∀ a, Statement (.vdiv a) := fun _ => of_raw rfl
theorem vsqrt : ∀ a, Statement (.vsqrt a) := fun _ => of_raw rfl
theorem vmin : ∀ a, Statement (.vmin a) := fun _ => of_raw rfl
theorem vmax : ∀ a, Statement (.vmax a) := fun _ => of_raw rfl
theorem vabs : ∀ a, Statement (.vabs a) := fun _ => of_raw rfl
theorem vneg : ∀ a, Statement (.vneg a) := fun _ => of_raw rfl
theorem vcmp : ∀ a, Statement (.vcmp a) := fun _ => of_raw rfl
theorem vsel : ∀ a, Statement (.vsel a) := fun _ => of_raw rfl
theorem vlog : ∀ a, Statement (.vlog a) := fun _ => of_raw rfl
theorem vsh : ∀ a, Statement (.vsh a) := fun _ => of_raw rfl
theorem vcvt : ∀ a, Statement (.vcvt a) := fun _ => of_raw rfl
theorem vfn : ∀ a, Statement (.vfn a) := fun _ => of_raw rfl
theorem vred : ∀ a, Statement (.vred a) := fun _ => of_raw rfl
theorem vscan : ∀ a, Statement (.vscan a) := fun _ => of_raw rfl
theorem vperm : ∀ a, Statement (.vperm a) := fun _ => of_raw rfl
theorem vbcast : ∀ a, Statement (.vbcast a) := fun _ => of_raw rfl
theorem vext : ∀ a, Statement (.vext a) := fun _ => of_raw rfl
theorem vins : ∀ a, Statement (.vins a) := fun _ => of_raw rfl
theorem vmov : ∀ a, Statement (.vmov a) := fun _ => of_raw rfl
theorem vclass : ∀ a, Statement (.vclass a) := fun _ => of_raw rfl
theorem flg : ∀ a, Statement (.flg a) := fun _ => of_raw rfl
theorem flgMasked : ∀ a, Statement (.flgMasked a) := fun _ => of_raw rfl
theorem badd : ∀ a, Statement (.badd a) := fun _ => of_raw rfl
theorem bmul : ∀ a, Statement (.bmul a) := fun _ => of_raw rfl
theorem bfma : ∀ a, Statement (.bfma a) := fun _ => of_raw rfl
theorem bnorm : ∀ a, Statement (.bnorm a) := fun _ => of_raw rfl
theorem brenorm : ∀ a, Statement (.brenorm a) := fun _ => of_raw rfl
theorem bquant : ∀ a, Statement (.bquant a) := fun _ => of_raw rfl
theorem bdeq : ∀ a, Statement (.bdeq a) := fun _ => of_raw rfl
theorem bscale : ∀ a, Statement (.bscale a) := fun _ => of_raw rfl
theorem bscalePow2 : ∀ a, Statement (.bscalePow2 a) := fun _ => of_raw rfl
theorem bdot : ∀ a, Statement (.bdot a) := fun _ => of_raw rfl
theorem vectorComplete : ∀ a b, Statement (.vectorComplete a b) := fun _ _ => of_raw rfl
theorem mcfg : ∀ a, Statement (.mcfg a) := fun _ => of_raw rfl
theorem mrun : ∀ a, Statement (.mrun a) := fun _ => of_raw rfl
theorem mfeed : ∀ a, Statement (.mfeed a) := fun _ => of_raw rfl
theorem mzero : ∀ a, Statement (.mzero a) := fun _ => of_raw rfl
theorem mload : ∀ a, Statement (.mload a) := fun _ => of_raw rfl
theorem mdrainVector : ∀ a, Statement (.mdrainVector a) := fun _ => of_raw rfl
theorem mdrainSram : ∀ a, Statement (.mdrainSram a) := fun _ => of_raw rfl
theorem mstat : ∀ a, Statement (.mstat a) := fun _ => of_raw rfl
theorem scancfg : ∀ a, Statement (.scancfg a) := fun _ => of_raw rfl
theorem scan : ∀ a, Statement (.scan a) := fun _ => of_raw rfl
theorem scanstSave : ∀ a, Statement (.scanstSave a) := fun _ => of_raw rfl
theorem scanstLoad : ∀ a, Statement (.scanstLoad a) := fun _ => of_raw rfl
theorem operandPairTake : ∀ a, Statement (.operandPairTake a) := fun _ => of_raw rfl
theorem scaleTokenTake : ∀ a b, Statement (.scaleTokenTake a b) := fun _ _ => of_raw rfl
theorem mrunComplete : ∀ a, Statement (.mrunComplete a) := fun _ => of_raw rfl
theorem mfeedComplete : ∀ a b, Statement (.mfeedComplete a b) := fun _ _ => of_raw rfl
theorem scanChunk : ∀ a, Statement (.scanChunk a) := fun _ => of_raw rfl
theorem scanStep : ∀ a, Statement (.scanStep a) := fun _ => of_raw rfl
theorem scanComplete : ∀ a, Statement (.scanComplete a) := fun _ => of_raw rfl
theorem ld : ∀ a, Statement (.ld a) := fun _ => of_raw rfl
theorem st : ∀ a, Statement (.st a) := fun _ => of_raw rfl
theorem lds : ∀ a, Statement (.lds a) := fun _ => of_raw rfl
theorem stf : ∀ a, Statement (.stf a) := fun _ => of_raw rfl
theorem fesetFull : ∀ a, Statement (.fesetFull a) := fun _ => of_raw rfl
theorem fesetEmpty : ∀ a, Statement (.fesetEmpty a) := fun _ => of_raw rfl
theorem fetest : ∀ a, Statement (.fetest a) := fun _ => of_raw rfl
theorem ldv : ∀ a, Statement (.ldv a) := fun _ => of_raw rfl
theorem stv : ∀ a, Statement (.stv a) := fun _ => of_raw rfl
theorem ldb : ∀ a, Statement (.ldb a) := fun _ => of_raw rfl
theorem stb : ∀ a, Statement (.stb a) := fun _ => of_raw rfl
theorem ldg : ∀ a, Statement (.ldg a) := fun _ => of_raw rfl
theorem stg : ∀ a, Statement (.stg a) := fun _ => of_raw rfl
theorem ldgv : ∀ a, Statement (.ldgv a) := fun _ => of_raw rfl
theorem stgv : ∀ a, Statement (.stgv a) := fun _ => of_raw rfl
theorem amo : ∀ a, Statement (.amo a) := fun _ => of_raw rfl
theorem amog : ∀ a, Statement (.amog a) := fun _ => of_raw rfl
theorem fence : ∀ a, Statement (.fence a) := fun _ => of_raw rfl
theorem mon : ∀ a, Statement (.mon a) := fun _ => of_raw rfl
theorem mwait : ∀ a, Statement (.mwait a) := fun _ => of_raw rfl
theorem mwaitTimeout : ∀ a b, Statement (.mwaitTimeout a b) := fun _ _ => of_raw rfl
theorem globalLoadReturn : ∀ a b c, Statement (.globalLoadReturn a b c) := fun _ _ _ => of_raw rfl
theorem globalAccessPerform : ∀ a b c, Statement (.globalAccessPerform a b c) := fun _ _ _ => of_raw rfl
theorem send : ∀ a, Statement (.send a) := fun _ => of_raw rfl
theorem sendv : ∀ a, Statement (.sendv a) := fun _ => of_raw rfl
theorem sendb : ∀ a, Statement (.sendb a) := fun _ => of_raw rfl
theorem messageInject : ∀ a b, Statement (.messageInject a b) := fun _ _ => of_raw rfl
theorem tagset : ∀ a, Statement (.tagset a) := fun _ => of_raw rfl
theorem tagget : ∀ a, Statement (.tagget a) := fun _ => of_raw rfl
theorem chk : ∀ a, Statement (.chk a) := fun _ => of_raw rfl
theorem semsig : ∀ a, Statement (.semsig a) := fun _ => of_raw rfl
theorem semwait : ∀ a, Statement (.semwait a) := fun _ => of_raw rfl
theorem semget : ∀ a, Statement (.semget a) := fun _ => of_raw rfl
theorem semset : ∀ a, Statement (.semset a) := fun _ => of_raw rfl
theorem shape : ∀ a, Statement (.shape a) := fun _ => of_raw rfl
theorem copy : ∀ a, Statement (.copy a) := fun _ => of_raw rfl
theorem copyRing : ∀ a, Statement (.copyRing a) := fun _ => of_raw rfl
theorem copyTileComplete : ∀ a b c, Statement (.copyTileComplete a b c) := fun _ _ _ => of_raw rfl
theorem copyComplete : ∀ a b, Statement (.copyComplete a b) := fun _ _ => of_raw rfl
theorem space : ∀ a, Statement (.space a) := fun _ => of_raw rfl
theorem freeSpaceNotice : ∀ a b, Statement (.freeSpaceNotice a b) := fun _ _ => of_raw rfl
theorem cntwait : ∀ a, Statement (.cntwait a) := fun _ => of_raw rfl
theorem berthOut : ∀ a, Statement (.berthOut a) := fun _ => of_raw rfl
theorem berthIn : ∀ a, Statement (.berthIn a) := fun _ => of_raw rfl
theorem berthClose : ∀ a, Statement (.berthClose a) := fun _ => of_raw rfl
theorem berthDataArrival : ∀ a b, Statement (.berthDataArrival a b) := fun _ _ => of_raw rfl
theorem tide : ∀ a, Statement (.tide a) := fun _ => of_raw rfl
theorem tidewait : ∀ a, Statement (.tidewait a) := fun _ => of_raw rfl
theorem tideq : ∀ a, Statement (.tideq a) := fun _ => of_raw rfl
theorem chunkinit : ∀ a, Statement (.chunkinit a) := fun _ => of_raw rfl
theorem getchunk : ∀ a, Statement (.getchunk a) := fun _ => of_raw rfl
theorem tideContributionArrival : ∀ a b, Statement (.tideContributionArrival a b) := fun _ _ => of_raw rfl
theorem tideWithdrawal : ∀ a b, Statement (.tideWithdrawal a b) := fun _ _ => of_raw rfl
theorem homeQueryRequest : ∀ a b, Statement (.homeQueryRequest a b) := fun _ _ => of_raw rfl
theorem chunkRequest : ∀ a b, Statement (.chunkRequest a b) := fun _ _ => of_raw rfl
theorem tideAnswerArrival : ∀ a b, Statement (.tideAnswerArrival a b) := fun _ _ => of_raw rfl
theorem lace : ∀ a, Statement (.lace a) := fun _ => of_raw rfl
theorem unlace : Statement .unlace := of_raw rfl
theorem unlaceStatus : ∀ a, Statement (.unlaceStatus a) := fun _ => of_raw rfl
theorem relace : ∀ a, Statement (.relace a) := fun _ => of_raw rfl
theorem laceq : ∀ a, Statement (.laceq a) := fun _ => of_raw rfl
theorem laceForwardHead : ∀ a, Statement (.laceForwardHead a) := fun _ => of_raw rfl
theorem laceTimeout : ∀ a b, Statement (.laceTimeout a b) := fun _ _ => of_raw rfl
theorem spawn : ∀ a, Statement (.spawn a) := fun _ => of_raw rfl
theorem migrate : ∀ a, Statement (.migrate a) := fun _ => of_raw rfl
theorem taskid : ∀ a, Statement (.taskid a) := fun _ => of_raw rfl
theorem messageArrival : ∀ a b, Statement (.messageArrival a b) := fun _ _ => of_raw rfl
theorem deliver : ∀ a b, Statement (.deliver a b) := fun _ _ => of_raw rfl
theorem deposit : ∀ a b, Statement (.deposit a b) := fun _ _ => of_raw rfl
theorem addblock : ∀ a b, Statement (.addblock a b) := fun _ _ => of_raw rfl
theorem inline : ∀ a b, Statement (.inline a b) := fun _ _ => of_raw rfl
theorem wake : ∀ a b, Statement (.wake a b) := fun _ _ => of_raw rfl
theorem tideAction : ∀ a b, Statement (.tideAction a b) := fun _ _ => of_raw rfl
theorem lockedContribution : ∀ a b, Statement (.lockedContribution a b) := fun _ _ => of_raw rfl
theorem renorm : ∀ a b, Statement (.renorm a b) := fun _ _ => of_raw rfl
theorem newExponentNotice : ∀ a b, Statement (.newExponentNotice a b) := fun _ _ => of_raw rfl
theorem sysmsg : ∀ a b, Statement (.sysmsg a b) := fun _ _ => of_raw rfl
theorem mfs : ∀ a, Statement (.mfs a) := fun _ => of_raw rfl
theorem mts : ∀ a, Statement (.mts a) := fun _ => of_raw rfl
theorem invalS1Page : ∀ a, Statement (.invalS1Page a) := fun _ => of_raw rfl
theorem invalS1All : ∀ a, Statement (.invalS1All a) := fun _ => of_raw rfl
theorem invalS2Page : ∀ a, Statement (.invalS2Page a) := fun _ => of_raw rfl
theorem invalS2All : ∀ a, Statement (.invalS2All a) := fun _ => of_raw rfl
theorem ctxsv : ∀ a, Statement (.ctxsv a) := fun _ => of_raw rfl
theorem ctxld : ∀ a, Statement (.ctxld a) := fun _ => of_raw rfl
theorem sramclr : ∀ a, Statement (.sramclr a) := fun _ => of_raw rfl
theorem frmld : ∀ a, Statement (.frmld a) := fun _ => of_raw rfl
theorem frminv : ∀ a, Statement (.frminv a) := fun _ => of_raw rfl
theorem grpset : ∀ a, Statement (.grpset a) := fun _ => of_raw rfl
theorem rankset : ∀ a, Statement (.rankset a) := fun _ => of_raw rfl
theorem rankTableUpdateAck : ∀ a b, Statement (.rankTableUpdateAck a b) := fun _ _ => of_raw rfl
theorem streamRestart : ∀ a b, Statement (.streamRestart a b) := fun _ _ => of_raw rfl
theorem streamEnd : ∀ a b, Statement (.streamEnd a b) := fun _ _ => of_raw rfl
theorem migtRequestAct : ∀ a b, Statement (.migtRequestAct a b) := fun _ _ => of_raw rfl
theorem watchdog : ∀ a b, Statement (.watchdog a b) := fun _ _ => of_raw rfl
theorem launchPacket : ∀ a, Statement (.launchPacket a) := fun _ => of_raw rfl
theorem dependenceSatisfied : ∀ a b, Statement (.dependenceSatisfied a b) := fun _ _ => of_raw rfl
theorem launchPlace : ∀ a, Statement (.launchPlace a) := fun _ => of_raw rfl
theorem launchStart : ∀ a b, Statement (.launchStart a b) := fun _ _ => of_raw rfl
theorem launchComplete : ∀ a b, Statement (.launchComplete a b) := fun _ _ => of_raw rfl
theorem preemptPhase1 : ∀ a, Statement (.preemptPhase1 a) := fun _ => of_raw rfl
theorem preemptPhase2 : ∀ a, Statement (.preemptPhase2 a) := fun _ => of_raw rfl
theorem preemptPhase3 : ∀ a, Statement (.preemptPhase3 a) := fun _ => of_raw rfl
theorem preemptResume : ∀ a b, Statement (.preemptResume a b) := fun _ _ => of_raw rfl
theorem moveFlushMarker : ∀ a, Statement (.moveFlushMarker a) := fun _ => of_raw rfl
theorem moveCopy : ∀ a, Statement (.moveCopy a) := fun _ => of_raw rfl
theorem translationRequest : ∀ a b, Statement (.translationRequest a b) := fun _ _ => of_raw rfl
theorem walkComplete : ∀ a b c, Statement (.walkComplete a b c) := fun _ _ _ => of_raw rfl
theorem invalDrop : ∀ a, Statement (.invalDrop a) := fun _ => of_raw rfl
theorem balanceAddReturn : ∀ a, Statement (.balanceAddReturn a) := fun _ => of_raw rfl
theorem railVoteUpdate : ∀ a, Statement (.railVoteUpdate a) := fun _ => of_raw rfl
theorem tokenRefill : ∀ a, Statement (.tokenRefill a) := fun _ => of_raw rfl
theorem sramScrub : ∀ a, Statement (.sramScrub a) := fun _ => of_raw rfl
theorem sampleLogWrite : ∀ a, Statement (.sampleLogWrite a) := fun _ => of_raw rfl
theorem orderLogStop : ∀ a b c d, Statement (.orderLogStop a b c d) := fun _ _ _ _ => of_raw rfl
theorem berthCredit : ∀ a, Statement (.berthCredit a) := fun _ => of_raw rfl
theorem berthJoin : ∀ a, Statement (.berthJoin a) := fun _ => of_raw rfl
theorem sysRemoteAccess : ∀ a, Statement (.sysRemoteAccess a) := fun _ => of_raw rfl
theorem lcWrite : ∀ a b c d, Statement (.lcWrite a b c d) := fun _ _ _ _ => of_raw rfl
theorem stackRegWrite : ∀ a b c d, Statement (.stackRegWrite a b c d) := fun _ _ _ _ => of_raw rfl
theorem tstWrite : ∀ a b c d, Statement (.tstWrite a b c d) := fun _ _ _ _ => of_raw rfl
theorem wdogWrite : ∀ a b, Statement (.wdogWrite a b) := fun _ _ => of_raw rfl
theorem partdefWrite : ∀ a b, Statement (.partdefWrite a b) := fun _ _ => of_raw rfl
theorem rvoteWrite : ∀ a b, Statement (.rvoteWrite a b) := fun _ _ => of_raw rfl
theorem migtWrite : ∀ a b c, Statement (.migtWrite a b c) := fun _ _ _ => of_raw rfl
theorem lcstateWrite : ∀ a, Statement (.lcstateWrite a) := fun _ => of_raw rfl
theorem reprowWrite : ∀ a b, Statement (.reprowWrite a b) := fun _ _ => of_raw rfl
theorem stopEntryWrite : ∀ a b c, Statement (.stopEntryWrite a b c) := fun _ _ _ => of_raw rfl
theorem ownerWrite : ∀ a b c d, Statement (.ownerWrite a b c d) := fun _ _ _ _ => of_raw rfl
theorem ologctlWrite : ∀ a b, Statement (.ologctlWrite a b) := fun _ _ => of_raw rfl
theorem eccstatRead : ∀ a, Statement (.eccstatRead a) := fun _ => of_raw rfl
theorem launchApertureWrite : ∀ a b c d, Statement (.launchApertureWrite a b c d) := fun _ _ _ _ => of_raw rfl
theorem meteringBoundary : ∀ a b, Statement (.meteringBoundary a b) := fun _ _ => of_raw rfl
theorem quayGrantWindow : ∀ a b, Statement (.quayGrantWindow a b) := fun _ _ => of_raw rfl
theorem memoryThrottleReport : ∀ a b, Statement (.memoryThrottleReport a b) := fun _ _ => of_raw rfl
theorem devloadResponse : ∀ a b, Statement (.devloadResponse a b) := fun _ _ => of_raw rfl
theorem devloadRestore : ∀ a, Statement (.devloadRestore a) := fun _ => of_raw rfl
theorem sensorRead : ∀ a b, Statement (.sensorRead a b) := fun _ _ => of_raw rfl
theorem railRepower : ∀ a, Statement (.railRepower a) := fun _ => of_raw rfl
theorem flitCheckFail : ∀ a b c, Statement (.flitCheckFail a b c) := fun _ _ _ => of_raw rfl
theorem parityError : ∀ a b, Statement (.parityError a b) := fun _ _ => of_raw rfl
theorem powerOn : ∀ a b c d e f, Statement (.powerOn a b c d e f) := fun _ _ _ _ _ _ => of_raw rfl
theorem railRegulationTimeout : ∀ a, Statement (.railRegulationTimeout a) := fun _ => of_raw rfl
theorem skewMeasure : ∀ a b c, Statement (.skewMeasure a b c) := fun _ _ _ => of_raw rfl
theorem hostWrite : ∀ a b, Statement (.hostWrite a b) := fun _ _ => of_raw rfl
theorem cxlSnoop : ∀ a b, Statement (.cxlSnoop a b) := fun _ _ => of_raw rfl
theorem netRequestFrame : ∀ a, Statement (.netRequestFrame a) := fun _ => of_raw rfl
theorem netAckFrame : ∀ a b c, Statement (.netAckFrame a b c) := fun _ _ _ => of_raw rfl
theorem netRetransmitTimeout : ∀ a b, Statement (.netRetransmitTimeout a b) := fun _ _ => of_raw rfl
theorem attestationRequest : ∀ a, Statement (.attestationRequest a) := fun _ => of_raw rfl
theorem quayLaneFailure : ∀ a, Statement (.quayLaneFailure a) := fun _ => of_raw rfl
theorem ageingMonitorMeasure : ∀ a b c, Statement (.ageingMonitorMeasure a b c) := fun _ _ _ => of_raw rfl
theorem configurationRequest : ∀ a, Statement (.configurationRequest a) := fun _ => of_raw rfl

end Laws.TailFits

end Sys2Proof
end

