-- ==== Sys2Proof/Laws/Retire.lean ====
section
/-! SUPPORT. What charging, counting, retirement and taking an exception leave alone, and what they do to their slot. -/

namespace Sys2Proof.Machine

/-! ### Slots and memories through updates of a core's other parts -/

@[simp] theorem State.core_modSlot (s : State) (k : CoreId) (n : Fin 4) (g : Slot → Slot) :
    (s.modSlot k n g).core k = (s.core k).setSlot n (g (s.slot k n)) := by
  simp [State.modSlot, State.slot]
@[simp] theorem State.core_modSlot_ne (s : State) (k j : CoreId) (n : Fin 4) (g : Slot → Slot) (h : j ≠ k) :
    (s.modSlot k n g).core j = s.core j := by
  simp [State.modSlot, h]

/-- A part of a core that an update leaves alone is as before in every core. -/
theorem State.part_modCore {α : Type} (p : Core → α) (s : State) (k j : CoreId) (g : Core → Core)
    (h : p (g (s.core k)) = p (s.core k)) : p ((s.modCore k g).core j) = p (s.core j) := by
  by_cases hj : j = k
  · subst hj; simp [h]
  · simp [hj]

@[simp] theorem State.slot_modMem (s : State) (k j : CoreId) (n : Fin 4) (g : CoreMem → CoreMem) :
    (s.modMem k g).slot j n = s.slot j n := State.part_modCore (·.slot n) s k j _ rfl
@[simp] theorem State.slot_modUnits (s : State) (k j : CoreId) (n : Fin 4) (g : Units → Units) :
    (s.modUnits k g).slot j n = s.slot j n := State.part_modCore (·.slot n) s k j _ rfl
@[simp] theorem State.slot_modCoreRegs (s : State) (k j : CoreId) (n : Fin 4) (g : CoreRegs → CoreRegs) :
    (s.modCoreRegs k g).slot j n = s.slot j n := State.part_modCore (·.slot n) s k j _ rfl
@[simp] theorem State.mem_modSlot (s : State) (k j : CoreId) (n : Fin 4) (g : Slot → Slot) :
    ((s.modSlot k n g).core j).mem = (s.core j).mem := State.part_modCore (·.mem) s k j _ rfl
@[simp] theorem State.mem_modUnits (s : State) (k j : CoreId) (g : Units → Units) :
    ((s.modUnits k g).core j).mem = (s.core j).mem := State.part_modCore (·.mem) s k j _ rfl
@[simp] theorem State.mem_modCoreRegs (s : State) (k j : CoreId) (g : CoreRegs → CoreRegs) :
    ((s.modCoreRegs k g).core j).mem = (s.core j).mem := State.part_modCore (·.mem) s k j _ rfl
@[simp] theorem State.unit_modSlot (s : State) (k j : CoreId) (n : Fin 4) (g : Slot → Slot) :
    ((s.modSlot k n g).core j).unit = (s.core j).unit := State.part_modCore (·.unit) s k j _ rfl
@[simp] theorem State.unit_modCoreRegs (s : State) (k j : CoreId) (g : CoreRegs → CoreRegs) :
    ((s.modCoreRegs k g).core j).unit = (s.core j).unit := State.part_modCore (·.unit) s k j _ rfl
@[simp] theorem State.mem_modRegs (s : State) (k j : CoreId) (n : Fin 4) (g : Regs → Regs) :
    ((s.modRegs k n g).core j).mem = (s.core j).mem := State.mem_modSlot _ _ _ _ _
@[simp] theorem State.mem_modMe (s : State) (j : CoreId) (g : Slot → Slot) :
    ((s.modMe g).core j).mem = (s.core j).mem := State.mem_modSlot _ _ _ _ _

/-! ### A slot that steps on -/

@[simp] theorem Slot.popHead_r (x : Slot) (pc : Word) : (x.popHead pc).r = x.r := by
  simp only [Slot.popHead]; (repeat' split) <;> rfl
@[simp] theorem Slot.popHead_t (x : Slot) (pc : Word) : (x.popHead pc).t = x.t := by
  simp only [Slot.popHead]; (repeat' split) <;> rfl
@[simp] theorem Slot.popHead_st (x : Slot) (pc : Word) : (x.popHead pc).st = x.st := by
  simp only [Slot.popHead]; (repeat' split) <;> rfl
@[simp] theorem Slot.popHead_wait (x : Slot) (pc : Word) : (x.popHead pc).wait = x.wait := by
  simp only [Slot.popHead]; (repeat' split) <;> rfl
@[simp] theorem Slot.popHead_pc (x : Slot) (pc : Word) : (x.popHead pc).pc = x.pc := by
  simp only [Slot.popHead]; (repeat' split) <;> rfl
@[simp] theorem Slot.popHead_readyAt (x : Slot) (pc : Word) : (x.popHead pc).readyAt = x.readyAt := by
  simp only [Slot.popHead]; (repeat' split) <;> rfl
@[simp] theorem Slot.popHead_ev (x : Slot) (pc : Word) : (x.popHead pc).ev = x.ev := by
  simp only [Slot.popHead]; (repeat' split) <;> rfl
@[simp] theorem Slot.popHead_deferred (x : Slot) (pc : Word) : (x.popHead pc).deferred = x.deferred := by
  simp only [Slot.popHead]; (repeat' split) <;> rfl
@[simp] theorem Slot.popHead_gtid (x : Slot) (pc : Word) : (x.popHead pc).gtid = x.gtid := by
  simp only [Slot.popHead]; (repeat' split) <;> rfl
@[simp] theorem Slot.popHead_watch (x : Slot) (pc : Word) : (x.popHead pc).watch = x.watch := by
  simp only [Slot.popHead]; (repeat' split) <;> rfl
@[simp] theorem Slot.popHead_grant (x : Slot) (pc : Word) : (x.popHead pc).grant = x.grant := by
  simp only [Slot.popHead]; (repeat' split) <;> rfl
@[simp] theorem Slot.popHead_answers (x : Slot) (pc : Word) : (x.popHead pc).answers = x.answers := by
  simp only [Slot.popHead]; (repeat' split) <;> rfl
@[simp] theorem Slot.popHead_reply (x : Slot) (pc : Word) : (x.popHead pc).reply = x.reply := by
  simp only [Slot.popHead]; (repeat' split) <;> rfl
@[simp] theorem Slot.popHead_asked (x : Slot) (pc : Word) : (x.popHead pc).asked = x.asked := by
  simp only [Slot.popHead]; (repeat' split) <;> rfl
@[simp] theorem Slot.popHead_pastStop (x : Slot) (pc : Word) : (x.popHead pc).pastStop = x.pastStop := by
  simp only [Slot.popHead]; (repeat' split) <;> rfl
@[simp] theorem Slot.popHead_slept (x : Slot) (pc : Word) : (x.popHead pc).slept = x.slept := by
  simp only [Slot.popHead]; (repeat' split) <;> rfl
@[simp] theorem Slot.stepTo_r (x : Slot) (lc : Vector LoopCtr 2) (pc : Word) (now : Nat) :
    (x.stepTo lc pc now).r = { x.r with lc := lc } := Slot.popHead_r _ _
@[simp] theorem Slot.stepTo_t (x : Slot) (lc : Vector LoopCtr 2) (pc : Word) (now : Nat) :
    (x.stepTo lc pc now).t = x.t := Slot.popHead_t _ _
@[simp] theorem Slot.stepTo_st (x : Slot) (lc : Vector LoopCtr 2) (pc : Word) (now : Nat) :
    (x.stepTo lc pc now).st = .ready := Slot.popHead_st _ _
@[simp] theorem Slot.stepTo_wait (x : Slot) (lc : Vector LoopCtr 2) (pc : Word) (now : Nat) :
    (x.stepTo lc pc now).wait = .none := Slot.popHead_wait _ _
@[simp] theorem Slot.stepTo_pc (x : Slot) (lc : Vector LoopCtr 2) (pc : Word) (now : Nat) :
    (x.stepTo lc pc now).pc = pc := Slot.popHead_pc _ _
@[simp] theorem Slot.stepTo_readyAt (x : Slot) (lc : Vector LoopCtr 2) (pc : Word) (now : Nat) :
    (x.stepTo lc pc now).readyAt = now := Slot.popHead_readyAt _ _
@[simp] theorem Slot.stepTo_ev (x : Slot) (lc : Vector LoopCtr 2) (pc : Word) (now : Nat) :
    (x.stepTo lc pc now).ev = x.ev := Slot.popHead_ev _ _
@[simp] theorem Slot.stepTo_deferred (x : Slot) (lc : Vector LoopCtr 2) (pc : Word) (now : Nat) :
    (x.stepTo lc pc now).deferred = x.deferred := Slot.popHead_deferred _ _
@[simp] theorem Slot.stepTo_gtid (x : Slot) (lc : Vector LoopCtr 2) (pc : Word) (now : Nat) :
    (x.stepTo lc pc now).gtid = x.gtid := Slot.popHead_gtid _ _
@[simp] theorem Slot.stepTo_watch (x : Slot) (lc : Vector LoopCtr 2) (pc : Word) (now : Nat) :
    (x.stepTo lc pc now).watch = x.watch := Slot.popHead_watch _ _
@[simp] theorem Slot.stepTo_grant (x : Slot) (lc : Vector LoopCtr 2) (pc : Word) (now : Nat) :
    (x.stepTo lc pc now).grant = none := Slot.popHead_grant _ _
@[simp] theorem Slot.stepTo_answers (x : Slot) (lc : Vector LoopCtr 2) (pc : Word) (now : Nat) :
    (x.stepTo lc pc now).answers = x.answers := Slot.popHead_answers _ _
@[simp] theorem Slot.stepTo_reply (x : Slot) (lc : Vector LoopCtr 2) (pc : Word) (now : Nat) :
    (x.stepTo lc pc now).reply = none := Slot.popHead_reply _ _
@[simp] theorem Slot.stepTo_asked (x : Slot) (lc : Vector LoopCtr 2) (pc : Word) (now : Nat) :
    (x.stepTo lc pc now).asked = false := Slot.popHead_asked _ _
@[simp] theorem Slot.stepTo_pastStop (x : Slot) (lc : Vector LoopCtr 2) (pc : Word) (now : Nat) :
    (x.stepTo lc pc now).pastStop = false := Slot.popHead_pastStop _ _
@[simp] theorem Slot.stepTo_slept (x : Slot) (lc : Vector LoopCtr 2) (pc : Word) (now : Nat) :
    (x.stepTo lc pc now).slept = none := Slot.popHead_slept _ _

/-! ### Retirement -/

/-- Forwarding a head to lace followers touches nothing but the heads on the wire (R81). -/
theorem State.forward_eq (s : State) (k : CoreId) (sl : Fin 4) (pc target : Word) :
    ∃ l, s.forward k sl pc target = { s with laces := l } := by
  simp only [State.forward]
  split
  · exact ⟨_, rfl⟩
  · exact ⟨s.laces, rfl⟩

@[simp] theorem State.charge_slot (s : State) (k j : CoreId) (sl n : Fin 4) (c : Fin 32) (m : Nat) :
    (s.charge k sl c m).slot j n = s.slot j n := State.slot_modCoreRegs _ _ _ _ _
@[simp] theorem State.count_slot (s : State) (k j : CoreId) (sl : Option (Fin 4)) (n : Fin 4) (c m : Nat) :
    (s.count k c sl m).slot j n = s.slot j n := State.slot_modCoreRegs _ _ _ _ _
@[simp] theorem State.charge_mem (s : State) (k j : CoreId) (sl : Fin 4) (c : Fin 32) (m : Nat) :
    ((s.charge k sl c m).core j).mem = (s.core j).mem := State.mem_modCoreRegs _ _ _ _
@[simp] theorem State.count_mem (s : State) (k j : CoreId) (sl : Option (Fin 4)) (c m : Nat) :
    ((s.count k c sl m).core j).mem = (s.core j).mem := State.mem_modCoreRegs _ _ _ _
@[simp] theorem State.forward_cores (s : State) (k : CoreId) (sl : Fin 4) (pc target : Word) :
    (s.forward k sl pc target).cores = s.cores := by
  obtain ⟨l, h⟩ := s.forward_eq k sl pc target; rw [h]
theorem State.forward_core (s : State) (k j : CoreId) (sl : Fin 4) (pc target : Word) :
    (s.forward k sl pc target).core j = s.core j := by simp [State.core]
@[simp] theorem State.forward_slot (s : State) (k j : CoreId) (sl n : Fin 4) (pc target : Word) :
    (s.forward k sl pc target).slot j n = s.slot j n := by simp [State.slot, State.forward_core]

@[simp] theorem State.charge_fields (s : State) (k : CoreId) (sl : Fin 4) (c : Fin 32) (m : Nat) : (s.charge k sl c m).fields = s.fields := rfl
@[simp] theorem State.count_fields (s : State) (k : CoreId) (c : Nat) (sl : Option (Fin 4)) (m : Nat) : (s.count k c sl m).fields = s.fields := rfl
@[simp] theorem State.forward_fields (s : State) (k : CoreId) (sl : Fin 4) (pc q : Word) : (s.forward k sl pc q).fields = s.fields := by
  obtain ⟨l, h⟩ := s.forward_eq k sl pc q; rw [h]
@[simp] theorem State.charge_parts (s : State) (k : CoreId) (sl : Fin 4) (c : Fin 32) (m : Nat) : (s.charge k sl c m).parts = s.parts := rfl
@[simp] theorem State.count_parts (s : State) (k : CoreId) (c : Nat) (sl : Option (Fin 4)) (m : Nat) : (s.count k c sl m).parts = s.parts := rfl
@[simp] theorem State.forward_parts (s : State) (k : CoreId) (sl : Fin 4) (pc q : Word) : (s.forward k sl pc q).parts = s.parts := by
  obtain ⟨l, h⟩ := s.forward_eq k sl pc q; rw [h]
@[simp] theorem State.charge_vfs (s : State) (k : CoreId) (sl : Fin 4) (c : Fin 32) (m : Nat) : (s.charge k sl c m).vfs = s.vfs := rfl
@[simp] theorem State.count_vfs (s : State) (k : CoreId) (c : Nat) (sl : Option (Fin 4)) (m : Nat) : (s.count k c sl m).vfs = s.vfs := rfl
@[simp] theorem State.forward_vfs (s : State) (k : CoreId) (sl : Fin 4) (pc q : Word) : (s.forward k sl pc q).vfs = s.vfs := by
  obtain ⟨l, h⟩ := s.forward_eq k sl pc q; rw [h]
@[simp] theorem State.charge_quays (s : State) (k : CoreId) (sl : Fin 4) (c : Fin 32) (m : Nat) : (s.charge k sl c m).quays = s.quays := rfl
@[simp] theorem State.count_quays (s : State) (k : CoreId) (c : Nat) (sl : Option (Fin 4)) (m : Nat) : (s.count k c sl m).quays = s.quays := rfl
@[simp] theorem State.forward_quays (s : State) (k : CoreId) (sl : Fin 4) (pc q : Word) : (s.forward k sl pc q).quays = s.quays := by
  obtain ⟨l, h⟩ := s.forward_eq k sl pc q; rw [h]
@[simp] theorem State.charge_sensors (s : State) (k : CoreId) (sl : Fin 4) (c : Fin 32) (m : Nat) : (s.charge k sl c m).sensors = s.sensors := rfl
@[simp] theorem State.count_sensors (s : State) (k : CoreId) (c : Nat) (sl : Option (Fin 4)) (m : Nat) : (s.count k c sl m).sensors = s.sensors := rfl
@[simp] theorem State.forward_sensors (s : State) (k : CoreId) (sl : Fin 4) (pc q : Word) : (s.forward k sl pc q).sensors = s.sensors := by
  obtain ⟨l, h⟩ := s.forward_eq k sl pc q; rw [h]
@[simp] theorem State.charge_regs (s : State) (k : CoreId) (sl : Fin 4) (c : Fin 32) (m : Nat) : (s.charge k sl c m).regs = s.regs := rfl
@[simp] theorem State.count_regs (s : State) (k : CoreId) (c : Nat) (sl : Option (Fin 4)) (m : Nat) : (s.count k c sl m).regs = s.regs := rfl
@[simp] theorem State.forward_regs (s : State) (k : CoreId) (sl : Fin 4) (pc q : Word) : (s.forward k sl pc q).regs = s.regs := by
  obtain ⟨l, h⟩ := s.forward_eq k sl pc q; rw [h]
@[simp] theorem State.charge_gmem (s : State) (k : CoreId) (sl : Fin 4) (c : Fin 32) (m : Nat) : (s.charge k sl c m).gmem = s.gmem := rfl
@[simp] theorem State.count_gmem (s : State) (k : CoreId) (c : Nat) (sl : Option (Fin 4)) (m : Nat) : (s.count k c sl m).gmem = s.gmem := rfl
@[simp] theorem State.forward_gmem (s : State) (k : CoreId) (sl : Fin 4) (pc q : Word) : (s.forward k sl pc q).gmem = s.gmem := by
  obtain ⟨l, h⟩ := s.forward_eq k sl pc q; rw [h]
@[simp] theorem State.charge_watches (s : State) (k : CoreId) (sl : Fin 4) (c : Fin 32) (m : Nat) : (s.charge k sl c m).watches = s.watches := rfl
@[simp] theorem State.count_watches (s : State) (k : CoreId) (c : Nat) (sl : Option (Fin 4)) (m : Nat) : (s.count k c sl m).watches = s.watches := rfl
@[simp] theorem State.forward_watches (s : State) (k : CoreId) (sl : Fin 4) (pc q : Word) : (s.forward k sl pc q).watches = s.watches := by
  obtain ⟨l, h⟩ := s.forward_eq k sl pc q; rw [h]
@[simp] theorem State.charge_mesh (s : State) (k : CoreId) (sl : Fin 4) (c : Fin 32) (m : Nat) : (s.charge k sl c m).mesh = s.mesh := rfl
@[simp] theorem State.count_mesh (s : State) (k : CoreId) (c : Nat) (sl : Option (Fin 4)) (m : Nat) : (s.count k c sl m).mesh = s.mesh := rfl
@[simp] theorem State.forward_mesh (s : State) (k : CoreId) (sl : Fin 4) (pc q : Word) : (s.forward k sl pc q).mesh = s.mesh := by
  obtain ⟨l, h⟩ := s.forward_eq k sl pc q; rw [h]
@[simp] theorem State.charge_laces (s : State) (k : CoreId) (sl : Fin 4) (c : Fin 32) (m : Nat) : (s.charge k sl c m).laces = s.laces := rfl
@[simp] theorem State.count_laces (s : State) (k : CoreId) (c : Nat) (sl : Option (Fin 4)) (m : Nat) : (s.count k c sl m).laces = s.laces := rfl
@[simp] theorem State.charge_drops (s : State) (k : CoreId) (sl : Fin 4) (c : Fin 32) (m : Nat) : (s.charge k sl c m).drops = s.drops := rfl
@[simp] theorem State.count_drops (s : State) (k : CoreId) (c : Nat) (sl : Option (Fin 4)) (m : Nat) : (s.count k c sl m).drops = s.drops := rfl
@[simp] theorem State.forward_drops (s : State) (k : CoreId) (sl : Fin 4) (pc q : Word) : (s.forward k sl pc q).drops = s.drops := by
  obtain ⟨l, h⟩ := s.forward_eq k sl pc q; rw [h]
@[simp] theorem State.charge_sys (s : State) (k : CoreId) (sl : Fin 4) (c : Fin 32) (m : Nat) : (s.charge k sl c m).sys = s.sys := rfl
@[simp] theorem State.count_sys (s : State) (k : CoreId) (c : Nat) (sl : Option (Fin 4)) (m : Nat) : (s.count k c sl m).sys = s.sys := rfl
@[simp] theorem State.forward_sys (s : State) (k : CoreId) (sl : Fin 4) (pc q : Word) : (s.forward k sl pc q).sys = s.sys := by
  obtain ⟨l, h⟩ := s.forward_eq k sl pc q; rw [h]
@[simp] theorem State.charge_adds (s : State) (k : CoreId) (sl : Fin 4) (c : Fin 32) (m : Nat) : (s.charge k sl c m).adds = s.adds := rfl
@[simp] theorem State.count_adds (s : State) (k : CoreId) (c : Nat) (sl : Option (Fin 4)) (m : Nat) : (s.count k c sl m).adds = s.adds := rfl
@[simp] theorem State.forward_adds (s : State) (k : CoreId) (sl : Fin 4) (pc q : Word) : (s.forward k sl pc q).adds = s.adds := by
  obtain ⟨l, h⟩ := s.forward_eq k sl pc q; rw [h]
@[simp] theorem State.charge_records (s : State) (k : CoreId) (sl : Fin 4) (c : Fin 32) (m : Nat) : (s.charge k sl c m).records = s.records := rfl
@[simp] theorem State.count_records (s : State) (k : CoreId) (c : Nat) (sl : Option (Fin 4)) (m : Nat) : (s.count k c sl m).records = s.records := rfl
@[simp] theorem State.forward_records (s : State) (k : CoreId) (sl : Fin 4) (pc q : Word) : (s.forward k sl pc q).records = s.records := by
  obtain ⟨l, h⟩ := s.forward_eq k sl pc q; rw [h]
@[simp] theorem State.charge_started (s : State) (k : CoreId) (sl : Fin 4) (c : Fin 32) (m : Nat) : (s.charge k sl c m).started = s.started := rfl
@[simp] theorem State.count_started (s : State) (k : CoreId) (c : Nat) (sl : Option (Fin 4)) (m : Nat) : (s.count k c sl m).started = s.started := rfl
@[simp] theorem State.forward_started (s : State) (k : CoreId) (sl : Fin 4) (pc q : Word) : (s.forward k sl pc q).started = s.started := by
  obtain ⟨l, h⟩ := s.forward_eq k sl pc q; rw [h]
@[simp] theorem State.charge_stopped (s : State) (k : CoreId) (sl : Fin 4) (c : Fin 32) (m : Nat) : (s.charge k sl c m).stopped = s.stopped := rfl
@[simp] theorem State.count_stopped (s : State) (k : CoreId) (c : Nat) (sl : Option (Fin 4)) (m : Nat) : (s.count k c sl m).stopped = s.stopped := rfl
@[simp] theorem State.forward_stopped (s : State) (k : CoreId) (sl : Fin 4) (pc q : Word) : (s.forward k sl pc q).stopped = s.stopped := by
  obtain ⟨l, h⟩ := s.forward_eq k sl pc q; rw [h]
@[simp] theorem State.charge_quotes (s : State) (k : CoreId) (sl : Fin 4) (c : Fin 32) (m : Nat) : (s.charge k sl c m).quotes = s.quotes := rfl
@[simp] theorem State.count_quotes (s : State) (k : CoreId) (c : Nat) (sl : Option (Fin 4)) (m : Nat) : (s.count k c sl m).quotes = s.quotes := rfl
@[simp] theorem State.forward_quotes (s : State) (k : CoreId) (sl : Fin 4) (pc q : Word) : (s.forward k sl pc q).quotes = s.quotes := by
  obtain ⟨l, h⟩ := s.forward_eq k sl pc q; rw [h]
@[simp] theorem State.charge_answers (s : State) (k : CoreId) (sl : Fin 4) (c : Fin 32) (m : Nat) : (s.charge k sl c m).answers = s.answers := rfl
@[simp] theorem State.count_answers (s : State) (k : CoreId) (c : Nat) (sl : Option (Fin 4)) (m : Nat) : (s.count k c sl m).answers = s.answers := rfl
@[simp] theorem State.forward_answers (s : State) (k : CoreId) (sl : Fin 4) (pc q : Word) : (s.forward k sl pc q).answers = s.answers := by
  obtain ⟨l, h⟩ := s.forward_eq k sl pc q; rw [h]
@[simp] theorem State.charge_fw (s : State) (k : CoreId) (sl : Fin 4) (c : Fin 32) (m : Nat) : (s.charge k sl c m).fw = s.fw := rfl
@[simp] theorem State.count_fw (s : State) (k : CoreId) (c : Nat) (sl : Option (Fin 4)) (m : Nat) : (s.count k c sl m).fw = s.fw := rfl
@[simp] theorem State.forward_fw (s : State) (k : CoreId) (sl : Fin 4) (pc q : Word) : (s.forward k sl pc q).fw = s.fw := by
  obtain ⟨l, h⟩ := s.forward_eq k sl pc q; rw [h]
@[simp] theorem State.charge_samples (s : State) (k : CoreId) (sl : Fin 4) (c : Fin 32) (m : Nat) : (s.charge k sl c m).samples = s.samples := rfl
@[simp] theorem State.count_samples (s : State) (k : CoreId) (c : Nat) (sl : Option (Fin 4)) (m : Nat) : (s.count k c sl m).samples = s.samples := rfl
@[simp] theorem State.forward_samples (s : State) (k : CoreId) (sl : Fin 4) (pc q : Word) : (s.forward k sl pc q).samples = s.samples := by
  obtain ⟨l, h⟩ := s.forward_eq k sl pc q; rw [h]
@[simp] theorem State.charge_cur (s : State) (k : CoreId) (sl : Fin 4) (c : Fin 32) (m : Nat) : (s.charge k sl c m).cur = s.cur := rfl
@[simp] theorem State.count_cur (s : State) (k : CoreId) (c : Nat) (sl : Option (Fin 4)) (m : Nat) : (s.count k c sl m).cur = s.cur := rfl
@[simp] theorem State.forward_cur (s : State) (k : CoreId) (sl : Fin 4) (pc q : Word) : (s.forward k sl pc q).cur = s.cur := by
  obtain ⟨l, h⟩ := s.forward_eq k sl pc q; rw [h]
@[simp] theorem State.charge_agenda (s : State) (k : CoreId) (sl : Fin 4) (c : Fin 32) (m : Nat) : (s.charge k sl c m).agenda = s.agenda := rfl
@[simp] theorem State.count_agenda (s : State) (k : CoreId) (c : Nat) (sl : Option (Fin 4)) (m : Nat) : (s.count k c sl m).agenda = s.agenda := rfl
@[simp] theorem State.forward_agenda (s : State) (k : CoreId) (sl : Fin 4) (pc q : Word) : (s.forward k sl pc q).agenda = s.agenda := by
  obtain ⟨l, h⟩ := s.forward_eq k sl pc q; rw [h]
@[simp] theorem State.charge_now (s : State) (k : CoreId) (sl : Fin 4) (c : Fin 32) (m : Nat) : (s.charge k sl c m).now = s.now := rfl
@[simp] theorem State.count_now (s : State) (k : CoreId) (c : Nat) (sl : Option (Fin 4)) (m : Nat) : (s.count k c sl m).now = s.now := rfl
@[simp] theorem State.forward_now (s : State) (k : CoreId) (sl : Fin 4) (pc q : Word) : (s.forward k sl pc q).now = s.now := by
  obtain ⟨l, h⟩ := s.forward_eq k sl pc q; rw [h]
@[simp] theorem State.charge_free (s : State) (k : CoreId) (sl : Fin 4) (c : Fin 32) (m : Nat) : (s.charge k sl c m).free = s.free := rfl
@[simp] theorem State.count_free (s : State) (k : CoreId) (c : Nat) (sl : Option (Fin 4)) (m : Nat) : (s.count k c sl m).free = s.free := rfl
@[simp] theorem State.forward_free (s : State) (k : CoreId) (sl : Fin 4) (pc q : Word) : (s.forward k sl pc q).free = s.free := by
  obtain ⟨l, h⟩ := s.forward_eq k sl pc q; rw [h]

/-- The issuing slot after retirement. -/
theorem State.retireHead_me (s : State) (cls : Fin 32) (jump : Option Word) :
    (s.retireHead cls jump).slot s.cur.core s.cur.slot =
      s.me.stepTo (s.me.after s.cur.next jump).1 (s.me.after s.cur.next jump).2 (s.now + 1) := by
  simp only [State.retireHead, State.forward_slot]
  split <;> simp [State.me]

/-- Every other slot after retirement. -/
theorem State.retireHead_slot (s : State) (cls : Fin 32) (jump : Option Word) (j : CoreId) (n : Fin 4)
    (h : ¬(j = s.cur.core ∧ n = s.cur.slot)) : (s.retireHead cls jump).slot j n = s.slot j n := by
  simp only [State.retireHead, State.forward_slot]
  split <;> simp [State.slot_modSlot_ne _ _ _ _ _ _ h]

@[simp] theorem State.retireHead_mem (s : State) (cls : Fin 32) (jump : Option Word) (j : CoreId) :
    ((s.retireHead cls jump).core j).mem = (s.core j).mem := by
  simp only [State.retireHead, State.forward_core]
  split <;> simp

@[simp] theorem State.retireHead_fields (s : State) (cls : Fin 32) (jump : Option Word) : (s.retireHead cls jump).fields = s.fields := by
  simp only [State.retireHead, State.forward_fields]; split <;> rfl
@[simp] theorem State.retireHead_parts (s : State) (cls : Fin 32) (jump : Option Word) : (s.retireHead cls jump).parts = s.parts := by
  simp only [State.retireHead, State.forward_parts]; split <;> rfl
@[simp] theorem State.retireHead_vfs (s : State) (cls : Fin 32) (jump : Option Word) : (s.retireHead cls jump).vfs = s.vfs := by
  simp only [State.retireHead, State.forward_vfs]; split <;> rfl
@[simp] theorem State.retireHead_quays (s : State) (cls : Fin 32) (jump : Option Word) : (s.retireHead cls jump).quays = s.quays := by
  simp only [State.retireHead, State.forward_quays]; split <;> rfl
@[simp] theorem State.retireHead_sensors (s : State) (cls : Fin 32) (jump : Option Word) : (s.retireHead cls jump).sensors = s.sensors := by
  simp only [State.retireHead, State.forward_sensors]; split <;> rfl
@[simp] theorem State.retireHead_regs (s : State) (cls : Fin 32) (jump : Option Word) : (s.retireHead cls jump).regs = s.regs := by
  simp only [State.retireHead, State.forward_regs]; split <;> rfl
@[simp] theorem State.retireHead_gmem (s : State) (cls : Fin 32) (jump : Option Word) : (s.retireHead cls jump).gmem = s.gmem := by
  simp only [State.retireHead, State.forward_gmem]; split <;> rfl
@[simp] theorem State.retireHead_watches (s : State) (cls : Fin 32) (jump : Option Word) : (s.retireHead cls jump).watches = s.watches := by
  simp only [State.retireHead, State.forward_watches]; split <;> rfl
@[simp] theorem State.retireHead_mesh (s : State) (cls : Fin 32) (jump : Option Word) : (s.retireHead cls jump).mesh = s.mesh := by
  simp only [State.retireHead, State.forward_mesh]; split <;> rfl
@[simp] theorem State.retireHead_drops (s : State) (cls : Fin 32) (jump : Option Word) : (s.retireHead cls jump).drops = s.drops := by
  simp only [State.retireHead, State.forward_drops]; split <;> rfl
@[simp] theorem State.retireHead_sys (s : State) (cls : Fin 32) (jump : Option Word) : (s.retireHead cls jump).sys = s.sys := by
  simp only [State.retireHead, State.forward_sys]; split <;> rfl
@[simp] theorem State.retireHead_adds (s : State) (cls : Fin 32) (jump : Option Word) : (s.retireHead cls jump).adds = s.adds := by
  simp only [State.retireHead, State.forward_adds]; split <;> rfl
@[simp] theorem State.retireHead_records (s : State) (cls : Fin 32) (jump : Option Word) : (s.retireHead cls jump).records = s.records := by
  simp only [State.retireHead, State.forward_records]; split <;> rfl
@[simp] theorem State.retireHead_started (s : State) (cls : Fin 32) (jump : Option Word) : (s.retireHead cls jump).started = s.started := by
  simp only [State.retireHead, State.forward_started]; split <;> rfl
@[simp] theorem State.retireHead_stopped (s : State) (cls : Fin 32) (jump : Option Word) : (s.retireHead cls jump).stopped = s.stopped := by
  simp only [State.retireHead, State.forward_stopped]; split <;> rfl
@[simp] theorem State.retireHead_quotes (s : State) (cls : Fin 32) (jump : Option Word) : (s.retireHead cls jump).quotes = s.quotes := by
  simp only [State.retireHead, State.forward_quotes]; split <;> rfl
@[simp] theorem State.retireHead_answers (s : State) (cls : Fin 32) (jump : Option Word) : (s.retireHead cls jump).answers = s.answers := by
  simp only [State.retireHead, State.forward_answers]; split <;> rfl
@[simp] theorem State.retireHead_fw (s : State) (cls : Fin 32) (jump : Option Word) : (s.retireHead cls jump).fw = s.fw := by
  simp only [State.retireHead, State.forward_fw]; split <;> rfl
@[simp] theorem State.retireHead_samples (s : State) (cls : Fin 32) (jump : Option Word) : (s.retireHead cls jump).samples = s.samples := by
  simp only [State.retireHead, State.forward_samples]; split <;> rfl
@[simp] theorem State.retireHead_cur (s : State) (cls : Fin 32) (jump : Option Word) : (s.retireHead cls jump).cur = s.cur := by
  simp only [State.retireHead, State.forward_cur]; split <;> rfl
@[simp] theorem State.retireHead_agenda (s : State) (cls : Fin 32) (jump : Option Word) : (s.retireHead cls jump).agenda = s.agenda := by
  simp only [State.retireHead, State.forward_agenda]; split <;> rfl
@[simp] theorem State.retireHead_now (s : State) (cls : Fin 32) (jump : Option Word) : (s.retireHead cls jump).now = s.now := by
  simp only [State.retireHead, State.forward_now]; split <;> rfl
@[simp] theorem State.retireHead_free (s : State) (cls : Fin 32) (jump : Option Word) : (s.retireHead cls jump).free = s.free := by
  simp only [State.retireHead, State.forward_free]; split <;> rfl

end Sys2Proof.Machine
end

