-- ==== Sys2Proof/Tests/Slice0.lean ====
section
/-! SUPPORT. Tests of the model: words of the spec's encodings and worked examples, refused ill-formed terms, single steps on small
states, and for each statement states and operands that meet its hypotheses, clause by clause. Expected values are the spec's
or computed from its rules by hand. -/

namespace Sys2Proof.Tests

set_option Elab.async false

open Sys2Proof Sys2Proof.Machine

/-! ### Small states -/

abbrev q : Guard := Guard.always
/-- The issuing slot with these general registers. -/
def gs (l : List (Fin 32 × Word)) (s : State := State.reset) : State :=
  s.modMe fun x => { x with r := l.foldl (fun r e => { r with g := r.g.set e.1 e.2 }) x.r }
/-- The issuing slot changed. -/
def me (f : Slot → Slot) (s : State := State.reset) : State := s.modMe f
/-- The issuing core changed. -/
def co (f : Core → Core) (s : State := State.reset) : State := s.modCore 0 f
/-- Bytes in the issuing core's SRAM, as (offset, count, value). -/
def ram (l : List (Nat × Nat × Nat)) (s : State := State.reset) : State :=
  s.modMem 0 fun m => { m with sram := l.foldl (fun m e => m.writeLE e.1 e.2.1 e.2.2) m.sram }
/-- The slot's level. -/
def lvl (n : Nat) (s : State := State.reset) : State :=
  s.modMe fun x => { x with t := { x.t with tst := BitVec.ofNat 64 n } }
/-- Whether an outcome is a next state with a property. -/
def nx (p : State → Bool) (r : Host.Outcome State Fault Refusal) : Bool := match r with | .next s => p s | _ => false
/-- A local address. -/
abbrev loc (n : Nat) : Word := localAddr n
/-- A head of form `f` issues in `s`, and `ok` holds of its operands. -/
def Meets (s : State) (f : Form) (ok : State → Bool := fun _ => true) : Bool := decide (s.issues f) && ok (s.took f)
/-- A vector head of form `f` issues in `s`, and `ok` holds. -/
def MeetsM (s : State) (f : Form) (ok : State → Bool) : Bool := decide (s.issuesMasked f) && ok s

/-! ### Decoding -/

theorem test_decode_integers : decode 0x0845 0x0184 = .ok (.add ⟨q, .i64, .g 5, .g 4, .reg (.g 6)⟩) ∧
    decode 0x0885 0x140C0184 = .ok (.add ⟨⟨3, false⟩, .n32, .g 5, .g 4, .reg (.g 6)⟩) ∧
    decode 0x2EC4 0x004000000000 = .ok (.movi ⟨q, .i64, .g 4, .i16 0x40⟩) ∧
    decode 0x248F 0x1080000D = .ok (.popc ⟨q, .n64, .g 15, .g 13⟩) := by decide

theorem test_decode_control : decode 0x4F05 0x0000000500000000 = .ok (.loop 0 (.g 5) 5) ∧
    decode 0x4F06 0x0000000500400000 = .ok (.loop 1 (.g 6) 5) ∧ decode 0x0200 0 = .ok .halt ∧
    decode 0x5400 0 = .ok .eret := by decide

theorem test_decode_vectors : decode 0xB684 0x04083081 = .ok (.vfma ⟨⟨2, false⟩, .fp .f32 .rtz, 4, 1, 2, 3⟩) ∧
    decode 0xC6C5 0x050A00000081 = .ok (.vcvt ⟨q, .f16, .f32, .rtz, 5, 1, .v 2⟩) ∧
    decode 0xC6C6 0x0148000001C2 = .ok (.vcvt ⟨q, .f32, .f16, .rne, 6, 2, .g (.g 7)⟩) ∧
    decode 0xC6C4 0x010A000003C3 = .ok (.vcvt ⟨q, .f16, .f32, .rne, 4, 3, .v 15⟩) := by decide

theorem test_decode_matrix : decode 0xF0C1 0x000F3C000000 = .ok (.mcfg ⟨q, .pb4, 1, 0xF⟩) ∧
    decode 0xF548 0x010600000000000200000049 = .ok (.mfeed ⟨q, .g 8, .g 9, 1, 2, ⟨1, 6, 0, 0⟩, none⟩) ∧
    decode 0xF341 0x010500000000000200000000 = .ok (.mrun ⟨q, 1, 2, ⟨1, 5, 0, 0⟩, none⟩) := by decide

theorem test_decode_memory_and_messages : decode 0x72C5 0x0008A0000006 = .ok (.ldg ⟨q, .i64, some .dev, .g 5, .g 6, .imm (.i16 8)⟩) ∧
    decode 0x80C7 0x004C04000004 = .ok (.send ⟨q, .rsp, .g 7, .g 4, .g 0, .g 0, some 0x4C⟩) ∧
    decode 0x80CB 0x000500000000 = .ok (.send ⟨q, .req, .g 11, .g 0, .g 0, .g 0, some 5⟩) ∧
    decode 0x84D0 0x004900400001 = .ok (.sendb ⟨q, true, .pb8, .req, .g 16, 1, some 0x49⟩) ∧
    decode 0x9340 0x01010000000000000400D040 = .ok (.copy ⟨q, true, 0, 1, .g 13, .g 0, some (⟨1, 1, 0, 0⟩, none)⟩) := by decide

theorem test_decode_tides : decode 0xA080 0x584 = .ok (.tide ⟨q, 0, .g 4, .reg (.g 22)⟩) ∧
    decode 0xA4CD 0x000400000000 = .ok (.tideq ⟨q, 0, .g 13, .imm 4⟩) ∧
    decode 0xA294 0x16 = .ok (.tidewait ⟨q, 0, .g 20, .g 22, none⟩) ∧
    decode 0xA285 0x17 = .ok (.tidewait ⟨q, 0, .g 5, .g 23, none⟩) := by decide

theorem test_decode_system : decode 0xFCC5 0x000100000000 = .ok (.mfs ⟨q, .g 5, .imm 1⟩) ∧
    decode 0xFCC0 0x800000400006 = .ok (.mts ⟨q, .imm 0x8000, .g 6⟩) ∧
    decode 0xFC80 0x00C00014 = .ok (.ctxsv ⟨q, .g 20⟩) ∧
    decode 0xFCC0 0x010300400011 = .ok (.mts ⟨q, .imm 0x103, .g 17⟩) ∧
    decode 0xFC80 0x004003CE = .ok (.mts ⟨q, .reg (.g 15), .g 14⟩) ∧
    decode 0xFCC0 0x00000080034C = .ok (.invalS1Page ⟨q, .g 12, .g 13⟩) := by decide

/-- R135, R137, R138: OP 0x7F; G = 0 with N = 1; a G field of 40; an unused field that is not zero; a minor that the table lacks. -/
theorem test_decode_refuses : decode 0xFE00 0 = .error .illegalOp ∧ decode 0x0885 0x00200184 = .error .illegalForm ∧
    decode 0x0845 0x01A8 = .error .illegalForm ∧ decode 0x248F 0x1080004D = .error .illegalForm ∧
    decode 0x2680 0x03C00000 = .error .illegalOp := by decide

/-- The table's rows that fix all their bits. -/
theorem test_decode_table_words : decodeTableWord 16 0 = some .nop ∧ decodeTableWord 16 0x0200 = some .halt ∧
    decodeTableWord 16 0x0400 = some .yield ∧ decodeTableWord 16 0x0600 = some (.bkpt 0) ∧
    decodeTableWord 16 0x4A00 = some .ret ∧ decodeTableWord 16 0x5000 = some .waitev ∧
    decodeTableWord 16 0x523F = some (.trap 63) ∧ decodeTableWord 16 0x5400 = some .eret ∧
    decodeTableWord 16 0xD805 = some (.flg (.g 5)) ∧ decodeTableWord 16 0xAA00 = some .unlace ∧
    decodeTableWord 32 0x01840845 = some (.add ⟨q, .i64, .g 5, .g 4, .reg (.g 6)⟩) := by decide +kernel

/-! ### Well-formedness: an ill-formed term for each check -/

theorem test_wf_refuses : Instr.wf (.mov ⟨⟨0, true⟩, .g 1, .g 2⟩) = false ∧
    Instr.wf (.movhi ⟨q, .c 0, 0⟩) = false ∧ Instr.wf (.bfx ⟨q, true, .g 1, .g 2, 60, 5⟩) = false ∧
    Instr.wf (.bfx ⟨q, true, .g 1, .g 2, 0, 0⟩) = false ∧ Instr.wf (.bfi ⟨q, false, .c 1, .g 2, 0, 1⟩) = false ∧
    Instr.wf (.lea ⟨q, .g 1, .g 2, .g 3, .s16 9 0⟩) = false ∧ Instr.wf (.br 31) = false ∧
    Instr.wf (.loop 0 (.g 5) 63) = false ∧ Instr.wf (.nopTail 0 0x10000) = false ∧
    Instr.wf (.vcmp ⟨q, .un, .int .i32, false, 1, 0, 0⟩) = false ∧ Instr.wf (.vcmp ⟨q, .ord, .fp .f32, true, 1, 0, 0⟩) = false ∧
    Instr.wf (.vlog ⟨q, .not, .i32, 1, 2, 3⟩) = false ∧ Instr.wf (.vcvt ⟨q, .f32, .f32, .rne, 1, 2, .none⟩) = false ∧
    Instr.wf (.vcvt ⟨q, .f16, .f32, .rne, 1, 2, .g (.g 1)⟩) = false ∧
    Instr.wf (.vred ⟨q, .and, .fp .f32 .rne, 1, 2⟩) = false ∧ Instr.wf (.vred ⟨q, .min, .fp .f32 .rtz, 1, 2⟩) = false ∧
    Instr.wf (.vbcast ⟨q, .fp .f16, 1, .imm (.i32 0)⟩) = false ∧ Instr.wf (.bquant ⟨q, .pb8, .f32, 1, 2, 3, .g 0⟩) = false := by
  decide

theorem test_wf_refuses_units : Instr.wf (.mcfg ⟨q, .f32, 0, 0⟩) = false ∧ Instr.wf (.mcfg ⟨q, .f16, 0, 0x20⟩) = false ∧
    Instr.wf (.mcfg ⟨q, .f16, 0, 0x11⟩) = false ∧ Instr.wf (.mrun ⟨q, 0, 0, ⟨0, 0, 0, 0⟩, none⟩) = false ∧
    Instr.wf (.mrun ⟨q, 0, 0x2000001, ⟨0, 0, 0, 0⟩, none⟩) = false ∧ Instr.wf (.mrun ⟨q, 0, 1, ⟨0, 0, 0, 0⟩, some ⟨0, 1⟩⟩) = false ∧
    Instr.wf (.mfeed ⟨q, .g 8, .g 9, 0, 0, ⟨0, 0, 0, 0⟩, none⟩) = false ∧ Instr.wf (.mdrainSram ⟨q, 0, .g 1, .g 0⟩) = false ∧
    Instr.wf (.scancfg ⟨q, .imm 0⟩) = false ∧ Instr.wf (.scancfg ⟨q, .imm 65⟩) = false ∧ Instr.wf (.scancfg ⟨q, .imm 0x8001⟩) = false ∧
    Instr.wf (.scan ⟨q, .byRule, 0, 0, 0, 0, 0, ⟨0, 0, 0, 0⟩, none⟩) = false := by decide

theorem test_wf_refuses_memory : Instr.wf (.fesetFull ⟨q, .g 1, .imm 0⟩) = false ∧ Instr.wf (.fesetEmpty ⟨q, .g 1, .imm 4097⟩) = false ∧
    Instr.wf (.fetest ⟨q, .g 1, .g 2, .imm 65⟩) = false ∧ Instr.wf (.amo ⟨q, .add, .i64, .g 1, .g 2, .g 3, .g 4, none⟩) = false ∧
    Instr.wf (.amog ⟨q, .add, .i64, .none, .sys, .g 1, .g 2, .g 3, .g 0, none⟩) = false ∧
    Instr.wf (.fence ⟨q, .none, .core⟩) = false ∧ Instr.wf (.send ⟨q, .req, .g 1, .g 2, .g 0, .g 0, some 0⟩) = false ∧
    Instr.wf (.send ⟨q, .req, .g 1, .g 2, .g 3, .g 4, some 0x100⟩) = false ∧
    Instr.wf (.sendv ⟨q, .req, .g 1, .g 2, some 0x280⟩) = false ∧ Instr.wf (.sendb ⟨q, true, .pb8, .req, .g 1, 0, some 0x100⟩) = false ∧
    Instr.wf (.tagset ⟨q, .imm 64, .g 1⟩) = false ∧ Instr.wf (.chk ⟨q, .g 1, .mask 256⟩) = false ∧
    Instr.wf (.semsig ⟨q, 0, .imm 0⟩) = false ∧ Instr.wf (.semwait ⟨q, .g 1, 0, .reg (.g 0)⟩) = false ∧
    Instr.wf (.space ⟨q, .g 1, .imm 4096⟩) = false ∧ Instr.wf (.berthOut ⟨q, .g 1, .g 2, 4⟩) = false ∧
    Instr.wf (.tideq ⟨q, 0, .g 1, .imm 5⟩) = false ∧ Instr.wf (.lace ⟨q, .g 1, 0x800000⟩) = false ∧
    Instr.wf (.taskid ⟨q, .g 1, .imm 4⟩) = false ∧ Instr.wf (.mfs ⟨q, .g 1, .imm 0x1000⟩) = false ∧
    Instr.wf (.frmld ⟨q, .g 1, .imm 16⟩) = false ∧ Instr.wf (.rankset ⟨q, .g 1, .g 2, .imm 64⟩) = false ∧
    Instr.wf (.copy ⟨q, false, 0, 0, .g 1, .g 2, some (⟨0, 0, 0, 0⟩, some ⟨3, 0⟩)⟩) = false := by decide

/-! ### Witnesses: scalar instructions -/

/-- R158, R103: an 8-bit divisor of 2, one whose low byte is 0, and a value that STACK_LIMIT refuses. -/
theorem witness_TwoSourceIntegers :
    let x : Alu2 := ⟨q, .i8, .g 5, .g 4, .reg (.g 6)⟩
    let y : Alu2 := ⟨q, .i64, .g 2, .g 4, .reg (.c 6)⟩
    Meets (gs [(4, 7), (6, 2)]) (alu2Form x 3) (fun u => getTy x.t (u.src x.t x.b) ≠ 0 ∧ u.slimRefuses x.d 3 = false) ∧
    Meets (gs [(4, 7), (6, 0x100)]) (alu2Form x 3) (fun u => getTy x.t (u.src x.t x.b) = 0) ∧
    Meets (me fun z => { z with r := { z.r with pres := 0x40 }, t := { z.t with slim := loc 0x100 } }) (alu2Form y 1)
      (fun u => u.slimRefuses y.d (loc 0xFF) = true ∧ u.slimRefuses y.d (loc 0x100) = false) := by decide +kernel

theorem witness_PutThenGet : tySigned .i8 = true ∧ tySigned .n64 = false := by decide

theorem witness_OneSourceIntegers :
    let x : Alu1 := ⟨q, .i8, .g 5, .g 4⟩
    Meets (gs [(4, 0x80)]) (mkForm q 1 [x.a] [x.d]) (fun u => getTy x.t (u.rd x.a) = -128 ∧ u.slimRefuses x.d 0 = false) ∧
    (0 < 2 ^ tyWidth x.t ∧ 255 < 2 ^ tyWidth x.t ∧ 255 ≠ 0) := by decide +kernel

theorem witness_ComparesAndPredicates :
    let f := mkForm q 1 [.g 4, .g 6] [] [.p 1]
    Meets (gs [(4, 7), (6, 2)]) f (fun u => getTy .i64 (u.rd (.g 4)) > getTy .i64 (u.src .i64 (.reg (.g 6)))) ∧
    Meets (gs [(4, 2), (6, 2)]) f (fun u => ¬ getTy .i64 (u.rd (.g 4)) > getTy .i64 (u.src .i64 (.reg (.g 6)))) ∧
    Meets State.reset (mkForm q 1 [.g 4, .g 6] [.g 5] [.p 7]) ∧ Meets State.reset (mkForm q 1 [] [] [.p 1, .p 2, .p 3]) := by
  decide +kernel

theorem witness_ConstantsFieldsAndAddresses :
    BitF.wf ⟨q, true, .g 1, .g 2, 63, 1⟩ = true ∧ BitF.wf ⟨q, true, .g 1, .g 2, 0, 64⟩ = true ∧
    Meets State.reset (mkForm q 1 [.g 2] [.g 1]) ∧ Meets State.reset (mkForm q 1 [] [.g 4]) := by decide +kernel

/-- The code pointers of R132: SLOT 30 is the last that is not reserved. -/
theorem witness_TransfersOfControl :
    let f := mkForm q 1 [.g 4] []
    let bad := fun p : Word => (p.toNat / 2 ^ 60 ≠ 0 ∨ p.getLsbD 5 = true ∨ p.toNat % 32 = 31 : Bool)
    Meets (gs [(4, 0x0FFFFFFFFFFFFFDE)]) f (fun u => ¬ bad (u.rd (.g 4))) ∧ Meets (gs [(4, 31)]) f (fun u => bad (u.rd (.g 4))) ∧
    Meets (gs [(4, 32)]) f (fun u => bad (u.rd (.g 4))) ∧ Meets (gs [(4, 1 <<< 60)]) f (fun u => bad (u.rd (.g 4))) ∧
    Meets (gs [(4, 3), (6, 3)]) (mkForm q 1 [.g 4, .g 6] [])
      (fun u => condInt .eq (getTy .i64 (u.rd (.g 4))) (getTy .i64 (u.rd (.g 6))) = true) ∧
    Meets (gs [(4, 3), (6, 4)]) (mkForm q 1 [.g 4, .g 6] [])
      (fun u => ¬ condInt .eq (getTy .i64 (u.rd (.g 4))) (getTy .i64 (u.rd (.g 6))) = true) ∧
    Meets State.reset (mkForm q 1 [] [.g 1]) ∧ Meets (gs [(1, 64)]) (mkForm q 1 [.g 1] []) (fun u => ¬ bad (u.rd (.g 1))) ∧
    Meets (gs [(1, 31)]) (mkForm q 1 [.g 1] []) (fun u => bad (u.rd (.g 1))) := by decide +kernel

/-- A line of one NOP in frame 0 at address 0, and the loop's head at its SLOT 0. -/
def lineAt0 (l : Line) (s : State := State.reset) : State :=
  s.modMem 0 fun m => { m with frames := m.frames.set 0 ⟨some 0, (Vector.replicate 32 0).set 0 l, true⟩ }

theorem witness_Loops :
    let f := mkForm q 1 [.g 5] []
    let fin := fun (u : State) (off : BitVec 32) => branchTarget u.me.pc off
    let line := fun (u : State) off => (u.core u.cur.core).mem.lineAt (fin u off)
    Meets (me (fun x => { x with pc := 2 }) { State.reset with cur := ⟨0, 0, false, 0, 0, 3⟩ }) f (fun u => fin u 0 < u.cur.next) ∧
    Meets (gs [(5, 1)]) f (fun u => ¬ fin u 0 < u.cur.next ∧ (u.rd (.g 5)).extractLsb' 0 32 ≠ 0) ∧
    Meets (gs [(5, 0xFFFFFFFF00000000)]) f
      (fun u => ¬ fin u 0 < u.cur.next ∧ (u.rd (.g 5)).extractLsb' 0 32 = 0 ∧ line u 0 = none) ∧
    Meets (lineAt0 0) f (fun u => ¬ fin u 0 < u.cur.next ∧ (u.rd (.g 5)).extractLsb' 0 32 = 0 ∧
      line u 0 = some 0 ∧ lineLegal 512 0 = false) ∧
    Meets (lineAt0 1) f (fun u => ¬ fin u 0 < u.cur.next ∧ (u.rd (.g 5)).extractLsb' 0 32 = 0 ∧
      line u 0 = some 1 ∧ lineLegal 512 1 = true ∧ cpSlot (fin u 0) < lineHC 1) ∧
    Meets (lineAt0 1) f (fun u => ¬ fin u 1 < u.cur.next ∧ (u.rd (.g 5)).extractLsb' 0 32 = 0 ∧
      line u 1 = some 1 ∧ lineHC 1 ≤ cpSlot (fin u 1)) := by decide +kernel

/-- R78: each combination of the two counters at the head's own pointer. -/
theorem witness_RetiringCountsLoops :
    let at_ := fun (v0 v1 : BitVec 32) => me fun x => { x with r := { x.r with lc := #v[⟨v0, 5, 64, 0⟩, ⟨v1, 3, 128, 0⟩] } }
    let on := fun (s : State) (i : Fin 2) => s.me.pc = s.me.r.lc[i].fin ∧ s.me.r.lc[i].value ≠ 0
    (¬ on (at_ 0 0) 0 ∧ ¬ on (at_ 0 0) 1) ∧ (on (at_ 0 1) 1 ∧ ¬ on (at_ 0 1) 0) ∧ (on (at_ 1 0) 0 ∧ ¬ on (at_ 1 0) 1) ∧
    (on (at_ 1 2) 0 ∧ on (at_ 1 2) 1 ∧ (at_ 1 2).me.r.lc[1].value ≠ 1) ∧ (on (at_ 1 1) 0 ∧ on (at_ 1 1) 1 ∧ (at_ 1 1).me.r.lc[1].value = 1) ∧
    (State.retireHead State.reset 1).stopAt 0 0 2 = none := by decide +kernel

theorem witness_SlotControl :
    Meets State.reset (mkForm q 0 [] []) ∧ Meets (me fun x => { x with ev := true }) (mkForm q 1 [] []) (fun u => u.me.ev = true) ∧
    (Meets State.reset (mkForm q 1 [] []) ∧ State.reset.me.ev = false) := by decide +kernel

theorem witness_AddressTests :
    let f := mkForm q 1 [.g 4] [] [.p 1]
    Meets (gs [(4, 0x0FFFFFFFFFFFFFFF)]) f (fun u => (u.rd (.g 4)).toNat < 2 ^ 60) ∧
    Meets (gs [(4, 0xE000000000010000)]) f
      (fun u => ¬ (0xE000000000000000 ≤ (u.rd (.g 4)).toNat ∧ (u.rd (.g 4)).toNat ≤ 0xE00000000000FFFF)) ∧
    Meets (gs [(4, 0xD000000000000003)]) f
      (fun u => 0xD000000000000000 ≤ (u.rd (.g 4)).toNat ∧ (u.rd (.g 4)).toNat ≤ 0xD000000000000003) ∧
    Meets State.reset (mkForm q 26 [] [.g 5]) (fun u => u.me.lace.code = .solo) ∧
    Meets (me fun x => { x with lace := { x.lace with code := .leader } }) (mkForm q 26 [] [.g 5]) (fun u => u.me.lace.code ≠ .solo) ∧
    (∀ n < 4, Meets (gs [(6, BitVec.ofNat 64 n)]) (mkForm q 31 [.g 6] [.g 5]) (fun u => (u.r16 (.reg (.g 6))).toNat % 4 = n)) := by
  decide +kernel

theorem witness_TagsAndChannels :
    Meets (gs [(4, 0xC000000000000003)]) (mkForm q 26 [.g 4] []) (fun u => tagBad (u.rd (.g 4)) = false) ∧
    Meets (gs [(4, 0xC000000000000004)]) (mkForm q 26 [.g 4] []) (fun u => tagBad (u.rd (.g 4)) = true) ∧
    Meets (me fun x => { x with r := { x.r with pres := 0x80 } }) (mkForm q 1 [] [.g 5] [.c 7])
      (fun u => u.me.r.pres.getLsbD 7 = true) ∧
    Meets State.reset (mkForm q 1 [] [.g 5] [.c 7]) (fun u => u.me.r.pres.getLsbD 7 = false) := by decide +kernel

/-- R23, R261: counts at the top, a threshold met exactly, one not met, and a grant. -/
theorem witness_Semaphores :
    let sem := fun v : BitVec 16 => State.reset.modMem 0 fun m => { m with sem := m.sem.set 4 v }
    let f := mkForm q 26 [] [.g 5]
    let free := fun u : State => u.me.grant == none && (u.core u.cur.core).mem.semQ.all fun e => e.2.1 != 4
    Meets (sem 65534) (mkForm q 26 [] []) (fun u => (u.core 0).mem.sem[4].toNat + (semVal u (.imm 1)).toNat ≤ 65535) ∧
    Meets (sem 65535) (mkForm q 26 [] []) (fun u => 65535 < (u.core 0).mem.sem[4].toNat + (semVal u (.imm 1)).toNat) ∧
    Meets (gs [(6, 0x10000)]) (mkForm q 26 [.g 6] [.g 5]) (fun u => semVal u (.reg (.g 6)) = 0 ∧ u.me.grant = none) ∧
    Meets (sem 1) f (fun u => semVal u (.imm 1) ≠ 0 ∧ free u ∧ semVal u (.imm 1) ≤ (u.core 0).mem.sem[4]) ∧
    Meets (sem 0) f (fun u => semVal u (.imm 1) ≠ 0 ∧ u.me.grant = none ∧ ¬ (free u ∧ semVal u (.imm 1) ≤ (u.core 0).mem.sem[4])) ∧
    Meets (me fun x => { x with grant := some (4, 0) }) f
      (fun u => semVal u (.imm 1) ≠ 0 ∧ u.me.grant = some (4, 0) ∧ u.slimRefuses (.g 5) 0 = false) := by decide +kernel

/-! ### Witnesses: vector and block instructions -/

theorem witness_VectorArithmetic :
    let p2 := fun n : BitVec 16 => me fun x => { x with r := { x.r with p := x.r.p.set 2 n } }
    let f := vform ⟨2, false⟩ 10 [1, 2, 3]
    MeetsM (p2 1) f (fun u => u.me.r.mask ⟨2, false⟩ ≠ 0) ∧ (¬ (p2 0).pends (.p 2) ∧ ¬ (p2 0).me.r.mask ⟨2, false⟩ ≠ 0) ∧
    (∃ t, (⟨q, .int .i8, 1, 2, 3⟩ : V3).m = .int t) ∧ (∃ t r, (⟨q, .fp .f64 .rup, 1, 2, 3⟩ : V3).m = .fp t r) := by
  refine ⟨?_, ?_, ⟨_, rfl⟩, ⟨_, _, rfl⟩⟩ <;> decide +kernel

/-- R44: a finite value of each sign in binary32. -/
theorem witness_FloatingSpecialCases :
    (1 < 2 ^ fmtF32.width ∧ ∃ m e, m ≠ 0 ∧ fmtF32.unpack 1 = .fin false m e) ∧ (∃ m e, m ≠ 0 ∧ fmtF32.unpack 0xBF800000 = .fin true m e) := by
  refine ⟨⟨by decide, ⟨_, _, ?_, rfl⟩⟩, ⟨_, _, ?_, rfl⟩⟩ <;> decide

theorem witness_LanewiseOperations :
    (MeetsM State.reset (vform q 8 [1, 2, 3]) fun s => s.me.r.mask q ≠ 0) ∧ (∃ t, (⟨q, .int .n8, 1, 2, 3⟩ : VN3).t = .int t) ∧
    (∃ t, (⟨q, .fp .bf16, 1, 2, 3⟩ : VN3).t = .fp t) ∧ (MeetsM State.reset (vform q 10 [2, 3] [] [.p 1]) fun s => s.me.r.mask q ≠ 0) ∧
    (⟨q, .eq, .int .i32, false, 0, 1, 2⟩ : VcmpF).d = 0 ∧ (⟨q, .eq, .int .i32, false, 7, 1, 2⟩ : VcmpF).d ≠ 0 := by
  refine ⟨?_, ⟨_, rfl⟩, ⟨_, rfl⟩, ?_, ?_, ?_⟩ <;> decide +kernel

theorem witness_ReductionsAndPrefixes :
    MeetsM (me fun x => { x with r := { x.r with p := x.r.p.set 2 0 } }) (vform ⟨2, false⟩ 14 [1, 2]) (fun s => s.me.r.mask ⟨2, false⟩ = 0) ∧
    MeetsM State.reset (vform q 14 [15, 0]) (fun s => s.me.r.mask q = 0xFFFF) := by decide +kernel

theorem witness_ConversionsFunctionsAndMoves :
    MeetsM State.reset (vform q 13 [1, 2]) (fun s => s.me.r.mask q ≠ 0) ∧
    MeetsM State.reset (vform q 14 [6, 2, 2] [.g 7]) (fun s => s.me.r.mask q ≠ 0) ∧
    Meets State.reset (mkForm q 14 [.g 4] [.g 2] [.v 3]) (fun u => u.slimRefuses (.g 2) (extVal (.int .n8) 0) = false) ∧
    Meets (me fun x => { x with t := { x.t with slim := 1 } }) (mkForm q 14 [.g 4] [.g 2] [.v 3])
      (fun u => u.slimRefuses (.g 2) (extVal (.int .n8) 0) = true) ∧
    Meets State.reset (mkForm q 14 [.g 4, .g 5] [] [.v 3]) := by decide +kernel

/-- R36, R37: sums of elements at the greatest magnitude that fits, and a NaN block. -/
theorem witness_BlockArithmetic :
    let a : Blk := ⟨7, 255, List.replicate 16 40⟩
    let b : Blk := ⟨7, 255, List.replicate 16 23⟩
    MeetsM State.reset (vform q 15 [1, 2, 3]) (fun s => blkOn .pb8 (s.me.r.mask q) 3 = true) ∧ Blk.nan.isNan = true ∧
    a.e = 7 ∧ b.e = 7 ∧ (7 : Nat) < 0xFF ∧ a.el.length = 16 ∧ b.el.length = 16 ∧
    ((List.range 16).all fun i => decide ((a.el.getD i 0 + b.el.getD i 0).natAbs < pbLim .pb8)) = true := by decide +kernel

theorem witness_BlockConversions :
    MeetsM (gs [(6, 3)]) (vform q 15 [1, 2, 0] [.g 6]) (fun s => quantHolds ⟨q, .pb8, .f32, 1, 2, 0, .g 6⟩ s) ∧
    MeetsM State.reset (vform q 15 [1, 2] [.g 6]) (fun s => s.me.r.mask q ≠ 0) ∧
    MeetsM State.reset (vform q 15 [1, 2, 3]) (fun s => s.me.r.mask q &&& 15 ≠ 0) := by decide +kernel

theorem witness_VectorCompletionAndFlags :
    let o : VecOp := ⟨0, [.v 1 7 0, .p 2 3], 4⟩
    let s := co fun c => { c with vops := [o] }
    (s.core 0).vops[0]? = some o ∧ Meets State.reset (mkForm q 1 [] [.g 5]) (fun u => u.slimRefuses (.g 5) 0 = false) ∧
    Meets s (mkForm q 1 [] [.g 5]) (fun u => ((u.core 0).vops.any fun o => o.slot == 0)) := by decide +kernel

/-! ### Witnesses: memory -/

/-- A Bool form of `LocalOk`. -/
def lok (a : Word) (n : Nat) : Bool := decide (isLocal a = true ∧ a.toNat % n = 0)

theorem witness_StoredBytes : Memory.wf [] = true ∧ Memory.wf [(3, 1), (65535, 255)] = true := by decide

/-- R96, R242, R372: the last word of SRAM, one past it, an odd address, and a word with a double-bit error. -/
theorem witness_LocalLoadsAndStores :
    let f := ldForm q 5 (.g 6) (.imm (.i16 0)) [.g 5]
    let ea := fun u : State => addOff (u.rd (.g 6)) 0
    let ue := co (fun c => { c with regs := { c.regs with ue := [0xFFF8] } }) (gs [(6, loc 0xFFF8)])
    Meets (gs [(6, loc 0xFFF8)]) f (fun u => lok (ea u) 8 && ((u.core 0).badWord (offOf (ea u)) 8).isNone && !u.slimRefuses (.g 5) 0) ∧
    Meets (gs [(6, loc 0x10000)]) f (fun u => !isLocal (ea u)) ∧ Meets (gs [(6, loc 0xFFFC)]) f (fun u => isLocal (ea u) && (ea u).toNat % 8 != 0) ∧
    Meets ue f (fun u => lok (ea u) 8 && (u.core 0).badWord (offOf (ea u)) 8 == some 0xFFF8) ∧
    Meets (me (fun x => { x with t := { x.t with slim := 1 } }) (gs [(6, loc 0)])) (ldForm q 5 (.g 6) (.imm (.i16 0)) [.g 2])
      (fun u => lok (ea u) 8 && u.slimRefuses (.g 2) 0) ∧
    Meets (gs [(6, loc 4)]) (mkForm q 5 [.g 6, .g 7, .g 8] [.g 5]) (fun u => lok (ea u) 4 && !u.slimRefuses (.g 5) 0) ∧
    Meets (gs [(6, loc 0)]) (ldForm q 5 (.g 6) (.imm (.i16 0)) [] [.g 5]) (fun u => lok (ea u) 8) := by decide +kernel

/-- R20, R245: a full and an empty granule, a run that ends at the last granule, and one that passes it. -/
theorem witness_FullEmptyBits :
    let f := ldForm q 5 (.g 6) (.imm (.i16 0)) [.g 5]
    let g := mkForm q 5 [.g 6, .g 7] []
    let fill := State.modMem (gs [(6, loc 0xFFF0)]) 0 fun m => { m with full := BitVec.allOnes 4096 }
    Meets fill f (fun u => lok (u.rd (.g 6)) 8 && (u.core 0).mem.full.getLsbD 4095) ∧
    Meets (gs [(6, loc 0xFFF0)]) f (fun u => lok (u.rd (.g 6)) 8 && !(u.core 0).mem.full.getLsbD 4095) ∧
    Meets (gs [(6, loc 0)]) g (fun u => lok (u.rd (.g 6)) 16 && (u.rd (.g 7)).toNat % 2 ^ 13 == 0) ∧
    Meets (gs [(6, loc 0), (7, 4096)]) g (fun u => lok (u.rd (.g 6)) 16 && (u.rd (.g 7)).toNat % 2 ^ 13 == 4096) ∧
    Meets (gs [(6, loc 16), (7, 4096)]) g (fun u => lok (u.rd (.g 6)) 16 && decide (4096 < offOf (u.rd (.g 6)) / 16 + 4096)) ∧
    Meets (gs [(6, loc 0xFC00), (7, 64)]) (mkForm q 5 [.g 6, .g 7] [.g 5])
      (fun u => lok (u.rd (.g 6)) 16 && decide (offOf (u.rd (.g 6)) / 16 + 64 ≤ 4096)) ∧
    Meets (gs [(6, loc 0), (7, 65)]) (mkForm q 5 [.g 6, .g 7] [.g 5]) (fun u => decide (64 < (u.rd (.g 7)).toNat % 2 ^ 7)) := by
  decide +kernel

theorem witness_LocalVectors :
    let good := fun u : State => lok (u.rd (.g 6)) 8 && lok (u.rd (.g 7)) 2 && decide (offOf (u.rd (.g 6)) + 64 ≤ 65536) &&
      decide (offOf (u.rd (.g 7)) + 16 ≤ 65536)
    MeetsM (gs [(6, loc 0xFFC0)]) (ldForm q 6 (.g 6) (.imm (.i16 0)) [] [] [.v 1])
      (fun s => s.me.r.mask q ≠ 0 ∧ lok (s.rd (.g 6)) 64 ∧ (s.core 0).badWord 0xFFC0 64 = none ∧ (s.core 0).mem.sram.wf = true) ∧
    MeetsM (gs [(6, loc 0xFFC0), (7, loc 0xFFF0)]) (mkForm q 6 [.g 6, .g 7] [] [.v 1])
      (fun s => good s ∧ blkOn .pb4 (s.me.r.mask q) 7 = true ∧ (s.core 0).badWord 0xFFC0 64 = none) := by decide +kernel

theorem witness_RegisterAndLocalFrames :
    nx (fun t => (t.slot 0 0).st != .trapped) (exec (.add ⟨q, .i64, .g 5, .g 4, .reg (.g 6)⟩) State.reset) ∧
    nx (fun t => (t.slot 0 0).st != .trapped) (exec (.st ⟨q, .i64, .g 5, .g 6, .imm (.i16 0)⟩) (gs [(6, loc 8)])) ∧
    nx (fun t => (t.slot 0 0).st != .trapped) (exec (.vadd ⟨q, .int .i8, 1, 2, 3⟩) State.reset) ∧
    nx (fun t => (t.slot 0 0).st != .trapped) (exec (.ldg ⟨q, .i64, none, .g 5, .g 6, .imm (.i16 0)⟩) State.reset) := by
  decide +kernel

/-! ### Witnesses: global memory -/

/-- At level M an address is its own DPA. -/
def xl (s : State) (va : Word) (acc : BitVec 8) (whole : Bool := false) : Bool :=
  s.me.reply == none && s.reachable (gtidVf s.me.gtid) acc whole va.toNat && decide (2 ≤ (lvlOf s.me).toNat)

theorem xlates_of {s : State} {va : Word} {acc : BitVec 8} {w : Bool} (h : xl s va acc w = true) : s.Xlates va acc w s va.toNat := by
  simp only [xl, Bool.and_eq_true, beq_iff_eq, decide_eq_true_eq] at h
  exact ⟨fun f => by simp [h.1.1], h.1.2, .inl ⟨h.2, rfl, rfl⟩⟩

/-- A page of 64 KiB of a VF, readable and writable at level U. -/
def page (vf va dpa : Nat) : TEntry :=
  ⟨vf, va, 16, dpa, dpa, 16, true, true, true, true, true, true, true, 0, 0, 0⟩

/-- R316: a translation of a port entry at level U. -/
theorem witness_port : (co fun c => { c with ports := [page 0 0 0x50000] }).Xlates 0xFFF8 1 false
    ((co fun c => { c with ports := [page 0 0 0x50000] }).modCore 0 fun c => c.touch (page 0 0 0x50000) 0) 0x5FFF8 := by
  have h : (co fun c => { c with ports := [page 0 0 0x50000] }).me.reply = none := by decide +kernel
  refine ⟨fun f => by simp [h], by decide +kernel, .inr ⟨by decide +kernel, page 0 0 0x50000, ?_, ?_, ?_, rfl⟩⟩
  all_goals decide +kernel

/-- R249: an aligned address with room and with 16 loads pending, a wrong window, a wrong alignment, and the answers of a load that
waits. -/
theorem witness_GlobalAccessesAreHandedOver :
    let f := ldForm q 7 (.g 6) (.imm (.i16 0)) [.g 5]
    let a : GAcc := { GAcc.base State.reset .load 0 0 8 with dest := some (.g 7) }
    let full := fun (k : GOpKind) (s : State) => co (fun c => { c with gaccs := List.replicate 16 { a with kind := k } }) s
    let s := lvl 3 (gs [(6, 0xFFFFFFFF8)])
    Meets s f (fun u => xl u (u.rd (.g 6)) 0 && !lateDest (.g 5) && (u.core 0).gRoom 0 true) ∧
    Meets (full .load s) f (fun u => xl u (u.rd (.g 6)) 0 && !(u.core 0).gRoom 0 true) ∧
    Meets (full .store s) f (fun u => xl u (u.rd (.g 6)) 1 && !(u.core 0).gRoom 0 false) ∧
    MeetsM (lvl 3) (ldForm q 7 (.g 6) (.imm (.i16 0)) [] [] [.v 1])
      (fun u => u.me.r.mask q = 0xFFFF && xl u (u.rd (.g 6)) 0 && xl u (u.rd (.g 6)) 1 true && (u.core 0).gRoom 0 true && (u.core 0).gRoom 0 false) ∧
    Meets (lvl 3) (mkForm q 7 [.g 6, .g 7, .g 8] [.g 5]) (fun u => xl u (u.rd (.g 6)) 2 && (u.core 0).gRoom 0 true) ∧
    Meets (gs [(6, 1 <<< 60)]) f (fun u => decide (2 ^ 60 ≤ (u.rd (.g 6)).toNat)) ∧
    Meets (gs [(6, 0x0FFFFFFFFFFFFFFC)]) f (fun u => decide ((u.rd (.g 6)).toNat < 2 ^ 60 ∧ (u.rd (.g 6)).toNat % 8 ≠ 0)) ∧
    (∀ r ∈ [some (Reply.value 3), some (.trap 0x0F 8), none], Meets (me fun x => { x with asked := true, reply := r })
      (ldForm q 7 (.g 6) (.imm (.i16 0)) [.g 2]) (fun u => u.me.asked = true ∧ u.me.reply = r)) := by decide +kernel

theorem witness_GlobalAccessesArePerformed :
    let a := fun (k : GOpKind) (p h r : Bool) =>
      { GAcc.base State.reset k 0 0x1FFFFFFFFFC0 64 with dest := some (.g 5), performed := p, holds := h, retried := r }
    let s := fun (x : GAcc) => co fun c => { c with gaccs := [x] }
    (∀ k ∈ [GOpKind.load, .store, .amog], let x := a k false false false
      ((s x).core 0).gaccs[0]? = some x ∧ mayPerform ((s x).core 0).gaccs 0 x = true ∧ (homeOf x.dpa == some (.mem 63)) = true ∧
      (s x).partOf 0 = none ∧ (s x).gmem.wf = true) ∧
    (∀ e ∈ [(false, false), (true, false), (false, true)], let x := a .load true e.1 e.2
      ((s x).core 0).gaccs[0]? = some x ∧ x.returns = true ∧ x.performed = true ∧ x.bad = 0) ∧
    (let x := a .load true true false
     let y := me (fun z => { z with st := .wait, wait := .load, asked := true }) (s x)
     (y.slot 0 x.slot).st = .wait ∧ (y.slot 0 x.slot).wait = .load ∧ (y.slot 0 x.slot).asked = true) := by decide +kernel

theorem witness_FencesAndWatches :
    let f := mkForm q 1 [] []
    let pend := co fun c => { c with gaccs := [GAcc.base State.reset .store 0 0 8] }
    Meets State.reset f (fun u => (u.core 0).gaccs.isEmpty) ∧ Meets pend f (fun u => (u.core 0).gaccs.any fun a => !a.performed) ∧
    Meets (lvl 3) (mkForm q 7 [.g 6] []) (fun u => xl u (u.ea16 (.g 6) (.imm 0)) 3) ∧
    Meets State.reset (mkForm q 1 [] [.g 5]) (fun u => u.partOf 0 = none ∧ u.slimRefuses (.g 5) 6 = false ∧ u.me.watch.ended = none ∧
      u.me.watch.armed = false) ∧
    Meets (me fun x => { x with watch := ⟨false, 0, some 4⟩ }) (mkForm q 1 [] [.g 5]) (fun u => u.me.watch.ended = some 4) ∧
    Meets (me fun x => { x with watch := ⟨true, 64, none⟩ }) (mkForm q 1 [] [.g 5])
      (fun u => u.me.watch.ended = none ∧ u.me.watch.armed = true) ∧
    (let s := me fun x => { x with st := .wait, wait := .watch, asked := true, watch := ⟨true, 64, none⟩ }
     (s.slot 0 0).st = .wait ∧ (s.slot 0 0).wait = .watch ∧ (s.slot 0 0).asked = true ∧ (s.slot 0 0).watch.armed = true) := by
  decide +kernel

/-! ### Witnesses: messages, tags and locked reductions -/

/-- A launch on cores 0 and 1, with one task slot a core: core 0 holds rank 0. -/
def launched (s : State := State.reset) : State :=
  let h : Held := ⟨0, 1, 1, 0, 0, 2, 1, 1⟩
  (((s.modCore 0 fun c => { c with held := some h }).modCore 1 fun c => { c with held := some h }).modSlot 0 0 fun x =>
    { x with gtid := mkGtid 1 1 0 }).modSlot 1 0 fun x => { x with gtid := mkGtid 1 1 1 }
/-- A message from rank 1 to rank 0. -/
def msgTo0 (cls : Fin 4) (ws : List Word) (k : MsgKind := .plain) (block : Bool := false) : Msg :=
  ⟨k, 1, 1, 0, 1, 1, cls, 3, block, 0, ws, none⟩
/-- Entry 3 of core 0's tag table. -/
def tagged (e : Word) (s : State := launched) : State :=
  s.modMem 0 fun m => { m with tags := m.tags.set 3 ⟨e, 0, 0⟩ }
/-- Messages that have arrived at core 0. -/
def arrived (q : Fin 4) (ms : List Msg) (s : State) : State := s.modCore 0 fun c => { c with arr := c.arr.set q ms }
/-- A tag entry of slot 0 with this action and these low bits. -/
def tagWord (a : Nat) (low : Word) : Word := BitVec.ofNat 64 (a * 2 ^ 61) ||| low
/-- Bool forms of `rankOk`, and of it with room in the class's queue. -/
def rok (u : State) (gD : Word) : Bool :=
  match u.launchOf u.cur.core u.me.gtid with
  | some h => decide ((gD.extractLsb' 0 22).toNat < h.ranks)
  | none => false
def sok (u : State) (gD : Word) (c : MsgCls) : Bool := rok u gD && (u.core u.cur.core).injRoom (clsNo c)

/-- R253, R26: three words to the last rank of the launch; a count of 4; a rank that is none; a SENDV of 9 words that ends with
SRAM; locked blocks of one exponent; a full class queue. -/
theorem witness_SendingMessages :
    let d : Word := 0x30000001
    let f := fun (l : Nat) => mkForm q 31 (GOp.g 7 :: [GOp.g 4, .g 5, .g 6].take l) []
    let v := mkForm q 31 [.g 7, .g 8] []
    Meets (gs [(7, d)] launched) (f 3) (fun u => sok u d .req && d.extractLsb' 28 4 == 3) ∧
    Meets (lvl 1 (gs [(7, d)] launched)) (mkForm q 31 [.g 7, .g 4, .g 5, .g 6] [] [] 1) (fun u => sok u d .sys) ∧
    Meets (gs [(7, 0x40000001)] launched) (f 4) (fun u => (u.rd (.g 7)).extractLsb' 28 4 == 4) ∧
    Meets (gs [(7, 2)] launched) (f 0) (fun u => (u.core 0).held.all fun h => decide (h.ranks ≤ ((u.rd (.g 7)).extractLsb' 0 22).toNat)) ∧
    Meets (State.modCore (gs [(7, d)] launched) 0 fun c => { c with inj := List.replicate 4 { msgTo0 0 [5] with src := 0, from_ := 0 } }) (f 3)
      (fun u => rok u d && !(u.core 0).injRoom (clsNo .req)) ∧
    Meets (gs [(7, 0x90000001), (8, loc 0xFFB8)] launched) v (fun u => sok u (u.rd (.g 7)) .req && lok (u.rd (.g 8)) 8 &&
      (msgTag none (u.rd (.g 7))).2 == 9 && decide (offOf (u.rd (.g 8)) + 72 ≤ 65536) && ((u.core 0).badWord 0xFFB8 72).isNone) ∧
    Meets (gs [(7, 0x30000001)] launched) (mkForm q 31 [.g 7] [] [.v 1]) (fun u => sok u (u.rd (.g 7)) .req &&
      (msgTag none (u.rd (.g 7))).2 == 3 && (List.range 3).all fun b =>
        !(u.blk .pb8 1 b).isNan && (u.blk .pb8 1 b).e == (u.blk .pb8 1 0).e) := by decide +kernel

/-- R26, R126: a queued message of each kind of flow, and an arrival whose sequence number is new or repeated. -/
theorem witness_MessagesTravel :
    let m : Msg := { msgTo0 0 [5] with dst := 1, src := 0, from_ := 0 }
    let s := launched.modCore 0 fun c => { c with inj := [m] }
    let h : Held := ⟨0, 1, 1, 0, 0, 2, 1, 1⟩
    let fl : Flight := ⟨msgTo0 0 [5], 0, (msgTo0 0 [5]).wire⟩
    let t := tagged (tagWord 1 2) { launched with mesh := [fl] }
    ((s.core 0).inj[0]? = some m ∧ s.phaseOf 0 = .run ∧ s.inTransit m = false ∧ s.heldOf m.vf m.launch = some h ∧
      s.cores.all (fun e => e.2.held.all fun g => g == h)) ∧
    (t.mesh[0]? = some fl ∧ fl.msg.forBerth = false ∧ t.firstOfFlow 0 fl.msg = true ∧ t.phaseOf 0 = .run ∧ t.partOf 0 = none) ∧
    (mget (t.core 0).seqIn fl.msg.pair ≠ some fl.msg.seq ∧ tagHopeless (t.core 0) fl.msg = false ∧ (t.core 0).arr = Vector.replicate 4 []) ∧
    (let u := t.modCore 0 fun c => { c with seqIn := [(fl.msg.pair, 0)] }
     mget (u.core 0).seqIn fl.msg.pair = some fl.msg.seq) := by decide +kernel

/-- R71, R72: DELIVER to an absent channel; DEPOSIT of two granules up to the last granule, and past it; INLINE with a code line of
one word; ADDBLOCK of one block into areas that do not overlap. -/
theorem witness_TagActions :
    let on := fun (a : Nat) (low : Word) (ws : List Word) (b : Bool) => arrived 0 [msgTo0 0 ws .plain b] (tagged (tagWord a low))
    let head := fun (s : State) (a : Nat) => s.tagHead 0 0 a
    (let s := on 1 2 [5] false
     (head s 1).isSome ∧ (s.slot 0 0).r.pres.getLsbD 2 = false) ∧
    (let s := on 2 0xFFE [1, 2, 3, 4] false
     (head s 2).isSome ∧ ((depositGranules (tagWord 2 0xFFE) 0 2).all fun g => g < 4096) ∧
       (depositGranules (tagWord 2 0xFFE) 0 2).Nodup ∧ (s.core 0).mem.sram.wf = true) ∧
    (let s := on 2 0xFFF [1, 2, 3, 4] false
     (head s 2).isSome ∧ ((depositGranules (tagWord 2 0xFFF) 0 2).any fun g => 4096 ≤ g)) ∧
    (let s := on 4 1 [7, 9] false
     (head s 4).isSome ∧ s.phaseOf 0 = .run ∧ (s.core 0).handler = none ∧ (s.core 0).handlerDone = false) ∧
    (let s := on 3 0x00080000 [1, 2, 0x0] true
     let e' := tagWord 3 0x00080000
     (head s 3) = some (0, msgTo0 0 [1, 2, 0] .plain true, e') ∧ e'.getLsbD 27 = false ∧ s.partOf 0 = none ∧
       addblockCount (isPb4 (addblockTy e')) 3 = some 1 ∧ (addblockAt e').1 + 16 ≤ 65536 ∧ (addblockAt e').2 + 2 ≤ 65536 ∧
       (addblockAt e').1 + 16 ≤ (addblockAt e').2 ∧ (s.core 0).badWord (addblockAt e').1 16 = none ∧
       (s.core 0).badWord (addblockAt e').2 2 = none) := by decide +kernel

/-- R72, R73, R299: WAKE of a sleeping slot with eight words, a class 3 message for a sleeping supervisor, and one for none. -/
theorem witness_WakingASlot :
    let asleep := fun (s : State) => s.modSlot 0 0 fun x => { x with st := .sleep, t := { x.t with tst := 0x10 } }
    (let s := asleep (arrived 0 [msgTo0 0 (List.replicate 8 1)] (tagged (tagWord 5 0x21)
        (launched.modMem 0 fun m => { m with frames := m.frames.set 1 ⟨some 7, Vector.replicate 32 0, true⟩ })))
     (s.tagHead 0 0 5).isSome ∧ s.phaseOf 0 = .run ∧ (s.slot 0 (tagSlot (tagWord 5 0x21))).st = .sleep ∧
       (s.core 0).mem.frames[(tagWord 5 0x21).toNat % 16].tag = some 7 ∧ tagSigen (tagWord 5 0x21) = false ∧ s.partOf 0 = none) ∧
    (let s := asleep (arrived 0 [msgTo0 0 [1]] (tagged (tagWord 5 0x21)))
     (s.tagHead 0 0 5).isSome ∧ s.phaseOf 0 = .run ∧ (s.slot 0 (tagSlot (tagWord 5 0x21))).st = .sleep ∧
       (s.core 0).mem.frames[(tagWord 5 0x21).toNat % 16].tag = none ∧
       ((s.modSlot 0 0 fun x => { x with ev := true }).slot 0 (tagSlot (tagWord 5 0x21))).ev = true) ∧
    (let m := msgTo0 3 [1, 2, 3, 4] .notice
     let s := State.modSlot (asleep (arrived 3 [m] launched)) 0 1 fun x => { x with watch := { x.watch with armed := true } }
     s.phaseOf 0 = .run ∧ s.logMode 0 = 0 ∧ (s.slot 0 1).watch.armed = true ∧ (s.slot 0 0).watch.armed = false ∧ (s.core 0).arr[(3 : Fin 4)] = m :: [] ∧ s.slotOf 0 m = some 0 ∧ supvOf (s.slot 0 0) = true ∧
       (s.slot 0 0).st = .sleep ∧ s.partOf 0 = none) ∧
    (let m := msgTo0 3 [1, 2, 3, 4] .notice
     let s := arrived 3 [m] launched
     s.phaseOf 0 = .run ∧ (s.core 0).arr[(3 : Fin 4)] = m :: [] ∧ s.slotOf 0 m = none) := by decide +kernel

/-- R257, R258: the root of a reduction of two contributions, with its descriptor below header address 16, a contribution at its
exponent and class 2 messages for it; element sums at twice MMAX. -/
theorem witness_LockedReductions :
    let x : LockCtx := ⟨3, false, 1, 0, 8, 0, false, 0, 1, 1, List.replicate 16 0, []⟩
    let d : LockDesc := ⟨5, 0, 2, 0, true, 0, 0, 0, 0⟩
    let e := tagWord 3 0x08000000
    let m := msgTo0 0 [1, 0, 0xFF05] .plain true
    let s := arrived 0 [m] ((tagged e).modCore 0 fun c => { c with
      locks := [x], mem := { c.mem with sram := (c.mem.sram.writeLE 0 8 d.word0.toNat).writeLE 8 8 d.word1.toNat } })
    let n : LockNode := { x.node d with part := List.replicate 16 127 }
    (s.tagHead 0 0 3 = some (0, m, e) ∧ e.getLsbD 27 = true ∧ (s.core 0).lockOf 3 = some x ∧
      (lockedBlocks false m).map (fun r => (r.1, r.2.1)) = some (5, 1) ∧ (s.core 0).badWord 0 16 = none ∧ (s.core 0).lockDesc 16 = some d) ∧
    (n.d.state = 0 ∧ n.d.l = 5 ∧ n.held = [] ∧ (List.replicate 16 (127 : Int)).length = n.part.length ∧ (127 + 127 : Int).natAbs ≤ 2 * pbMax (lockTy n.pb4)) ∧
    n.d.l < 6 ∧
    -- The sum passes 2 × MMAX at a root, at another node, and at the highest exponent.
    (∀ l ∈ [5, 0xFE], ∀ r ∈ [true, false], let y : LockNode := { n with d := { d with l := l, root := r }, part := List.replicate 16 200 }
      y.d.state = 0 ∧ y.held = [] ∧ (List.replicate 16 (127 : Int)).length = y.part.length ∧
        2 * pbMax (lockTy y.pb4) < (200 + (shiftPlaces (127 * 2 ^ (y.d.l - l)) (y.d.l - l)).1).natAbs ∧ (l = 5 ∧ y.d.l < 0xFE ∨ 0xFE ≤ y.d.l)) ∧
    (2 * (3 : Int) = 7 - 1 ∧ 2 * (4 : Int) = 7 + 1 ∧ (4 : Int) % 2 = 0) ∧
    (∀ k ∈ [MsgKind.renorm, .exponent 7], let t := arrived 2 [msgTo0 2 [] k] s
      t.head2 0 2 = some (msgTo0 2 [] k) ∧ (t.core 0).lockOf 3 = some x ∧ (t.core 0).lockDesc 16 = some d ∧ t.partOf 0 = none) := by
  decide +kernel

/-! ### Witnesses: the tensor unit and the scan unit -/

/-- Core 0's units changed. -/
def un (f : Units → Units) (s : State := State.reset) : State := s.modUnits 0 f
/-- Tile 1, held by slot 0, with both directions fed from its own core. -/
def held1 (t : FullTy) (s : State := State.reset) : State := un (fun u => u.setTile 1 (u.tiles[1].config 0 t 3)) s
/-- A run of tile 1. -/
def run1 (drain : Bool := false) (taken : Nat := 0) (count : Nat := 1) : Run := ⟨1, 0, false, count, taken, drain, 0, ⟨0, 0, none⟩⟩
/-- A one-dimensional shape record (R105). -/
def shp (base : Word) (es tile count stride : Nat) : Shp :=
  base ++ 0#64 ++ BitVec.ofNat 16 stride ++ 0#32 ++ BitVec.ofNat 20 count ++ BitVec.ofNat 12 tile ++ BitVec.ofNat 4 es ++ 1#2 ++ 0#42

/-- R225 to R230: a tile that is free, held and held by another slot; a full queue, and a run of the tile; sources that end with
SRAM. -/
theorem witness_MatrixCommands :
    let mine := fun u : State => (u.unit 0).tiles[1].owner == some 0
    let f := mkForm q 1 [] []
    let idle := fun u : State => !(u.unit 0).tileRuns 1 && !(u.unit 0).tileFeeds 1
    let area := fun a : Word => lok a 16 && decide (offOf a + 256 ≤ 65536)
    Meets (held1 .pb8) f (fun u => mine u && idle u) ∧ Meets State.reset f (fun u => (u.unit 0).tiles[1].owner == none && idle u) ∧
    Meets (un fun u => u.setTile 1 { u.tiles[1] with owner := some 2 }) f
      (fun u => (u.unit 0).tiles[1].owner != none && !mine u) ∧
    Meets (held1 .pb8) (mkForm q 1 [.g 9] []) (fun u => mine u && decide ((u.unit 0).runs.length < 4) &&
      (u.unit 0).tiles[1].cfg.getLsbD 0 && (u.unit 0).tiles[1].cfg.getLsbD 1 && u.rd (.g 9) == 0) ∧
    Meets (gs [(8, loc 0xFF80), (9, loc 0xFFF0)] (held1 .pb8)) (mkForm q 1 [.g 8, .g 9] []) (fun u => mine u &&
      decide ((u.unit 0).feeds[0].length < 2) && lok (u.rd (.g 8)) 16 && flitsOf .pb8 * 8 == 128 &&
      decide (offOf (u.rd (.g 8)) + flitsOf .pb8 * 8 ≤ 65536) && scaleBytes .pb8 == 16 && lok (u.rd (.g 9)) 16 &&
      decide (offOf (u.rd (.g 9)) + 16 ≤ 65536)) ∧
    Meets (gs [(8, 0xD000000000000000)] (held1 .i8)) (mkForm q 1 [.g 8, .g 0] []) (fun u => mine u && isBerth (u.rd (.g 8)) && scaleBytes .i8 == 0) ∧
    Meets (held1 .pb8) (mkForm q 19 [] []) (fun u => mine u && !(u.unit 0).tileRuns 1) ∧
    Meets (un (fun u => { u with runs := [run1] }) (held1 .pb8)) (mkForm q 19 [] []) (fun u => mine u && (u.unit 0).tileRuns 1) ∧
    Meets (gs [(8, loc 0xFF00), (9, 1)] (held1 .pb8)) (mkForm q 19 [.g 8, .g 9] [])
      (fun u => mine u && area (u.rd (.g 8)) && ((u.core 0).badWord 0xFF00 256).isNone && (u.core 0).mem.sram.wf) ∧
    Meets (gs [(9, 7)] (held1 .pb8)) (mkForm q 19 [.g 9] [] [.v 15]) (fun u => mine u && u.rd (.g 9) == 7) ∧
    Meets (un (fun u => { u with runs := List.replicate 4 run1 }) (held1 .pb8)) f (fun u => mine u && decide (4 ≤ (u.unit 0).runs.length)) ∧
    Meets (un (fun u => { u with runs := [run1] }) (held1 .pb8)) f (fun u => mine u && !idle u) ∧
    Meets (gs [(8, loc 0xFF00)] (un (fun u => { u with runs := [run1] }) (held1 .pb8))) (mkForm q 19 [.g 8, .g 9] []) (fun u =>
      mine u && area (u.rd (.g 8)) && (u.unit 0).tileRuns 1) ∧
    Meets (gs [(8, loc 0xFF08)] (held1 .pb8)) (mkForm q 19 [.g 8, .g 9] []) (fun u => mine u && isLocal (u.rd (.g 8)) && !area (u.rd (.g 8))) ∧
    Meets (held1 .pb8) (mkForm q 1 [] [.g 5]) mine := by decide +kernel

/-- R136: a command's wait on its semaphore: none, met exactly, met by its own grant, and not met. -/
theorem witness_Syncs :
    let y : Sync := ⟨0, 0, 3, 4⟩
    State.reset.Syncs ⟨0, 0, 0, 0⟩ State.reset ∧
    (me fun x => { x with grant := some (4, 0) }).Syncs y (me fun x => { x with grant := some (4, 0) }) ∧
    State.reset.counterOk none ∧
    Meets (State.reset.modMem 0 fun m => { m with sem := m.sem.set 4 3 }) (mkForm q 1 [] []) (fun u => u.me.grant == none &&
      (u.core 0).mem.semQ.isEmpty && y.thr != 0 && decide ((y.thr.setWidth 16 : BitVec 16).toNat ≤ (u.core 0).freeSem 4)) ∧
    Meets State.reset (mkForm q 1 [] []) (fun u => u.me.grant == none && y.thr != 0 &&
      decide ((u.core 0).freeSem 4 < (y.thr.setWidth 16 : BitVec 16).toNat)) := by
  exact ⟨.inl ⟨rfl, rfl⟩, .inr ⟨by decide, .inl ⟨0, by decide +kernel⟩, rfl⟩, fun _ h => (nomatch h), by decide +kernel, by decide +kernel⟩

/-- R221, R222, R230: a pair of flits for 2 tokens, a token that opens a flow and one that fails its check, a run that has taken its
count, one that failed, and a feed that has read its last block. -/
theorem witness_MatrixRuns :
    let on := fun (r : Run) (w n : List Flit) => un (fun u => { u with runs := [r], tokens := 2, queues := (u.queues.set 2 w).set 3 n }) (held1 .i8)
    let tok := fun (i : Nat) => Flit.token 0 (tokenWord (BitVec.ofNat 24 i) .i8 0 0xFFFF)
    (let s := on run1 [.data 5 0] [.data 6 0]
     let t := (s.unit 0).tiles[1]
     (s.unit 0).pairReady run1 = some ((5, 0), (6, 0)) ∧ 2 ≤ (s.unit 0).tokens ∧ s.phaseOf 0 = .run ∧ run1.drain = false ∧
       s.fwdRoom 0 t 0 1 = true ∧ s.fwdRoom 0 t 1 1 = true) ∧
    (∀ n ∈ [0, 9], let s := on run1 [tok n] [tok n]
     let t := (s.unit 0).tiles[1]
     (s.unit 0).tokenReady run1 0 = some (0, tokenWord (BitVec.ofNat 24 n) .i8 0 0xFFFF) ∧ s.fwdRoom 0 t 0 2 = true ∧
       tokenOk t t.flow[0] (tokenWord (BitVec.ofNat 24 n) .i8 0 0xFFFF) = decide (n = 0) ∧ t.flits = 0 ∧ flitsOf t.ty ≠ 0) ∧
    (let s := un (fun u => u.setTile 1 { u.tiles[1] with flits := 32, flow := u.tiles[1].flow.map fun f => { f with isOpen := true, seen := true } })
        (on run1 [tok 0] [tok 0])
     let t := (s.unit 0).tiles[1]
     t.flits = flitsOf t.ty ∧ (t.flow[1]).seen = true) ∧
    run1.ready ((held1 .i8).unit 0).tiles[1] = false ∧ (run1 false 1).ready ((held1 .i8).unit 0).tiles[1] = true ∧
    (let t := ((held1 .i8).unit 0).tiles[1]
     let closed := { t with flow := t.flow.map fun f => { f with seen := true } }
     (run1 true).drain = true ∧ ((run1 true).ready t || (run1 true).ready closed) = true) ∧
    (∀ told ∈ [false, true], ∀ p ∈ [[], [Flit.data 1 0]],
     let fd : Feed := ⟨1, 0, loc 0, 0, 1, 1, true, 0, p, told, ⟨0, 0, none⟩⟩
     let s := un fun u => { u with feeds := u.feeds.set 0 [fd] }
     (s.unit 0).feeds[0] = fd :: [] ∧ s.phaseOf 0 = .run ∧ fd.nb ≤ fd.blk ∧ 2 ≤ s.queueRoom 0 2 ∧
       (p.all fun x => decide (x.len ≤ s.queueRoom 0 2)) = true) := by decide +kernel

/-- R233 to R239: a unit of one channel and one state, a configuration with N of 0, records in SRAM, and steps for 1 and 16 tokens. -/
theorem witness_ScanUnit :
    let f := mkForm q 1 [] []
    let own := fun (s : State) => un (fun u => { u with scanOwner := some 0, scanCfg := 1, scanH := [0] }) s
    let recs := fun (s : State) => s.modMem 0 fun m => { m with shapes := Vector.replicate 8 (shp (loc 0) 2 0 64 4) }
    let mine := fun u : State => (u.unit 0).scanOwner == some 0
    let fits := fun (u : State) (n : Nat) => (List.finRange 4).all fun i =>
      let h := (u.core 0).mem.shapes[i]
      isLocal h.base && h.conv == 0 && h.esCode == 2 && decide (n * 2 ≤ h.total)
    let sc := fun (form : ScanForm) (at_ : Nat) => (⟨0, form, shp (loc 0) 2 0 64 4, shp (loc 0) 2 0 64 4, shp (loc 0) 2 0 64 4,
      shp (loc 0) 2 0 64 4, 32, at_, Vector.replicate 3 [], 0, ⟨0, 0, none⟩⟩ : Scan)
    let running := fun r n => un (fun u => { u with scans := [r], tokens := n }) (own State.reset)
    (Meets (own State.reset) f (fun u => mine u && (u.unit 0).scans.isEmpty && scanCfgWf 0x8000 && scanCfgWf 64 && !scanCfgWf 0 && !scanCfgWf 65) ∧
     Meets State.reset f (fun u => (u.unit 0).scanOwner == none && (u.unit 0).scans.isEmpty)) ∧
    Meets (running (sc .stp 0) 0) f (fun u => mine u && !(u.unit 0).scans.isEmpty) ∧
    Meets (recs (own State.reset)) f (fun u => mine u && fits u 32 && decide ((u.unit 0).scans.length < 3)) ∧
    Meets (gs [(4, loc 0xFFF0)] (own State.reset)) (mkForm q 1 [.g 4] []) (fun u => mine u && (u.unit 0).scans.isEmpty &&
      lok (u.rd (.g 4)) 16 && (u.core 0).mem.sram.wf && (u.unit 0).scanH.length == (u.unit 0).scanP * (u.unit 0).scanN &&
      ((u.core 0).badWord 0xFFF0 4).isNone) ∧
    (let s := running (sc .stp 31) 1
     s.scanFed 0 (sc .stp 31) = true ∧ (sc .stp 31).chunked = false ∧ s.phaseOf 0 = .run ∧ (s.core 0).regs.ue = [] ∧ (s.unit 0).owedS = 0 ∧
       isLocal (sc .stp 31).y.base = true ∧ (List.finRange 3).all (fun i => isLocal ((sc .stp 31).rec_ i).base) = true) ∧
    ((List.range 16).all fun i => (List.range 16).all fun j => i == j ||
      decide (((offOf (sc .chk 0).y.base : Int) + (sc .chk 0).y.off i).toNat + 4 ≤ ((offOf (sc .chk 0).y.base : Int) + (sc .chk 0).y.off j).toNat ∨
        ((offOf (sc .chk 0).y.base : Int) + (sc .chk 0).y.off j).toNat + 4 ≤ ((offOf (sc .chk 0).y.base : Int) + (sc .chk 0).y.off i).toNat)) = true ∧
    Meets (gs [(4, loc 0xFFF0)] (running (sc .stp 0) 0)) (mkForm q 1 [.g 4] []) (fun u => mine u && lok (u.rd (.g 4)) 16 && !(u.unit 0).scans.isEmpty) ∧
    Meets (recs (un (fun u => { u with scans := List.replicate 3 (sc .stp 0) }) (own State.reset))) f (fun u => mine u && fits u 32 &&
      decide (3 ≤ (u.unit 0).scans.length)) ∧
    (let s := running (sc .chk 0) 16
     s.scanFed 0 (sc .chk 0) = true ∧ (sc .chk 0).chunked = true) ∧
    (let s := running (sc .stp 32) 0
     (s.unit 0).scans = [sc .stp 32] ∧ (List.finRange 4).all (fun b => !(s.core 0).berthReady b false)) := by decide +kernel

/-! ### Witnesses: streams, berths and tides -/

/-- Core 0's shape records. -/
def shapes (l : List (Fin 8 × Shp)) (s : State := State.reset) : State :=
  s.modMem 0 fun m => { m with shapes := l.foldl (fun v e => v.set e.1 e.2) m.shapes }
/-- A stream of two tiles of 4 words between two places of SRAM. -/
def strm (ring : Bool := false) (filled tile : Nat := 0) : Stream :=
  { slot := 0, gtid := 0, src := shp (loc 0) 2 4 8 4, dst := shp (loc 0x100) 2 4 8 4, ring := ring, fb := true, tile := tile,
    credit := 2, filled := filled, oldest := 0, faulted := false, ended := tile == 2, redirect := none, done := ⟨0, 0, none⟩,
    ent := none, flags := 0, stage := [], asked := false, got := [], addrs := [], at_ := 0 }
/-- Core 0's stream 7. -/
def streaming (t : Stream) (s : State := State.reset) : State := co (fun c => { c with streams := c.streams.set 7 (some t) }) s

/-- R105 to R113, R262 to R265: a record at the end of SRAM that is right, illegal and misaligned; COPY and COPY.ring with a stream
free; SPACE of all filled tiles and of one more; a counter at its bound and below it. -/
theorem witness_StreamInstructions :
    let f := mkForm q 26 [.g 6] []
    let rec_ := fun (h : Shp) => State.modMem (gs [(6, loc 0xFFE0)]) 0 fun m => { m with sram := m.sram.writeLE 0xFFE0 32 h.toNat }
    let h := fun u : State => (BitVec.ofNat 256 (u.sramAt (u.rd (.g 6)) 32) : Shp)
    let good := fun u : State => lok (u.rd (.g 6)) 16 && decide (offOf (u.rd (.g 6)) + 32 ≤ 65536) && ((u.core 0).badWord 0xFFE0 32).isNone
    let src := shp (loc 0) 2 4 8 4
    let dst := shp (loc 0x100) 2 4 8 4
    Meets (rec_ src) f (fun u => good u && !Shp.illegal (h u) && !Shp.misaligned (h u)) ∧
    Meets (rec_ (shp (loc 0) 5 4 8 4)) f (fun u => good u && Shp.illegal (h u)) ∧
    Meets (rec_ (shp (loc 1) 2 4 8 4)) f (fun u => good u && !Shp.illegal (h u) && Shp.misaligned (h u)) ∧
    Meets (shapes [(0, src), (1, dst)]) (mkForm q 26 [.g 13, .g 0] []) (fun u => (u.core 0).freeStream == some 0 &&
      decide (src.total = dst.total) && decide (src.esCode = dst.esCode) && src.inside src.base && dst.inside dst.base &&
      validWindow src.base && validWindow dst.base && !isGlobal src.base && isLocal dst.base) ∧
    Meets (shapes [(0, src), (1, dst)]) (mkForm q 26 [] [.g 5]) (fun u => dst.ringOk && (u.core 0).freeStream == some 0 && !u.slimRefuses (.g 5) 0) ∧
    Meets (co (fun c => { c with streams := Vector.replicate 8 (some (strm)) }) (shapes [(0, src), (1, dst)])) (mkForm q 26 [.g 13, .g 0] [])
      (fun u => (u.core 0).freeStream == none) ∧
    (isGlobal 0x1000 = true ∧ isLocal 0xD000000000000000 = false ∧ validWindow 0xD000000000000000 = true) ∧
    Meets (gs [(6, 7), (8, 2)] (streaming (strm true 2))) (mkForm q 26 [.g 6, .g 8] []) (fun u => u.ringOf 0 7 == some (0, strm true 2)) ∧
    Meets (gs [(6, 0x0FFFFFFFFFFFFFF8)] (lvl 3)) (mkForm q 7 [.g 6, .g 9] []) (fun u => decide ((u.rd (.g 6)).toNat < 2 ^ 60 ∧
      (u.rd (.g 6)).toNat % 8 = 0 ∧ (u.rd (.g 9)).toNat ≤ 0) && (u.core 0).gaccs.isEmpty) ∧
    Meets (gs [(6, 0x10000), (9, 1)] (lvl 3)) (mkForm q 7 [.g 6, .g 9] []) (fun u => xl u (u.rd (.g 6)) 4 &&
      decide (u.gmem.readLE 0x10000 8 < (u.rd (.g 9)).toNat)) := by decide +kernel

/-- R106 to R113, R116, R300: a last tile whose places do not overlap; a source word that cannot be corrected; a stream that has
ended; a notice of free space. -/
theorem witness_StreamEvents :
    let at_ := fun (h : Shp) (j : Nat) => ((offOf h.base : Int) + h.off (4 + j)).toNat
    let t := strm false 0 1
    (let s := streaming t
     (s.core 0).streams[(7 : Fin 8)] = some t ∧ s.tileGate 0 t = true ∧ t.tileLen t.tile = 4 ∧ (s.core 0).regs.ue = [] ∧
       (s.core 0).mem.sram.wf = true ∧
       ((List.range 4).all fun i => (List.range 4).all fun j => i == j || decide (at_ t.dst i + 4 ≤ at_ t.dst j ∨ at_ t.dst j + 4 ≤ at_ t.dst i)) = true ∧
       t.redirect = none ∧ isLocal t.src.base = true ∧ isLocal t.dst.base = true ∧ isBerth t.src.base = false ∧ isBerth t.dst.base = false) ∧
    (let s := co (fun c => { c with regs := { c.regs with ue := [0x18] } }) (streaming t)
     s.tileGate 0 t = true ∧ ((List.range 4).map (at_ t.src)).findSome? (fun o => (s.core 0).badWord o 4) = some 0x18) ∧
    (let s := streaming (strm false 0 2)
     (s.core 0).streams[(7 : Fin 8)] = some (strm false 0 2) ∧ (strm false 0 2).ended = true ∧ s.phaseOf 0 = .run ∧ s.partOf 0 = none ∧ s.framesOut 0 7 = false) ∧
    (let s := co (fun c => { c with notices := [(0, 7, 0, 1)] }) (streaming (strm true 2))
     (s.core 0).notices[0]? = some (0, 7, 0, 1) ∧ (strm true 2).ring = true ∧ (strm true 2).at_ = 0 ∧ s.phaseOf 0 = .run ∧ (s.core 0).streams[(7 : Fin 8)] = some (strm true 2)) := by decide +kernel

/-- R300: a stopped stream and a held counter add. -/
theorem witness_StreamEvents_restart :
    (let s := co (fun c => { c with regs := { c.regs with strflt := c.regs.strflt.set 7 0xA000000000000000 } }) (streaming (strm false 0 1))
     (s.core 0).hasFault 7 = true ∧ (s.core 0).faultIsAdd 7 = false) ∧
    (let s := co fun c => { c with regs := { c.regs with strflt := c.regs.strflt.set 7 0xB000000000000000 }, heldAdds := [(7, 0, 64, 1, 4, 9)] }
     (s.core 0).hasFault 7 = true ∧ (s.core 0).faultIsAdd 7 = true ∧ (s.core 0).heldAdd 7 = some (0, 64, 1, 4, 9)) := by decide +kernel

/-- R114, R115, R266: an open of a closed berth to the last rank; a close that goes on and one that waits; data for an open IN side
and for a berth that is gone; a credit; the word of an open that joins and one that does not. -/
theorem witness_BerthsAndTheirTraffic :
    let b3 : Word := 0xD000000000000003
    let h : Held := ⟨0, 1, 1, 0, 0, 2, 1, 1⟩
    let berth := fun (k : CoreId) (y : Berth) (s : State) => s.modCore k fun c => { c with berths := c.berths.set 3 y }
    let op := fun (out : Bool) (st : BerthSt) (own peer : BitVec 22) => (⟨st, out, peer, 3, own, 1, [], 0, 0⟩ : Berth)
    let f := mkForm q 26 [.g 6] []
    Meets (gs [(6, b3), (7, 1)] launched) (mkForm q 26 [.g 6, .g 7] []) (fun u => isBerth (u.rd (.g 6)) && (u.core 0).held == some h &&
      decide (((u.rd (.g 7)).extractLsb' 0 22).toNat < h.ranks) && (u.core 0).berths[3].st == .closed) ∧
    Meets (gs [(6, b3)] (berth 0 (op true .opened 0 1) launched)) f (fun u => isBerth (u.rd (.g 6)) && !(u.core 0).berthUsed 3 &&
      (u.core 0).berths[3].out && (u.core 0).berths[3].buf.isEmpty && (u.core 0).berths[3].flying == 0) ∧
    Meets (gs [(6, b3)] (berth 0 { op true .joined 0 1 with flying := 8 } launched)) f (fun u => isBerth (u.rd (.g 6)) &&
      (u.core 0).berths[3].out && (u.core 0).berths[3].flying != 0) ∧
    Meets (gs [(6, 0xD000000000000004)]) f (fun u => !isBerth (u.rd (.g 6))) ∧
    (∀ y ∈ [op false .joined 0 1, Berth.closed],
      let m := msgTo0 1 [1] (.berthData 3 3 8)
      let s := arrived 1 [m] (berth 0 y launched)
      s.phaseOf 0 = .run ∧ (s.core 0).queueHeld 1 = false ∧ (s.core 0).arr[(1 : Fin 4)] = m :: [] ∧
        (s.core 0).berthReady 3 false = decide (y.st = .joined) ∧ ((s.core 0).streams.toList.all fun o => o.isNone) ∧ (s.unit 0).scans = []) ∧
    (let m := msgTo0 1 [] (.berthFree 3 8 8)
     let s := { berth 0 { op true .joined 0 1 with flying := 8 } launched with mesh := [⟨m, 0, m.wire⟩] }
     s.berthFlight 0 = some (0, m) ∧ (s.core 0).berths[(3 : Fin 4)].st = .joined ∧ (s.core 0).berths[(3 : Fin 4)].out = true) ∧
    (∀ out ∈ [true, false],
      let m := msgTo0 1 [] (.berthOpen 3 3)
      let s := { berth 1 (op false .opened 1 0) (berth 0 (op out .opened 0 1) launched) with mesh := [⟨m, 0, m.wire⟩] }
      let y := (s.core 0).berths[(3 : Fin 4)]
      let z := (s.core 1).berths[(3 : Fin 4)]
      s.berthFlight 0 = some (0, m) ∧ s.heldOf m.vf m.launch = some h ∧ (s.route h m.src.toNat).1 = 1 ∧ y.st = .opened ∧
        z.st = .opened ∧ y.peer = z.own ∧ z.peer = y.own ∧ y.peerBerth = 3 ∧ z.peerBerth = 3 ∧ y.own = m.dst ∧ z.own = m.src ∧
        (y.out = true ∧ z.out = false ∨ y.out = z.out)) := by decide +kernel

/-- Partition 0 on field 0, running VF 1. -/
def parted (s : State := State.reset) : State :=
  (s.modField 0 fun f => { f with partdef := 1 <<< 63 }).modPart 0 fun p =>
    { p with valid := true, fw := 1, fh := 1, qcur := 0x100000000 }
/-- A group entry: scalar sums of i64 by default, of two members of which two are needed, with CHK. -/
def grp (shape op ty chk : Nat) : BitVec 192 :=
  BitVec.ofNat 192 (2 ^ 191 + 2 ^ 168 + op * 2 ^ 159 + shape * 2 ^ 157 + ty * 2 ^ 153 + chk * 2 ^ 152 + 2 * 2 ^ 106 + 2 * 2 ^ 84)
/-- Group 5 of partition 0. -/
def grouped (e : BitVec 192) (s : State := parted launched) : State := s.setGroup 0 5 (newGroup e [0, 1])
/-- Slot 0's membership 2: this round and this many out, in group 5. -/
def member (round : BitVec 32) (out : BitVec 2) (s : State) : State :=
  me (fun x => { x with r := { x.r with gm := x.r.gm.set 2 (gmWord 5 round out) } }) s

/-- R89 to R94, R267 to R270: a scalar, a vector and an invalid membership, with one and two rounds out; an answer that has come and
one that has not; the selectors; a chunk group and one that is none; a payload of the tag action. -/
theorem witness_TideInstructions :
    let sc := grp 0 0 0 1
    let ve := grp 1 0 4 0
    let a : TideAns := ⟨2, 6, 42, 0, 0x700000000⟩
    let valid := fun u : State => gmV u.me.r.gm[2] && gmGroup u.me.r.gm[2] == 5
    Meets (member 7 1 (grouped sc)) (mkForm q 31 [.g 4] []) (fun u => u.gmShape 2 == some 0 && gmOut u.me.r.gm[2] != 2) ∧
    Meets (member 7 1 (grouped ve)) (mkForm q 31 [] [] [.v 15]) (fun u => u.gmShape 2 == some 1 && asV (.g 15) == some 15) ∧
    Meets (member 7 2 (grouped sc)) (mkForm q 31 [.g 4] []) (fun u => u.gmShape 2 == some 0 && gmOut u.me.r.gm[2] == 2) ∧
    Meets State.reset (mkForm q 31 [] []) (fun u => u.gmShape 2 == none) ∧
    Meets (me (fun x => { x with answers := [a] }) (member 7 1 (grouped sc))) (mkForm q 31 [] [.g 4, .g 5]) (fun u =>
      gmOut u.me.r.gm[2] != 0 && u.me.answers.find? (fun a => a.gm == 2 && a.tag == gmRound u.me.r.gm[2] - (gmOut u.me.r.gm[2]).setWidth 32) == some a &&
      !u.slimRefuses (.g 4) a.status && !u.slimRefuses (.g 5) (a.lanes.setWidth 64)) ∧
    Meets (member 7 2 (grouped sc)) (mkForm q 31 [] [.g 4, .g 5]) (fun u => u.me.answers.isEmpty && !u.slimRefuses (.g 4) 0xC0) ∧
    ([0, 2, 3, 4].all fun n : Nat => Meets (gs [(6, BitVec.ofNat 64 n)] (me (fun x => { x with reply := some (.value 9) }) (member 7 1 (grouped sc))))
      (mkForm q 31 [.g 6] [.g 5]) (fun u => valid u && (u.r16 (.reg (.g 6))).toNat % 8 == n)) ∧
    ([0, 4, 5, 7].all fun n : Nat => Meets (gs [(6, BitVec.ofNat 64 n)]) (mkForm q 31 [.g 6] [.g 5])
      (fun u => (u.r16 (.reg (.g 6))).toNat % 8 == n && !gmV u.me.r.gm[2])) ∧
    Meets (me (fun x => { x with reply := some (.value 0) }) (member 7 1 (grouped sc))) (mkForm q 31 [] [.g 5])
      (fun u => valid u && geChk (u.group 0 5).entry) ∧
    Meets (member 7 1 (grouped sc)) (mkForm q 31 [] [.g 5]) (fun u => valid u && geChk (u.group 0 5).entry && u.me.reply == none && !u.me.asked) ∧
    Meets (member 7 1 (grouped ve)) (mkForm q 31 [] [.g 5]) (fun u => valid u && !geChk (u.group 0 5).entry) ∧
    (let e := tagWord 6 2
     let s := me (fun x => { x with st := .ready }) (member 7 0 (arrived 0 [msgTo0 0 [8]] (tagged e (grouped sc))))
     s.tagHead 0 0 6 = some (0, msgTo0 0 [8], e) ∧ (s.slot 0 (tagSlot e)).st = .ready ∧ gmOut (s.slot 0 0).r.gm[2] = 0 ∧
       (tidePayload (s.group 0 5).entry [8]).isSome) := by decide +kernel

/-- R90 to R94, R269: contributions of a later, the open and an earlier round; a round that closes and one that does not; a withdrawal,
a query, chunk requests and an answer. -/
theorem witness_TideHome :
    let sc := grp 0 0 0 1
    let c := fun (rank : BitVec 22) (tag : BitVec 32) => (⟨mkGtid 1 1 rank, 0, 2, tag, 5, 0, 0, false, false⟩ : Contrib)
    let hub := fun (l : List HubMsg) => State.modCtx (grouped sc) 0 fun x => { x with hub := l }
    let x : Group := { newGroup sc [0, 1] with rho := 4, results := [⟨3, 10, 0, 0⟩] }
    let waiting := fun (s : State) => s.modSlot 0 0 fun y => { y with st := .wait, wait := .reply, asked := true }
    ((hub [.contrib 5 (c 0 0)]).hubHead 0 0 = some (.contrib 5 (c 0 0)) ∧ ((hub []).part 0).ctx.logMode = 0) ∧
    (0 < ((c 0 5).tag - x.rho).toInt ∧ ((c 0 4).tag - x.rho).toInt = 0 ∧ ((c 0 3).tag - x.rho).toInt < 0 ∧ (x.result 3).isSome) ∧
    (x.closes = false ∧ ({ x with incl := [c 0 4, c 1 4], members := x.members.map fun m => { m with last := 3 } } : Group).closes = true) ∧
    (∀ l ∈ [1, 2], let s := hub [.withdraw 5 0 l]
     s.hubHead 0 0 = some (.withdraw 5 0 l) ∧ geV (s.group 0 5).entry = true ∧ (geLaunch (s.group 0 5).entry = l ↔ l = 1)) ∧
    (let s := waiting (hub [.query 5 0 0 0])
     s.hubHead 0 0 = some (.query 5 0 0 0) ∧ (s.slot 0 0).st = .wait ∧ (s.slot 0 0).wait = .reply ∧ (s.slot 0 0).asked = true) ∧
    (let s := waiting (hub [.chunkInit 5 0 0 0 100 8 false])
     s.hubHead 0 0 = some (.chunkInit 5 0 0 0 100 8 false)) ∧
    (let s := waiting (hub [.getChunk 5 0 0 0 3])
     s.hubHead 0 0 = some (.getChunk 5 0 0 0 3)) ∧
    (let m := HubMsg.answer (mkGtid 1 1 0) ⟨2, 6, 42, 0, 0⟩
     let s := (hub [m]).modSlot 0 0 fun y => { y with st := .ready }
     s.hubHead 0 0 = some m ∧ (s.hubPop 0 0).findTask (mkGtid 1 1 0) = some (0, 0)) := by decide +kernel

/-! ### Witnesses: laces, moves and system instructions -/

/-- Slot 0 of core 0 with this lace state. -/
def laced (f : LaceSt → LaceSt) (s : State := State.reset) : State := me (fun x => { x with lace := f x.lace }) s

/-- R79 to R85, R271 to R273: a lace of the two columns of a launch that fits, and one that does not; a follower and a leader with
and without a stray; a head on the wire; the timeouts. -/
theorem witness_Laces :
    let f := mkForm q 26 [] [.g 5]
    let fresh := fun u : State => u.me.lace.result == none && u.me.lace.code != .binding
    let fits := fun u : State => 2 ≤ (u.core 0).kernelW 0 && (u.core 0).kernelX 0 == 0 && !(u.core 0).laced
    let lead := fun (s : State) => laced (fun l => { l with code := .leader, w := 2 }) s
    let stray := fun (c : LaceCode) (s : State) => s.modSlot 1 0 fun x => { x with lace := { x.lace with code := c } }
    Meets launched f (fun u => fresh u && fits u && (u.laceJoin 0 0 0 2 30).me.lace.result != some 2) ∧
    Meets State.reset f (fun u => fresh u && !fits u) ∧
    Meets (laced fun l => { l with result := some 2 }) f (fun u => u.me.lace.result == some 2) ∧
    Meets (laced fun l => { l with code := .binding }) f (fun u => u.me.lace.code == .binding && u.me.lace.result == none) ∧
    Meets (laced fun l => { l with code := .binding, result := some 1 }) f (fun u => u.me.lace.result == some 1 && !u.slimRefuses (.g 5) 1) ∧
    Meets (laced fun l => { l with code := .attached }) f (fun u => u.me.lace.code == .attached && u.me.lace.result == none) ∧
    Meets (laced fun l => { l with code := .detached }) f (fun u => u.me.lace.code == .detached && u.me.lace.result == none) ∧
    Meets (laced fun l => { l with code := .rejoining }) f (fun u => u.me.lace.code == .rejoining && u.me.lace.result == none) ∧
    Meets (laced fun l => { l with code := .rejoining, result := some 2 }) f (fun u => u.me.lace.code == .rejoining && u.me.lace.result == some 2) ∧
    Meets (laced fun l => { l with code := .attached, result := some 2 }) f (fun u => u.me.lace.result == some 2 && u.me.lace.code == .attached) ∧
    Meets (State.modSlot (laced (fun l => { l with code := .detached, w := 2, leadCore := 1 }) launched) 1 0 fun x =>
        { x with pc := x.pc, lace := { x.lace with code := .leaderWait, w := 2 } }) f (fun u => u.leaderAt u.me.lace u.me.pc && !u.slimRefuses (.g 5) 2) ∧
    Meets (stray .rejoining (lead launched)) f (fun u => u.strays 0 0 == [(1, 0)] && u.waitsAt u.me.pc (1, 0) && !u.slimRefuses (.g 5) 1) ∧
    Meets (stray .detached (lead launched)) f (fun u => u.strays 0 0 == [(1, 0)] && !u.waitsAt u.me.pc (1, 0)) := by decide +kernel

theorem witness_LaceEvents :
    let hd : LaceHead := ⟨0, 0, 0, 1, 0⟩
    let s := { laced (fun l => { l with code := .attached }) with laces := [⟨0, 0, hd⟩] }
    let w := fun (c : LaceCode) => me (fun x => { x with st := .wait }) (laced fun l => { l with code := c })
    (s.laces[0]? = some ⟨0, 0, hd⟩ ∧ s.phaseOf 0 = .run) ∧
    (∀ c ∈ [LaceCode.binding, .rejoining, .leaderWait], ((w c).slot 0 0).st = .wait ∧ ((w c).slot 0 0).lace.code = c ∧
      ((w c).slot 0 0).lace.result = none ∧ (w c).phaseOf 0 = .run) ∧
    (let t := State.modSlot (me (fun x => { x with buf := List.replicate 8 hd }) (laced fun l => { l with code := .attached, leadCore := 1 })) 1 0
        fun x => { x with st := .wait, wait := .laceBuffer }
     t.backPressures 0 0 = true ∧ (t.slot 0 0).lace.code = .attached ∧ (t.slot 0 0).lace.result = none ∧ t.phaseOf 0 = .run) ∧
    (let t := me (fun x => { x with st := .wait }) ((laced fun l => { l with code := .leaderWait, w := 2 }).modSlot 1 0 fun x =>
        { x with lace := { x.lace with code := .detached } })
     t.strays 0 0 = [(1, 0)] ∧ t.waitsAt (t.slot 0 0).pc (1, 0) = false) := by decide +kernel

/-- Slot 1 of core 0 is selected by TSEL, and TRAPPED; the issuing slot is at level S of a partition. -/
def selecting (s : State := parted launched) : State :=
  (me (fun x => { x with t := { x.t with tsel := 0x80200000, tst := 1 } }) s).modSlot 0 1 fun x => { x with st := .trapped }
/-- The same with a selected slot of another core. -/
def selectingFar (s : State := parted launched) : State :=
  (me (fun x => { x with t := { x.t with tsel := 0x80000001, tst := 1 } }) s).modSlot 1 0 fun x => { x with st := .trapped }

/-- R274, R275, R358 to R360: a packet in SRAM and one in global memory; a RANKSET that is refused and one that is sent; a MIGRATE of
each status, and a request at a tide boundary. -/
theorem witness_SpawningAndMoving :
    let f := mkForm q 31 [.g 4] [.g 5]
    let g := mkForm q 29 [.g 4, .g 6] [.g 5] [] 1
    let asking := fun u : State => u.me.reply == none && !u.me.asked
    let home := fun (s : State) => s.modSlot 0 0 fun x => { x with st := .ready }
    let mv := fun (t : Word) (s : State) => gs [(4, t)] (home s)
    let h := mkForm q 31 [.g 4, .g 0] [.g 5]
    let status := fun (u : State) => u.moveStatus 0 0 ((u.rd (.g 4)).extractLsb' 0 21) (Fin.ofNat 4 ((u.rd (.g 4)).extractLsb' 21 2).toNat)
    Meets (gs [(4, loc 0xFFC0)] (parted launched)) f (fun u => asking u && lok (u.rd (.g 4)) 64 && fenceDone (u.core 0) 0 .rel &&
      ((u.core 0).badWord 0xFFC0 64).isNone) ∧
    Meets (gs [(4, 0x1000)] (lvl 3 (parted launched))) f (fun u => asking u && isGlobal (u.rd (.g 4)) && xl u (u.rd (.g 4)) 9 true) ∧
    Meets (me (fun x => { x with reply := some (.value 7) })) f (fun u => u.me.reply == some (.value 7)) ∧
    Meets (lvl 1 (parted launched)) g (fun u => asking u && !((u.part 0).ranksAfter[0]).getLsbD 62 && !(u.rd (.g 4)).getLsbD 62) ∧
    Meets (gs [(4, 1 <<< 62)] (lvl 1 (parted launched))) g (fun u => asking u && (u.rd (.g 4)).getLsbD 62) ∧
    Meets (mv 1 (parted launched)) h (fun u => asking u && status u == 0 && !u.moveWaits 0 0 && !u.moving 0 0 && unpackPos 1 == some 1 && (List.range 7).all fun v =>
      !u.slimRefuses (.g 5) (BitVec.ofNat 64 v)) ∧
    Meets (mv 1 (co (fun c => { c with vops := [⟨0, [], 0⟩] }) (parted launched))) h (fun u => status u == 0 && u.moveWaits 0 0) ∧
    Meets (mv 0x1FFFFF (parted launched)) h (fun u => status u == 3 && (unpackPos 0x1FFFFF).isNone) ∧
    Meets (mv 1 ((parted launched).modSlot 1 0 fun x => { x with st := .ready })) h (fun u => status u == 1) ∧
    Meets (mv 1 (me (fun x => { x with r := { x.r with gm := x.r.gm.set 0 (gmWord 5 0 1) } }) (parted launched))) h (fun u => status u == 2) ∧
    Meets (mv 1 ((parted launched).modCtx 0 fun c => { c with ranks := Vector.replicate 64 (rankWord ⟨true, false, 9, 9, 0, 0⟩) })) h
      (fun u => status u == 5) ∧
    Meets (gs [(6, 9)] (lvl 1 (parted launched))) (mkForm q 31 [.g 4, .g 6] [.g 5] [] 1) (fun u => asking u && (u.findTask 9).isNone) := by
  decide +kernel

/-- Slot 0 of core 0 and slot 1 of core 1, a task, both hold the scan unit of their core. -/
def clashing (s : State) : State :=
  State.modSlot (((s.modUnits 0 fun u => { u with scanOwner := some 0 }).modUnits 1 fun u => { u with scanOwner := some 1 })) 1 1 fun x =>
    { x with st := .ready }

theorem witness_MigtRequestAct :
    let s := (me (fun x => { x with st := .ready }) (parted launched)).modCore 0 fun c =>
      { c with regs := { c.regs with migt := c.regs.migt.set 0 0x8000000000000001 } }
    (s.core 0).regs.migt[(0 : Fin 4)].getLsbD 63 = true ∧ (s.slot 0 0).st = .ready ∧ (s.slot 0 0).tideBoundary = true ∧
      s.moving 0 0 = false ∧ s.moveStatus 0 0 1 0 = 0 ∧ s.moveWaits 0 0 = false ∧ unpackPos 1 = some 1 ∧
    (let m : Move := ⟨0, 0, 1, 0, mkGtid 1 1 0, 4, some 0, none, .waits⟩
     let t := s.modPart 0 fun p => { p with moves := [m] }
     let entry := fun (u : State) => takeEntry (u.part 0).ranksAfter (gtidLaunch m.gtid) (gtidRank m.gtid).toNat
     let full := t.modCtx 0 fun c => { c with ranks := Vector.replicate 64 (rankWord ⟨true, false, 9, 9, 0, 0⟩) }
     t.migtWaiting 0 0 = some m ∧ t.moveWaits 0 0 = false ∧ m.gtid = (t.slot 0 0).gtid ∧ (entry t).isSome ∧ t.claimClash 0 0 1 = false ∧
       full.migtWaiting 0 0 = some m ∧ full.moveWaits 0 0 = false ∧ entry full = none ∧
       (clashing t).migtWaiting 0 0 = some m ∧ (clashing t).moveWaits 0 0 = false ∧ (entry (clashing t)).isSome ∧
       (clashing t).slotOnly 0 0 1 = true ∧ (clashing t).claimClash 0 0 1 = true) := by decide +kernel

/-- A move from slot 0 of core 0 to slot 0 of core 1, made by register 1, whose last update is about to end; `w` stands in
the target's register 1. -/
def moveEnd (w : Word) : State :=
  (((parted launched).modPart 0 fun p =>
    { p with upds := [⟨4, 5, none, false⟩], moves := [⟨0, 0, 1, 0, mkGtid 1 1 0, 4, some 1, none, .release⟩] }).modMigt
      1 1 fun _ => w).modSlot 1 0 fun x => { x with st := .wait, wait := .moved }

/-- R357, R359: the end of a move whose target register is not armed again, and of one where it is. -/
theorem witness_MovesProceed_end : ∀ b : Bool,
    let w : Word := BitVec.ofBool b ++ 0#63
    (((moveEnd w).part 0).moves.find? (fun x => x.entry == 4 && x.step != .waits)).isSome ∧
    ((moveEnd w).slot 1 0).st = .wait ∧ ((moveEnd w).slot 1 0).wait = .moved ∧
    ((moveEnd w).core 1).regs.migt[(1 : Fin 4)] = w := by decide +kernel

/-- R358, R359: an update with an issuer and one that began a move; a move that may flush, and one that may copy. -/
theorem witness_MovesProceed :
    let g := mkGtid 1 1 0
    let mv := fun (st : MoveStep) (m : Option (Fin 4)) => (⟨0, 0, 1, 0, g, 4, m, none, st⟩ : Move)
    let p := fun (us : List TabUpd) (ms : List Move) => (parted launched).modPart 0 fun p => { p with upds := us, moves := ms }
    (∀ stop ∈ [true, false], let u : TabUpd := ⟨4, 5, some (0, 0), stop⟩
      ((p [u] []).part 0).upds[0]? = some u) ∧
    (∀ st ∈ [MoveStep.entry, .release], ∀ m ∈ [none, some (1 : Fin 4)], let u : TabUpd := ⟨4, 5, none, false⟩
      let s := p [u] [mv st m]
      (s.part 0).upds[0]? = some u ∧ (s.part 0).moves.find? (fun x => x.entry == u.entry && x.step != .waits) = some (mv st m)) ∧
    ((p [] [mv .flush none]).moveAt 0 .flush = some (mv .flush none) ∧ (p [] [mv .flush none]).unflushed 0 g = false) ∧
    (let s := p [] [mv .copy none]
     s.moveAt 0 .copy = some (mv .copy none) ∧ s.copyReady (mv .copy none) = true ∧ s.claimClash 0 0 1 = false) ∧
    (let s := clashing (p [] [mv .copy none])
     s.moveAt 0 .copy = some (mv .copy none) ∧ s.copyReady (mv .copy none) = true ∧ s.slotOnly 0 0 1 = true ∧ s.claimClash 0 0 1 = true) ∧
    (let u : TabUpd := ⟨4, 5, none, false⟩
     let s := p [u] [mv .failed none]
     (s.part 0).upds[0]? = some u ∧ (s.part 0).moves.find? (fun x => x.entry == u.entry && x.step != .waits) = some (mv .failed none)) ∧
    ((parted launched).part 0).netHeld = [] := by
  decide +kernel

/-- R291 to R294: the registers of the issuing slot and of a selected slot, here and at another core; a reserved number, too low a
level and no slot selected; a stop register. -/
theorem witness_SpecialRegisters :
    let f := mkForm q 29 [.g 6] [.g 5]
    let w := mkForm q 29 [.g 4, .g 6] []
    let info := fun (u : State) => (regInfo (srNum (u.rd (.g 6)))).isSome
    Meets (gs [(6, 0x20)] selecting) f (fun u => info u && !srDot (u.rd (.g 6))) ∧
    Meets (gs [(6, 0x8000)] selecting) f (fun u => info u && srDot (u.rd (.g 6)) && u.selected == some (0, 1) && (u.slot 0 1).st == .trapped) ∧
    Meets (gs [(6, 0x8000)] selectingFar) f (fun u => info u && u.selected == some (1, 0) && u.me.reply == none && !u.me.asked) ∧
    Meets (gs [(6, 0x8000)] (me (fun x => { x with reply := some (.value 3) }) selectingFar)) f (fun u => u.selected == some (1, 0)) ∧
    Meets (gs [(6, 0x8106)] (lvl 2 (me (fun x => { x with reply := some (.value 3) }) (selectingFar)))) f (fun u => srNum (u.rd (.g 6)) == 0x106) ∧
    Meets (gs [(6, 0x01F)]) f (fun u => (regInfo (srNum (u.rd (.g 6)))).isNone) ∧
    Meets (gs [(6, 0)]) f (fun u => (regInfo 0).any fun r => decide ((lvlOf u.me).toNat < r.rd)) ∧
    Meets (gs [(6, 0x8000)] (lvl 1)) f (fun u => u.selected == none) ∧
    Meets (gs [(6, 0x8000)] ((selecting).modSlot 0 1 fun x => { x with st := .ready })) w
      (fun u => srDot (u.rd (.g 6)) && (u.slot 0 1).st != .trapped) ∧
    Meets (gs [(6, 0x148)] selecting) w (fun u => info u && u.partOf 0 == some 0 && !stopRefused (u.part 0) 1 8 (u.rd (.g 4))) := by
  decide +kernel

theorem witness_SpecialRegisterTables :
    (parted).partOf 0 = some 0 ∧ (0x1E : Word).extractLsb' 0 5 ≠ 31#5 ∧ (0x1F : Word).extractLsb' 0 5 = 31#5 ∧ geV ((grouped (grp 0 0 0 0)).group 0 5).entry = true ∧
    ((0x8000000000000005 : Word).extractLsb' 0 8).toNat = 5 ∧ geV ((grouped 0).group 0 6).entry = false := by decide +kernel

/-- R293, R292, R330 and the registers with rules of their own: a value that each clause takes. -/
theorem witness_RegisterWriteEvents :
    let s := me fun x => { x with t := { x.t with sbase := loc 0x200, slim := loc 0x100 } }
    let t := (s.slot 0 0).t
    (t.slim ≤ loc 0x100 ∧ isLocal (loc 0x100) = true ∧ t.slim ≤ 0xE000000000010000 ∧ loc 0x200 ≤ t.sbase ∧ loc 0xFF < t.slim ∧ t.sbase < loc 0x201) ∧
    ((co fun c => { c with regs := { c.regs with wdog := 5 } }).core 0).regs.wdog ≠ 0 ∧ State.reset.phaseOf 0 = .run ∧
    (State.reset.fieldInUse 0 = false ∧ State.reset.partdefOk 0 0x8000000000000880 = true ∧ pdValid 0x8000000000000880 = true ∧
      State.reset.partdefOk 0 0x8000000000000000 = false) ∧
    reprowBad 0xFFFF = false ∧ (gtidVf 0x100000000 = 0 ∧ (State.reset.part 0).qcur.extractLsb' 32 9 = 0) ∧
    (bankOwner 0 = 0 ∧ bankOwner State.reset.me.gtid = 0) ∧ (State.reset.core 0).regs.bankShadow = none ∧
    (State.reset.core 0).regs.sampShadow = none ∧ bankOwner (State.reset.core 0).regs.samp = 0 ∧ (bankOwner 0x10000 = 1 ∧ bankOwner 0x20000 = 2) ∧
    pdValid ((0x8000000000000880 : Word) &&& 0x80000000001FFFFF) = true ∧ (State.reset.modMod fun m => { m with lcstate := 3 }).regs.lcstate = 3 ∧
    (State.reset.part 0).launches = [] ∧ State.reset.regs.lcstate = 0 := by decide +kernel

/-- R182, R303, R304, R323, R324: a selected TRAPPED slot here and far away, and one that is not TRAPPED; a drop that is made and one
that ends; the first and the last granule of an area; a frame's address; an entry that is accepted and one that is not. -/
theorem witness_SystemOperations :
    let f := mkForm Guard.always 29 [] [] [] 1
    let g2 := mkForm q 29 [.g 4, .g 5] [] [] 1
    let d : Drop := ⟨0, 1, 1, 0, 0x40, (0, 0), some 0⟩
    let lv3 := fun (s : State) => s.modSlot 0 0 fun x => { x with t := { x.t with tst := 3 } }
    Meets selecting f (fun u => u.selected == some (0, 1) && (u.slot 0 1).st == .trapped) ∧
    Meets (selecting.modSlot 0 1 fun x => { x with st := .sleep }) f (fun u => u.selected == some (0, 1) && (u.slot 0 1).st != .trapped) ∧
    Meets (me (fun x => { x with reply := some (.value 0) }) selectingFar) f (fun u => u.selected == some (1, 0)) ∧
    Meets (gs [(4, 0x4000), (5, 8)] selecting) g2 (fun u => u.me.reply == none && !u.me.asked && isGlobal (u.rd (.g 4)) && isGlobal (u.rd (.g 5)) &&
      u.invalPart == some 0 && fenceDone (u.core 0) 0 .rel) ∧
    (let s := { State.reset with drops := [{ d with dropped := none }] }
     s.drops[0]? = some { d with dropped := none }) ∧
    (let s := lv3 { parted launched with drops := [d] }
     s.drops[0]? = some d ∧ s.cores.all (fun e => e.2.gaccs.isEmpty) ∧ ((s.part 0).fields.all fun f => (s.field f).walks.isEmpty) ∧
       s.framesOf 0 1 = false ∧ isRemote 0x40 = false ∧ s.translateFor 0 0 0x40 5 false = .ok 0x40) ∧
    Meets (co (fun c => { c with gaccs := [GAcc.base State.reset .store 0 0 8] }) (gs [(4, 0x4000), (5, 8)] selecting)) g2 (fun u => u.me.reply == none &&
      u.invalPart == some 0 && !fenceDone (u.core 0) 0 .rel) ∧
    ([0, 1].all fun p : Nat => Meets (me (fun x => { x with reply := if p = 0 then none else some (.value 1) }) (gs [(4, loc 0xFFE0), (5, 32)] (lvl 1))) g2
      (fun u => u.me.progress == p && lok (u.rd (.g 4)) 16 && decide ((u.rd (.g 5)).toNat % 16 = 0 ∧ offOf (u.rd (.g 4)) + (u.rd (.g 5)).toNat ≤ 65536))) ∧
    Meets (gs [(4, 0x1000)] (selecting.modSlot 0 1 fun x => { x with t := { x.t with tst := 3 } })) (mkForm q 29 [.g 4] [] [] 1) (fun u =>
      u.selected == some (0, 1) && isGlobal (u.rd (.g 4)) && (u.rd (.g 4)).toNat % 2048 == 0 &&
      (match u.translateFor 0 1 (u.rd (.g 4)) 6 false with | .ok d => d == 0x1000 | .error _ => false)) ∧
    (let q : SysAcc := ⟨0, 0, .eret, 0x80000001, 0, 0, 0⟩
     let s := { selectingFar with sys := [q] }
     s.sys[0]? = some q ∧ s.selOf 0 q.tsel = some (1, 0) ∧ s.selOf 0 0 = none ∧ (s.slot 1 0).st = .trapped ∧ (s.slot 0 1).st ≠ .trapped) := by
  decide +kernel

/-- R87, R88, R304: an entry of a launch of two ranks that is accepted, and one that is not valid. -/
theorem witness_GroupEntries :
    let e := grp 0 0 0 0
    let img : Image := ⟨0, 0, 0, [], [], [], 2, 1, 1, 0, 0⟩
    let l : Launch := ⟨1, 1, .running, Vector.replicate 8 0, Vector.replicate 8 0, img, 0, 0, true, false, 0⟩
    let s := gs [(4, loc 0xFFE8)] (State.modMem ((selecting).modPart 0 fun p => { p with launches := [l] }) 0 fun m =>
      { m with sram := m.sram.writeLE 0xFFE8 24 e.toNat })
    geV e = true ∧ geV (s.group 0 5).entry = false ∧ (s.grpAccept 0 5 1 e).isSome ∧ (s.grpAccept 0 5 1 0).isSome ∧ geHome e ∈ (s.part 0).fields ∧
    s.grpAccept 0 5 1 (e ^^^ (1 <<< 168)) = none ∧
    Meets s (mkForm q 29 [.g 4] [.g 5] [] 1) (fun u => isLocal (u.rd (.g 4)) && (u.rd (.g 4)).toNat % 8 == 0 && u.partOf 0 == some 0 &&
      !u.slimRefuses (.g 5) 0 && (match u.sysRead 0 0 (u.rd (.g 4)) 8 3 with | .ok b => BitVec.ofNat 192 (leBytes b) == e | .error _ => false)) := by
  decide +kernel

/-- R301: an image that loads, one whose SBASE is outside the local window, and one above the issuer's level. -/
theorem witness_SlotContexts :
    let put := fun (tst sb : Word) => gs [(4, loc 0)] (selecting.modMem 0 fun m =>
      { m with sram := ((m.sram.writeLE 0x150 8 tst.toNat).writeLE 0x178 8 sb.toNat).writeLE 0x180 8 (loc 0).toNat })
    let f := mkForm q 29 [.g 4] [] [] 1
    let ok := fun (p : State → List Byte → Bool) (u : State) => u.selected == some (0, 1) && (u.slot 0 1).st == .trapped && isLocal (u.rd (.g 4)) &&
      (u.rd (.g 4)).toNat % 64 == 0 && (match u.sysRead 0 0 (u.rd (.g 4)) 64 32 with | .ok l => p u l | .error _ => false)
    Meets (put 0 0xE000000000010000) f (ok fun u l => !imageBad u 0 l && imgW l 0x150 == 0) ∧
    Meets (put 2 0xE000000000010000) f (ok fun u l => !imageBad u 0 l && decide (lvlOf u.me < (imgW l 0x150).extractLsb' 0 2)) ∧
    Meets (put 0 0) f (ok fun u l => imageBad u 0 l) ∧
    Meets (gs [(4, loc 0xF800)] selecting) f (fun u => u.selected == some (0, 1) && (u.slot 0 1).st == .trapped && !(u.core 0).slotBusy 1 &&
      (u.sysWrite 0 0 (u.rd (.g 4)) 32 ((u.slot 0 1).image noRecords)).isOk) ∧
    Meets (gs [(4, loc 0)] (co (fun c => { c with vops := [⟨1, [], 0⟩] }) selecting)) f (fun u => u.selected == some (0, 1) &&
      (u.slot 0 1).st == .trapped && isLocal (u.rd (.g 4)) && (u.core 0).slotBusy 1 && u.me.reply == none) ∧
    Meets (State.modCore ((put 0 0xE000000000010000).modSlot 0 1 fun x => { x with st := .empty, gtid := 0 }) 0 fun c =>
      { c with regs := { c.regs with nextid := 0x8000000000000000 ||| mkGtid 1 1 3 } }) f (fun u => u.selected == some (0, 1) &&
        (u.slot 0 1).st == .empty && (u.core 0).regs.nextid.getLsbD 63 && (u.findTask (mkGtid 1 1 3)).isNone && !(u.core 0).writing 1 &&
        u.ownDone 0 0 && (match u.sysRead 0 0 (u.rd (.g 4)) 64 32 with
          | .ok l => !imageBad u 0 l && imgW l 0x150 == 0 && (imgW l 0x150).getLsbD 4 == (u.slot 0 1).t.tst.getLsbD 4
          | .error _ => false)) ∧
    noRecords.length = 256 ∧ (State.reset.core 0).mem.sram.wf = true := by decide +kernel

/-! ### Witnesses: launches, pre-emption and translation -/

/-- Memory by (address, count, value). -/
def gm (l : List (Nat × Nat × Nat)) (s : State) : State :=
  { s with gmem := l.foldl (fun m e => m.writeLE e.1 e.2.1 e.2.2) s.gmem }
/-- VF 1's control block, a page table that maps every address below 2^38 to itself, and an image of one core and one task at
0x10000 whose text is a frame at 0x30000 (R147, R309, R331, R335). -/
def imaged (s : State := parted) : State :=
  gm [(0x20060, 8, 0x8000000000000C9C), (0x20040, 8, 1000), (0x20058, 8, 0x0FFFFFFFFFFFFFFF), (0x4000, 8, 0x8001), (0x8000, 8, 0x3F),
      (0x10000, 8, 0x00010102464C457F), (0x10010, 4, 0x53480002), (0x10018, 8, 0x30000), (0x10028, 8, 64), (0x10030, 4, 1),
      (0x1003A, 4, 0x20040), (0x10044, 4, 1), (0x10048, 8, 4), (0x10050, 8, 0x30000), (0x10060, 8, 2048),
      (0x10084, 4, 0x70000002), (0x10098, 8, 0xC0), (0x100A0, 8, 16), (0x100C0, 8, 0x10000100010001)]
    ((s.modMod fun m => { m with vfcbase := 0x20000 }).modCtx 0 fun c => { c with s1root := 0x8000000000004000 })
/-- A packet of that image. -/
def pkt (ctl : Nat := 0) : List Byte := toBytes 0x10000 8 ++ toBytes 0 8 ++ toBytes ctl 8 ++ toBytes 0 40
/-- What the image holds. -/
def img1 : Image := ⟨0x30000, 0x30000, 2048, [], [], [], 1, 1, 1, 0x1000, 0⟩

/-- A launch of the image, by that packet, in this state. -/
def ln (st : LaunchSt) (ctl : Nat := 0) : Launch := ⟨1, 1, st, packetWords (pkt ctl), Vector.replicate 8 0, img1, 0, 0, true, false, 0⟩
def launchesIn (l : List Launch) (s : State := imaged) : State := s.modPart 0 fun p => { p with launches := l }

/-- R332, R334: a packet that is accepted, and one for each refusal, in the order of the checks. -/
theorem witness_LaunchPackets :
    let k := fun (c : Nat) => packetOf (packetWords (pkt c))
    let refuses : Nat → State → Packet → Bool := fun n s p => (match s.validate 0 1 .host p with | .ok i => n == 0 && i == img1 | .error m => m == n)
    let s := imaged.modPart 0 fun p => { p with packets := [(.host, 1, pkt)] }
    (0x40 ≤ 0x47 ∧ 0x38 < 0x40 ∧ ((List.replicate 15 ((PktSrc.host, 1, pkt) : PktSrc × Nat × List Byte)).filter fun q => q.1 == .host && q.2.1 / 256 == 0).length < 16) ∧
    (nextNumber [1] 65535 65536 = 2 ∧ 0 < 2 ∧ 2 < 65536 ∧ 2 ∉ [1]) ∧
    (s.part 0).packetDue = some 0 ∧ (s.part 0).packets = (.host, 1, pkt) :: [] ∧ (s.part 0).phase = .run ∧ (s.part 0).valid = true ∧ pkt.length = 64 ∧
    refuses 0 (imaged) (k 0) ∧ refuses 1 imaged (k 0x8000000) ∧ refuses 2 imaged (k 0x400000) ∧ refuses 3 (gm [(0x4000, 8, 0)] imaged) (k 0) ∧
    refuses 4 (gm [(0x100C7, 1, 2)] imaged) (k 0) ∧ refuses 5 imaged (k 96) ∧ refuses 0 imaged (k 95) ∧
    refuses 6 (gm [(0x1003C, 2, 3), (0x10098, 8, 0x200), (0x10200, 8, 0x10000100010001), (0x100C0, 8, 0x7000000400000000), (0x100D8, 8, 0x240), (0x100E0, 8, 32), (0x10241, 1, 1)] imaged) (k 0) ∧
    refuses 8 (gm [(0x20060, 8, 0x8000000002000C9C)] (imaged.modField 0 fun f => { f with rails := Vector.replicate 4 { Rail.reset with ctl := 0 } })) (k 0) := by
  decide +kernel

/-- R334 check 7: 1,024 launches that wait. -/
theorem witness_LaunchQueueFull : (launchesIn (List.replicate 1024 (ln .queued))).full 0 1 = true ∧
    (launchesIn (List.replicate 1023 (ln .queued))).full 0 1 = false := by decide +kernel

/-- R336 to R339: a launch that is HELD with its counter reached, QUEUED with its cores free, loaded, and over. -/
theorem witness_LaunchesRun :
    let h := ln .held 0x1000000
    let d := ln .running 0x2000000
    ((launchesIn [h]).translateIn ((launchesIn [h]).part 0).ctx 1 (packetOf h.packet).depaddr 0 true false).isOk ∧
    (packetOf h.packet).depen = true ∧ (packetOf h.packet).deptgt.toNat ≤ (launchesIn [h]).gmem.readLE 0 8 ∧
    (let s := launchesIn [ln .queued]
     (s.part 0).phase = .run ∧ (s.part 0).queueHead = some (ln .queued) ∧ s.cornerFor 0 (ln .queued) = some (0, 0) ∧ (s.part 0).ctx.logMode = 0) ∧
    (let s := launchesIn [ln .loading]
     (s.part 0).launches[0]? = some (ln .loading) ∧ (ln .loading).loaded = true ∧ (s.part 0).phase = .run ∧ (s.part 0).current = some 1) ∧
    (let s := launchesIn [d] (imaged (parted launched))
     (s.part 0).launches[0]? = some d ∧ (s.part 0).phase = .run ∧ (s.part 0).current = some 1 ∧ (packetOf d.packet).doneen = true ∧
       (s.cores.all fun e => !e.2.busyFor 1 1) ∧ (s.part 0).ctx.hub = [] ∧ isRemote 0 = false ∧
       ((s.endLaunch 0 1 1).translateIn ((s.endLaunch 0 1 1).part 0).ctx 1 (packetOf d.packet).doneaddr 5 true false).isOk) := by decide +kernel

/-- R305 to R308, R340: each phase at its beginning and its end, with a quantum table that has one entry to run. -/
theorem witness_Preemption :
    let s := fun (ph : Phase) => (launchesIn [ln .running] (imaged (parted launched))).modPart 0 fun p =>
      { p with phase := ph, qt := p.qt.set 3 0x8000000100000000, qtNow := p.qtNow.set 3 0x8000000100000000, next := some (3, 0x8000000100000000) }
    ((s .run).part 0).valid = true ∧ qIdle ((s .run).part 0).qcur = false ∧ (s .run).nextEntry 0 = some (3, 0x8000000100000000) ∧
    ((s .stop1).part 0).moves = [] ∧ ((s .stop1).part 0).upds = [] ∧ (((s .stop1).coresOf 0).all fun k => (s .stop1).mayReport k) ∧
    (s .stop1).coresOf 0 = [0, 1] ∧ (s .drain2).quiet 0 = true ∧ ((s .drain2).part 0).ended = [] ∧
    (let t := s .out
     (t.part 0).next = some (3, 0x8000000100000000) ∧ (t.part 0).valid = true ∧ (t.part 0).phase = .out ∧ ((t.part 0).fields.all fun f => (t.field f).rails.toList.all fun r => !r.trip) ∧
       (t.part 0).ctx.ologstat.getLsbD 63 = false ∧ (t.part 0).netHeld = [] ∧
       ((t.modCtx 0 fun c => { c with ologstat := 1 <<< 63 }).part 0).ctx.ologstat.getLsbD 63 = true) := by decide +kernel

/-- R309 to R319: a miss to send with three sent before it, a walk that ends, that faults and that is stale, and the entries of a
level. -/
theorem witness_Translation :
    let m : Miss := ⟨some 0, none, 0x1238, 0, true, 1, false⟩
    let sent := { m with sent := true, party := some 1 }
    let s := co fun c => { c with misses := [sent, sent, sent, m] }
    let w := fun (stale : Bool) => (⟨0, sent, true, stale, []⟩ : WalkReq)
    let wk := fun (stale : Bool) (t : State) => (t.modField 0 fun f => { f with walks := [w stale] }).modSlot 0 1 fun x => { x with st := .wait, wait := .walk }
    ((s.core 0).misses[3]? = some m ∧ m.sent = false ∧ ((s.core 0).misses.filter (·.sent)).length = 3 ∧
      ((s.core 0).misses.take 3).all (·.sent)) ∧
    (((wk false imaged).field 0).walks[0]? = some (w false) ∧ ((wk false imaged).walk ((wk false imaged).part 0).ctx 1 0x1238).isOk) ∧
    (((wk true imaged).field 0).walks[0]? = some (w true) ∧ (((wk false State.reset).field 0).walks[0]? = some (w false)) ∧
      (State.reset.walk PartCtx.reset 1 0x1238).isOk = false ∧ PartCtx.reset.s1root.getLsbD 63 = false) ∧
    ((0x3E : Word).getLsbD 0 = false ∧ (0x3F : Word).getLsbD 0 = true ∧ pteBad false 1 49 0x3F = true ∧ pteBad false 2 38 0x3F = false ∧
      pteBad true 2 38 0x3F = true ∧ pteBad false 4 16 0x8001 = true ∧ pteBad false 3 27 0x8001 = false) ∧
    ((page 1 0 0).check 0 1 true = none ∧ ({ page 1 0 0 with u := false } : TEntry).check 0 1 true ≠ none ∧ ((List.range 8).map fun i => page 1 (65536 * i) 0).Nodup) := by
  decide +kernel

/-- R340, R345 to R347, R352 to R356: a balance that goes to 0 with its VF current; a rail that moves up, down and not at all; a sensor
at each of its levels; a tripped rail that has cooled. -/
theorem witness_EnergyAndHeat :
    let a : BalAdd := ⟨0, some 0, 1, some 1000, some 7⟩
    let s := { imaged with adds := [a] }
    (s.adds[0]? = some a ∧ (s.cbWord 1 0 - BitVec.ofInt 64 1000).toInt ≤ 0 ∧ (s.part 0).current = some 1 ∧ (s.part 0).exhausted = false ∧
      (s.part 0).phase = .run) ∧
    0 < (s.cbWord 1 0 - BitVec.ofInt 64 999).toInt ∧ ({ imaged with adds := [{ a with charge := none }] } : State).adds[0]? = some { a with charge := none } ∧
    (¬ max 1 ((({ s.part 0 with rollp := 2 } : Partition).rollp.extractLsb' 0 16).toNat) ≤ (s.field 0).rollAt + 1 ∧
      max 1 (((s.part 0).rollp.extractLsb' 0 16).toNat) ≤ (s.field 0).rollAt + 1) ∧ (State.reset.partOfField 0 = none ∧ s.partOfField 0 = some 0) ∧
    (let x := fun (n : Nat) => ({ Rail.reset with setpt := BitVec.ofNat 10 n } : Rail)
     (x 399).setpt.toNat < ((x 399).vote [400]).target.toNat ∧ ((x 401).vote [400]).target.toNat < (x 401).setpt.toNat ∧
       (x 400).setpt.toNat = ((x 400).vote [400]).target.toNat ∧ (x 401).holds = []) ∧
    (let t := parted launched
     (t.rail 0).off = false ∧ (t.partOfField 0 = some 0 ∧ qIdle (t.part 0).qcur = false ∧ (t.part 0).phase = .run) ∧
       (t.modRail 0 fun x => { x with off := true }).rail 0 ≠ t.rail 0 ∧ ((t.modPart 0 fun x => { x with phase := .drain2 }).part 0).phase ≠ .run) ∧
    -- Two cores of a launch, of which one asks and the VF has a floor.
    (let t := (imaged (parted launched)).modUnits 0 fun u => { u with wanted := true }
     (t.cores.map Prod.fst).Nodup ∧ (t.core 0).held = some ⟨0, 1, 1, 0, 0, 2, 1, 1⟩ ∧ (t.core 2).held = none ∧ t.floorOf 1 = 0 ∧
       (gm [(0x20060, 8, 0x8000000002000C9C)] t).floorOf 1 ≠ 0 ∧ t.hot 0 = false ∧ onRail 0 0 = true ∧ (t.unit 0).wanted = true) ∧
    (let t := { parted launched with adds := [{ a with vf := 2 }] }
     (t.part 0).current ≠ some 2 ∧ (2 : Nat) = qtVf 0x8000000200000000) ∧
    (State.reset.unit 0).tokens ≤ 2048 ∧ ((State.reset.sensor 64511).level ≠ 3 ∧ (State.reset.rail (railOfSensor 64511)).trip = false) ∧
    (let t := State.reset.modField 83 fun f => { f with rails := f.rails.set 3 { f.rails[3] with trip := true } }
     (t.rail 335).trip = true ∧ ((railSensors 335).all fun n => (t.sensor n).temp.toNat < 340) = true) := by decide +kernel

/-- R366 to R378, R387 to R390: spares left and used up, a bad and a good word to scrub, a slot that can take UNCORRECTABLE, the module
not started, a key, a log entry that does not fit and one that does, a full order log. -/
theorem witness_HealthAndBringUp :
    (linkSpares 3 0 < 4 ∧ 4 ≤ linkSpares 4 0) ∧ (linkPeer 0 1 = some 1 ∧ linkPeer 1032191 3 = some 1032190 ∧ linkPeer 0 0 = none) ∧
    ((State.reset.wireLink (linkTo 1 0)).stopped = false ∧
      (State.wireLink { State.reset with links := [(linkTo 1 0, ⟨[], true⟩)] } (linkTo 1 0)).stopped = true) ∧
    (hubPeer (fieldOf 0) 1 = some 1 ∧ (State.reset.field 0).hubLanes[(1 : Fin 4)] < 2 ∧ (State.reset.field 0).hubStopped[(1 : Fin 4)] = false ∧
      2 ≤ ((State.reset.modField 83 fun f => { f with hubLanes := f.hubLanes.set 0 2 }).field 83).hubLanes[(0 : Fin 4)] ∧
      ((State.reset.modField 83 fun f => { f with hubStopped := f.hubStopped.set 0 true }).field 83).hubStopped[(0 : Fin 4)] = true) ∧
    (let x := fun (n : BitVec 32) (ok : Bool) => (⟨State.reset.regs.vendorKey, ok, n, [0, 0, 0, 0]⟩ : FwImage)
     let runs := fun (x : FwImage) => decide (x.key = State.reset.regs.vendorKey) && x.sig && decide ((5 : BitVec 32) ≤ x.ver)
     runs (x 5 true) = true ∧ runs (x 4 true) = false ∧ runs (x 5 false) = false ∧ runs { x 5 true with key := 1 } = false) ∧
    ((State.reset.rail 335).off = false ∧ (State.reset.modMod fun m => { m with rootLvl := some 3, keyLive := true }).regs.rootLvl ≠ none) ∧
    (((-16 : Int) - 8 * ((State.reset.field 3).time.toNat - (State.reset.field 5).time.toNat : Int)).natAbs ≤ (16 : BitVec 16).toNat) ∧
    ((State.reset.modMod fun m => { m with leaf := 32768 }).regs.leaf = 32768) ∧
    ((co fun c => { c with regs := { c.regs with ue := [0] } }).core 0).badWord 0 8 = some 0 ∧ (State.reset.core 0).badWord 0 8 = none ∧
    (∀ i, ((State.reset.modCore 0 fun c => { c with slots := Vector.replicate 4 { Slot.wiped with st := .sleep } }).slot 0 i).st = .sleep) ∧
    State.reset.started = false ∧ State.reset.regs.lcstate ≠ 4 ∧ State.reset.regs.keyLive = false ∧ State.reset.regs.leaf < 32768 ∧
    (335 / 4 ≠ 5 ∧ State.reset.partOfField 83 = none) ∧
    (let x : Sample := ⟨0, 0, 0, 0, 1, 0⟩
     let s := { parted with samples := [x] }
     s.samples[0]? = some x ∧ (s.part 0).phase = .run ∧ (s.part 0).ctx.sampbase.toNat % 4096 * 4096 < (s.sampleEntry x).length) ∧
    -- A log that fits its area of 4 KiB at 0x10000.
    (let x : Sample := ⟨0, 0, 0, 0, 1, 0⟩
     let s := { imaged.modCtx 0 (fun c => { c with sampbase := 0x10001 }) with gmem := imaged.gmem.filter (fun e => e.1 < 0x10000 || 0x20000 ≤ e.1), samples := [x] }
     let d := fun (u : State) (va : Word) (acc : BitVec 8) => match u.translateIn (u.part 0).ctx 0 va acc false false with | .ok r => some r.1 | .error _ => none
     let u := State.gwrite { s with samples := s.samples.eraseIdx 0, free := s.free + 254 } 0x10000 8 (8 + (s.sampleEntry x).length)
     s.samples[0]? = some x ∧ d s 0x10000 2 = some 0x10000 ∧ s.gmem.wf = true ∧ (s.gmem.readLE 0x10000 8 + (s.sampleEntry x).length ≤ 4096) ∧
       (d (s.gwrite 0x10000 8 8) 0x10008 1 = some 0x10008) ∧ d u 0x10008 1 = some 0x10008) ∧
    (let s := (parted).modCtx 0 fun c => { c with ologctl := 1 <<< 62 }
     s.logStops 0 1 (placeCore 0) 0 = true ∧ (placeCore 0, 0) ∈ (s.part 0).placesAt (packPos 0) ∧ (s.part 0).phase = .run ∧ qIdle (s.part 0).qcur = false ∧ (s.part 0).ctx.nextSeq 0 % 2 ^ 32 = 0) := by
  decide +kernel

/-- R362 to R364: row 4 of the run in 17 has dead columns 5 and 8, and borrows from row 3; the last row has no spare left for
three. -/
theorem witness_RepairMaps :
    ((repairMap [393, 396]).map fun m => (rowWord m 3, rowWord m 4)) = some (0x8FFFF, 0x10805) ∧
    3 ≤ ((List.range 97).filter fun c => [12319, 12320, 12321].contains (97 * 127 + c)).length := by decide +kernel

/-- R393 to R404: the last byte of a line, a peer's frame that is in order and permitted, and one of no tenant, an access that waits for
its answer, and the eighth and ninth timeouts. -/
theorem witness_QuayTraffic :
    let d := 2 ^ 39 - 1
    let e : Word := 0x9000000000000000
    let x : NetFrame := ⟨129, 0, 0, 0, 0, .write 0 [], ⟨0, 0⟩⟩
    let s := State.reset.modMod fun m => { m with tenants := m.tenants.set 255 e }
    let i7 : NetId := ⟨9, 7⟩
    let o := fun (n : Nat) (w : NetFor) => (⟨i7, 0, n, w⟩ : NetOut)
    let a : GAcc := { GAcc.base State.reset .load 0 (2 ^ 46) 8 with net := some i7, dest := some (.g 5) }
    let t := (State.reset.modQuay (State.reset.quayOf (2 ^ 46)) fun y => { y with outst := [o 0 .access] }).modCore 0 fun c => { c with gaccs := [a] }
    (homeOf d = some (.mem 0) ∧ State.reset.decodes d = true ∧ d % 64 + 1 ≤ 64) ∧ (s.quay 129).up = true ∧ x.seq = (s.quay 129).taken 0 ∧
    s.tenantOk x = true ∧ State.reset.tenantOk x = false ∧ s.exportAt 0 1 0 1 = none ∧
    t.netAccess (t.quayOf (2 ^ 46)) i7 = some (0, 0, a) ∧ t.netNext (t.quayOf (2 ^ 46)) i7 = some (o 0 .access) ∧ (t.quay (t.quayOf (2 ^ 46))).up = true ∧
    (∀ n ∈ [7, 8], ((State.reset.modQuay 66 fun y => { y with outst := [o n .access] }).quay 66).outst.find? (fun p => p.id == i7) = some (o n .access)) ∧
    (linesPass [1] 1 = false ∧ (match s.netPerform 129 0 i7 (.write 0 [1]) with | .refused => true | _ => false) = true ∧
      (match s.netPerform 129 0 i7 (.launch []) with | .discarded => true | _ => false) = true ∧
      (match s.netPerform 129 0 i7 (.launch (List.replicate 64 0)) with | .done _ _ => true | _ => false) = true) ∧
    (match (s.modPart 0 fun p => { p with phase := .out, packets := List.replicate 16 (.net 129, 0, []) }).netPerform 129 0 i7 (.launch (List.replicate 64 0)) with
      | .later => true
      | _ => false) = true ∧
    -- A write to an export whose home is a third module is passed on.
    (let u := gm [(0x8000, 8, 2 ^ 46 + 0x3F)] (imaged.modMod fun m => { m with exports := [(1, 0, 8)], tenants := m.tenants.set 0 0x9000100000000000 })
     match u.netPerform 129 1 i7 (.write 0 [1]) with | .wait _ => true | _ => false) = true ∧
    -- A frame of a tile whose source is the peer's memory.
    (let z : Stream := { strm with src := shp 0x100 2 4 8 4, asked := true }
     let u := (State.reset.modQuay 66 fun y => { y with outst := [o 0 (.tile 7 [0])] }).modCore 0 fun c => { c with streams := c.streams.set 7 (some z) }
     u.netNext 66 i7 = some (o 0 (.tile 7 [0])) ∧ (u.core 0).streams[(7 : Fin 8)] = some z ∧ z.globalEnd = some (z.src, 7) ∧ (u.quay 66).up = true) ∧
    ((State.reset.modQuay 66 fun y => { y with up := false }).quay 66).up = false ∧
    (a.holds = false ∧ a.returns = true) ∧
    (State.reset.quay 65).pcie = false ∧ ((State.reset.modQuay 0 fun y => { y with throttled := true }).quay 0).throttled = true := by
  decide +kernel

/-- R180, R298: a slot with two deferred causes, one whose cause is deferred, merged and sent on, and one that sleeps with EV set. -/
theorem witness_TakingAnException :
    let d : Deferred := ⟨0x26, 1, false, false⟩
    let s := me fun x => { x with st := .ready, deferred := [d, ⟨0x0F, 2, false, false⟩] }
    let w := me fun x => { x with st := .sleep, ev := true, slept := some (0, 0, 1) }
    ((s.slot 0 0).st = .ready ∧ s.mayInterrupt 0 0 = true ∧ s.moving 0 0 = false ∧ (s.slot 0 0).deferred ≠ []) ∧
    (State.reset.slot 0 0).st = .empty ∧ ((me fun x => { x with st := .halting }).slot 0 0).st = .halting ∧ isLocal (loc 8) = true ∧
    isLocal 8 = false ∧ (lvlOf (State.reset.slot 0 0) ≠ 3 ∧ lvlOf (lvl 3).me = 3) ∧
    ((w.slot 0 0).st = .sleep ∧ (w.slot 0 0).ev = true ∧ (w.slot 0 0).slept = some (0, 0, 1) ∧ w.coreRuns 0 = true ∧ w.partOf 0 = none) ∧
    Meets State.reset (mkForm Guard.always 1 [] []) (fun u => u.stopAt 0 0 0 == none) ∧
    Meets ((parted launched).modCtx 0 fun c => { c with stopown := 1 <<< 63, stop := c.stop.set 7 (0x8000000000000000 ||| mkGtid 1 1 0) })
      (mkForm Guard.always 1 [] []) (fun u => u.stopAt 0 0 0 == some 7) := by decide +kernel

/-- What may stand before an instruction: each case of `Gated`, for a DIV guarded by p2 with a channel source. -/
theorem witness_GatesAndRegisters :
    let f := alu2Form ⟨⟨2, false⟩, .i8, .g 5, .g 4, .reg (.c 6)⟩ 3
    let low := mkForm Guard.always 29 [] [] [] 1
    let on := fun (s : State) => s.modMe fun x => { x with r := { x.r with p := x.r.p.set 2 1 } }
    let bad : GAcc := { GAcc.base State.reset .load 0 0 8 with dest := some (.g 4), performed := true, bad := 0x0F }
    let pend := fun (r : Reg) (s : State) => s.modCore 0 fun c => { c with gaccs := [{ bad with dest := some r, bad := 0, performed := false }] }
    decide ((lvlOf State.reset.me).toNat < low.lvl.toNat) ∧
    decide ((pend (.p 2) (on State.reset)).pends (.p f.q.p)) ∧
    decide (¬ State.reset.pends (.p f.q.p) ∧ guardHolds f.q State.reset.me.r = false) ∧
    decide (guardHolds f.q (on State.reset).me.r = true ∧ (((on State.reset).modCore 0 fun c => { c with gaccs := [bad] }).core 0).badLoad 0 f.regs ≠ none) ∧
    ((State.core (pend (.g 4) (on State.reset)) 0).badLoad 0 f.regs == none && f.regs.any fun r => decide ((pend (.g 4) (on State.reset)).pends r)) ∧
    (f.srcs.contains (.c 6) && !(on State.reset).me.r.pres.getLsbD 6 && f.regs.all fun r => decide (¬ (on State.reset).pends r)) := by decide +kernel

/-- R74 to R76: a handler of two heads at its first and at its last, with a channel that is free and one that is not. -/
theorem witness_InlineHandlers :
    let h : Handler := ⟨Vector.replicate 8 3, 2, 1, 0, 0, 3, false, 0, msgTo0 0 [2]⟩
    let s := { (State.modCore launched 0 fun c => { c with handler := some h }) with cur := ⟨0, 0, true, 0, 0, 0⟩ }
    (let t := s.wr (.g 6) (loc 8)
     lok (t.ea (.g 6) (.imm (.i16 0))) 8 = true ∧ isLocal (s.ea (.g 5) (.imm (.i16 0))) = false) ∧
    s.cur.inline = true ∧ (s.core 0).handler = some h ∧ s.chanBusy (.c 7) = false ∧
    (s.modMe fun x => { x with r := { x.r with pres := 0x80 } }).chanBusy (.c 7) = true ∧
    h.next + 1 < lineHC h.line ∧ lineHC h.line ≤ ({ h with next := 1 } : Handler).next + 1 ∧ (s.slot 0 h.slot).st = .empty ∧
    ((s.modSlot 0 0 fun x => { x with st := .ready }).slot 0 h.slot).st = .ready := by decide +kernel

/-- Instructions with every operand at the edge of its field, and one that R137 to R143 give no word. -/
theorem witness_RoundTrip :
    (Instr.add ⟨⟨7, true⟩, .n64, .g 31, .c 7, .reg (.g 31)⟩).wf = true ∧ (encode (.add ⟨⟨7, true⟩, .n64, .g 31, .c 7, .reg (.g 31)⟩)).isSome ∧
    (Instr.trap 63).wf = true ∧ (encode (.trap 63)).isSome ∧ encode (.mrunComplete 0) = none ∧ (decode 0x0845 0x0184).isOk = true := by
  decide +kernel

/-- A handler at the first head of a line of one word, and core 0 with it and an issue turn to take. -/
def oneHead (l : Line) : Handler := ⟨Vector.replicate 8 0, l, 1, 0, 0, 3, false, 0, msgTo0 0 [2]⟩
def handling (l : Line) : State :=
  { (State.modCore launched 0 fun c => { c with handler := some (oneHead l) }) with agenda := [.issue 0] }

/-- R75: an ADD of m4 and m6, the same with a guard, and an ERET. -/
theorem witness_HandlerTurns :
    [((0x18408450001 : Line), some true), (0x140C018408850001, some false), (0x54000001, none)].all fun e =>
      (handling e.1).coreRuns 0 && ((handling e.1).core 0).handler == some (oneHead e.1) && (handling e.1).logMode 0 == 0 &&
      lineHC (oneHead e.1).line == 1 && lineLegal (64 * (oneHead e.1).cl) (oneHead e.1).line &&
      (match decode (lineHead (oneHead e.1).line 0) (lineTail 64 (oneHead e.1).line 0) with
        | .ok i => handlerForm i == e.2
        | .error _ => false) := by decide +kernel

/-- A READY slot at a line of one NOP, one whose head is undefined, one ill-formed, and one with no line. -/
theorem witness_StepRunsDecoded :
    let at_ := fun (l : Line) => { me (fun x => { x with st := .ready }) (lineAt0 l) with agenda := [.issue 0] }
    let ok := fun (s : State) (p : Except (BitVec 8 × Word) Fetched → Bool) =>
      let s1 : State := { s with now := s.now + 2, agenda := [] }
      let u := (((s1.countWaits 0).countStall 0).wakeSlots 0).inlineDue 0
      let v := u.modCore 0 fun c => { c with handlerDone := false }
      s1.coreRuns 0 && (u.core 0).handler.isNone && (u.core 0).oldest == some 0 && (v.slot 0 0).lace.code == .solo && !v.moving 0 0 &&
      (v.slot 0 0).deferred.isEmpty && !(v.core 0).regs.migt[0].getLsbD 63 && v.boundaryStop 0 0 false == none && v.boundaryStop 0 0 true == none && v.logMode 0 == 0 && p (fetchAt (v.core 0) (v.slot 0 0).pc)
    let got : Nat → Except (BitVec 8 × Word) Fetched → Bool := fun n p => match p with
      | .ok f => (match decode f.head f.tail with
        | .ok i => n == 0 && i == .nop
        | .error e => n == 1 && e == .illegalOp || n == 2 && e == .illegalForm)
      | .error _ => false
    ok (at_ 1) (got 0) ∧ ok (at_ (1 ||| 0xFE00#512 <<< 16)) (got 1) ∧ ok (at_ (1 ||| 0xD828#512 <<< 16)) (got 2) ∧
    ok (me (fun x => { x with st := .ready }) { State.reset with agenda := [.issue 0] }) (fun p => !p.isOk) := by decide +kernel

theorem witness_StepKeepsMemory : State.reset.MemInv ∧ (Memory.wf [(3, 1), (65535, 255)] = true) := by
  refine ⟨⟨rfl, ?_, ?_⟩, by decide⟩ <;> intro _ h <;> cases h

/-! ### Single instructions -/

/-- What a word does as the first instruction: slot 0 of core 0 after the step. -/
def first (nbits w : Nat) (p : Slot → Bool) : Bool := nx (fun t => p (t.slot 0 0)) (step (State.reset.withFetchWord nbits w))
/-- What `exec` leaves in the issuing slot. -/
def does (i : Instr) (s : State) (p : Slot → Bool) : Bool := nx (fun t => p (t.slot 0 0)) (exec i s)

/-- The worked example of MOVI (05, R141): g4 receives 0x40, and the slot goes on. -/
theorem test_step_movi : first 64 0x0040000000002EC4 (fun x => x.r.g[4] == 0x40 && x.st == .ready) = true := by decide +kernel
/-- R69, R177. -/
theorem test_step_halt : first 16 0x0200 (fun x => x.st == .empty) = true := by decide +kernel
/-- R138: ERET at level U raises PRIVILEGE with the head in TADDR. -/
theorem test_step_eret : first 16 0x5400 (fun x => x.st == .trapped && x.t.tcause == 4 && x.t.taddr == 0x5400) = true := by decide +kernel
/-- R135: OP 0x7F is undefined. -/
theorem test_step_undefined : first 16 0xFE00 (fun x => x.st == .trapped && x.t.tcause == 2 && x.t.taddr == 0xFE00) = true := by
  decide +kernel

def alu (t : IntTy) : Alu2 := ⟨q, t, .g 5, .g 4, .reg (.g 6)⟩

/-- R156, R158: 127 + 1 in i8 wraps to −128, extended by its sign; in n8 the sum 255 + 1 is 0. -/
theorem test_add : does (.add (alu .i8)) (gs [(4, 127), (6, 1)]) (fun x => x.r.g[5] == -128) = true ∧
    does (.add (alu .n8)) (gs [(4, 255), (6, 1)]) (fun x => x.r.g[5] == 0) = true := by decide +kernel
/-- R158: −128 / −1 in i8 is put of 128; division by 0 gives all ones and DZ. -/
theorem test_div : does (.div (alu .i8)) (gs [(4, 0x80), (6, 0xFF)]) (fun x => x.r.g[5] == -128 && x.r.flags == 0) = true ∧
    does (.div (alu .n16)) (gs [(4, 5), (6, 0)]) (fun x => x.r.g[5] == 0xFFFF && x.r.flags == flagDZ) = true := by decide +kernel
/-- R158: REM takes the sign of the dividend; by 0 it gives the dividend. -/
theorem test_rem : does (.rem (alu .i8)) (gs [(4, 0xF9), (6, 2)]) (fun x => x.r.g[5] == -1) = true ∧
    does (.rem (alu .i8)) (gs [(4, 0xF9), (6, 0)]) (fun x => x.r.g[5] == -7 && x.r.flags == flagDZ) = true := by decide +kernel
/-- R158: a shift by 33 in a 32-bit type is a shift by 1; SAR copies the sign; MULH is the upper half. -/
theorem test_shifts : does (.shl (alu .n32)) (gs [(4, 3), (6, 33)]) (fun x => x.r.g[5] == 6) = true ∧
    does (.sar (alu .i8)) (gs [(4, 0x81), (6, 1)]) (fun x => x.r.g[5] == -64) = true ∧
    does (.mulh (alu .i8)) (gs [(4, 0x80), (6, 2)]) (fun x => x.r.g[5] == -1) = true := by decide +kernel
/-- R29: g0 reads 0 and discards writes; a channel source is consumed, and a channel destination is marked present. -/
theorem test_registers : does (.mov ⟨q, .g 0, .g 4⟩) (gs [(4, 9)]) (fun x => x.r.g[0] == 0) = true ∧
    does (.mov ⟨q, .c 3, .c 6⟩) (me fun x => { x with r := { x.r with c := x.r.c.set 6 8, pres := 0x40 } })
      (fun x => x.r.c[3] == 8 && x.r.pres == 0x08) = true ∧
    does (.mov ⟨q, .g 5, .c 6⟩) State.reset (fun x => x.st == .wait && x.wait == .channel) = true := by decide +kernel
/-- R242, R243: LD of an i16 extends its sign; a global address raises WINDOW and an odd one ALIGN_ACCESS, with it in TADDR. -/
theorem test_ld : does (.ld ⟨q, .i16, .g 5, .g 6, .imm (.i16 2)⟩) (ram [(0x10, 4, 0xFFFE1234)] (gs [(6, loc 0x10)])) (fun x => x.r.g[5] == -2) = true ∧
    does (.ld ⟨q, .i16, .g 5, .g 6, .imm (.i16 0)⟩) (gs [(6, 0x10)]) (fun x => x.st == .trapped && x.t.tcause == 0x0A && x.t.taddr == 0x10) = true ∧
    does (.ld ⟨q, .i16, .g 5, .g 6, .imm (.i16 1)⟩) (gs [(6, loc 0x10)]) (fun x => x.t.tcause == 0x07 && x.t.taddr == loc 0x11) = true := by
  decide +kernel
/-- R248: CAS writes where the old value matches, and gD receives the old value. -/
theorem test_amo : nx (fun t => (t.core 0).mem.sram.readLE 8 4 == 7 && (t.slot 0 0).r.g[5] == 3)
    (exec (.amo ⟨q, .cas, .i32, .g 5, .g 6, .g 7, .g 8, none⟩) (ram [(8, 4, 3)] (gs [(6, loc 8), (7, 3), (8, 7)]))) = true := by decide +kernel
/-- R103, R158: a stack pointer below SLIM raises STACK_LIMIT and is not written. -/
theorem test_stack_limit : does (.add ⟨q, .i64, .g 2, .g 4, .reg (.g 0)⟩) (me (fun x => { x with t := { x.t with slim := loc 0x100 } }) (gs [(4, loc 0xF0)]))
    (fun x => x.st == .trapped && x.t.tcause == 0x0B && x.t.taddr == loc 0xF0 && x.r.g[2] == 0) = true := by decide +kernel
/-- R171: CALL writes the next head's pointer to g1 and transfers; the target's line is the sum of the lines. -/
theorem test_call : does (.call 0x45) (me (fun x => { x with pc := 2 }) { State.reset with cur := ⟨0, 0, false, 0, 0, 3⟩ })
    (fun x => x.r.g[1] == 3 && x.pc == 0x85) = true := by decide +kernel
/-- R190, R192: VADD writes its active lanes when it completes, and its register pends until then. -/
theorem test_vadd : nx (fun t => (t.slot 0 0).r.v[1] == 0 && nx (fun u => (u.slot 0 0).r.v[1] == 0x300000000) (exec (.vectorComplete 0 0) t))
    (exec (.vadd ⟨⟨2, false⟩, .int .i32, 1, 2, 3⟩) (me fun x => { x with r := { x.r with p := x.r.p.set 2 2, v := (x.r.v.set 2 0x100000005).set 3 0x200000006 } })) = true := by
  decide +kernel
/-- R44, R196: 1.0 + 2⁻²⁴ in binary32 is a tie that goes to the even 1.0, with NX. -/
theorem test_float_tie : (fmtF32.unpack 0x3F800000 = .fin false 8388608 (-23)) ∧ nx (fun t => nx (fun u => (u.slot 0 0).r.v[1] == 0x3F800000 && (u.slot 0 0).r.flags.getLsbD 0)
      (exec (.vectorComplete 0 0) t))
    (exec (.vadd ⟨⟨2, false⟩, .fp .f32 .rne, 1, 2, 3⟩) (me fun x => { x with r := { x.r with p := x.r.p.set 2 1, v := (x.r.v.set 2 0x3F800000).set 3 0x33800000 } })) = true := by
  decide +kernel
/-- R23, R261: an increment past 65,535 leaves the semaphore and raises SEM_OVERFLOW. -/
theorem test_semaphore : nx (fun t => (t.core 0).mem.sem[4] == 65535 && (t.slot 0 0).st == .trapped && (t.slot 0 0).t.tcause == 0x0E)
    (exec (.semsig ⟨q, 4, .imm 1⟩) (State.reset.modMem 0 fun m => { m with sem := m.sem.set 4 65535 })) = true := by decide +kernel

end Sys2Proof.Tests
end

section
/-! PROOFS. Every step keeps all memory in its canonical form (O60).

`State.MemInv` speaks of module memory, of the SRAM of every core and of that of every saved core. Each function of the model that
makes a state, a core or a part of one has one lemma here, named after it: what goes in in that form comes out in it. The lemmas
stand in the order of the model's own definitions, so that each uses those of the functions that it calls, up to
`State.MemInv.exec`, which goes through the instructions and events, and `State.MemInv.step`. -/

namespace Sys2Proof.Machine

/-! ### What it is for each part of the model to carry memory in its canonical form -/

/-- A core's memory has its SRAM in the canonical form: what `Core.MemOk` says of a core. -/
def CoreMem.SramOk (m : CoreMem) : Prop := m.sram.wf = true

/-- So has every core of a list. -/
def CoresOk (l : List (Nat × Core)) : Prop := ∀ e ∈ l, e.2.MemOk

/-- So has every core of the contexts of a list of saved ones. -/
def SavesOk (l : List (Nat × PartCtx × List (Nat × Core))) : Prop := ∀ y ∈ l, CoresOk y.2.2

/-- So has every core of the contexts that a partition has saved. -/
def Partition.SavedOk (x : Partition) : Prop := SavesOk x.saved

/-- So has every core of the contexts that the partitions of a list have saved. -/
def PartsOk (l : List (Nat × Partition)) : Prop := ∀ p ∈ l, p.2.SavedOk

/-- A predicate holds of the value that an option may carry. -/
def OptionOk {α : Type} (P : α → Prop) (o : Option α) : Prop :=
  match o with
  | some a => P a
  | none => True

/-- A predicate holds of a value, and another of what stands in its place. -/
def ExceptOk {ε α : Type} (Q : ε → Prop) (P : α → Prop) (r : Except ε α) : Prop :=
  match r with
  | .ok a => P a
  | .error e => Q e

/-- Every state that an act of a body holds keeps `MemInv`, and so does every function of the state in it. -/
def Act.MemOk (a : Act) : Prop :=
  match a with
  | .ok s | .jump s _ | .stay s => s.MemInv
  | .trapWith f _ _ | .again f | .wait _ f => ∀ s : State, s.MemInv → (f s).MemInv
  | .trap _ _ | .xtrap _ _ => True

/-- The state that a SYS access leaves keeps `MemInv`. -/
def SysRes.MemOk (r : SysRes) : Prop :=
  match r with
  | .ok s _ => s.MemInv
  | _ => True

/-- The state that a request of the network leaves keeps `MemInv`. -/
def NetRes.MemOk (r : NetRes) : Prop :=
  match r with
  | .done s _ | .wait s => s.MemInv
  | _ => True

/-- The states of a choice of the order log, taken or held back, keep `MemInv`. -/
abbrev OrderOk (r : Except State State) : Prop := ExceptOk State.MemInv State.MemInv r

/-- Every choice of a list keeps `MemInv`. -/
def OrdersOk (l : List (State → Except State State)) : Prop := ∀ f ∈ l, ∀ s : State, s.MemInv → OrderOk (f s)

/-- The next state, where an outcome has one, keeps `MemInv`. -/
def NextOk (o : Host.Outcome State Fault Refusal) : Prop :=
  match o with
  | .next s => s.MemInv
  | _ => True

theorem OptionOk.of_some {α : Type} {P : α → Prop} {o : Option α} {a : α} (h : OptionOk P o) (e : o = some a) : P a := by
  subst e; exact h

theorem ExceptOk.of_ok {ε α : Type} {Q : ε → Prop} {P : α → Prop} {r : Except ε α} {a : α} (h : ExceptOk Q P r)
    (e : r = .ok a) : P a := by
  subst e; exact h

theorem ExceptOk.of_error {ε α : Type} {Q : ε → Prop} {P : α → Prop} {r : Except ε α} {a : ε} (h : ExceptOk Q P r)
    (e : r = .error a) : Q a := by
  subst e; exact h

theorem SysRes.MemOk.of_ok {r : SysRes} {s : State} {v : Word} (h : r.MemOk) (e : r = .ok s v) : s.MemInv := by
  subst e; exact h

theorem NetRes.MemOk.of_done {r : NetRes} {s : State} {l : List Byte} (h : r.MemOk) (e : r = .done s l) : s.MemInv := by
  subst e; exact h

theorem NetRes.MemOk.of_wait {r : NetRes} {s : State} (h : r.MemOk) (e : r = .wait s) : s.MemInv := by
  subst e; exact h

theorem NextOk.of_next {o : Host.Outcome State Fault Refusal} {t : State} (h : NextOk o) (e : o = .next t) : t.MemInv := by
  subst e; exact h

/-! ### Reading and writing the parts of the state -/

theorem mem_of_mget {α : Type} {l : List (Nat × α)} {k : Nat} {v : α} (h : mget l k = some v) : (k, v) ∈ l := by
  induction l with
  | nil => cases h
  | cons e l ih =>
    obtain ⟨j, w⟩ := e
    by_cases hk : k = j
    · simp_all [mget]
    · simp only [mget, hk, if_false] at h
      exact List.mem_cons_of_mem _ (ih h)

theorem eq_or_mem_of_mem_mset {α : Type} {l : List (Nat × α)} {k : Nat} {v : α} {e : Nat × α} (h : e ∈ mset l k v) :
    e = (k, v) ∨ e ∈ l := by
  induction l with
  | nil => simpa [mset] using h
  | cons a l ih =>
    simp only [mset] at h
    split at h
    · exact (List.mem_cons.1 h).imp id (List.mem_cons_of_mem _)
    · split at h
      · exact List.mem_cons.1 h
      · rcases List.mem_cons.1 h with rfl | h
        · exact .inr (List.mem_cons_self ..)
        · exact (ih h).imp id (List.mem_cons_of_mem _)

theorem CoresOk.mset {l : List (Nat × Core)} {k : CoreId} {c : Core} (h : CoresOk l) (hc : c.MemOk) : CoresOk (mset l k c) := by
  intro e he
  rcases eq_or_mem_of_mem_mset he with rfl | he
  · exact hc
  · exact h e he

theorem CoresOk.map {l : List (Nat × Core)} {f : Nat × Core → Nat × Core} (h : CoresOk l)
    (hf : ∀ e : Nat × Core, e.2.MemOk → (f e).2.MemOk) : CoresOk (l.map f) := by
  intro e he
  obtain ⟨x, hx, rfl⟩ := List.mem_map.1 he
  exact hf x (h x hx)

theorem CoresOk.mapIf {l : List (Nat × Core)} {p : Nat × Core → Prop} [DecidablePred p] {f : Nat × Core → Core} (h : CoresOk l)
    (hf : ∀ e : Nat × Core, e.2.MemOk → (f e).MemOk) : CoresOk (l.map fun e => if p e then (e.1, f e) else e) := by
  refine h.map fun e he => ?_
  split
  · exact hf e he
  · exact he

theorem CoresOk.of_map {α : Type} {l : List α} {f : α → Nat × Core} (hf : ∀ a, (f a).2.MemOk) : CoresOk (l.map f) := by
  intro e he
  obtain ⟨x, _, rfl⟩ := List.mem_map.1 he
  exact hf x

theorem SavesOk.mset {l : List (Nat × PartCtx × List (Nat × Core))} {k : Nat} {v : PartCtx × List (Nat × Core)}
    (h : SavesOk l) (hv : CoresOk v.2) : SavesOk (mset l k v) := by
  intro e he
  rcases eq_or_mem_of_mem_mset he with rfl | he
  · exact hv
  · exact h e he

theorem SavesOk.filter {l : List (Nat × PartCtx × List (Nat × Core))} (h : SavesOk l)
    {f : Nat × PartCtx × List (Nat × Core) → Bool} : SavesOk (l.filter f) :=
  fun y hy => h y (List.mem_filter.1 hy).1

theorem PartsOk.mset {l : List (Nat × Partition)} {k : Nat} {x : Partition} (h : PartsOk l) (hx : x.SavedOk) :
    PartsOk (mset l k x) := by
  intro e he
  rcases eq_or_mem_of_mem_mset he with rfl | he
  · exact hx
  · exact h e he

theorem PartsOk.map {l : List (Nat × Partition)} {f : Nat × Partition → Nat × Partition} (h : PartsOk l)
    (hf : ∀ p : Nat × Partition, p.2.SavedOk → (f p).2.SavedOk) : PartsOk (l.map f) := by
  intro e he
  obtain ⟨x, hx, rfl⟩ := List.mem_map.1 he
  exact hf x (h x hx)

theorem PartsOk.nil : PartsOk [] := fun _ h => nomatch h

/-- Bytes written to an empty memory. -/
theorem Memory.ofBytes_wf (a : Nat) (l : List Byte) : (Memory.writeBytes [] a l).wf = true := writeBytes_wf rfl a l

theorem Core.wiped_memOk : Core.wiped.MemOk := rfl
theorem Partition.absent_savedOk : Partition.absent.SavedOk := fun _ h => nomatch h

section
variable {s : State}

theorem State.MemInv.gmem (h : s.MemInv) : s.gmem.wf = true := h.1
theorem State.MemInv.cores (h : s.MemInv) : CoresOk s.cores := h.2.1
theorem State.MemInv.parts (h : s.MemInv) : PartsOk s.parts := h.2.2

theorem State.MemInv.core {k : CoreId} (h : s.MemInv) : (s.core k).MemOk := by
  unfold State.core
  cases hk : mget s.cores k with
  | none => exact Core.wiped_memOk
  | some c => exact h.cores _ (mem_of_mget hk)

theorem State.MemInv.part {p : Nat} (h : s.MemInv) : (s.part p).SavedOk := by
  unfold State.part
  cases hp : mget s.parts p with
  | none => exact Partition.absent_savedOk
  | some x => exact h.parts _ (mem_of_mget hp)

theorem State.MemInv.setCore {k : CoreId} {c : Core} (h : s.MemInv) (hc : c.MemOk) : (s.setCore k c).MemInv :=
  ⟨h.gmem, h.cores.mset hc, h.parts⟩

theorem State.MemInv.modCore {k : CoreId} {f : Core → Core} (h : s.MemInv) (hf : ∀ c, c.MemOk → (f c).MemOk) :
    (s.modCore k f).MemInv :=
  h.setCore (hf _ h.core)

theorem State.MemInv.modMem {k : CoreId} {f : CoreMem → CoreMem} (h : s.MemInv) (hf : ∀ m, m.SramOk → (f m).SramOk) :
    (s.modMem k f).MemInv :=
  h.modCore fun c hc => hf c.mem hc

theorem State.MemInv.modPart {p : Nat} {f : Partition → Partition} (h : s.MemInv) (hf : ∀ x, x.SavedOk → (f x).SavedOk) :
    (s.modPart p f).MemInv :=
  ⟨h.gmem, h.cores, h.parts.mset (hf _ h.part)⟩

end

/-- The fields that `MemInv` does not speak of may become anything. -/
theorem State.MemInv.rest {s : State} {fields vfs quays sensors regs watches cntwaits deps mesh links laces drops sys
    adds records started stopped quotes answers fw samples cur agenda now free} (h : s.MemInv) :
    State.MemInv ⟨s.cores, fields, s.parts, vfs, quays, sensors, regs, s.gmem, watches, cntwaits, deps, mesh, links, laces, drops,
      sys, adds, records, started, stopped, quotes, answers, fw, samples, cur, agenda, now, free⟩ := h

theorem State.MemInv.setGmem {s : State} {m : Memory} (h : s.MemInv) (hm : m.wf = true) : State.MemInv { s with gmem := m } :=
  ⟨hm, h.cores, h.parts⟩

theorem State.MemInv.setCores {s : State} {l : List (Nat × Core)} (h : s.MemInv) (hl : CoresOk l) :
    State.MemInv { s with cores := l } :=
  ⟨h.gmem, hl, h.parts⟩

theorem State.MemInv.setParts {s : State} {l : List (Nat × Partition)} (h : s.MemInv) (hl : PartsOk l) :
    State.MemInv { s with parts := l } :=
  ⟨h.gmem, h.cores, hl⟩

/-! ### Folds, choices and options of states -/

theorem OptionOk.some {α : Type} {P : α → Prop} {a : α} (h : P a) : OptionOk P (some a) := h
theorem ExceptOk.ok {ε α : Type} {Q : ε → Prop} {P : α → Prop} {a : α} (h : P a) : ExceptOk Q P (.ok a) := h
theorem ExceptOk.error {ε α : Type} {Q : ε → Prop} {P : α → Prop} {e : ε} (h : Q e) : ExceptOk Q P (.error e) := h
theorem Act.MemOk.ok {s : State} (h : s.MemInv) : (Act.ok s).MemOk := h
theorem Act.MemOk.jump {s : State} {pc : Word} (h : s.MemInv) : (Act.jump s pc).MemOk := h
theorem Act.MemOk.stay {s : State} (h : s.MemInv) : (Act.stay s).MemOk := h
theorem Act.MemOk.wait {w : Wait} {f : State → State} (hf : ∀ s : State, s.MemInv → (f s).MemInv) : (Act.wait w f).MemOk := hf
theorem SysRes.MemOk.ok {s : State} {v : Word} (h : s.MemInv) : (SysRes.ok s v).MemOk := h
theorem SysRes.MemOk.trap {cause : BitVec 8} {taddr : Word} : (SysRes.trap cause taddr).MemOk := trivial
theorem NetRes.MemOk.done {s : State} {l : List Byte} (h : s.MemInv) : (NetRes.done s l).MemOk := h
theorem NetRes.MemOk.wait {s : State} (h : s.MemInv) : (NetRes.wait s).MemOk := h
theorem NextOk.next {s : State} (h : s.MemInv) : NextOk (.next s) := h

theorem snd_of_eq {α β : Type} {P : β → Prop} {p : α × β} {a : α} {b : β} (h : P p.2) (e : p = (a, b)) : P b := by
  subst e; exact h

theorem fst_of_eq {α β : Type} {P : α → Prop} {p : α × β} {a : α} {b : β} (h : P p.1) (e : p = (a, b)) : P a := by
  subst e; exact h

theorem OrdersOk.nil : OrdersOk [] := fun _ h => nomatch h

theorem OrdersOk.cons {f : State → Except State State} {l : List (State → Except State State)}
    (hf : ∀ s : State, s.MemInv → OrderOk (f s)) (hl : OrdersOk l) : OrdersOk (f :: l) :=
  List.forall_mem_cons.2 ⟨hf, hl⟩

theorem OrdersOk.append {l l' : List (State → Except State State)} (h : OrdersOk l) (h' : OrdersOk l') : OrdersOk (l ++ l') :=
  List.forall_mem_append.2 ⟨h, h'⟩

theorem OrdersOk.map {α : Type} {f : α → State → Except State State} {l : List α}
    (hf : ∀ (a : α) (s : State), s.MemInv → OrderOk (f a s)) : OrdersOk (l.map f) :=
  List.forall_mem_map.2 fun a _ => hf a

theorem OrdersOk.ite {c : Prop} [Decidable c] {l l' : List (State → Except State State)} (h : OrdersOk l) (h' : OrdersOk l') :
    OrdersOk (if c then l else l') := by
  split
  · exact h
  · exact h'

theorem State.MemInv.foldl_fst {α β : Type} {p : State × β} {f : State × β → α → State × β} {l : List α} (h : p.1.MemInv)
    (hf : ∀ (q : State × β) (a : α), q.1.MemInv → (f q a).1.MemInv) : (l.foldl f p).1.MemInv :=
  List.foldlRecOn (motive := fun q => q.1.MemInv) l f h fun q hq a _ => hf q a hq

theorem State.MemInv.foldl {α : Type} {s : State} {f : State → α → State} {l : List α} (h : s.MemInv)
    (hf : ∀ (t : State) (a : α), t.MemInv → (f t a).MemInv) : (l.foldl f s).MemInv :=
  List.foldlRecOn l f h fun t ht a _ => hf t a ht

theorem Core.MemOk.foldl {α : Type} {c : Core} {f : Core → α → Core} {l : List α} (h : c.MemOk)
    (hf : ∀ (d : Core) (a : α), d.MemOk → (f d a).MemOk) : (l.foldl f c).MemOk :=
  List.foldlRecOn l f h fun t ht a _ => hf t a ht

theorem CoreMem.SramOk.foldl {α : Type} {m : CoreMem} {f : CoreMem → α → CoreMem} {l : List α} (h : m.SramOk)
    (hf : ∀ (d : CoreMem) (a : α), d.SramOk → (f d a).SramOk) : (l.foldl f m).SramOk :=
  List.foldlRecOn l f h fun t ht a _ => hf t a ht

theorem Core.MemOk.foldl_snd {α β : Type} {p : β × Core} {f : β × Core → α → β × Core} {l : List α} (h : p.2.MemOk)
    (hf : ∀ (q : β × Core) (a : α), q.2.MemOk → (f q a).2.MemOk) : (l.foldl f p).2.MemOk :=
  List.foldlRecOn (motive := fun q => q.2.MemOk) l f h fun q hq a _ => hf q a hq

theorem OptionOk.map {α β : Type} {P : β → Prop} {f : α → β} {o : Option α} (hf : ∀ a, P (f a)) : OptionOk P (o.map f) := by
  cases o
  · trivial
  · exact hf _

theorem OptionOk.bind {α β : Type} {P : β → Prop} {f : α → Option β} {o : Option α} (hf : ∀ a, OptionOk P (f a)) :
    OptionOk P (o.bind f) := by
  cases o
  · trivial
  · exact hf _

theorem OptionOk.getD {α : Type} {P : α → Prop} {o : Option α} {a : α} (ho : OptionOk P o) (ha : P a) : P (o.getD a) := by
  cases o
  · exact ha
  · exact ho

section
variable {p : Prop} [Decidable p]

theorem State.MemInv.ite {s t : State} (hs : s.MemInv) (ht : t.MemInv) : (if p then s else t).MemInv := by
  split
  · exact hs
  · exact ht

theorem Core.MemOk.ite {c d : Core} (hc : c.MemOk) (hd : d.MemOk) : (if p then c else d).MemOk := by
  split
  · exact hc
  · exact hd

theorem Act.MemOk.ite {a b : Act} (ha : a.MemOk) (hb : b.MemOk) : (if p then a else b).MemOk := by
  split
  · exact ha
  · exact hb

theorem SysRes.MemOk.ite {r u : SysRes} (hr : r.MemOk) (hu : u.MemOk) : (if p then r else u).MemOk := by
  split
  · exact hr
  · exact hu

theorem NetRes.MemOk.ite {r u : NetRes} (hr : r.MemOk) (hu : u.MemOk) : (if p then r else u).MemOk := by
  split
  · exact hr
  · exact hu

theorem NextOk.ite {o u : Host.Outcome State Fault Refusal} (ho : NextOk o) (hu : NextOk u) : NextOk (if p then o else u) := by
  split
  · exact ho
  · exact hu

theorem OptionOk.ite {α : Type} {P : α → Prop} {o u : Option α} (ho : OptionOk P o) (hu : OptionOk P u) :
    OptionOk P (if p then o else u) := by
  split
  · exact ho
  · exact hu

theorem ExceptOk.ite {ε α : Type} {Q : ε → Prop} {P : α → Prop} {r u : Except ε α} (hr : ExceptOk Q P r) (hu : ExceptOk Q P u) :
    ExceptOk Q P (if p then r else u) := by
  split
  · exact hr
  · exact hu

end

section
variable {s : State} {c : Core}

/-! ### Operations on the state (Machine/Ops) -/

theorem Core.MemOk.setSlot {n x} (hc : c.MemOk) : (c.setSlot n x).MemOk := hc

theorem State.MemInv.modSlot {k n f} (h : s.MemInv) : (s.modSlot k n f).MemInv := h.modCore fun _ hc => hc.setSlot

theorem State.MemInv.modMe {f} (h : s.MemInv) : (s.modMe f).MemInv := h.modSlot

theorem State.MemInv.modRegs {k n f} (h : s.MemInv) : (s.modRegs k n f).MemInv := h.modSlot

theorem State.MemInv.modTrap {k n f} (h : s.MemInv) : (s.modTrap k n f).MemInv := h.modSlot

theorem State.MemInv.modUnits {k f} (h : s.MemInv) : (s.modUnits k f).MemInv := h.modCore fun _ hc => hc

theorem State.MemInv.modCoreRegs {k f} (h : s.MemInv) : (s.modCoreRegs k f).MemInv := h.modCore fun _ hc => hc

theorem State.MemInv.modField {f g} (h : s.MemInv) : (s.modField f g).MemInv := h

theorem State.MemInv.modCtx {p g} (h : s.MemInv) : (s.modCtx p g).MemInv := h.modPart fun _ hx => hx

theorem State.MemInv.modVf {v g} (h : s.MemInv) : (s.modVf v g).MemInv := h

theorem State.MemInv.modQuay {q g} (h : s.MemInv) : (s.modQuay q g).MemInv := h

theorem State.MemInv.modMod {g} (h : s.MemInv) : (s.modMod g).MemInv := h

theorem State.MemInv.fresh (h : s.MemInv) : s.fresh.2.MemInv := h

theorem State.MemInv.count {k code sl n} (h : s.MemInv) : (s.count k code sl n).MemInv := h.modCoreRegs

theorem State.MemInv.charge {k sl c n} (h : s.MemInv) : (s.charge k sl c n).MemInv := h.modCoreRegs

theorem State.MemInv.setEv {k sl} (h : s.MemInv) : (s.setEv k sl).MemInv := h.modSlot

theorem Core.MemOk.grants {n} (hc : c.MemOk) : (c.grants n).MemOk := by
  dsimp only [Core.grants]
  exact .foldl hc fun _ _ hd => hd.setSlot

theorem CoreMem.SramOk.takeThr {m : CoreMem} {n t} (hm : m.SramOk) : (m.takeThr n t).SramOk := hm

theorem Core.MemOk.setSem {n v} (hc : c.MemOk) : (c.setSem n v).MemOk := .grants hc

theorem Core.MemOk.addSem {n i} (hc : c.MemOk) : OptionOk Core.MemOk (c.addSem n i) := .ite trivial hc.setSem

theorem Core.MemOk.setSF {n b} (hc : c.MemOk) : (c.setSF n b).MemOk := hc

theorem State.MemInv.notify {k to_ ws} (h : s.MemInv) : (s.notify k to_ ws).MemInv := h.modCore fun _ hc => hc

theorem State.MemInv.slotNotice {k sl to_ defer origin cause taddr tpc} (h : s.MemInv) :
    (s.slotNotice k sl to_ defer origin cause taddr tpc).MemInv :=
  h.notify

theorem State.MemInv.plainNotice {k to_ cause taddr} (h : s.MemInv) : (s.plainNotice k to_ cause taddr).MemInv := h.notify

theorem State.MemInv.notifyAll {p cause taddr} (h : s.MemInv) : (s.notifyAll p cause taddr).MemInv := by
  dsimp only [State.notifyAll]
  exact h.foldl fun _ _ ht => ht.plainNotice

theorem State.MemInv.moduleError {fld code} (h : s.MemInv) : (s.moduleError fld code).MemInv := h.modMod

theorem State.MemInv.noteUE {k cause taddr} (h : s.MemInv) : (s.noteUE k cause taddr).MemInv := .ite h.modCoreRegs h

theorem Core.MemOk.leaveMiss {sl} (hc : c.MemOk) : (c.leaveMiss sl).MemOk := hc

theorem Core.MemOk.leaveQ {sl} (hc : c.MemOk) : (c.leaveQ sl).MemOk := hc

theorem Core.MemOk.unwait {sl} (hc : c.MemOk) : (c.unwait sl).MemOk := by
  dsimp only [Core.unwait]
  split
  · split
    · exact hc
    · exact hc.leaveQ.grants
  · exact hc.setSlot.leaveQ.grants

theorem State.MemInv.takeTrap {k sl cause taddr defer origin more xf} (h : s.MemInv) :
    (s.takeTrap k sl cause taddr defer origin more xf).MemInv := by
  have ht {x} : ((s.noteUE k cause taddr).modCore k fun c => ((c.unwait sl).leaveMiss sl).setSlot sl x).MemInv :=
    h.noteUE.modCore fun _ hc => hc.unwait.leaveMiss.setSlot
  dsimp only [State.takeTrap]
  split
  · exact .rest (.moduleError (.ite ht.count ht))
  · exact .slotNotice (.ite ht.count ht)

theorem State.MemInv.takeStop {k sl kind e} (h : s.MemInv) : (s.takeStop k sl kind e).MemInv := by
  dsimp only [State.takeStop]
  refine .slotNotice ?_
  split
  · exact .count (h.modCore fun _ hc => hc.unwait.setSlot)
  · exact h.modCore fun _ hc => hc.unwait.setSlot

theorem State.MemInv.defer {k sl cause taddr origin} (h : s.MemInv) : (s.defer k sl cause taddr origin).MemInv :=
  .ite h.noteUE.slotNotice h.noteUE.modSlot

theorem State.MemInv.signal {k sl d} (h : s.MemInv) : (s.signal k sl d).MemInv := by
  dsimp only [State.signal]
  split
  · exact h
  split
  next he => exact h.setCore (h.core.addSem.of_some he)
  · exact .defer (h.modCore fun _ hc => hc.setSF)

theorem State.MemInv.settleHalt {k sl} (h : s.MemInv) : (s.settleHalt k sl).MemInv := .ite (.rest h.modSlot.modCoreRegs) h

theorem State.MemInv.forward {k sl pc target} (h : s.MemInv) : (s.forward k sl pc target).MemInv := .ite h h

theorem State.MemInv.retireHead {cls jump} (h : s.MemInv) : (s.retireHead cls jump).MemInv :=
  .forward (.ite h.charge.count.modSlot.count h.charge.count.modSlot)

theorem State.MemInv.stepStop {k sl} (h : s.MemInv) : (s.stepStop k sl).MemInv := by
  dsimp only [State.stepStop]
  split
  · exact h.takeStop
  · exact h

theorem State.MemInv.retire {cls jump} (h : s.MemInv) : (s.retire cls jump).MemInv := h.retireHead.stepStop

theorem State.MemInv.waitFor {w} (h : s.MemInv) : (s.waitFor w).MemInv := h.modMe

theorem Core.MemOk.dropBad {sl rs} (hc : c.MemOk) : (c.dropBad sl rs).MemOk := hc

theorem State.MemInv.setTagErr {k t} (h : s.MemInv) : (s.setTagErr k t).MemInv := h.modMem fun _ hm => hm

theorem State.MemInv.addSemOrDefer {k n i sl cause taddr} (h : s.MemInv) :
    State.MemInv (match (s.core k).addSem n i with | some c => s.setCore k c | none => s.defer k sl cause taddr) := by
  split
  next he => exact h.setCore (h.core.addSem.of_some he)
  · exact h.defer

theorem State.MemInv.tagDone {k sl sigen sem} (h : s.MemInv) : (s.tagDone k sl sigen sem).MemInv :=
  .ite h.setEv.addSemOrDefer h.setEv

theorem State.MemInv.cross {n l} (h : s.MemInv) : (s.cross n l).MemInv := h

theorem State.MemInv.acted {k m} (h : s.MemInv) : (s.acted k m).MemInv := by
  dsimp only [State.acted]
  split
  · exact h
  · exact h

theorem Core.MemOk.tagErr {t} (hc : c.MemOk) : (c.tagErr t).MemOk := hc

theorem Core.MemOk.settleQueue {c : Core} {q n} (hc : c.MemOk) : (c.settleQueue q n).MemOk := by
  induction n generalizing c with
  | zero => exact hc
  | succ n ih =>
    simp only [Core.settleQueue]
    split
    · exact hc
    split
    · exact ih hc.tagErr
    · exact hc

theorem Core.MemOk.settle (hc : c.MemOk) : c.settle.MemOk := hc.foldl fun _ _ hd => .ite hd hd.settleQueue

theorem State.MemInv.settleTags {k} (h : s.MemInv) : (s.settleTags k).MemInv := h.modCore fun _ hc => hc.settle

theorem State.MemInv.handlerEnd {k y} (h : s.MemInv) : (s.handlerEnd k y).MemInv := .acted (h.modCore fun _ hc => .settle hc)

theorem State.MemInv.handlerFail {k y cause taddr} (h : s.MemInv) : (s.handlerFail k y cause taddr).MemInv :=
  h.setTagErr.handlerEnd.defer

theorem State.MemInv.handlerNext {k y} (h : s.MemInv) : (s.handlerNext k y).MemInv :=
  .ite (h.charge.count.modCore fun _ hc => hc) h.charge.count.handlerEnd.tagDone

theorem State.MemInv.finish {cls} {a : Act} (h : s.MemInv) (ha : a.MemOk) : (finish s cls a).MemInv := by
  dsimp only [Machine.finish]
  split
  · split
    · exact h
    · exact ha.handlerNext
    · exact ha.handlerNext
    · exact h.handlerFail
    · exact (ha _ h).handlerFail
    · exact h.handlerFail
    · exact h
    · exact ha _ h
    · exact ha
  · split
    · exact ha.retire
    · exact ha.retire
    · exact h.takeTrap
    · exact (ha _ h).takeTrap
    · exact h.takeTrap
    · exact (ha _ h).waitFor
    · exact (ha _ h).modSlot
    · exact ha

theorem State.MemInv.issue {f} {body : State → Act} (h : s.MemInv) (hbody : ∀ t : State, t.MemInv → (body t).MemOk) :
    NextOk (issue f body s) := by
  dsimp only [Machine.issue]
  split
  · exact h.finish (hbody _ h)
  split
  · exact h.takeTrap
  split
  · exact h.waitFor
  split
  · exact h.retire
  split
  · exact .next (h.takeTrap.modCore fun _ hc => hc.dropBad)
  · exact .ite h.waitFor (.ite h.waitFor (h.finish (hbody _ h.modMe)))

theorem State.MemInv.event {r : Option State} (h : s.MemInv) (hr : OptionOk State.MemInv r) : NextOk (event s r) := hr.getD h

/-! ### Flags (Machine/Flags) -/

theorem State.MemInv.setFlags {k sl f} (h : s.MemInv) : (s.setFlags k sl f).MemInv := .ite h h.modRegs

theorem State.MemInv.setMyFlags {f} (h : s.MemInv) : (s.setMyFlags f).MemInv := h.setFlags

/-! ### Operands (Machine/Operands) -/

theorem State.MemInv.wrM {n v} (h : s.MemInv) : (s.wrM n v).MemInv := h.modCore fun _ hc => hc

theorem State.MemInv.wr {d v} (h : s.MemInv) : (s.wr d v).MemInv := by
  dsimp only [State.wr]
  split
  · exact .ite h.wrM h.modRegs
  · exact h.modRegs

theorem State.MemInv.wrPred {n v} (h : s.MemInv) : (s.wrPred n v).MemInv := h.modRegs

theorem State.MemInv.writeG {d v} {k : State → Act} (h : s.MemInv) (hk : ∀ t : State, t.MemInv → (k t).MemOk) :
    (writeG s d v k).MemOk :=
  .ite trivial (.ite (fun _ ht => ht) (hk _ h.wr))

theorem localCheck_memOk {a n} {k : ℕ → Act} (hk : ∀ a : ℕ, (k a).MemOk) : (localCheck a n k).MemOk :=
  .ite trivial (.ite trivial (hk _))

theorem Core.MemOk.correct {o n sl} (hc : c.MemOk) : (c.correct o n sl).MemOk := .ite hc hc

theorem Core.MemOk.overwrite {o n} (hc : c.MemOk) : (c.overwrite o n).MemOk := .ite hc hc

theorem Core.MemOk.storing {o n sl} (hc : c.MemOk) : (c.storing o n sl).MemOk := by
  dsimp only [Core.storing]
  split
  · exact hc.overwrite.correct
  · exact hc.overwrite.correct

theorem Core.MemOk.storingLanes {o m sl} (hc : c.MemOk) : (c.storingLanes o m sl).MemOk := by
  dsimp only [Core.storingLanes]
  refine hc.foldl fun _ _ hd => ?_
  split
  · exact hd.storing
  · exact hd.storing
  · exact hd.storing
  · exact hd

theorem State.MemInv.sramPut {k o n v sl} (h : s.MemInv) : (s.sramPut k o n v sl).MemInv :=
  h.modCore fun _ hc => Memory.writeLE_wf hc _ _ _

theorem State.MemInv.readLocal {o n} {k : State → ℕ → Act} (h : s.MemInv)
    (hk : ∀ t : State, t.MemInv → ∀ n : ℕ, (k t n).MemOk) : (readLocal s o n k).MemOk := by
  dsimp only [Machine.readLocal]
  split
  · trivial
  · exact hk _ (h.modCore fun _ hc => hc.correct) _

theorem State.MemInv.setFull {k g n b} (h : s.MemInv) : (s.setFull k g n b).MemInv := h.modMem fun _ hm => hm

theorem State.MemInv.wrV {n x y} (h : s.MemInv) : (s.wrV n x y).MemInv := h.modRegs

/-! ### Accesses to a selected slot (Machine/Select) -/

theorem State.MemInv.viaTarget {i tk a b} {acc : State → SysRes} {k : State → Word → Act} {xacc} (h : s.MemInv)
    (hacc : ∀ t : State, t.MemInv → (acc t).MemOk) (hk : ∀ t : State, t.MemInv → ∀ n : Word, (k t n).MemOk) :
    (viaTarget s i tk a b acc k xacc).MemOk := by
  dsimp only [Machine.viaTarget]
  split
  · split
    next he => exact hk _ ((hacc _ h).of_ok he) _
    · trivial
    · trivial
    · exact fun _ ht => ht
  · split
    · exact hk _ h _
    · trivial
    · trivial
    · exact .wait fun _ ht => .ite ht (.modMe ht)

theorem State.MemInv.accEret {tsel tk tsl} (h : s.MemInv) : (accEret tsel tk tsl s).MemOk := .ite h.modSlot trivial

theorem State.MemInv.execBr {off} (h : s.MemInv) : NextOk (execBr off s) := h.issue fun _ ht => ht

theorem State.MemInv.execBrp {q off} (h : s.MemInv) : NextOk (execBrp q off s) := h.issue fun _ ht => ht

theorem State.MemInv.execBcmp {x} (h : s.MemInv) : NextOk (execBcmp x s) := h.issue fun _ ht => .ite ht ht

theorem State.MemInv.execCall {off} (h : s.MemInv) : NextOk (execCall off s) := h.issue fun _ ht => ht.wr

/-! ### Transfers, loops and slot control (Machine/Control) -/

theorem State.MemInv.jumpTo {p} (h : s.MemInv) : (jumpTo p s).MemOk := .ite trivial h

theorem State.MemInv.execCalli {x} (h : s.MemInv) : NextOk (execCalli x s) := h.issue fun _ ht => ht.wr.jumpTo

theorem State.MemInv.execRet (h : s.MemInv) : NextOk (execRet s) := h.issue fun _ ht => ht.jumpTo

theorem State.MemInv.execRetReg {x} (h : s.MemInv) : NextOk (execRetReg x s) := h.issue fun _ ht => ht.jumpTo

theorem State.MemInv.execJmpi {x} (h : s.MemInv) : NextOk (execJmpi x s) := h.issue fun _ ht => ht.jumpTo

theorem State.MemInv.setLc {ctr v} (h : s.MemInv) : (s.setLc ctr v).MemInv := h.modMe

theorem State.MemInv.loopAct {ctr d off} (h : s.MemInv) : (loopAct ctr d off s).MemOk := by
  dsimp only [Machine.loopAct]
  split
  · trivial
  split
  · exact h.setLc
  split
  · trivial
  · exact .ite trivial h.setLc

theorem State.MemInv.execLoop {ctr d off} (h : s.MemInv) : NextOk (execLoop ctr d off s) := h.issue fun _ ht => ht.loopAct

theorem State.MemInv.execYield (h : s.MemInv) : NextOk (execYield s) := h.issue fun _ ht => ht

theorem State.MemInv.withdraw {k sl} (h : s.MemInv) : (s.withdraw k sl).MemInv := by
  dsimp only [State.withdraw]
  split
  · exact h
  · exact h.modCtx

theorem State.MemInv.dropWire {m} (h : s.MemInv) : (s.dropWire m).MemInv := h

theorem State.MemInv.endLace {k sl} (h : s.MemInv) : (s.endLace k sl).MemInv := by
  dsimp only [State.endLace]
  split
  · exact h.modSlot.dropWire.foldl fun _ _ ht => .ite ht (ht.foldl fun _ _ hu => .ite hu.modSlot (.ite hu.modSlot hu))
  · exact h.modSlot.dropWire

theorem State.MemInv.haltAct (h : s.MemInv) : (haltAct s).MemInv := h.retireHead.modSlot.modUnits.withdraw.endLace.settleHalt

theorem State.MemInv.execHalt (h : s.MemInv) : NextOk (execHalt s) := h.issue fun _ ht => ht.haltAct

theorem State.MemInv.execBkpt {code} (h : s.MemInv) : NextOk (execBkpt code s) := by
  dsimp only [Machine.execBkpt]
  refine h.issue fun _ ht => ?_
  split
  · exact ht.takeStop
  · trivial

theorem State.MemInv.execTrap {code} (h : s.MemInv) : NextOk (execTrap code s) := h.issue fun _ ht => ht.retireHead.takeTrap

theorem State.MemInv.execEret (h : s.MemInv) : NextOk (execEret s) := by
  dsimp only [Machine.execEret]
  refine h.issue fun _ ht => ?_
  split
  · trivial
  · exact ht.viaTarget (fun _ hu => hu.accEret) fun _ hu _ => hu

theorem State.MemInv.waitevAct (h : s.MemInv) : (waitevAct s).MemOk := .ite h.modMe h.modMe

theorem State.MemInv.execWaitev (h : s.MemInv) : NextOk (execWaitev s) := h.issue fun _ ht => ht.waitevAct

theorem State.MemInv.execWaitevGuarded {q} (h : s.MemInv) : NextOk (execWaitevGuarded q s) :=
  h.issue fun _ ht => ht.waitevAct

theorem State.MemInv.retireWaitev {k sl} (h : s.MemInv) : (s.retireWaitev k sl).MemInv := .retire (.rest h.modSlot)

theorem State.MemInv.execEventWake {k sl} (h : s.MemInv) : NextOk (execEventWake k sl s) :=
  h.event (.ite h.retireWaitev trivial)

theorem State.MemInv.unask {k sl} (h : s.MemInv) : (s.unask k sl).MemInv := by
  dsimp only [State.unask]
  split
  · exact h
  split
  · exact .rest (h.modCore fun _ hc => hc)
  · exact .modPart (.rest (h.modCore fun _ hc => hc)) fun _ hx => hx

theorem State.MemInv.execDeferredCauseTake {k sl} (h : s.MemInv) : NextOk (execDeferredCauseTake k sl s) :=
  h.event (.ite (.map fun _ => h.unask.modSlot.takeTrap) trivial)

theorem State.MemInv.execAptest {x} (h : s.MemInv) : NextOk (execAptest x s) := h.issue fun _ ht => ht.wrPred

theorem State.MemInv.execApcvt {x} (h : s.MemInv) : NextOk (execApcvt x s) := h.issue fun _ ht => ht.writeG fun _ hu => hu

theorem State.MemInv.tick {f} (h : s.MemInv) : (s.tick f).MemInv := h

theorem State.MemInv.execTime {x} (h : s.MemInv) : NextOk (execTime x s) := h.issue fun _ ht => ht.tick.writeG fun _ hu => hu

theorem State.MemInv.execMeter {x} (h : s.MemInv) : NextOk (execMeter x s) := h.issue fun _ ht => ht.writeG fun _ hu => hu

/-! ### Vector operations (Machine/Lanes) -/

theorem State.MemInv.issueMasked {f holds} {body : State → Act} (h : s.MemInv)
    (hbody : ∀ t : State, t.MemInv → (body t).MemOk) : NextOk (issueMasked f holds body s) :=
  .ite h.waitFor (.ite h.retire (h.issue fun _ ht => hbody _ ht))

theorem State.MemInv.vop {ws fl} (h : s.MemInv) : (s.vop ws fl).MemInv := h.modCore fun _ hc => hc

theorem State.MemInv.vissue {q cls w d srcs f gs extra} (h : s.MemInv) : NextOk (vissue q cls w d srcs f gs extra s) :=
  h.issueMasked fun _ ht => ht.vop

theorem State.MemInv.vlanes {q cls w d srcs f gs extra} (h : s.MemInv) : NextOk (vlanes q cls w d srcs f gs extra s) :=
  h.vissue

theorem State.MemInv.chargeMore {c n} (h : s.MemInv) : (s.chargeMore c n).MemInv := h.charge

/-! ### Translation, the order log and global memory (Machine/Translate) -/

theorem Core.MemOk.touch {e now} (hc : c.MemOk) : (c.touch e now).MemOk := hc

theorem Core.MemOk.addPort {e} (hc : c.MemOk) : (c.addPort e).MemOk := .ite hc hc

theorem State.MemInv.noteMiss {va acc} (h : s.MemInv) : (s.noteMiss va acc).MemInv :=
  .ite h (.count (h.modCore fun _ hc => hc))

theorem Act.MemOk.using {a : Act} {g : State → State} (ha : a.MemOk) (hg : ∀ s : State, s.MemInv → (g s).MemInv) :
    (a.using g).MemOk := by
  cases a with
  | wait w f => exact fun s hs => ha _ (hg s hs)
  | _ => exact ha

theorem State.MemInv.xlate {va acc whole} {k : State → ℕ → Act} (h : s.MemInv)
    (hk : ∀ t : State, t.MemInv → ∀ n : ℕ, (k t n).MemOk) : (xlate s va acc whole k).MemOk := by
  dsimp only [Machine.xlate]
  split
  · trivial
  split
  · split
    · trivial
    · exact hk _ h _
  · split
    · exact fun _ ht => ht.noteMiss
    · split
      · trivial
      · split
        · exact .using (hk _ (h.modCore fun _ hc => hc.touch) _) fun _ ht => ht.modCore fun _ hc => hc.touch
        · trivial

theorem Act.MemOk.globalCheck {a n} {k : Act} (hk : k.MemOk) : (globalCheck a n k).MemOk := .ite trivial (.ite trivial hk)

theorem State.MemInv.endWatch {k sl cause} (h : s.MemInv) : (s.endWatch k sl cause).MemInv := .ite (.rest h.modSlot) h

theorem State.MemInv.countReached {w} (h : s.MemInv) : (s.countReached w).MemInv := .ite h.modSlot h

theorem State.MemInv.depReached {w} (h : s.MemInv) : (s.depReached w).MemInv := .ite (h.modPart fun _ hx => hx) h

theorem State.MemInv.lineWritten {d} (h : s.MemInv) : (s.lineWritten d).MemInv :=
  .foldl (.foldl (h.foldl fun _ _ ht => ht.endWatch) fun _ _ ht => ht.countReached) fun _ _ ht => ht.depReached

theorem State.MemInv.order {p place seg kind obj choice} (h : s.MemInv) : OrderOk (s.order p place seg kind obj choice) := by
  have hb {f} : ((s.modCtx p f).modCtx p fun c => c.bumpSeq place).MemInv := h.modCtx.modCtx
  have hw {m : Memory} {a v} (hm : m.wf = true) : (m.writeLE a 8 v).wf = true := Memory.writeLE_wf hm a 8 v
  dsimp only [State.order]
  split
  · split
    · exact h
    · split
      · exact hb
      · exact .ok (.lineWritten (hb.setGmem (hw (hw (hw (hw hb.gmem))))))
  · split
    · exact .ite h.modCtx (.ite h h.modCtx)
    · exact h.modCtx
  · exact h

theorem State.MemInv.orderAt {k kind obj choice} (h : s.MemInv) : OrderOk (s.orderAt k kind obj choice) := by
  dsimp only [State.orderAt]
  split
  · exact h
  · exact h.order

theorem State.MemInv.orderQuay {k q kind obj choice} (h : s.MemInv) : OrderOk (s.orderQuay k q kind obj choice) := by
  dsimp only [State.orderQuay]
  split
  · exact h
  · exact h.order

theorem State.MemInv.keepDue {u : State} {k} (h : s.MemInv) : (s.keepDue u k).MemInv := by
  dsimp only [State.keepDue]
  split
  · exact h
  · exact .ite h h.modCtx

theorem State.MemInv.orderAll {s : State} {k} {l : List (State → Except State State)} (h : s.MemInv) (hl : OrdersOk l) :
    OrderOk (s.orderAll k l) := by
  induction l generalizing s with
  | nil => exact h
  | cons f l ih =>
    obtain ⟨hf, hl⟩ := List.forall_mem_cons.1 hl
    simp only [State.orderAll]
    split
    next he => exact (hf s h).of_error he
    next he =>
      have ht := (hf s h).of_ok he
      split
      next hu => exact (ih ht hl).of_ok hu
      · exact h.keepDue

theorem ordered_memOk {r : Except State State} {f : State → State} (hr : OrderOk r)
    (hf : ∀ t : State, t.MemInv → (f t).MemInv) : OptionOk State.MemInv (ordered r f) := by
  dsimp only [ordered]
  split
  · exact hf _ hr
  · exact hr

theorem State.MemInv.orderEngine {k obj issuer} (h : s.MemInv) : OrderOk (s.orderEngine k obj issuer) := h.orderAt

theorem State.MemInv.orderSignal {k d issuer} (h : s.MemInv) : OrderOk (s.orderSignal k d issuer) := .ite h h.orderEngine

theorem State.MemInv.gwrite {d n v} (h : s.MemInv) : (s.gwrite d n v).MemInv :=
  .foldl (h.setGmem (Memory.writeLE_wf h.gmem ..)) fun _ _ ht => ht.lineWritten

theorem State.MemInv.gwriteBytes {d l} (h : s.MemInv) : (s.gwriteBytes d l).MemInv := by
  dsimp only [State.gwriteBytes]
  split
  · exact h
  · exact .foldl (h.setGmem (Memory.writeBytes_wf h.gmem ..)) fun _ _ ht => ht.lineWritten

theorem State.MemInv.gwriteMask {d n v mask} (h : s.MemInv) : (s.gwriteMask d n v mask).MemInv := by
  dsimp only [State.gwriteMask]
  split
  · exact h
  · exact .foldl (h.setGmem (Memory.writeMask_wf h.gmem ..)) fun _ _ ht => ht.lineWritten

theorem State.MemInv.saveBytes {s : State} {c vf va l n} (h : s.MemInv) : (s.saveBytes c vf va l n).MemInv := by
  induction n generalizing s va l with
  | zero => exact h
  | succ n ih =>
    simp only [State.saveBytes]
    split
    · exact h
    · refine ih ?_
      split
      · exact h
      · exact h.ite h.gwriteBytes

/-! ### Loads, stores and global accesses (Machine/Memory) -/

theorem State.MemInv.execLd {x} (h : s.MemInv) : NextOk (execLd x s) :=
  h.issue fun _ ht => localCheck_memOk fun _ => ht.readLocal fun _ hu _ => hu.writeG fun _ hv => hv

theorem State.MemInv.execSt {x} (h : s.MemInv) : NextOk (execSt x s) :=
  h.issue fun _ ht => localCheck_memOk fun _ => ht.sramPut

theorem State.MemInv.execLds {x} (h : s.MemInv) : NextOk (execLds x s) := by
  dsimp only [Machine.execLds]
  refine h.issue fun _ ht => ?_
  refine localCheck_memOk fun _ => ?_
  split
  · exact fun _ hu => hu
  · exact ht.readLocal fun _ hu _ => hu.writeG fun _ hv => .ok (.ite hv.setFull hv)

theorem State.MemInv.execStf {x} (h : s.MemInv) : NextOk (execStf x s) :=
  h.issue fun _ ht => localCheck_memOk fun _ => ht.sramPut.setFull

theorem State.MemInv.feset {b x} (h : s.MemInv) : NextOk (feset b x s) :=
  h.issue fun _ ht => localCheck_memOk fun _ => .ite ht (.ite trivial ht.setFull)

theorem State.MemInv.execFetest {x} (h : s.MemInv) : NextOk (execFetest x s) :=
  h.issue fun _ ht => localCheck_memOk fun _ => .ite trivial (.ite trivial (ht.writeG fun _ hu => hu))

theorem State.MemInv.execLdv {x} (h : s.MemInv) : NextOk (execLdv x s) :=
  h.issueMasked fun _ ht => localCheck_memOk fun _ => ht.readLocal fun _ hu _ => hu.wrV

theorem State.MemInv.execStv {x} (h : s.MemInv) : NextOk (execStv x s) :=
  h.issueMasked fun _ ht => localCheck_memOk fun _ => .ok (ht.modCore fun _ hc => Memory.writeMask_wf hc _ _ _ _)

theorem blkArea_memOk {x} {k : ℕ → ℕ → Act} (hk : ∀ m n : ℕ, (k m n).MemOk) : (blkArea x s k).MemOk :=
  .ite trivial (.ite trivial (.ite trivial (.ite trivial (hk _ _))))

theorem State.MemInv.execLdb {x} (h : s.MemInv) : NextOk (execLdb x s) :=
  h.issueMasked fun _ ht => blkArea_memOk fun _ _ => ht.readLocal fun _ hu _ => hu.readLocal fun _ hv _ => hv.wrV

theorem State.MemInv.execStb {x} (h : s.MemInv) : NextOk (execStb x s) :=
  h.issueMasked fun _ ht => blkArea_memOk fun _ _ => .ok (ht.foldl fun _ _ hu => .ite hu.sramPut.sramPut hu)

theorem State.MemInv.execAmo {x} (h : s.MemInv) : NextOk (execAmo x s) :=
  h.issue fun _ ht => localCheck_memOk fun _ => ht.readLocal fun _ hu _ => hu.writeG fun _ hv => hv.sramPut

theorem State.MemInv.addAcc {a} (h : s.MemInv) : (s.addAcc a).MemInv := h.modCore fun _ hc => hc

theorem State.MemInv.lateAct {d} {chk : (State → ℕ → Act) → Act} {mk} (h : s.MemInv)
    (hchk : ∀ f : State → ℕ → Act, (∀ t : State, t.MemInv → ∀ n, (f t n).MemOk) → (chk f).MemOk) :
    (lateAct s d chk mk).MemOk := by
  dsimp only [Machine.lateAct]
  split
  · split
    · exact h.writeG fun _ ht => ht
    · trivial
    · exact fun _ ht => ht
  · exact hchk _ (fun _ _ _ => .ite (fun _ hu => hu.addAcc.count.modMe) fun _ hu => hu)

theorem State.MemInv.postAct {ret a} (h : s.MemInv) : (postAct s ret a).MemOk :=
  .ite (.ok (.ite h.addAcc h.addAcc.count)) fun _ ht => ht

theorem State.MemInv.execLdg {x} (h : s.MemInv) : NextOk (execLdg x s) := by
  dsimp only [Machine.execLdg]
  refine h.issue fun _ ht => ?_
  split
  · exact ht.lateAct fun _ h1 => .globalCheck (ht.xlate fun _ hu _ => h1 _ hu _)
  · exact .globalCheck (ht.xlate fun _ hu _ => hu.postAct)

theorem State.MemInv.execStg {x} (h : s.MemInv) : NextOk (execStg x s) :=
  h.issue fun _ ht => .globalCheck (ht.xlate fun _ hu _ => hu.postAct)

theorem State.MemInv.execLdgv {x} (h : s.MemInv) : NextOk (execLdgv x s) :=
  h.issueMasked fun _ ht => .globalCheck (ht.xlate fun _ hu _ => hu.postAct)

theorem State.MemInv.execStgv {x} (h : s.MemInv) : NextOk (execStgv x s) :=
  h.issueMasked fun _ ht => .globalCheck (ht.xlate fun _ hu _ => hu.postAct)

theorem State.MemInv.execAmog {x} (h : s.MemInv) : NextOk (execAmog x s) := by
  dsimp only [Machine.execAmog]
  refine h.issue fun _ ht => ?_
  split
  · exact ht.lateAct fun _ h1 => .globalCheck (ht.xlate fun _ hu _ => h1 _ hu _)
  · exact .globalCheck (ht.xlate fun _ hu _ => hu.postAct)

theorem State.MemInv.execFence {x} (h : s.MemInv) : NextOk (execFence x s) := h.issue fun _ ht => .ite ht fun _ hu => hu

theorem State.MemInv.armWatch {k sl d} (h : s.MemInv) : (s.armWatch k sl d).MemInv := by
  dsimp only [State.armWatch]
  refine .rest ?_
  refine .modSlot ?_
  split
  · exact .ite (.endWatch h) h
  · exact h

theorem State.MemInv.execMon {x} (h : s.MemInv) : NextOk (execMon x s) :=
  h.issue fun _ ht => .globalCheck (ht.xlate fun _ hu _ => hu.armWatch)

theorem State.MemInv.disarm {k sl} (h : s.MemInv) : (s.disarm k sl).MemInv := .rest h.modSlot

theorem State.MemInv.mwaitAct {d t} (h : s.MemInv) : (mwaitAct d t s).MemOk := by
  dsimp only [Machine.mwaitAct]
  split
  · split
    · exact fun _ hu => hu.keepDue
    next he => exact State.MemInv.writeG (.disarm (.ite ((h.orderAt.of_ok he).setEv) (h.orderAt.of_ok he))) fun _ hu => hu
  · exact fun _ hu => hu.modMe

theorem State.MemInv.execMwait {x} (h : s.MemInv) : NextOk (execMwait x s) := h.issue fun _ ht => ht.mwaitAct

theorem State.MemInv.execMwaitTimeout {k sl} (h : s.MemInv) : NextOk (execMwaitTimeout k sl s) :=
  h.event (.ite h.endWatch trivial)

theorem State.MemInv.giveLoad {k a} (h : s.MemInv) : (s.giveLoad k a).MemInv := by
  dsimp only [State.giveLoad]
  split
  · exact h
  · exact h.modRegs
  · exact h.modRegs
  · exact h.modRegs
  · exact h

theorem State.MemInv.replyLoad {k sl r} (h : s.MemInv) : (s.replyLoad k sl r).MemInv := h.modSlot

theorem State.MemInv.execGlobalLoadReturn {k i bad} (h : s.MemInv) : NextOk (execGlobalLoadReturn k i bad s) := by
  dsimp only [Machine.execGlobalLoadReturn]
  refine h.event ?_
  split
  · trivial
  split
  · trivial
  split
  · exact .some (h.modCore fun _ hc => hc)
  split
  · exact .ite (.some (.replyLoad (h.modCore fun _ hc => hc))) (.some (h.modCore fun _ hc => hc))
  split
  · exact .some (.replyLoad (h.modCore fun _ hc => hc))
  · exact .some (.giveLoad (h.modCore fun _ hc => hc))

theorem State.MemInv.chargeQuay {q vf bytes} (h : s.MemInv) : (s.chargeQuay q vf bytes).MemInv := .ite h h.modField

theorem State.MemInv.streamNotice {k sl y gtid n stage2 va} (h : s.MemInv) :
    (s.streamNotice k sl y gtid n stage2 va).MemInv :=
  h.notify

theorem State.MemInv.counterFault {k a f} (h : s.MemInv) : (s.counterFault k a f).MemInv :=
  .streamNotice (h.modCore fun _ hc => hc.setSF)

theorem State.MemInv.sendFrame {k d what} (h : s.MemInv) : (s.sendFrame k d what).MemInv := h.modQuay

theorem State.MemInv.netSend {k i a} (h : s.MemInv) : (s.netSend k i a).MemInv := h.sendFrame.modCore fun _ hc => hc

theorem State.MemInv.netFail {k i a cause} (h : s.MemInv) : (s.netFail k i a cause).MemInv := by
  dsimp only [State.netFail]
  split
  · exact .replyLoad (h.modCore fun _ hc => hc)
  split
  · exact h.modCore fun _ hc => hc
  · exact .ite (.counterFault (h.modCore fun _ hc => hc)) (.defer (h.modCore fun _ hc => hc))

theorem State.MemInv.performAt {a} (h : s.MemInv) : (s.performAt a).1.MemInv := by
  dsimp only [State.performAt]
  split
  · exact h
  · exact h.gwriteMask
  · exact .ite h h.gwrite

theorem State.MemInv.performed {k i a v} (h : s.MemInv) : (s.performed k i a v).MemInv := h.modCore fun _ hc => hc

theorem Core.MemOk.touchAdd {a now} (hc : c.MemOk) : (c.touchAdd a now).MemOk := by
  dsimp only [Core.touchAdd]
  split
  · exact hc
  split
  · exact hc.touch
  · exact hc

theorem State.MemInv.addRefill {k} (h : s.MemInv) : OptionOk State.MemInv (s.addRefill k) :=
  .map fun _ => .count (h.modCore fun _ hc => hc)

theorem State.MemInv.execGlobalAccessPerform {k i bad} (h : s.MemInv) : NextOk (execGlobalAccessPerform k i bad s) := by
  dsimp only [Machine.execGlobalAccessPerform]
  refine h.event ?_
  split
  · trivial
  split
  · trivial
  split
  · exact .ite (.some (.defer (h.modCore fun _ hc => hc))) (.some (h.modCore fun _ hc => hc))
  split
  · trivial
  · exact .some (.counterFault (h.modCore fun _ hc => hc))
  · split
    · split
      · exact .some (.netFail (h.modCore fun _ hc => hc.touchAdd))
      · exact .ite trivial (.some (.netSend (h.modCore fun _ hc => hc.touchAdd)))
    · split
      · trivial
      · refine ordered_memOk ?_ fun _ ht => ht.performAt.performed.chargeQuay
        split
        · exact .ok (h.modCore fun _ hc => hc.touchAdd)
        · exact State.MemInv.orderQuay (h.modCore fun _ hc => hc.touchAdd)

theorem State.MemInv.addCounter {k sl n va inc sem} (h : s.MemInv) : (s.addCounter k sl n va inc sem).MemInv :=
  h.modCore fun _ hc => hc

theorem State.MemInv.counterAdd {k sl n d} (h : s.MemInv) : (s.counterAdd k sl n d).MemInv := by
  dsimp only [State.counterAdd]
  split
  · exact h
  · exact h.addCounter

theorem State.MemInv.complete {k sl n d} (h : s.MemInv) : (s.complete k sl n d).MemInv :=
  h.signal.counterAdd.setEv.settleHalt

/-! ### Streams, COPY and the bytes of berths (Machine/Streams) -/

theorem areaCheck_memOk {a n} {k : ℕ → Act} (hk : ∀ a : ℕ, (k a).MemOk) : (areaCheck a n k).MemOk :=
  .ite trivial (.ite trivial (hk _))

theorem State.MemInv.execShape {x} (h : s.MemInv) : NextOk (execShape x s) :=
  h.issue fun _ ht => areaCheck_memOk fun _ => ht.readLocal fun _ hu _ =>
    .ite trivial (.ite trivial (.ok (hu.modMem fun _ hm => hm)))

theorem counterWord_memOk {c} {k : Option (Word × BitVec 26) → Act} (hk : ∀ (a : Option (Word × BitVec 26)), (k a).MemOk) :
    (counterWord s c k).MemOk := by
  dsimp only [counterWord]
  split
  · exact hk _
  · exact .ite trivial (.ite trivial (hk _))

theorem Core.MemOk.enqueueSem {sl n t} (hc : c.MemOk) : (c.enqueueSem sl n t).MemOk := .ite hc (.grants hc)

theorem State.MemInv.takeSem {n t ready w} {k : State → Act} (h : s.MemInv) (hk : ∀ t : State, t.MemInv → (k t).MemOk) :
    (takeSem s n t ready w k).MemOk := by
  dsimp only [Machine.takeSem]
  split
  · exact .ite (hk _ (h.modMem fun _ hm => hm.takeThr)) fun _ hu => hu
  · exact .ite (hk _ (h.modMem fun _ hm => hm.takeThr)) fun _ hu => hu.modCore fun _ hc => hc.enqueueSem

theorem State.MemInv.syncIssue {y w ready} {k : State → Act} (h : s.MemInv) (hk : ∀ t : State, t.MemInv → (k t).MemOk) :
    (syncIssue s y w ready k).MemOk :=
  .ite (.ite (hk _ h) fun _ ht => ht) (h.takeSem fun _ ht => hk _ ht)

theorem Core.MemOk.pumpOut {c : Core} {k n m} (hc : c.MemOk) : (c.pumpOut k n m).MemOk := by
  induction m generalizing c with
  | zero => exact hc
  | succ m ih =>
    simp only [Core.pumpOut]
    split
    · exact hc
    · exact ih hc

theorem Core.MemOk.berthOut {k n l} (hc : c.MemOk) : (c.berthOut k n l).MemOk := .pumpOut hc

theorem Core.MemOk.berthTake {k b n} (hc : c.MemOk) : (c.berthTake k b n).2.MemOk := by
  dsimp only [Core.berthTake]
  split
  · exact hc
  · exact hc

theorem Core.MemOk.berthToStream {k b n} (hc : c.MemOk) :
    Core.MemOk (match c.streams[(n : Fin 8)] with
      | none => c
      | some t =>
        let (l, c) := c.berthTake k b (min (t.wants b) c.berths[b].buf.length)
        { c with streams := c.streams.set n (some { t with stage := t.stage ++ l }) }) := by
  split
  · exact hc
  · exact hc.berthTake

theorem Core.MemOk.pullBerth {k b} (hc : c.MemOk) : (c.pullBerth k b).MemOk := by
  unfold Core.pullBerth
  split
  · exact hc
  · extract_lets d
    have hd : d.MemOk := .foldl hc fun _ _ hd => hd.berthToStream
    clear_value d
    split
    · exact hd
    · dsimp only
      exact .foldl_snd hd fun _ _ hq => hq.berthTake

theorem Core.MemOk.pullBerths {k} (hc : c.MemOk) : (c.pullBerths k).MemOk := hc.foldl fun _ _ hd => hd.pullBerth

theorem Act.MemOk.offCheck {h : Shp} {b} {k : Act} (hk : k.MemOk) : (h.offCheck b k).MemOk := .ite trivial (.ite trivial hk)

theorem Act.MemOk.copyCheck {src dst sb db fb ring} {k : Act} (hk : k.MemOk) :
    (copyCheck src dst sb db fb ring k).MemOk := by
  dsimp only [Machine.copyCheck]
  split
  · split
    · trivial
    · exact .offCheck (.offCheck (.ite trivial (.ite trivial (.ite trivial (.ite trivial hk)))))
  · split
    · trivial
    · exact .offCheck (.offCheck (.ite trivial (.ite trivial (.ite trivial (.ite trivial hk)))))

theorem State.MemInv.startStream {n src dst ring fb d} (h : s.MemInv) : (s.startStream n src dst ring fb d).MemInv := by
  unfold State.startStream
  exact .modCore h fun _ hc => .pullBerths hc

theorem State.MemInv.execCopy {x} (h : s.MemInv) : NextOk (execCopy x s) := by
  dsimp only [Machine.execCopy]
  refine h.issue fun _ ht => ?_
  refine .copyCheck ?_
  refine counterWord_memOk fun _ => ?_
  refine ht.syncIssue fun _ hu => ?_
  split
  · exact fun _ hv => hv
  · exact hu.startStream

theorem State.MemInv.execCopyRing {x} (h : s.MemInv) : NextOk (execCopyRing x s) := by
  dsimp only [Machine.execCopyRing]
  refine h.issue fun _ ht => ?_
  refine .copyCheck ?_
  split
  · trivial
  · refine counterWord_memOk fun _ => ?_
    split
    · trivial
    · refine ht.syncIssue fun _ hu => ?_
      split
      · exact fun _ hv => hv
      · exact hu.wr.startStream

theorem State.MemInv.tileWrite {k t vs ds} (h : s.MemInv) : (s.tileWrite k t vs ds).MemInv := by
  dsimp only [State.tileWrite]
  split
  · split
    · exact .foldl (h.foldl fun _ _ hu => hu.sramPut) fun _ _ hu => hu.setFull
    · exact h.foldl fun _ _ hu => hu.sramPut
  · split
    · exact h.modCore fun _ hc => hc.berthOut
    · refine h.foldl fun _ _ hu => ?_
      split
      · exact hu
      · exact hu.gwrite

theorem State.MemInv.tileAsk {k n ds} (h : s.MemInv) : (s.tileAsk k n ds).MemInv := by
  dsimp only [State.tileAsk]
  refine h.foldl fun _ _ ht => ?_
  split
  · exact ht
  · exact ht.sendFrame

theorem State.MemInv.tileOrder {k n t ds} (h : s.MemInv) : OrderOk (s.tileOrder k n t ds) :=
  h.orderAll (.append
    (.append (.ite (.cons (fun _ hu => hu.orderEngine) .nil) .nil)
      (.ite (.cons (fun _ hu => hu.orderAt) .nil) (.ite (.map fun _ _ hu => hu.orderQuay) .nil)))
    (.ite (.cons (fun _ hu => hu.orderSignal) .nil) .nil))

theorem State.MemInv.streamFault {k n t kind va sfdet stage2} (h : s.MemInv) :
    (s.streamFault k n t kind va sfdet stage2).MemInv := by
  dsimp only [State.streamFault]
  refine .streamNotice ?_
  split
  · exact .noteUE (.modCore (h.modCore fun _ hc => hc) fun _ hc => hc.setSF)
  · exact .modCore (h.modCore fun _ hc => hc) fun _ hc => hc.setSF

theorem State.MemInv.streamRefill {k n} (h : s.MemInv) : OptionOk State.MemInv (s.streamRefill k n) := by
  dsimp only [State.streamRefill]
  split
  · trivial
  split
  · exact .ite trivial (.some (.count (h.modCore fun _ hc => hc)))
  · trivial

theorem State.MemInv.tileSend {k n t ds} (h : s.MemInv) : OptionOk State.MemInv (s.tileSend k n t ds) := by
  dsimp only [State.tileSend]
  split
  · trivial
  split
  · trivial
  split
  · exact h.streamFault
  · exact .ite trivial (.some (h.tileAsk.modCore fun _ hc => hc))

theorem State.MemInv.execCopyTileComplete {k n bad} (h : s.MemInv) : NextOk (execCopyTileComplete k n bad s) := by
  unfold Machine.execCopyTileComplete
  refine h.event ?_
  split
  · trivial
  refine .ite trivial ?_
  extract_lets stop ds hm
  have hstop (e : TileStop) : OptionOk State.MemInv (stop e) := by
    cases e with
    | xlate | data => exact h.streamFault
    | miss | wait => trivial
  clear_value stop
  split
  · exact hstop _
  split
  · exact hstop _
  refine .ite (hstop _) (.ite h.tileSend (.ite trivial (ordered_memOk h.tileOrder fun u hu => ?_)))
  extract_lets cs s1 s2 s3 s4 t3 s5
  have h1 : s1.MemInv := .ite (hu.foldl fun _ _ hv => hv.modCore fun _ hc => hc.correct) hu
  have h3 : s3.MemInv := by
    dsimp only [s3]
    split
    · exact h1.tileWrite.chargeQuay
    · exact h1.tileWrite
  have h5 : s5.MemInv := .modCore h3.charge fun _ hc => .pullBerths hc
  exact .ite h5.signal h5

theorem State.MemInv.freeLeft {k} (h : s.MemInv) : (s.freeLeft k).MemInv := .ite (h.modCore fun _ _ => rfl) h

theorem State.MemInv.execCopyComplete {k n} (h : s.MemInv) : NextOk (execCopyComplete k n s) := by
  unfold Machine.execCopyComplete
  refine h.event ?_
  split
  · trivial
  refine .ite trivial ?_
  extract_lets hm
  refine ordered_memOk
    (h.orderAll (.cons (fun _ hu => hu.orderAt) (.cons (fun _ hu => .ite hu hu.orderSignal) .nil))) fun u hu => ?_
  extract_lets s1 s2
  have h1 : s1.MemInv := .setFlags (hu.modCore fun _ hc => hc)
  have h2 : s2.MemInv := .ite h1.counterAdd.setEv.settleHalt h1.complete
  exact .ite h2.freeLeft h2

theorem State.MemInv.execSpace {x} (h : s.MemInv) : NextOk (execSpace x s) := by
  dsimp only [Machine.execSpace]
  refine h.issue fun _ ht => ?_
  split
  · trivial
  · exact .ite trivial (.ok (.modCore (ht.foldl fun _ _ hu => hu.setFull) fun _ hc => .ite hc hc))

theorem Core.MemOk.ringCredit {n issued m} (hc : c.MemOk) : (c.ringCredit n issued m).MemOk := hc

theorem State.MemInv.execFreeSpaceNotice {k i} (h : s.MemInv) : NextOk (execFreeSpaceNotice k i s) := by
  dsimp only [Machine.execFreeSpaceNotice]
  refine h.event ?_
  split
  · trivial
  · exact .ite trivial (.some (.modCore (h.modCore fun _ hc => hc) fun _ hc => hc.ringCredit))

theorem State.MemInv.endCount {k sl} (h : s.MemInv) : (s.endCount k sl).MemInv := h

theorem State.MemInv.cntAct {d bound} (h : s.MemInv) : (cntAct s d bound).MemOk := .ite h.endCount fun _ ht => ht

theorem State.MemInv.execCntwait {x} (h : s.MemInv) : NextOk (execCntwait x s) :=
  h.issue fun _ ht => .ite ht.endCount (.globalCheck (ht.xlate fun _ hu _ => .ite (fun _ hv => hv) hu.cntAct))

theorem Core.MemOk.clearFault {n} (hc : c.MemOk) : (c.clearFault n).MemOk := hc

theorem State.MemInv.restartStream {k n} (h : s.MemInv) : OptionOk State.MemInv (s.restartStream k n) := by
  dsimp only [State.restartStream]
  split
  · trivial
  split
  · split
    · trivial
    · exact .some (.addCounter (h.modCore fun _ hc => hc))
  · exact .some (h.modCore fun _ hc => hc)

theorem State.MemInv.endStream {k n} (h : s.MemInv) : OptionOk State.MemInv (s.endStream k n) := by
  dsimp only [State.endStream]
  split
  · trivial
  split
  · exact .some (h.modCore fun _ hc => hc)
  split
  · exact .some (h.modCore fun _ hc => hc.clearFault)
  split
  · exact .freeLeft (.settleHalt (.setEv (.signal (.setFlags (h.modCore fun _ hc => hc)))))
  · exact .settleHalt (.setEv (.signal (.setFlags (h.modCore fun _ hc => hc))))

theorem State.MemInv.execStreamRestart {k n} (h : s.MemInv) : NextOk (execStreamRestart k n s) := h.event h.restartStream

theorem State.MemInv.execStreamEnd {k n} (h : s.MemInv) : NextOk (execStreamEnd k n s) := h.event h.endStream

/-! ### Messages, tags and semaphores (Machine/Messages) -/

theorem Act.MemOk.sendCheck {cls gD} {k : Act} (hk : k.MemOk) : (sendCheck s cls gD k).MemOk :=
  .ite trivial (.ite (fun _ ht => ht) hk)

theorem State.MemInv.enqueueMsg {m} (h : s.MemInv) : (s.enqueueMsg m).MemInv := h.modCore fun _ hc => hc

theorem State.MemInv.execSendv {x} (h : s.MemInv) : NextOk (execSendv x s) :=
  h.issue fun _ ht => localCheck_memOk fun _ => .ite trivial (.ite trivial (.sendCheck (ht.readLocal fun _ hu _ => hu.enqueueMsg)))

theorem State.MemInv.execSend {x} (h : s.MemInv) : NextOk (execSend x s) := by
  dsimp only [Machine.execSend]
  refine h.issue fun _ ht => ?_
  split
  · trivial
  · exact .sendCheck (.ok ht.enqueueMsg)

theorem State.MemInv.execSendb {x} (h : s.MemInv) : NextOk (execSendb x s) := by
  dsimp only [Machine.execSendb]
  refine h.issue fun _ ht => ?_
  split
  · trivial
  split
  · trivial
  · exact .sendCheck (.ok (.ite ht.enqueueMsg.setFlags ht.enqueueMsg))

theorem Core.MemOk.sampleTick {cls} (hc : c.MemOk) : (c.sampleTick cls).2.MemOk := by
  dsimp only [Core.sampleTick]
  split
  · exact hc
  split
  · exact hc
  · exact hc

theorem State.MemInv.inject {k i m} (h : s.MemInv) : (s.inject k i m).MemInv := by
  have hc {f g} : (s.setCore k { ((s.core k).sampleTick m.cls).2 with inj := f, seqOut := g }).MemInv :=
    h.setCore h.core.sampleTick
  dsimp only [State.inject]
  split
  · exact .ite (.rest (.count (.modCoreRegs (.ite hc.tick hc)))) (.count (.modCoreRegs (.ite hc.tick hc)))
  · exact .foldl (.rest (.modCoreRegs (.count (.modCoreRegs (.ite hc.tick hc))))) fun _ _ hu => hu.cross

theorem State.MemInv.execMessageInject {k i} (h : s.MemInv) : NextOk (execMessageInject k i s) := by
  dsimp only [Machine.execMessageInject]
  refine h.event ?_
  split
  · trivial
  · exact .ite trivial h.inject

theorem State.MemInv.execTagset {x} (h : s.MemInv) : NextOk (execTagset x s) :=
  h.issue fun _ ht => .ite trivial (.ok (.settleTags (ht.modMem fun _ hm => hm)))

theorem State.MemInv.execTagget {x} (h : s.MemInv) : NextOk (execTagget x s) := h.issue fun _ ht => ht.writeG fun _ hu => hu

theorem State.MemInv.execChk {x} (h : s.MemInv) : NextOk (execChk x s) := by
  dsimp only [Machine.execChk]
  refine h.issue fun _ ht => ?_
  split
  · exact .ite (ht.writeG fun _ hu => hu) fun _ hu => hu
  · exact ht.writeG fun _ hu => hu

theorem State.MemInv.execSemsig {x} (h : s.MemInv) : NextOk (execSemsig x s) := by
  dsimp only [Machine.execSemsig]
  refine h.issue fun _ ht => ?_
  split
  · trivial
  next he => exact ht.setCore (ht.core.addSem.of_some he)

theorem State.MemInv.execSemwait {x} (h : s.MemInv) : NextOk (execSemwait x s) :=
  h.issue fun _ ht => .ite (ht.writeG fun _ hu => hu) (ht.takeSem fun _ hu => hu.writeG fun _ hv => hv)

theorem State.MemInv.execSemget {x} (h : s.MemInv) : NextOk (execSemget x s) := h.issue fun _ ht => ht.writeG fun _ hu => hu

theorem State.MemInv.execSemset {x} (h : s.MemInv) : NextOk (execSemset x s) :=
  h.issue fun _ ht => .ok (ht.modCore fun _ hc => hc.setSF.setSem)

theorem State.MemInv.crcFail {k m} (h : s.MemInv) : (s.crcFail k m).MemInv :=
  .ite (.defer (h.modCore fun _ hc => hc.tagErr)) h.notifyAll

theorem State.MemInv.noteSeq {k m} (h : s.MemInv) : (s.noteSeq k m).MemInv := h.modCore fun _ hc => hc

theorem State.MemInv.writeOverflow {p k m} (h : s.MemInv) : (s.writeOverflow p k m).MemInv := by
  dsimp only [State.writeOverflow]
  exact h.modCtx.saveBytes

theorem State.MemInv.accept {k m} (h : s.MemInv) : (s.accept k m).MemInv :=
  .ite h.noteSeq.writeOverflow (.settleTags (h.noteSeq.modCore fun _ hc => hc))

theorem State.MemInv.execMessageArrival {i err} (h : s.MemInv) : NextOk (execMessageArrival i err s) := by
  dsimp only [Machine.execMessageArrival]
  refine h.event ?_
  split
  · trivial
  split
  · trivial
  split
  · exact .some (.crcFail (.count h))
  split
  · exact .some (.count h)
  split
  · exact .some (.modCore (.noteSeq (.count h)) fun _ hc => hc)
  · exact ordered_memOk h.orderAt fun _ ht => .accept (.count ht)

theorem State.MemInv.orderTag {k m} (h : s.MemInv) : OrderOk (s.orderTag k m) := h.orderAt

theorem State.MemInv.popArr {k q} (h : s.MemInv) : (s.popArr k q).MemInv := by
  dsimp only [State.popArr]
  refine .settleTags ?_
  refine .modCore ?_ fun _ hc => hc
  split
  · exact h.acted
  · exact h

theorem State.MemInv.discard {k q t} (h : s.MemInv) : (s.discard k q t).MemInv :=
  .settleTags (h.modCore fun _ hc => .tagErr hc)

theorem State.MemInv.tagFinish {k q e} (h : s.MemInv) : (s.tagFinish k q e).MemInv := h.popArr.tagDone

theorem State.MemInv.execDeliver {k i} (h : s.MemInv) : NextOk (execDeliver k i s) := by
  dsimp only [Machine.execDeliver]
  refine h.event ?_
  split
  · trivial
  · exact .ite trivial (ordered_memOk h.orderTag fun _ ht => ht.modRegs.tagFinish)

theorem State.MemInv.execDeposit {k i} (h : s.MemInv) : NextOk (execDeposit k i s) := by
  dsimp only [Machine.execDeposit]
  refine h.event ?_
  split
  · trivial
  split
  · exact ordered_memOk h.orderTag fun _ ht => ht.discard
  · refine ordered_memOk h.orderAt fun _ ht => ?_
    refine .tagFinish ?_
    split
    · exact .modMem (ht.foldl fun _ _ hu => hu.sramPut.setFull) fun _ hm => hm
    · exact ht.foldl fun _ _ hu => hu.sramPut.setFull

theorem State.MemInv.putBlk {k ty a y b} (h : s.MemInv) : (s.putBlk k ty a y b).MemInv := h.sramPut.sramPut

theorem State.MemInv.fullBytes {k a n} (h : s.MemInv) : (s.fullBytes k a n).MemInv := h.setFull

theorem State.MemInv.tagUe {k q m e w} (h : s.MemInv) : (s.tagUe k q m e w).MemInv := h.discard.defer

theorem State.MemInv.execAddblock {k i} (h : s.MemInv) : NextOk (execAddblock k i s) := by
  dsimp only [Machine.execAddblock]
  refine h.event ?_
  split
  · trivial
  refine .ite trivial ?_
  split
  · exact ordered_memOk h.orderTag fun _ ht => ht.discard
  refine .ite (ordered_memOk h.orderTag fun _ ht => ht.discard) ?_
  split
  · exact ordered_memOk h.orderTag fun _ ht => ht.tagUe
  · refine ordered_memOk (h.orderAll (.cons (fun _ ht => ht.orderAt) (.cons (fun _ ht => ht.orderAt) .nil))) fun _ ht => ?_
    exact .tagFinish (.charge (.setFlags (.fullBytes (.fullBytes
      (.foldl_fst (ht.modCore fun _ hc => hc.correct.correct) fun _ _ hq => hq.putBlk)))))

theorem State.MemInv.inlineStart {k i} (h : s.MemInv) : OptionOk State.MemInv (s.inlineStart k i) := by
  dsimp only [State.inlineStart]
  split
  · trivial
  · exact .ite trivial (ordered_memOk h.orderTag fun _ ht => ht.modCore fun _ hc => hc)

theorem State.MemInv.inlineDue {k} (h : s.MemInv) : (s.inlineDue k).MemInv :=
  ((h.inlineStart.getD h).inlineStart).getD (h.inlineStart.getD h)

theorem State.MemInv.execInline {k i} (h : s.MemInv) : NextOk (execInline k i s) := h.event h.inlineStart

theorem State.MemInv.wakeAt {k sl to_} (h : s.MemInv) : (s.wakeAt k sl to_).MemInv := .retireHead (.rest h.modSlot)

theorem State.MemInv.execWake {k i} (h : s.MemInv) : NextOk (execWake k i s) := by
  unfold Machine.execWake
  refine h.event ?_
  split
  · trivial
  extract_lets sl x long
  refine .ite (ordered_memOk h.orderTag fun _ ht => ht.discard) (.ite trivial ?_)
  split
  · exact ordered_memOk h.orderTag fun _ ht => ht.discard
  · refine ordered_memOk h.orderTag fun u hu => ?_
    extract_lets pc s1 s2 s3
    have h1 : s1.MemInv := hu.wakeAt.modRegs
    have h2 : s2.MemInv := .popArr (.ite (h1.modCore fun _ hc => hc.tagErr) h1)
    exact .stepStop (.ite h2.addSemOrDefer h2)

/-! ### Berths (Machine/Berths) -/

theorem State.MemInv.berthOpenAct {out x} (h : s.MemInv) : (berthOpenAct out x s).MemOk :=
  .ite trivial (.ite trivial (.ite trivial (.ok (.enqueueMsg (h.modCore fun _ hc => hc)))))

theorem State.MemInv.execBerthOut {x} (h : s.MemInv) : NextOk (execBerthOut x s) := h.issue fun _ ht => ht.berthOpenAct

theorem State.MemInv.execBerthIn {x} (h : s.MemInv) : NextOk (execBerthIn x s) := h.issue fun _ ht => ht.berthOpenAct

theorem State.MemInv.execBerthClose {x} (h : s.MemInv) : NextOk (execBerthClose x s) := by
  dsimp only [Machine.execBerthClose]
  refine h.issue fun _ ht => ?_
  split
  · trivial
  split
  · exact fun _ hu => hu
  · exact .ite (fun _ hu => hu.modCore fun _ hc => hc) (.ok (ht.modCore fun _ hc => hc))

theorem State.MemInv.execBerthDataArrival {k i} (h : s.MemInv) : NextOk (execBerthDataArrival k i s) := by
  dsimp only [Machine.execBerthDataArrival]
  refine h.event ?_
  split
  · trivial
  split
  · trivial
  split
  · exact .some (.modCore (.popArr (h.modCore fun _ hc => hc)) fun _ hc => hc.pullBerths)
  · trivial

theorem State.MemInv.dropFlight {i k m} (h : s.MemInv) : (s.dropFlight i k m).MemInv := .noteSeq h

theorem State.MemInv.execBerthCredit {i} (h : s.MemInv) : NextOk (execBerthCredit i s) := by
  dsimp only [Machine.execBerthCredit]
  refine h.event ?_
  split
  · trivial
  split
  · exact .some (h.dropFlight.modCore fun _ hc => .ite (.pumpOut hc) hc)
  · trivial

theorem State.MemInv.execBerthJoin {i} (h : s.MemInv) : NextOk (execBerthJoin i s) := by
  dsimp only [Machine.execBerthJoin]
  refine h.event ?_
  split
  · trivial
  split
  · exact .ite (.some (.modCore (h.dropFlight.modCore fun _ hc => hc) fun _ hc => hc)) h.dropFlight
  · trivial

/-! ### Block instructions (Machine/Block) -/

theorem State.MemInv.blockOp {q k d srcs gs f} (h : s.MemInv) : NextOk (blockOp q k d srcs gs f s) :=
  h.issueMasked fun _ ht => ht.vop

theorem State.MemInv.execBquant {x} (h : s.MemInv) : NextOk (execBquant x s) := h.issueMasked fun _ ht => ht.vop

theorem State.MemInv.execBdeq {x} (h : s.MemInv) : NextOk (execBdeq x s) := h.issueMasked fun _ ht => ht.vop

theorem State.MemInv.execBdot {x} (h : s.MemInv) : NextOk (execBdot x s) := h.issueMasked fun _ ht => ht.vop

/-! ### Records from network quays (Machine/Inbound) -/

theorem State.MemInv.netMessage {q vf ws held} (h : s.MemInv) : (s.netMessage q vf ws held).MemOk := by
  dsimp only [State.netMessage]
  split
  · trivial
  split
  · exact .ite trivial (.done (h.modPart fun _ hx => hx))
  split
  · trivial
  split
  · trivial
  split
  · trivial
  split
  · trivial
  · exact .ite trivial (.done (.rest h.modQuay.chargeQuay))

theorem State.MemInv.releaseList {p stuck l} (h : s.MemInv) : (s.releaseList p stuck l).MemInv := by
  induction l generalizing s stuck with
  | nil => exact h
  | cons e l ih =>
    have keep {stuck} : ((s.modPart p fun x => { x with netHeld := x.netHeld ++ [e] }).releaseList p stuck l).MemInv :=
      ih (h.modPart fun _ hx => hx)
    simp only [State.releaseList]
    refine .ite keep (.ite keep ?_)
    split
    next he => exact ih (h.netMessage.of_done he)
    · exact ih h.modVf
    · exact ih h.modVf
    · exact keep

theorem State.MemInv.releaseNet {p} (h : s.MemInv) : (s.releaseNet p).MemInv :=
  .ite h (.releaseList (h.modPart fun _ hx => hx))

/-! ### Laces (Machine/Laces) -/

theorem CoreMem.SramOk.copyFrames {src : CoreMem} {dst : CoreMem} (hdst : dst.SramOk) : (copyFrames src dst).SramOk := by
  dsimp only [Machine.copyFrames]
  refine hdst.foldl fun _ _ hd => ?_
  split
  · exact hd
  split
  · exact hd
  split
  · exact hd
  · exact hd

theorem State.MemInv.laceResult {k sl l} (h : s.MemInv) : (s.laceResult k sl l).MemInv := h.modSlot

theorem State.MemInv.laceFails {k sl} (h : s.MemInv) : (s.laceFails k sl).MemInv := h.laceResult

theorem State.MemInv.laceBind {lead leadSl ms} (h : s.MemInv) : (s.laceBind lead leadSl ms).MemInv := by
  dsimp only [State.laceBind]
  exact h.foldl fun _ _ ht => .ite ht.dropWire.laceResult (ht.dropWire.laceResult.modMem fun _ hm => hm.copyFrames)

theorem State.MemInv.laceJoin {k sl xl w e} (h : s.MemInv) : (s.laceJoin k sl xl w e).MemInv := by
  dsimp only [State.laceJoin]
  split
  · exact h.laceResult.foldl fun _ _ ht => ht.laceFails
  split
  · exact h.laceResult
  split
  · exact h.laceResult.laceBind
  · exact h.laceResult

theorem State.MemInv.laceDone {code joined} (h : s.MemInv) : (s.laceDone code joined).MemInv := h.retireHead.modMe.stepStop

theorem State.MemInv.laceAct {x} (h : s.MemInv) : (laceAct x s).MemOk := by
  dsimp only [Machine.laceAct]
  split
  · exact .ite (h.writeG fun _ ht => ht.modMe) (h.writeG fun _ ht => ht.laceDone)
  split
  · exact fun _ ht => ht
  split
  · exact h.writeG fun _ ht => ht
  · exact .ite (h.laceJoin.modSlot.writeG fun _ ht => ht) fun _ _ => h.laceJoin

theorem State.MemInv.execLace {x} (h : s.MemInv) : NextOk (execLace x s) := h.issue fun _ ht => ht.laceAct

theorem State.MemInv.unlaceAct (h : s.MemInv) : (unlaceAct s).MemInv := h.retireHead.endLace.modSlot.stepStop

theorem State.MemInv.execUnlace (h : s.MemInv) : NextOk (execUnlace s) := h.issue fun _ ht => ht.unlaceAct

theorem State.MemInv.execUnlaceStatus {x} (h : s.MemInv) : NextOk (execUnlaceStatus x s) :=
  h.issue fun _ ht => ht.writeG fun _ hu => hu.unlaceAct

theorem State.MemInv.execLaceq {x} (h : s.MemInv) : NextOk (execLaceq x s) := h.issue fun _ ht => ht.writeG fun _ hu => hu

theorem State.MemInv.rejoin {ms joined} (h : s.MemInv) : (s.rejoin ms joined).MemInv :=
  h.foldl fun _ _ ht => ht.modSlot.dropWire

theorem State.MemInv.dropRelace {k sl} (h : s.MemInv) : (s.dropRelace k sl).MemInv :=
  h.foldl fun _ _ ht => .ite ht (.modSlot (.ite ht.dropWire ht))

theorem State.MemInv.relaceLeader {d} (h : s.MemInv) : (relaceLeader d s).MemOk := by
  dsimp only [Machine.relaceLeader]
  split
  · exact h.writeG fun _ ht => ht.retireHead.dropRelace.rejoin.modMe.stepStop
  · exact fun _ ht => ht.rejoin.modMe

theorem State.MemInv.relaceAct {d} (h : s.MemInv) : (relaceAct d s).MemOk := by
  dsimp only [Machine.relaceAct]
  split
  · exact .ite (h.writeG fun _ ht => ht.laceDone) (h.writeG fun _ ht => ht.modMe)
  split
  · exact h.writeG fun _ ht => ht
  · exact .ite (h.dropWire.writeG fun _ ht => ht.laceDone) fun _ ht => ht.modMe
  · exact fun _ ht => ht
  · exact h.relaceLeader
  · exact h.relaceLeader
  · exact h.writeG fun _ ht => ht.modMe
  · exact h.writeG fun _ ht => ht.modMe

theorem State.MemInv.execRelace {x} (h : s.MemInv) : NextOk (execRelace x s) := h.issue fun _ ht => ht.relaceAct

theorem State.MemInv.execLaceForwardHead {i} (h : s.MemInv) : NextOk (execLaceForwardHead i s) := by
  dsimp only [Machine.execLaceForwardHead]
  refine h.event ?_
  split
  · trivial
  · exact .ite trivial (.ite (.some (.modSlot h)) (.some h))

theorem State.MemInv.loseFollower {m} (h : s.MemInv) : (s.loseFollower m).MemInv := h.modSlot

theorem State.MemInv.leaderTimeout {k sl} (h : s.MemInv) : (s.leaderTimeout k sl).MemInv :=
  .modSlot (h.foldl fun _ _ ht => ht.loseFollower)

theorem State.MemInv.execLaceTimeout {k sl} (h : s.MemInv) : NextOk (execLaceTimeout k sl s) := by
  dsimp only [Machine.execLaceTimeout]
  refine h.event ?_
  split
  · trivial
  split
  · exact .ite h.laceFails trivial
  · exact .ite h.modSlot trivial
  · exact .ite h.leaderTimeout trivial
  · exact .ite h.modSlot.dropWire.count trivial
  · trivial

theorem State.MemInv.execTaskid {x} (h : s.MemInv) : NextOk (execTaskid x s) := h.issue fun _ ht => ht.writeG fun _ hu => hu

/-! ### Tasks and their moves (Machine/Tasks) -/

theorem State.MemInv.packetRead {a} {k : State → ℕ → Act} (h : s.MemInv)
    (hk : ∀ t : State, t.MemInv → ∀ n : ℕ, (k t n).MemOk) : (packetRead s a k).MemOk := by
  dsimp only [Machine.packetRead]
  split
  · exact localCheck_memOk fun _ => .using (h.readLocal fun _ ht _ => hk _ ht _) fun _ ht => ht.modCore fun _ hc => hc.correct
  · exact .globalCheck (h.xlate fun _ ht _ => hk _ ht _)

theorem State.MemInv.execSpawn {x} (h : s.MemInv) : NextOk (execSpawn x s) := by
  dsimp only [Machine.execSpawn]
  refine h.issue fun _ ht => ?_
  split
  · exact ht.writeG fun _ hu => hu
  split
  · exact fun _ hu => hu
  split
  · trivial
  split
  · trivial
  · exact .ite (fun _ hu => hu) (ht.packetRead fun _ _ _ _ hv => .modMe (hv.modPart fun _ hx2 => hx2))

theorem State.MemInv.pushUpd {p u} (h : s.MemInv) : (s.pushUpd p u).MemInv := h.modPart fun _ hx => hx

theorem State.MemInv.execRankset {x} (h : s.MemInv) : NextOk (execRankset x s) := by
  dsimp only [Machine.execRankset]
  refine h.issue fun _ ht => ?_
  split
  · exact ht.writeG fun _ hu => hu
  · exact .ite (fun _ hu => hu) (.ite trivial fun _ hu => hu.pushUpd.modMe)

theorem State.MemInv.beginMove {k sl t tsl migt issuer} (h : s.MemInv) : (s.beginMove k sl t tsl migt issuer).MemInv := by
  dsimp only [State.beginMove]
  split
  · exact h
  · exact h.pushUpd.modPart fun _ hx => hx

theorem State.MemInv.migrateAct {x} (h : s.MemInv) : (migrateAct x s).MemOk := by
  dsimp only [Machine.migrateAct]
  split
  · exact h.writeG fun _ ht => ht
  · exact h.writeG fun _ ht => ht
  · split
    · exact fun _ ht => ht
    · split
      · trivial
      · split
        · exact h.writeG fun _ ht => ht
        · split
          · exact fun _ ht => ht
          · split
            · exact h.writeG fun _ ht => ht
            · exact .ite (fun _ ht => ht) (.ite (fun _ ht => ht.beginMove) fun _ ht => ht.beginMove.modMe)

theorem State.MemInv.execMigrate {x} (h : s.MemInv) : NextOk (execMigrate x s) := h.issue fun _ ht => ht.migrateAct

theorem State.MemInv.modMigt {k n f} (h : s.MemInv) : (s.modMigt k n f).MemInv := h.modCoreRegs

theorem State.MemInv.dropMove {p g} (h : s.MemInv) : (s.dropMove p g).MemInv := h.modPart fun _ hx => hx

theorem State.MemInv.execMigtRequestAct {k n} (h : s.MemInv) : NextOk (execMigtRequestAct k n s) := by
  dsimp only [Machine.execMigtRequestAct]
  refine h.event ?_
  split
  · exact .ite trivial (.ite h.dropMove.modMigt.modSlot h.dropMove.beginMove)
  split
  · trivial
  split
  · exact h.modMigt
  · exact .ite (.some (h.modMigt.modSlot.modPart fun _ hx => hx)) h.modMigt.modSlot.beginMove

theorem State.MemInv.setStep {p m st} (h : s.MemInv) : (s.setStep p m st).MemInv := h.modPart fun _ hx => hx

theorem State.MemInv.execMoveFlushMarker {k} (h : s.MemInv) : NextOk (execMoveFlushMarker k s) := by
  dsimp only [Machine.execMoveFlushMarker]
  refine h.event ?_
  split
  · trivial
  · exact .ite trivial h.setStep

theorem Core.MemOk.takeSeqs {t : Core} {o : Core} {g} (ht : t.MemOk) : (t.takeSeqs o g).MemOk := ht

theorem Core.MemOk.dropSeqs {o : Core} {g} (ho : o.MemOk) : (o.dropSeqs g).MemOk := ho

theorem Core.MemOk.arriveWhole {t : Core} {o : Core} {a b h} (ho : o.MemOk) : (t.arriveWhole o a b h).MemOk := ho

theorem Core.MemOk.leaveWhole {o : Core} (ho : o.MemOk) : o.leaveWhole.MemOk := ho

theorem Core.MemOk.arriveSlot {t o : Core} {a b x} (ht : t.MemOk) : (t.arriveSlot o a b x).MemOk :=
  CoreMem.SramOk.copyFrames ht

theorem State.MemInv.redirectStreams {k sl t tsl} (h : s.MemInv) : (s.redirectStreams k sl t tsl).MemInv :=
  ⟨h.gmem, h.cores.map fun _ he => he, h.parts⟩

theorem Core.MemOk.renameRing {k t n} (hc : c.MemOk) : (c.renameRing k t n).MemOk := hc

theorem State.MemInv.renameRing {k t n} (h : s.MemInv) : (s.renameRing k t n).MemInv :=
  ⟨h.gmem, h.cores.map fun _ he => he.renameRing, h.parts⟩

theorem State.MemInv.renameStream {k t n} (h : s.MemInv) : (s.renameStream k t n).MemInv :=
  .renameRing (.rest (.modCore (h.modCore fun _ hc => hc) fun _ hc => hc))

theorem State.MemInv.takeStreams {k t tsl ns} (h : s.MemInv) : (s.takeStreams k t tsl ns).MemInv :=
  h.foldl fun _ _ hu => .renameStream (.modCore (hu.modCore fun _ hc => hc) fun _ hc => hc)

theorem State.MemInv.moveBank {k sl t tsl} (h : s.MemInv) : (s.moveBank k sl t tsl).MemInv :=
  .ite h (.ite h.modCoreRegs h.modCoreRegs.modCoreRegs)

theorem State.MemInv.carryParked {k sl t tsl} (h : s.MemInv) : (s.carryParked k sl t tsl).MemInv :=
  .modCore (h.modCore fun _ hc => hc) fun _ hc => hc

theorem State.MemInv.carrySlot {k sl t tsl} (h : s.MemInv) : (s.carrySlot k sl t tsl).MemInv := h.modSlot.modSlot

theorem State.MemInv.carryAccs {k sl t tsl} (h : s.MemInv) : (s.carryAccs k sl t tsl).MemInv :=
  .rest (.modCore (h.modCore fun _ hc => hc) fun _ hc => hc)

theorem State.MemInv.copyTask {k sl t tsl} (h : s.MemInv) : (s.copyTask k sl t tsl).MemInv := by
  unfold State.copyTask
  extract_lets s1 g hm only o s2 s3 s4 s5 s6 s7
  have h1 : s1.MemInv := h.endWatch.endLace.endCount.carryAccs.carryParked
  have h2 : s2.MemInv := h1.moveBank
  have h3 : s3.MemInv := .ite h2 h2.takeStreams
  have h5 : s5.MemInv := .modCore (.modCore h3.redirectStreams fun _ hc => hc.takeSeqs) fun _ hc => hc.dropSeqs
  have h6 : s6.MemInv := .modCore h5 fun _ hc => .ite hc.arriveSlot h1.core.arriveWhole
  have h7 : s7.MemInv := .modCore h6 fun _ hc => .ite hc hc.leaveWhole
  exact .ite h2.redirectStreams.modUnits.carrySlot h7.carrySlot.freeLeft

theorem State.MemInv.execMoveCopy {k} (h : s.MemInv) : NextOk (execMoveCopy k s) := by
  dsimp only [Machine.execMoveCopy]
  refine h.event ?_
  split
  · trivial
  · exact .ite trivial (.ite (.some (.pushUpd (h.modPart fun _ hx => hx))) h.copyTask.setStep.pushUpd)

theorem State.MemInv.finishMove {p m} (h : s.MemInv) : (s.finishMove p m).MemInv := by
  dsimp only [State.finishMove]
  refine .releaseNet ?_
  split
  · refine .modMigt ?_
    split
    · exact h.dropMove.modSlot.modSlot
    · exact h.dropMove.modSlot
  · split
    · exact h.dropMove.modSlot.modSlot
    · exact h.dropMove.modSlot

theorem State.MemInv.failMove {p m} (h : s.MemInv) : (s.failMove p m).MemInv := by
  dsimp only [State.failMove]
  refine .releaseNet ?_
  split
  · refine .modMigt ?_
    split
    · exact h.dropMove.modSlot.modSlot
    · exact h.dropMove.modSlot
  · split
    · exact h.dropMove.modSlot.modSlot
    · exact h.dropMove.modSlot

theorem State.MemInv.execRankTableUpdateAck {p i} (h : s.MemInv) : NextOk (execRankTableUpdateAck p i s) := by
  dsimp only [Machine.execRankTableUpdateAck]
  refine h.event ?_
  split
  · trivial
  split
  · trivial
  split
  · exact .some (.modSlot (.modCtx (h.modPart fun _ hx2 => hx2)))
  split
  · exact .some (.modCtx (h.modPart fun _ hx3 => hx3))
  split
  · exact .some (.setStep (.modCtx (h.modPart fun _ hx4 => hx4)))
  · exact .some (.finishMove (.modCtx (h.modPart fun _ hx4 => hx4)))
  · exact .some (.failMove (.modCtx (h.modPart fun _ hx4 => hx4)))
  · exact .some (.modCtx (h.modPart fun _ hx4 => hx4))

/-! ### Tides and chunks (Machine/Tides) -/

theorem State.MemInv.setGroup {p g x} (h : s.MemInv) : (s.setGroup p g x).MemInv := h.modCtx

theorem State.MemInv.contribute {k sl n lanes hdr flag} (h : s.MemInv) : (s.contribute k sl n lanes hdr flag).MemInv :=
  h.modRegs.modCtx.charge.count

theorem State.MemInv.execTide {x} (h : s.MemInv) : NextOk (execTide x s) := by
  dsimp only [Machine.execTide]
  refine h.issue fun _ ht => ?_
  split
  · trivial
  · exact .ite (fun _ hu => hu) ht.contribute
  · split
    · trivial
    · exact .ite (fun _ hu => hu) ht.contribute

theorem State.MemInv.execTidewait {x} (h : s.MemInv) : NextOk (execTidewait x s) := by
  dsimp only [Machine.execTidewait]
  refine h.issue fun _ ht => ?_
  split
  · trivial
  split
  · trivial
  split
  · trivial
  split
  · exact .ite (ht.writeG fun _ hu => hu) fun _ hu => hu
  split
  · exact ht.modMe.writeG fun _ hu => hu.writeG fun _ hv => hv
  · exact ht.modMe.wrV.writeG fun _ hu => hu
  · trivial

theorem State.MemInv.askHome {m} {k : State → Word → Act} (h : s.MemInv)
    (hk : ∀ t : State, t.MemInv → ∀ n : Word, (k t n).MemOk) : (askHome s m k).MemOk := by
  dsimp only [Machine.askHome]
  split
  · exact hk _ h _
  · exact .wait fun _ ht => .ite ht ht.modCtx.modMe

theorem State.MemInv.execTideq {x} (h : s.MemInv) : NextOk (execTideq x s) := by
  dsimp only [Machine.execTideq]
  refine h.issue fun _ ht => ?_
  split
  · trivial
  split
  · exact ht.writeG fun _ hu => hu
  split
  · trivial
  · exact .ite (ht.writeG fun _ hu => hu) (ht.askHome fun _ hu _ => hu.writeG fun _ hv => hv)

theorem chunkCheck_memOk {gm} {k : ℕ → Act} (hk : ∀ a : ℕ, (k a).MemOk) : (chunkCheck s gm k).MemOk := .ite (hk _) trivial

theorem State.MemInv.execChunkinit {x} (h : s.MemInv) : NextOk (execChunkinit x s) :=
  h.issue fun _ ht => chunkCheck_memOk fun _ => ht.askHome fun _ hu _ => hu

theorem State.MemInv.execGetchunk {x} (h : s.MemInv) : NextOk (execGetchunk x s) :=
  h.issue fun _ ht => chunkCheck_memOk fun _ => ht.askHome fun _ hu _ => hu.writeG fun _ hv => hv

theorem State.MemInv.hubPop {p i} (h : s.MemInv) : (s.hubPop p i).MemInv := h.modCtx

theorem State.MemInv.orderHome {p g kind choice} (h : s.MemInv) : OrderOk (s.orderHome p g kind choice) := h.order

theorem State.MemInv.askSlot {p g f} (h : s.MemInv) : (s.askSlot p g f).MemInv := h.modField

theorem State.MemInv.askSlots {p g} (h : s.MemInv) : (s.askSlots p g).MemInv := .setGroup (h.foldl fun _ _ ht => ht.askSlot)

theorem State.MemInv.freeSlots {p g} (h : s.MemInv) : (s.freeSlots p g).MemInv := h

theorem State.MemInv.freeAll {p gone} (h : s.MemInv) : (s.freeAll p gone).MemInv := h.foldl fun _ _ ht => ht.freeSlots

theorem State.MemInv.testGroup {p g x out} (h : s.MemInv) : (s.testGroup p g x out).MemInv := by
  dsimp only [State.testGroup]
  split
  · exact h.setGroup.askSlots.modCtx.setGroup
  · exact h.setGroup.askSlots.modCtx.freeSlots.setGroup.askSlots

theorem State.MemInv.execTideContributionArrival {p i} (h : s.MemInv) : NextOk (execTideContributionArrival p i s) := by
  dsimp only [Machine.execTideContributionArrival]
  refine h.event ?_
  split
  · exact ordered_memOk h.orderHome fun _ ht => ht.hubPop.testGroup
  · trivial

theorem State.MemInv.execTideWithdrawal {p i} (h : s.MemInv) : NextOk (execTideWithdrawal p i s) := by
  dsimp only [Machine.execTideWithdrawal]
  refine h.event ?_
  split
  · exact .ite h.hubPop (ordered_memOk h.orderHome fun _ ht => ht.hubPop.testGroup)
  · trivial

theorem State.MemInv.homeReply {k sl v} (h : s.MemInv) : (s.homeReply k sl v).MemInv := h.modSlot

theorem State.MemInv.execHomeQueryRequest {p i} (h : s.MemInv) : NextOk (execHomeQueryRequest p i s) := by
  dsimp only [Machine.execHomeQueryRequest]
  refine h.event ?_
  split
  · exact h.hubPop.homeReply
  · trivial

theorem State.MemInv.execChunkRequest {p i} (h : s.MemInv) : NextOk (execChunkRequest p i s) := by
  dsimp only [Machine.execChunkRequest]
  refine h.event ?_
  split
  · exact ordered_memOk h.orderHome fun _ ht => ht.hubPop.setGroup.homeReply
  · exact ordered_memOk h.orderHome fun _ ht => ht.hubPop.setGroup.homeReply
  · trivial

theorem State.MemInv.execTideAnswerArrival {p i} (h : s.MemInv) : NextOk (execTideAnswerArrival p i s) := by
  dsimp only [Machine.execTideAnswerArrival]
  refine h.event ?_
  split
  · split
    · exact h.hubPop
    · exact h.hubPop.modSlot.charge.setEv
  · trivial

theorem State.MemInv.execTideAction {k i} (h : s.MemInv) : NextOk (execTideAction k i s) := by
  dsimp only [Machine.execTideAction]
  refine h.event ?_
  split
  · trivial
  split
  · exact ordered_memOk h.orderTag fun _ ht => ht.discard
  split
  · exact ordered_memOk h.orderTag fun _ ht => ht.discard
  · exact .ite trivial (ordered_memOk h.orderTag fun _ ht => ht.contribute.tagFinish)

/-! ### System registers (Machine/Registers) -/

theorem State.MemInv.modRail {r g} (h : s.MemInv) : (s.modRail r g).MemInv := h.modField

theorem State.MemInv.rdPart {k f} (h : s.MemInv) : (s.rdPart k f).MemOk := h

theorem State.MemInv.unitRead {lvl tsel owner now shadow ctl} (h : s.MemInv) :
    (unitRead s lvl tsel owner now shadow ctl).MemOk := by
  dsimp only [Machine.unitRead]
  split
  · split
    · exact h
    · trivial
  · exact h

theorem State.MemInv.eccRead {k} (h : s.MemInv) : (s.eccRead k).MemInv := h.modCoreRegs

theorem State.MemInv.regRead {k lvl tk tsl n} (h : s.MemInv) : (regRead s k lvl tk tsl n).MemOk := by
  unfold Machine.regRead
  repeat' with_reducible apply SysRes.MemOk.ite
  all_goals apply_rules [SysRes.MemOk.trap, SysRes.MemOk.ok, h.rdPart, h.unitRead]

theorem State.MemInv.writeLc {k sl ctr v} (h : s.MemInv) : (writeLc s k sl ctr v).MemOk := h.modRegs

theorem State.MemInv.writeStack {k sl lim v} (h : s.MemInv) : (writeStack s k sl lim v).MemOk :=
  .ite trivial (.ite trivial h.modTrap)

theorem State.MemInv.writeTst {k sl lvl v} (h : s.MemInv) : (writeTst s k sl lvl v).MemOk := .ite trivial h.modTrap

theorem State.MemInv.writeGm {k sl i v} (h : s.MemInv) : (writeGm s k sl i v).MemOk := .ite trivial h.modRegs

theorem State.MemInv.writeSlotReg {lvl k sl n v} (h : s.MemInv) : (writeSlotReg s lvl k sl n v).MemOk := by
  dsimp only [Machine.writeSlotReg]
  split
  · exact h.modTrap
  · exact h.writeTst
  · exact h.modTrap
  · exact h.modTrap
  · exact .ite trivial h.modTrap
  · exact h.modTrap
  · exact h.writeStack
  · exact h.writeStack
  · exact h.modRegs
  · exact h.writeGm
  · exact h.writeGm
  · exact h.writeGm
  · exact h.writeGm
  · exact h.writeLc
  · exact h.modRegs
  · exact h.modRegs
  · exact h.writeLc
  · exact h.modRegs
  · exact h.modRegs
  · exact h

theorem Core.wipe_memOk : c.wipe.MemOk := Core.wiped_memOk

theorem State.MemInv.retireField {f} (h : s.MemInv) : (s.retireField f).MemInv := h.modField.moduleError

theorem State.MemInv.bringSpares {f} (h : s.MemInv) : (s.bringSpares f).MemInv :=
  .modField (.foldl (h.foldl fun _ _ ht => .ite ht.modCoreRegs ht.retireField) fun _ _ ht => .ite ht.modCoreRegs ht.retireField)

theorem State.MemInv.wipeField {f} (h : s.MemInv) : (s.wipeField f).MemInv := by
  unfold State.wipeField
  extract_lets t clear stuck u
  have ht : t.MemInv := ⟨h.gmem, h.cores.mapIf fun _ _ => Core.wipe_memOk, h.parts.map fun _ hp => hp⟩
  have hu : u.MemInv := .ite ht.modField (.bringSpares ht.modField)
  exact .ite hu.moduleError hu

theorem Partition.define_memOk {v} : (Partition.define v).SavedOk := Partition.absent_savedOk

theorem State.MemInv.writePartdef {f v} (h : s.MemInv) : (writePartdef s f v).MemOk := by
  unfold Machine.writePartdef
  extract_lets w old s1 s2 s3 gone
  have h2 : s2.MemInv := .ite h.modField h.modField.wipeField
  have h3 : s3.MemInv := .ite (h2.modPart fun _ _ => Partition.define_memOk) h2
  exact .ite .trap (.ok (.ite (h3.modPart fun _ _ => Partition.absent_savedOk) h3))

theorem State.MemInv.newKey (h : s.MemInv) : s.newKey.MemInv := h

theorem State.MemInv.wipeFields {l : List Nat} (h : s.MemInv) : (l.foldl (fun s f => s.wipeField f) s).MemInv :=
  h.foldl fun _ _ ht => ht.wipeField

theorem State.MemInv.wipeModule (h : s.MemInv) : s.wipeModule.MemInv := by
  unfold State.wipeModule
  extract_lets t
  have ht : t.MemInv := h.wipeFields
  clear_value t
  exact ⟨ht.gmem, ht.cores, PartsOk.nil⟩

theorem State.MemInv.writeLcstate {v} (h : s.MemInv) : (writeLcstate s v).MemOk := by
  dsimp only [Machine.writeLcstate]
  split
  · trivial
  · exact .ok (.ite h.modMod.wipeModule.newKey (.ite h.modMod.wipeModule.modMod h.modMod.wipeModule))

theorem State.MemInv.writeReprow {f v} (h : s.MemInv) : (writeReprow s f v).MemOk := .ite trivial h.modField

theorem State.MemInv.wrPart {k} {g : Partition → Partition} {v} (h : s.MemInv)
    (hg : ∀ a : Partition, a.SavedOk → (g a).SavedOk) : (s.wrPart k g v).MemOk := by
  dsimp only [State.wrPart]
  split
  · exact .ok (h.modPart fun _ hx => hg _ hx)
  · trivial

theorem State.MemInv.wrCtx {k g v} (h : s.MemInv) : (s.wrCtx k g v).MemOk := h.wrPart fun _ ha => ha

theorem State.MemInv.writeRvote {p v} (h : s.MemInv) : (writeRvote s p v).MemOk := .ite trivial h.modCtx

theorem State.MemInv.writeQt {k i v} (h : s.MemInv) : (writeQt s k i v).MemOk := .ite trivial (h.wrPart fun _ ha => ha)

theorem State.MemInv.writeOlogctl {p v} (h : s.MemInv) : (writeOlogctl s p v).MemOk := .ite trivial h.modCtx

theorem State.MemInv.writeCntctl {k lvl v} (h : s.MemInv) : (writeCntctl s k lvl v).MemOk := by
  dsimp only [Machine.writeCntctl]
  split
  · trivial
  · exact h.modCoreRegs
  · exact h.modCoreRegs
  · exact h.modCoreRegs
  · exact h.modCoreRegs
  · exact h.modCoreRegs

theorem State.MemInv.writeSampctl {k lvl v} (h : s.MemInv) : (writeSampctl s k lvl v).MemOk := by
  dsimp only [Machine.writeSampctl]
  split
  · trivial
  · exact h.modCoreRegs
  · exact h.modCoreRegs
  · exact h.modCoreRegs
  · exact h.modCoreRegs
  · exact h.modCoreRegs

theorem State.MemInv.writeCounter {k lvl i val v} (h : s.MemInv) : (writeCounter s k lvl i val v).MemOk :=
  .ite trivial (.ite h.modCoreRegs (.ite trivial h.modCoreRegs))

theorem State.MemInv.writeWdog {k v} (h : s.MemInv) : (writeWdog s k v).MemOk := h.modCoreRegs

theorem State.MemInv.writeStrctl {k v} (h : s.MemInv) : (writeStrctl s k v).MemOk := by
  dsimp only [Machine.writeStrctl]
  split
  · trivial
  split
  next he =>
    split at he
    · exact h.restartStream.of_some he
    · exact h.endStream.of_some he
    · cases he
  · trivial

theorem State.MemInv.writeMigt {k n v} (h : s.MemInv) : (writeMigt s k n v).MemOk := h.modCoreRegs

theorem State.MemInv.writeRailctl {v} (h : s.MemInv) : (writeRailctl s v).MemOk := .ite trivial h.modRail

theorem State.MemInv.writeQshare {v} (h : s.MemInv) : (writeQshare s v).MemOk := h.modQuay

theorem State.MemInv.okMod {g} (h : s.MemInv) : (okMod s g).MemOk := h.modMod

theorem State.MemInv.regWrite {k lvl tk tsl n v} (h : s.MemInv) : (regWrite s k lvl tk tsl n v).MemOk := by
  have vote : SysRes.MemOk (match s.partOf k with | some p => Machine.writeRvote s p v | none => .trap 0x09 v) := by
    split
    · exact h.writeRvote
    · trivial
  have olog : SysRes.MemOk (match s.partOf k with | some p => Machine.writeOlogctl s p v | none => .trap 0x09 v) := by
    split
    · exact h.writeOlogctl
    · trivial
  unfold Machine.regWrite
  exact .ite h.writeSlotReg <| .ite (.ok h.modCoreRegs) <| .ite (.ok h.modCoreRegs) <| .ite h.writeWdog <| .ite h.writeStrctl <|
    .ite h.wrCtx <| .ite h.wrCtx <| .ite h.writePartdef <| .ite h.okMod <| .ite (h.wrPart fun _ hx => hx) <| .ite h.writeQt <|
    .ite h.okMod <| .ite h.writeQshare <| .ite vote <| .ite (.ite .trap h.okMod) <| .ite h.writeRailctl <|
    .ite (.ite .trap h.okMod) <| .ite h.writeMigt <| .ite (.ok h.modCoreRegs) <| .ite h.writeLcstate <| .ite h.okMod <|
    .ite (.ok h.modField) <| .ite h.writeReprow <| .ite (.ok h.modField) <| .ite (.ok h.modCoreRegs) <| .ite h.writeCntctl <|
    .ite h.writeCounter <| .ite h.writeCounter <| .ite h.writeSampctl <| .ite (.ite .trap h.wrCtx) <| .ite (.ite .trap h.okMod) <|
    .ite olog <| .ite h.wrCtx <| .ite (.ite .trap h.wrCtx) <| .ite h.wrCtx (.ok h)

/-! ### The SYS instruction (Machine/Sys) -/

theorem State.MemInv.accMfs {k lvl w tk tsl} (h : s.MemInv) : (accMfs k lvl w tk tsl s).MemOk := h.regRead

theorem State.MemInv.accMts {k lvl tsel w v tk tsl} (h : s.MemInv) : (accMts k lvl tsel w v tk tsl s).MemOk :=
  .ite trivial h.regWrite

theorem sysPlace_memOk {w write} {k : CoreId → Fin 4 → Act} (hk : ∀ (t : CoreId) (sl : Fin 4), (k t sl).MemOk) :
    (sysPlace s w write k).MemOk := by
  dsimp only [sysPlace]
  split
  · trivial
  split
  · split
    · trivial
    · split
      · exact hk _ _
      · split
        · trivial
        · exact .ite (hk _ _) (hk _ _)
  · split
    · trivial
    · split
      · exact hk _ _
      · split
        · trivial
        · exact .ite (hk _ _) (hk _ _)

theorem State.MemInv.execMfs {x} (h : s.MemInv) : NextOk (execMfs x s) :=
  h.issue fun _ ht => sysPlace_memOk fun _ _ => ht.viaTarget (fun _ hu => hu.accMfs) fun _ hu _ =>
    State.MemInv.writeG (.ite hu.eccRead hu) fun _ hv => hv

theorem State.MemInv.mtsStop {r v} (h : s.MemInv) : (mtsStop s r v).MemOk := by
  dsimp only [Machine.mtsStop]
  split
  · exact h
  split
  · exact fun _ ht => ht
  split
  · trivial
  · exact .ite trivial fun _ ht => ht.pushUpd.modMe

theorem State.MemInv.mtsDone (h : s.MemInv) : (mtsDone s).MemOk := .ite h h

theorem State.MemInv.execMts {x} (h : s.MemInv) : NextOk (execMts x s) :=
  h.issue fun _ ht => sysPlace_memOk fun _ _ => .ite ht.mtsStop (ht.viaTarget (fun _ hu => hu.accMts) fun _ hu _ => hu.mtsDone)

theorem SysErr.res_memOk {e : SysErr} : e.res.MemOk := by
  cases e <;> trivial

theorem State.MemInv.postRemote {k sl kind va d n v} (h : s.MemInv) : (s.postRemote k sl kind va d n v).MemInv :=
  h.modCore fun _ hc => hc

theorem State.MemInv.putPieces {s : State} {k sl va ds l} (h : s.MemInv) : (s.putPieces k sl va ds l).MemInv := by
  induction ds generalizing s va l with
  | nil => exact h
  | cons d ds ih => exact ih (h.postRemote.ite h.gwriteBytes)

theorem State.MemInv.sysWrite {k sl a n l} (h : s.MemInv) :
    ExceptOk (fun _ => True) State.MemInv (s.sysWrite k sl a n l) := by
  dsimp only [State.sysWrite]
  split
  · exact .ite trivial (.ok (h.modCore fun _ hc => Memory.writeBytes_wf hc _ _))
  split
  · trivial
  · exact h.putPieces

theorem Act.MemOk.sysAddr {a n} {k : Act} (hk : k.MemOk) : (sysAddr a n k).MemOk := .ite trivial (.ite trivial hk)

theorem State.MemInv.accCtxsv {k sl tsel a tk tsl} (h : s.MemInv) : (accCtxsv k sl tsel a tk tsl s).MemOk := by
  dsimp only [Machine.accCtxsv]
  split
  · trivial
  split
  · trivial
  split
  · exact SysErr.res_memOk
  next he => exact h.sysWrite.of_ok he

theorem State.MemInv.loadCmds {k sl l} (h : s.MemInv) : (s.loadCmds k sl l).MemInv := by
  dsimp only [State.loadCmds]
  split
  · exact h
  split
  · exact h
  · exact h.modCore fun _ hc => hc

theorem State.MemInv.accCtxld {k sl lvl tsel a hd tk tsl} (h : s.MemInv) : (accCtxld k sl lvl tsel a hd tk tsl s).MemOk := by
  unfold Machine.accCtxld
  extract_lets x id g
  refine .ite .trap (.ite .trap (.ite trivial ?_))
  split
  · exact SysErr.res_memOk
  · extract_lets st lace s1 s2 t s3
    have h1 : s1.MemInv := h.modSlot
    have h2 : s2.MemInv := .ite (.rest h1) h1
    have h3 : s3.MemInv := .ite (.modCore h2.modSlot.modCoreRegs fun _ hc => hc) h2
    exact .ite .trap (.ite .trap (.ok h3.loadCmds))

theorem State.MemInv.ctxsvDone (h : s.MemInv) : (ctxsvDone s).MemOk := .ite h fun _ ht => ht

theorem State.MemInv.execCtxsv {x} (h : s.MemInv) : NextOk (execCtxsv x s) := by
  dsimp only [Machine.execCtxsv]
  refine h.issue fun _ ht => ?_
  split
  · trivial
  split
  · exact ht.ctxsvDone
  · refine .sysAddr (ht.viaTarget (fun _ hu => hu.accCtxsv) fun _ hu _ => ?_)
    split
    · refine .wait fun s hs => ?_
      split
      next he => exact (hs.accCtxsv.of_ok he).modMe
      · exact hs
    · exact hu.ctxsvDone

theorem State.MemInv.execCtxld {x} (h : s.MemInv) : NextOk (execCtxld x s) := by
  dsimp only [Machine.execCtxld]
  refine h.issue fun _ ht => ?_
  split
  · trivial
  · exact .sysAddr (ht.viaTarget (fun _ hu => hu.accCtxld) fun _ hu _ => hu)

theorem State.MemInv.sramclrAct {a b} (h : s.MemInv) : (sramclrAct a b s).MemOk := by
  dsimp only [Machine.sramclrAct]
  split
  · trivial
  · exact .ite trivial (.ite h (.ite h.sramPut.setFull fun _ ht => ht.sramPut.setFull.modMe))

theorem State.MemInv.execSramclr {x} (h : s.MemInv) : NextOk (execSramclr x s) := h.issue fun _ ht => ht.sramclrAct

theorem State.MemInv.putFrame {k sl n va ls} (h : s.MemInv) : (s.putFrame k sl n va ls).MemInv :=
  .charge (h.modMem fun _ hm => hm)

theorem State.MemInv.accFrmld {a n tk tsl} (h : s.MemInv) : (accFrmld a n tk tsl s).MemOk := by
  dsimp only [Machine.accFrmld]
  split
  · trivial
  · exact h.putFrame

theorem State.MemInv.execFrmld {x} (h : s.MemInv) : NextOk (execFrmld x s) := by
  dsimp only [Machine.execFrmld]
  refine h.issue fun _ ht => ?_
  split
  · trivial
  · exact .globalCheck (ht.viaTarget (fun _ hu => hu.accFrmld) fun _ hu _ => hu)

theorem State.MemInv.accFrminv {n tk} (h : s.MemInv) : (accFrminv n tk s).MemOk := .ok (h.modMem fun _ hm => hm)

theorem State.MemInv.execFrminv {x} (h : s.MemInv) : NextOk (execFrminv x s) := by
  dsimp only [Machine.execFrminv]
  refine h.issue fun _ ht => ?_
  split
  · trivial
  · exact ht.viaTarget (fun _ hu => hu.accFrminv) fun _ hu _ => hu

theorem State.MemInv.execGrpset {x} (h : s.MemInv) : NextOk (execGrpset x s) := by
  dsimp only [Machine.execGrpset]
  refine h.issue fun _ ht => ?_
  refine .sysAddr ?_
  split
  · exact fun _ hu => hu
  split
  · trivial
  · trivial
  · split
    · exact ht.writeG fun _ hu => hu
    · split
      · exact ht.writeG fun _ hu => hu
      · exact ht.writeG fun _ hu => hu.freeSlots.setGroup

theorem State.MemInv.invalAct {kind x} (h : s.MemInv) : (invalAct kind x s).MemOk := by
  dsimp only [Machine.invalAct]
  split
  · exact .ite h fun _ ht => ht
  · trivial
  · split
    · exact fun _ ht => ht
    · split
      · trivial
      · refine .globalCheck ?_
        split
        · trivial
        · exact .ite (fun _ ht => ht) fun _ ht => .modMe ht

theorem State.MemInv.execInvalS1Page {x} (h : s.MemInv) : NextOk (execInvalS1Page x s) := h.issue fun _ ht => ht.invalAct

theorem State.MemInv.execInvalS1All {x} (h : s.MemInv) : NextOk (execInvalS1All x s) := h.issue fun _ ht => ht.invalAct

theorem State.MemInv.execInvalS2Page {x} (h : s.MemInv) : NextOk (execInvalS2Page x s) := h.issue fun _ ht => ht.invalAct

theorem State.MemInv.execInvalS2All {x} (h : s.MemInv) : NextOk (execInvalS2All x s) := h.issue fun _ ht => ht.invalAct

theorem Core.MemOk.drop {d} (hc : c.MemOk) : (c.drop d).MemOk := hc

theorem State.MemInv.execInvalDrop {i} (h : s.MemInv) : NextOk (execInvalDrop i s) := by
  dsimp only [Machine.execInvalDrop]
  refine h.event ?_
  split
  · trivial
  split
  · exact .some (h.setCores (h.cores.mapIf fun _ he => he.drop))
  split
  · trivial
  split
  · exact .some (.modSlot h)
  · exact .some (.modSlot (.ite (.postRemote h) (.gwrite h)))

theorem State.MemInv.sysAccRun {q : SysAcc} {tk tsl} (h : s.MemInv) : (q.run tk tsl s).MemOk := by
  dsimp only [SysAcc.run]
  split
  · exact h.accEret
  · exact h.accMfs
  · exact h.accMts
  · exact h.accCtxsv
  · exact h.accCtxld
  · exact h.accFrmld
  · exact h.accFrminv
  · trivial

theorem State.MemInv.sysReply {q r} (h : s.MemInv) : (s.sysReply q r).MemInv := h.modSlot

theorem State.MemInv.execSysRemoteAccess {i} (h : s.MemInv) : NextOk (execSysRemoteAccess i s) := by
  dsimp only [Machine.execSysRemoteAccess]
  refine h.event ?_
  split
  · trivial
  split
  · exact .some (.sysReply h)
  split
  · trivial
  next he => exact .some (.sysReply ((State.MemInv.sysAccRun (.rest h)).of_ok he))
  · exact .some (.sysReply h)
  · exact .some (.sysReply h)

theorem State.MemInv.regEvent {r : SysRes} (h : s.MemInv) (hr : r.MemOk) : NextOk (regEvent s r) := by
  dsimp only [Machine.regEvent]
  refine h.event ?_
  split
  · exact hr
  · trivial

theorem State.MemInv.execStopEntryWrite {p r v} (h : s.MemInv) : NextOk (execStopEntryWrite p r v s) :=
  h.event (.ite trivial h.pushUpd)

theorem State.MemInv.execEccstatRead {k} (h : s.MemInv) : NextOk (execEccstatRead k s) := h.event h.eccRead

theorem State.MemInv.execWatchdog {k sl} (h : s.MemInv) : NextOk (execWatchdog k sl s) := by
  dsimp only [Machine.execWatchdog]
  refine h.event ?_
  split
  · trivial
  split
  · exact h.defer
  · exact h.defer
  · exact h.defer
  · trivial

/-! ### Launches (Machine/Launches) -/

theorem State.MemInv.chargeVa {s : State} {c vf acc va m n} (h : s.MemInv) : (s.chargeVa c vf acc va m n).MemInv := by
  induction n generalizing s va m with
  | zero => exact h
  | succ n ih =>
    simp only [State.chargeVa]
    split
    · exact h
    split
    · exact h
    · exact ih h.chargeQuay

theorem State.MemInv.chargeVas {c vf acc l} (h : s.MemInv) : (s.chargeVas c vf acc l).MemInv :=
  h.foldl fun _ _ ht => ht.chargeVa

theorem State.MemInv.hubWrite {p d v} (h : s.MemInv) : (s.hubWrite p d v).MemInv := .ite h.gwrite (.ite h h.sendFrame)

theorem State.MemInv.writeStatus {p c vf k w} (h : s.MemInv) : (s.writeStatus p c vf k w).MemInv := by
  dsimp only [State.writeStatus]
  split
  · exact h
  split
  · exact h
  · exact h.hubWrite.chargeQuay

theorem State.MemInv.answerSpawn {src w} (h : s.MemInv) : (s.answerSpawn src w).MemInv := by
  dsimp only [State.answerSpawn]
  split
  · exact h.modSlot
  · exact h

theorem State.MemInv.watchDep {p vf num k} (h : s.MemInv) : (s.watchDep p vf num k).MemInv := by
  dsimp only [State.watchDep]
  split
  · exact h
  split
  · exact h
  · exact h

theorem State.MemInv.dropDep {p vf num} (h : s.MemInv) : (s.dropDep p vf num).MemInv := h

theorem State.MemInv.takePacket {p src vf bytes} (h : s.MemInv) : (s.takePacket p src vf bytes).MemInv := by
  dsimp only [State.takePacket]
  split
  · exact .answerSpawn (.writeStatus (.modVf (.ite h h.chargeVas)))
  · exact .answerSpawn (.writeStatus (.watchDep (.modPart (.modVf (.ite h h.chargeVas)) fun _ hx => hx)))

theorem State.MemInv.execLaunchPacket {p} (h : s.MemInv) : NextOk (execLaunchPacket p s) :=
  h.event (.ite trivial (.bind fun _ => .map fun _ => .takePacket (h.modPart fun _ hx => hx)))

theorem State.MemInv.execLaunchApertureWrite {vf part off bytes} (h : s.MemInv) :
    NextOk (execLaunchApertureWrite vf part off bytes s) :=
  h.event (.ite trivial (.ite h (.ite h.modVf (.some (h.modPart fun _ hx => hx)))))

theorem State.MemInv.modLaunch {p vf num f} (h : s.MemInv) : (s.modLaunch p vf num f).MemInv := h.modPart fun _ hx => hx

theorem State.MemInv.execDependenceSatisfied {p i} (h : s.MemInv) : NextOk (execDependenceSatisfied p i s) := by
  dsimp only [Machine.execDependenceSatisfied]
  refine h.event ?_
  split
  · trivial
  split
  · trivial
  split
  · exact h.modLaunch.dropDep
  split
  · trivial
  · exact .ite h.modLaunch.dropDep trivial

theorem Core.load_memOk {ms h i frames} : (c.load ms h i frames).MemOk := Memory.ofBytes_wf _ _

theorem State.MemInv.putGroups {p y ts} (h : s.MemInv) : (s.putGroups p y ts).MemInv := h.foldl fun _ _ ht => ht.setGroup

theorem State.MemInv.placeLaunch {a : Bool} {p place seg kind obj choice} (h : s.MemInv) :
    OrderOk (if a then s.order p place seg kind obj choice else .ok s) := by
  split
  · exact h.order
  · exact h

theorem State.MemInv.execLaunchPlace {p} (h : s.MemInv) : NextOk (execLaunchPlace p s) := by
  dsimp only [Machine.execLaunchPlace]
  refine h.event (.ite trivial ?_)
  split
  · trivial
  split
  · trivial
  split
  next he => exact h.placeLaunch.of_error he
  next he =>
    exact .some (.releaseNet (.modLaunch (.foldl (h.placeLaunch.of_ok he).chargeVas.chargeVas.putGroups
      fun _ _ ht => ht.modCore fun _ _ => Core.load_memOk)))

theorem State.MemInv.startCore {l y ts k} (h : s.MemInv) : (s.startCore l y ts k).MemInv := h.foldl fun _ _ ht => ht.modSlot

theorem State.MemInv.execLaunchStart {p i} (h : s.MemInv) : NextOk (execLaunchStart p i s) := by
  dsimp only [Machine.execLaunchStart]
  refine h.event ?_
  split
  · trivial
  · exact .ite trivial (.some (.modLaunch (h.foldl fun _ _ ht => ht.startCore)))

theorem Core.MemOk.free {vf num} (hc : c.MemOk) : (c.free vf num).MemOk := by
  dsimp only [Core.free]
  split
  · exact .ite hc hc
  · exact hc

theorem State.MemInv.endLaunch {p vf num} (h : s.MemInv) : (s.endLaunch p vf num).MemInv :=
  .modPart (.dropDep (.modCtx (.freeAll ⟨h.gmem, h.cores.map fun _ he => he.free, h.parts⟩))) fun _ hx => hx

theorem State.MemInv.doneAdd {p vf k} (h : s.MemInv) : (s.doneAdd p vf k).MemInv := by
  dsimp only [State.doneAdd]
  split
  · exact h
  split
  · exact h.plainNotice
  · exact h.hubWrite.chargeQuay

theorem State.MemInv.execLaunchComplete {p i} (h : s.MemInv) : NextOk (execLaunchComplete p i s) := by
  dsimp only [Machine.execLaunchComplete]
  refine h.event ?_
  split
  · trivial
  · exact .ite trivial (.ite trivial (.ite trivial h.endLaunch.doneAdd))

/-! ### The tensor unit (Machine/Tensor) -/

theorem State.MemInv.pushFlit {k q f} (h : s.MemInv) : (s.pushFlit k q f).MemInv := h.modUnits

theorem State.MemInv.sendFlit {k e f} (h : s.MemInv) : (s.sendFlit k e f).MemInv := h.cross.modCoreRegs.pushFlit

theorem State.MemInv.takeFlit {k t e} (h : s.MemInv) : (s.takeFlit k t e).MemInv := by
  dsimp only [State.takeFlit]
  split
  · exact h
  · exact .ite h.modUnits.sendFlit h.modUnits

/-! ### Matrix instructions (Machine/Matrix) -/

theorem heldTile_memOk {n} {k : Tile → Act} (hk : ∀ a : Tile, (k a).MemOk) : (heldTile s n k).MemOk := .ite (hk _) trivial

theorem State.MemInv.execMcfg {x} (h : s.MemInv) : NextOk (execMcfg x s) :=
  h.issue fun _ ht => .ite trivial (.ite trivial (.ite trivial (.ite (fun _ hu => hu) ht.modUnits)))

theorem State.MemInv.execMrun {x} (h : s.MemInv) : NextOk (execMrun x s) :=
  h.issue fun _ ht => heldTile_memOk fun _ =>
    .ite trivial (.ite trivial (counterWord_memOk fun _ => ht.syncIssue fun _ hu => hu.modUnits))

theorem Act.MemOk.feedCheck {t gd ga a nb} {k : Act} (hk : k.MemOk) : (feedCheck t gd ga a nb s k).MemOk := by
  dsimp only [Machine.feedCheck]
  split
  · trivial
  · exact .ite trivial (.ite trivial (.ite trivial (.ite trivial (.ite trivial (.ite trivial hk)))))

theorem State.MemInv.execMfeed {x} (h : s.MemInv) : NextOk (execMfeed x s) :=
  h.issue fun _ ht => heldTile_memOk fun _ =>
    .ite trivial (.feedCheck (counterWord_memOk fun _ => ht.syncIssue fun _ hu => hu.modUnits))

theorem State.MemInv.execMzero {x} (h : s.MemInv) : NextOk (execMzero x s) :=
  h.issue fun _ ht => heldTile_memOk fun _ => .ite (fun _ hu => hu) ht.modUnits

theorem State.MemInv.execMload {x} (h : s.MemInv) : NextOk (execMload x s) :=
  h.issue fun _ ht => heldTile_memOk fun _ => areaCheck_memOk fun _ =>
    .ite (fun _ hu => hu) (ht.readLocal fun _ hu _ => hu.modUnits.setMyFlags)

theorem State.MemInv.execMdrainVector {x} (h : s.MemInv) : NextOk (execMdrainVector x s) :=
  h.issue fun _ ht => heldTile_memOk fun _ => .ok (.ite ht.wrV.modUnits ht.wrV)

theorem State.MemInv.execMdrainSram {x} (h : s.MemInv) : NextOk (execMdrainSram x s) :=
  h.issue fun _ ht => heldTile_memOk fun _ => areaCheck_memOk fun _ =>
    .ok (.ite (.modUnits (.ite ht.sramPut.setFull ht.sramPut)) (.ite ht.sramPut.setFull ht.sramPut))

theorem State.MemInv.execMstat {x} (h : s.MemInv) : NextOk (execMstat x s) :=
  h.issue fun _ ht => heldTile_memOk fun _ => ht.writeG fun _ hu => hu

theorem State.MemInv.sourceFails {k sl d o} (h : s.MemInv) : (s.sourceFails k sl d o).MemInv :=
  .complete (.defer (h.modCore fun _ hc => hc.setSF))

theorem State.MemInv.setFeeds {k e l} (h : s.MemInv) : (s.setFeeds k e l).MemInv := h.modUnits

theorem State.MemInv.closeFeed {k e f mark} (h : s.MemInv) : (s.closeFeed k e f mark).MemInv := .ite h.pushFlit h

theorem State.MemInv.feedTurn {k e} (h : s.MemInv) : OptionOk State.MemInv (s.feedTurn k e) := by
  unfold State.feedTurn
  extract_lets q c
  split
  · trivial
  refine .ite trivial ?_
  split
  · exact .ite trivial (.some h.setFeeds.pushFlit)
  refine .ite trivial (.ite (.ite (.some h.closeFeed.setFeeds) trivial) ?_)
  extract_lets t sb n next b o hd bad
  have hnext (u : State) (els l : List Byte) (hu : u.MemInv) : (next u els l).MemInv := hu.setFeeds.modUnits
  clear_value next bad
  refine .ite (.ite trivial (hnext _ _ _ (h.setCore h.core.berthTake))) ?_
  split
  · exact .some h.closeFeed.setFeeds.sourceFails
  · exact ordered_memOk h.orderEngine fun _ hu => hnext _ _ _ (hu.modCore fun _ hc => hc.correct.correct)

theorem State.MemInv.execMfeedComplete {k e} (h : s.MemInv) : NextOk (execMfeedComplete k e s) := by
  dsimp only [Machine.execMfeedComplete]
  refine h.event ?_
  split
  · trivial
  · exact .ite trivial (ordered_memOk h.orderSignal fun _ ht => ht.setFeeds.complete)

theorem State.MemInv.drainFlits {a b : Bool} {k t} (h : s.MemInv) :
    State.MemInv (let u := if a then s.takeFlit k t 0 else s; if b then u.takeFlit k t 1 else u) := by
  have hu {p : Prop} [Decidable p] : State.MemInv (if p then s.takeFlit k t 0 else s) := .ite h.takeFlit h
  exact .ite hu.takeFlit hu

theorem State.MemInv.execOperandPairTake {k} (h : s.MemInv) : NextOk (execOperandPairTake k s) := by
  unfold Machine.execOperandPairTake
  refine h.event ?_
  split
  · trivial
  extract_lets u t can s1
  refine .ite trivial (.ite (.ite (.some h.drainFlits) trivial) ?_)
  split
  · trivial
  · exact .ite trivial (.some (h.takeFlit.takeFlit.modUnits.charge.count))

theorem State.MemInv.execScaleTokenTake {k e} (h : s.MemInv) : NextOk (execScaleTokenTake k e s) := by
  unfold Machine.execScaleTokenTake
  extract_lets i
  refine h.event ?_
  split
  · trivial
  extract_lets t put f
  split
  · trivial
  extract_lets t1
  have hput (u : State) (r : Run) (t : Tile) (hu : u.MemInv) : (put u r t).MemInv := hu.takeFlit.modUnits
  exact .ite trivial (.ite (.some (hput _ _ _ h)) (.ite (.some (hput _ _ _ h))
    (.ite (ordered_memOk h.orderEngine fun _ hu => (hput _ _ _ hu).charge) (.some (hput _ _ _ h)))))

theorem State.MemInv.execMrunComplete {k} (h : s.MemInv) : NextOk (execMrunComplete k s) := by
  dsimp only [Machine.execMrunComplete]
  refine h.event ?_
  split
  · trivial
  refine .ite trivial (ordered_memOk
    (h.orderAll (.cons (fun _ ht => ht.orderEngine) (.cons (fun _ ht => ht.orderSignal) .nil))) fun _ ht => .complete ?_)
  split
  · exact .defer (ht.modUnits.setFlags.modCore fun _ hc => hc.setSF)
  · exact .ite ht.modUnits.setFlags ht.modUnits.setFlags.charge

/-! ### Pre-emption (Machine/Preempt) -/

theorem State.MemInv.latchQt {p} (h : s.MemInv) : (s.latchQt p).MemInv := h.modPart fun _ hx => hx

theorem State.MemInv.modRails {p g} (h : s.MemInv) : (s.modRails p g).MemInv := h.foldl fun _ _ ht => ht.modField

theorem State.MemInv.beginPreempt {p next why} (h : s.MemInv) : (s.beginPreempt p next why).MemInv :=
  .ite h (.modCtx (h.modRails.modPart fun _ hx => hx))

theorem State.MemInv.stopFeed {k e} (h : s.MemInv) : (s.stopFeed k e).MemInv := by
  dsimp only [State.stopFeed]
  split
  · exact h
  · exact .ite h.closeFeed.setFeeds h

theorem State.MemInv.execPreemptPhase1 {p} (h : s.MemInv) : NextOk (execPreemptPhase1 p s) := by
  dsimp only [Machine.execPreemptPhase1]
  refine h.event ?_
  split
  · exact .ite trivial h.beginPreempt
  · exact .ite trivial (.some (.modPart (h.foldl fun _ _ ht => ht.stopFeed.stopFeed) fun _ hx => hx))
  · trivial

theorem Core.MemOk.kill {vf num} (hc : c.MemOk) : (c.kill vf num).MemOk := .ite Core.wiped_memOk hc

theorem State.MemInv.killLaunch {p vf num} (h : s.MemInv) : (s.killLaunch p vf num).MemInv :=
  .endLaunch ⟨h.gmem, h.cores.map fun _ he => he.kill, h.parts⟩

theorem State.MemInv.killEnded {p} (h : s.MemInv) : (s.killEnded p).MemInv :=
  .modPart (h.foldl fun _ _ ht => ht.killLaunch) fun _ hx => hx

theorem State.MemInv.endWatches {p} (h : s.MemInv) : (s.endWatches p).MemInv :=
  h.foldl fun _ _ ht => ht.foldl fun _ _ hu => hu.endWatch

theorem State.MemInv.execPreemptPhase2 {p} (h : s.MemInv) : NextOk (execPreemptPhase2 p s) := by
  dsimp only [Machine.execPreemptPhase2]
  refine h.event ?_
  split
  · trivial
  · exact .some (.modPart (.killEnded (.foldl (.endWatches h) fun _ _ ht => ht.modCore fun _ hc => hc)) fun _ hx => hx)

theorem State.MemInv.slotImages {s : State} {c l} (h : s.MemInv) : (s.slotImages c l).1.MemInv := by
  induction l generalizing s with
  | nil => exact h
  | cons n l ih => exact ih (h.ite h)

theorem State.MemInv.saveCore {p vf c k} (h : s.MemInv) : (s.saveCore p vf c k).MemInv :=
  .saveBytes (.rest h.slotImages)

theorem State.MemInv.saveHub {p vf c f} (h : s.MemInv) : (s.saveHub p vf c f).MemInv := .saveBytes h

theorem State.MemInv.flushFlags {k} (h : s.MemInv) : (s.flushFlags k).MemInv := by
  dsimp only [State.flushFlags]
  refine .modCore ?_ fun _ hc => hc
  refine .foldl ?_ fun _ _ ht => ?_
  · refine .modUnits ?_
    refine .foldl ?_ fun _ _ ht => ht.setFlags
    split
    · exact h
    · exact h.setFlags.modUnits
  · split
    · exact ht.setFlags
    · exact ht

theorem Core.leave_memOk : c.leave.MemOk := Core.wiped_memOk

theorem Core.MemOk.context (hc : c.MemOk) : c.context.MemOk := hc

theorem State.MemInv.dropWaits {p} (h : s.MemInv) : (s.dropWaits p).MemInv := by
  dsimp only [State.dropWaits]
  refine .rest ?_
  refine .modPart ?_ fun _ hx => hx
  refine .foldl (h.foldl fun _ _ ht => ht.modSlot) fun _ _ ht => ?_
  split
  · exact ht.modCoreRegs
  · exact ht

theorem State.MemInv.saveAll {p} (h : s.MemInv) : (s.saveAll p).MemInv := by
  unfold State.saveAll
  extract_lets x vf ks s1 s2 s3 kept s4 slots s5 s6
  have h1 : s1.MemInv := .dropWaits (h.foldl fun _ _ ht => ht.flushFlags)
  have h2 : s2.MemInv := h1.foldl fun _ _ ht => ht.saveCore
  have h3 : s3.MemInv := h2.foldl fun _ _ ht => ht.saveHub
  have hk : CoresOk kept := .of_map fun _ => h3.core.context
  have h4 : s4.MemInv := h3.foldl fun _ _ ht => ht.modCore fun _ _ => Core.leave_memOk
  have h5 : s5.MemInv := h4.foldl fun _ _ ht => ht.modField
  exact .modPart h5.modRails fun _ hx => SavesOk.mset hx hk

theorem State.MemInv.execPreemptPhase3 {p} (h : s.MemInv) : NextOk (execPreemptPhase3 p s) :=
  h.event (.ite trivial h.killEnded.saveAll)

theorem CoreMem.SramOk.restore {m : CoreMem} {l} (hm : m.SramOk) : (m.restore l).SramOk := hm

theorem Core.MemOk.loadSram {o : Option (List Byte)} (hc : c.MemOk) :
    Core.MemOk (match o with
      | some l => { c with mem := { c.mem with sram := Memory.writeBytes [] 0 l } }
      | none => c) := by
  cases o
  · exact hc
  · exact Memory.ofBytes_wf _ _

theorem Core.MemOk.loadSlots {o : Option (List Byte)} {f : List Byte → Vector Slot 4} (hc : c.MemOk) :
    Core.MemOk (match o with | some l => { c with slots := f l } | none => c) := by
  cases o <;> exact hc

theorem Core.MemOk.readBack {p vf x k} (hc : c.MemOk) : (s.readBack p vf x k c).MemOk := by
  dsimp only [State.readBack]
  split
  · exact hc.loadSram.loadSlots
  · exact hc.loadSram.loadSlots

theorem Core.MemOk.enter {now : Core} (hc : c.MemOk) : (now.enter c).MemOk := hc

theorem State.MemInv.appendOverflow {p} (h : s.MemInv) : (s.appendOverflow p).MemInv :=
  .modCtx (h.foldl fun _ _ ht => ht.modCore fun _ hc => .settle hc)

theorem State.MemInv.resumeNotices {p vf} (h : s.MemInv) : (s.resumeNotices p vf).MemInv :=
  .modPart (.notifyAll (h.foldl fun _ _ ht => ht.notifyAll)) fun _ hx => hx

theorem State.MemInv.readBack_saved {p vf x} {y : PartCtx × List (Nat × Core)} (h : s.MemInv)
    (hy : mget (s.part p).saved vf = some y) : CoresOk (y.2.map fun (z : Nat × Core) => (z.1, s.readBack p vf x z.1 z.2)) := by
  intro e he
  obtain ⟨z, hz, rfl⟩ := List.mem_map.1 he
  exact Core.MemOk.readBack (h.part _ (mem_of_mget hy) z hz)

theorem State.MemInv.enterCores {l : List (Nat × Core)} (h : s.MemInv) (hl : CoresOk l) :
    (l.foldl (fun s y => s.modCore y.1 fun c => c.enter { y.2 with regs := y.2.regs.arrive s.regs.evver }) s).MemInv :=
  List.foldlRecOn l _ h fun _ ht e he => ht.modCore fun _ _ => Core.MemOk.enter (hl e he)

theorem State.MemInv.savedCores {p vf : Nat} {x : PartCtx} (h : s.MemInv) :
    CoresOk (match mget (s.part p).saved vf with
      | some y => y.2.map fun (z : Nat × Core) => (z.1, s.readBack p vf x z.1 z.2)
      | none => []) := by
  split
  next he => exact h.readBack_saved he
  · exact fun _ h => nomatch h

theorem State.MemInv.enterVf {p vf e} (h : s.MemInv) : (s.enterVf p vf e).MemInv := by
  unfold State.enterVf
  extract_lets x back ctx cores s1 s2 s3 s4 s5 s6 s7
  have hc : CoresOk cores := h.savedCores
  have h1 : s1.MemInv := h.modPart fun _ hx => SavesOk.filter hx
  have h2 : s2.MemInv := h1.enterCores hc
  have h3 : s3.MemInv := .foldl h2 fun _ _ ht => .modMem ht fun _ hm => hm
  have h4 : s4.MemInv := .foldl h3 fun _ _ ht => ht.modField
  have h5 : s5.MemInv := .foldl h4 fun _ _ ht => ht.modField
  have h7 : s7.MemInv := .releaseNet (.appendOverflow (.modVf h5))
  exact .ite h7.resumeNotices h7

theorem State.MemInv.execPreemptResume {p vf} (h : s.MemInv) : NextOk (execPreemptResume p vf s) := by
  dsimp only [Machine.execPreemptResume]
  refine h.event ?_
  split
  · trivial
  · exact .ite trivial h.enterVf

theorem State.MemInv.execScancfg {x} (h : s.MemInv) : NextOk (execScancfg x s) :=
  h.issue fun _ ht => .ite trivial (.ite trivial (.ite (fun _ hu => hu) ht.modUnits))

/-! ### The scan unit (Machine/ScanUnit) -/

theorem Act.MemOk.scanRec {h es n} {k : Act} (hk : k.MemOk) : (scanRec h es n k).MemOk := .ite trivial (.ite trivial hk)

theorem State.MemInv.execScan {x} (h : s.MemInv) : NextOk (execScan x s) := by
  dsimp only [Machine.execScan]
  refine h.issue fun _ ht => ?_
  split
  · trivial
  · exact .scanRec (.scanRec (.scanRec (.scanRec (counterWord_memOk fun _ => ht.syncIssue fun _ hu =>
      .ok (hu.modCore fun _ hc => .pullBerths hc)))))

theorem scanstArea_memOk {a} {k : ℕ → ℕ → Act} (hk : ∀ m n : ℕ, (k m n).MemOk) : (scanstArea a s k).MemOk :=
  .ite trivial (areaCheck_memOk fun _ => .ite (fun _ ht => ht) (hk _ _))

theorem State.MemInv.execScanstSave {x} (h : s.MemInv) : NextOk (execScanstSave x s) :=
  h.issue fun _ ht => scanstArea_memOk fun _ _ => ht.sramPut

theorem State.MemInv.execScanstLoad {x} (h : s.MemInv) : NextOk (execScanstLoad x s) :=
  h.issue fun _ ht => scanstArea_memOk fun _ _ => ht.readLocal fun _ hu _ => hu.modUnits

theorem State.MemInv.putY {k r t ys} (h : s.MemInv) : (s.putY k r t ys).MemInv :=
  .ite (h.foldl fun _ _ hu => hu.sramPut) (h.modCore fun _ hc => hc.berthOut)

theorem State.MemInv.scanAfter {k r rest m cost y fl} (h : s.MemInv) : (s.scanAfter k r rest m cost y fl).MemInv :=
  h.modCore fun _ hc => .pullBerths hc

theorem State.MemInv.scanRun {k r rest m cost cls per f} (h : s.MemInv) : (s.scanRun k r rest m cost cls per f).MemInv := by
  dsimp only [State.scanRun]
  split
  · exact h.modUnits.setFlags.sourceFails
  · exact .charge (.scanAfter (.foldl (h.modCore fun _ hc => hc.foldl fun _ _ hd => hd.correct) fun _ _ ht => ht.putY))

theorem State.MemInv.scanOrder {k r} (h : s.MemInv) : OrderOk (s.scanOrder k r) :=
  h.orderAll (.append (.map fun _ _ ht => ht.orderEngine) (.ite (.cons (fun _ ht => ht.orderEngine) .nil) .nil))

theorem State.MemInv.execScanChunk {k} (h : s.MemInv) : NextOk (execScanChunk k s) := by
  dsimp only [Machine.execScanChunk]
  refine h.event ?_
  split
  · trivial
  · exact .ite trivial (ordered_memOk h.scanOrder fun _ ht => ht.scanRun)

theorem State.MemInv.execScanStep {k} (h : s.MemInv) : NextOk (execScanStep k s) := by
  dsimp only [Machine.execScanStep]
  refine h.event ?_
  split
  · trivial
  · exact .ite trivial (ordered_memOk h.scanOrder fun _ ht => ht.scanRun)

theorem State.MemInv.execScanComplete {k} (h : s.MemInv) : NextOk (execScanComplete k s) := by
  dsimp only [Machine.execScanComplete]
  refine h.event ?_
  split
  · trivial
  split
  · trivial
  · exact ordered_memOk h.orderSignal fun _ ht => .complete (.setFlags (ht.modCore fun _ hc => .pullBerths hc))

/-! ### Metering, votes and heat (Machine/Energy) -/

theorem State.MemInv.markMeters {f} (h : s.MemInv) : (s.markMeters f).MemInv := by
  dsimp only [State.markMeters]
  refine .modField ?_
  refine ⟨h.gmem, ?_, h.parts⟩
  · refine h.cores.map fun _ he => ?_
    split
    · exact he
    · exact he

theorem State.MemInv.hubAdds {f cs} (h : s.MemInv) : (s.hubAdds f cs).MemInv := h

theorem State.MemInv.hubFlits {f} (h : s.MemInv) : (s.hubFlits f).MemInv := by
  dsimp only [State.hubFlits]
  split
  · exact h
  · exact .ite h.fresh h.fresh.modField

theorem State.MemInv.sliceBoundary {p} (h : s.MemInv) : (s.sliceBoundary p).MemInv := by
  dsimp only [State.sliceBoundary]
  split
  · exact .ite (h.latchQt.modPart fun _ hx => hx) h
  split
  · exact h
  split
  · exact h.modPart fun _ hx => hx
  split
  · exact h.latchQt.modPart fun _ hx => hx
  · exact .ite (h.latchQt.modPart fun _ hx => hx) (.beginPreempt (h.latchQt.modPart fun _ hx => hx))

theorem State.MemInv.execMeteringBoundary {f energy} (h : s.MemInv) : NextOk (execMeteringBoundary f energy s) := by
  unfold Machine.execMeteringBoundary
  refine h.event (.ite trivial ?_)
  extract_lets t vs cs n s1 s2 s3 s4
  have h1 : s1.MemInv := .ite h h
  have h4 : s4.MemInv := h1.markMeters.hubAdds.modField.hubFlits
  split
  · exact h4
  · exact .some (.ite h4.sliceBoundary h4)

theorem State.MemInv.exhaust {vf bal p} (h : s.MemInv) : (s.exhaust vf bal p).MemInv := by
  dsimp only [State.exhaust]
  split
  · split
    · exact .beginPreempt (h.modPart fun _ hx => hx)
    · exact .ite (.modPart (h.modPart fun _ hx => hx) fun _ hx => hx) (h.modPart fun _ hx => hx)
  · exact h

theorem State.MemInv.execBalanceAddReturn {i} (h : s.MemInv) : NextOk (execBalanceAddReturn i s) := by
  unfold Machine.execBalanceAddReturn
  refine h.event ?_
  split
  · trivial
  extract_lets d s1 s2
  have h1 : s1.MemInv := h
  have h2 : s2.MemInv := by
    dsimp only [s2]
    split
    · exact h1.gwrite
    · exact h1
  split
  · exact h2
  · exact .some (.ite (h2.gwrite.foldl fun _ _ ht => ht.exhaust) h2.gwrite)

theorem State.MemInv.execQuayGrantWindow {q demand} (h : s.MemInv) : NextOk (execQuayGrantWindow q demand s) :=
  h.event (.ite trivial h.modQuay)

theorem State.MemInv.notifyVfs {p cause taddr} (h : s.MemInv) : (s.notifyVfs p cause taddr).MemInv :=
  h.notifyAll.modPart fun _ hx => hx

theorem State.MemInv.execMemoryThrottleReport {q b} (h : s.MemInv) : NextOk (execMemoryThrottleReport q b s) :=
  h.event (.ite trivial (.some (.ite h.modQuay (h.modQuay.foldl fun _ _ ht => ht.notifyVfs))))

theorem State.MemInv.execDevloadResponse {q severe} (h : s.MemInv) : NextOk (execDevloadResponse q severe s) :=
  h.event (.ite trivial h.modQuay)

theorem State.MemInv.execDevloadRestore {q} (h : s.MemInv) : NextOk (execDevloadRestore q s) :=
  h.event (.ite trivial h.modQuay)

theorem State.MemInv.execRailVoteUpdate {r} (h : s.MemInv) : NextOk (execRailVoteUpdate r s) :=
  h.event (.ite trivial (.ite trivial h.modRail))

theorem State.MemInv.addTokens {k n} (h : s.MemInv) : (s.addTokens k n).MemInv := h.modUnits

theorem State.MemInv.noteStarved {k} (h : s.MemInv) : (s.noteStarved k).MemInv := h.modUnits

theorem State.MemInv.floorPass {s : State} {l left} (h : s.MemInv) : (s.floorPass l left).1.MemInv := by
  induction l generalizing s left with
  | nil => exact h
  | cons k l ih =>
    simp only [State.floorPass]
    split
    · exact ih h
    split
    · exact ih h
    · exact ih h.addTokens

theorem State.MemInv.execTokenRefill {r} (h : s.MemInv) : NextOk (execTokenRefill r s) := by
  dsimp only [Machine.execTokenRefill]
  refine h.event ?_
  split
  · trivial
  · exact .some (.foldl (h.floorPass.foldl fun _ _ ht => ht.addTokens) fun _ _ ht => ht.noteStarved.modUnits)

theorem State.MemInv.migrateReqs {sn} (h : s.MemInv) : (s.migrateReqs sn).MemInv :=
  h.foldl fun _ _ ht => ht.foldl fun _ _ hu => .ite hu hu.notify

theorem State.MemInv.thermal {sn t code} (h : s.MemInv) : (s.thermal sn t code).MemInv :=
  .plainNotice (h.foldl fun _ _ hu => hu.plainNotice)

theorem State.MemInv.setLevel {sn l} (h : s.MemInv) : (s.setLevel sn l).MemInv := h

theorem State.MemInv.heatRow {sn t} (h : s.MemInv) : OptionOk State.MemInv (s.heatRow sn t) := by
  dsimp only [State.heatRow]
  split
  · exact .ite h.setLevel.migrateReqs trivial
  · exact .ite h.setLevel.thermal (.ite h.setLevel trivial)
  · exact .ite h.setLevel.thermal trivial

theorem State.MemInv.heatRows {s : State} {sn t n} (h : s.MemInv) : (s.heatRows sn t n).MemInv := by
  induction n generalizing s with
  | zero => exact h
  | succ n ih =>
    simp only [State.heatRows]
    split
    next he => exact ih (h.heatRow.of_some he)
    · exact h

theorem State.MemInv.stopFor {p f} (h : s.MemInv) : (s.stopFor p f).MemInv := .beginPreempt (h.modPart fun _ hx => hx)

theorem State.MemInv.sendNotices {s : State} {k n} (h : s.MemInv) : (s.sendNotices k n).MemInv := by
  induction n generalizing s with
  | zero => exact h
  | succ n ih =>
    simp only [State.sendNotices]
    split
    · exact h
    split
    · exact h
    · exact ih h.inject

theorem State.MemInv.tellManager {k cause taddr} (h : s.MemInv) : (s.tellManager k cause taddr).MemInv := h

theorem State.MemInv.stopRail {o : Option Nat} {r : Nat} (h : s.MemInv) :
    State.MemInv (match o with
      | none => s
      | some p => (s.stopFor p (onRail r)).modPart p fun x =>
        { x with moves := x.moves.filter fun m => !(onRail r m.core || onRail r m.toCore) }) := by
  split
  · exact h
  · exact h.stopFor.modPart fun _ hx => hx

theorem State.MemInv.sendAllNotices {l : List CoreId} (h : s.MemInv) :
    (l.foldl (fun s k => s.sendNotices k (s.core k).inj.length) s).MemInv :=
  h.foldl fun _ _ ht => ht.sendNotices

theorem State.MemInv.tripRail {r sn t} (h : s.MemInv) : (s.tripRail r sn t).MemInv := by
  unfold State.tripRail
  extract_lets u v _ w x
  have hv : v.MemInv := h.stopRail.sendAllNotices
  clear_value v
  have hw : w.MemInv := ⟨hv.gmem, hv.cores.mapIf fun _ _ => Core.wiped_memOk, hv.parts⟩
  exact .tellManager (.modRail hw.modField)

theorem State.MemInv.execSensorRead {sn t} (h : s.MemInv) : NextOk (execSensorRead sn t s) :=
  h.event (.ite trivial (.some (.ite (.tripRail (.heatRows h)) (.heatRows h))))

theorem State.MemInv.execRailRepower {r} (h : s.MemInv) : NextOk (execRailRepower r s) := by
  dsimp only [Machine.execRailRepower]
  refine h.event ?_
  split
  · trivial
  · exact .some (.modRail (h.sendAllNotices.setCores (h.sendAllNotices.cores.mapIf fun _ _ => Core.wipe_memOk)))

/-! ### Reliability and bring-up (Machine/Health) -/

theorem State.MemInv.stopLink {a b} (h : s.MemInv) : (s.stopLink a b).MemInv := h

theorem State.MemInv.linkLost {f ps g} (h : s.MemInv) : (s.linkLost f ps g).MemInv :=
  h.moduleError.foldl fun _ _ ht => ht.stopFor

theorem State.MemInv.hubLinkFails {f g l} (h : s.MemInv) : (s.hubLinkFails f g l).MemInv :=
  .ite h.modField h.modField.modField.linkLost

theorem State.MemInv.execFlitCheckFail {k link replays} (h : s.MemInv) : NextOk (execFlitCheckFail k link replays s) := by
  dsimp only [Machine.execFlitCheckFail]
  refine h.event ?_
  split
  · trivial
  split
  · exact .bind fun _ => .ite trivial (.some (.ite h h.hubLinkFails))
  · refine .bind fun _ => ?_
    split
    · trivial
    · exact .some (.ite h.modCoreRegs (.ite h.modCoreRegs.modCoreRegs h.modCoreRegs.stopLink.linkLost))

theorem State.MemInv.execAgeingMonitorMeasure {k link wire} (h : s.MemInv) :
    NextOk (execAgeingMonitorMeasure k link wire s) :=
  h.event (.ite trivial h.modField)

theorem State.MemInv.countRows {k} (h : s.MemInv) : (s.countRows k).MemInv := h.modCoreRegs.modField

theorem State.MemInv.execSramScrub {k} (h : s.MemInv) : NextOk (execSramScrub k s) := by
  dsimp only [Machine.execSramScrub]
  refine .next ?_
  refine .countRows ?_
  refine .modCoreRegs ?_
  split
  · exact h.modCoreRegs
  · exact h.modCore fun _ hc => hc.correct

theorem State.MemInv.execParityError {k sl} (h : s.MemInv) : NextOk (execParityError k sl s) := by
  dsimp only [Machine.execParityError]
  split
  · exact h.defer
  · exact h.foldl fun _ _ ht => ht.defer

theorem State.MemInv.bootRoot {hash raise} (h : s.MemInv) : (s.bootRoot hash raise).MemInv := h.modMod

theorem State.MemInv.bootFields {untrained} (h : s.MemInv) : (s.bootFields untrained).MemInv := by
  unfold State.bootFields
  exact .foldl (State.MemInv.wipeFields ⟨h.gmem, h.cores, PartsOk.nil⟩) fun _ _ ht => ht.retireField

theorem State.MemInv.trainQuays {x} (h : s.MemInv) : (s.trainQuays x).MemInv := h.foldl fun _ _ ht => ht.modQuay

theorem State.MemInv.execPowerOn {fuseOk root dm raise untrained quays} (h : s.MemInv) :
    NextOk (execPowerOn fuseOk root dm raise untrained quays s) := by
  dsimp only [Machine.execPowerOn]
  refine h.event ?_
  split
  · trivial
  split
  · exact h.moduleError
  split
  · exact .some h
  split
  · exact h.moduleError
  · exact .ite h.bootRoot.bootFields.moduleError (.some (.rest h.bootRoot.bootFields.modMod.trainQuays))

theorem State.MemInv.execRailRegulationTimeout {r} (h : s.MemInv) : NextOk (execRailRegulationTimeout r s) :=
  h.event (.ite trivial h.modRail.modField.moduleError)

theorem State.MemInv.execSkewMeasure {f ofs err} (h : s.MemInv) : NextOk (execSkewMeasure f ofs err s) :=
  h.event (.ite trivial h.modField)

theorem State.MemInv.execConfigurationRequest {x} (h : s.MemInv) : NextOk (execConfigurationRequest x s) :=
  h.event (.ite trivial (.some h))

theorem State.MemInv.execAttestationRequest {nonce} (h : s.MemInv) : NextOk (execAttestationRequest nonce s) :=
  h.event (.ite trivial (.ite (.some h) (.some h)))

theorem State.MemInv.dropSample {p} (h : s.MemInv) : (s.dropSample p).MemInv := h.modCtx

theorem State.MemInv.execSampleLogWrite {i} (h : s.MemInv) : NextOk (execSampleLogWrite i s) := by
  dsimp only [Machine.execSampleLogWrite]
  refine h.event ?_
  split
  · trivial
  split
  · trivial
  split
  · exact .some (.dropSample h)
  · exact .ite (.some (.dropSample h)) (.some (.saveBytes (.gwrite h)))

theorem State.MemInv.execOrderLogStop {p reason pos seq} (h : s.MemInv) : NextOk (execOrderLogStop p reason pos seq s) :=
  h.event (.ite trivial h.modCtx.beginPreempt)

theorem State.MemInv.execNop (h : s.MemInv) : NextOk (execNop s) := h.issue fun _ ht => ht

theorem State.MemInv.execNopTail {tl bits} (h : s.MemInv) : NextOk (execNopTail tl bits s) := h.issue fun _ ht => ht

/-! ### Integer instructions (Machine/Integer) -/

theorem State.MemInv.aluAct {op x} (h : s.MemInv) : (aluAct op x s).MemOk := h.writeG fun _ ht => .ok (.ite ht.setMyFlags ht)

theorem State.MemInv.aluExec {op x} (h : s.MemInv) : NextOk (aluExec op x s) := h.issue fun _ ht => ht.aluAct

theorem State.MemInv.unExec {op x} (h : s.MemInv) : NextOk (unExec op x s) := h.issue fun _ ht => ht.writeG fun _ hu => hu

theorem State.MemInv.execCmp {x} (h : s.MemInv) : NextOk (execCmp x s) := h.issue fun _ ht => ht.wrPred

theorem State.MemInv.execSel {x} (h : s.MemInv) : NextOk (execSel x s) := h.issue fun _ ht => ht.writeG fun _ hu => hu

theorem State.MemInv.execMovi {x} (h : s.MemInv) : NextOk (execMovi x s) := h.issue fun _ ht => ht.writeG fun _ hu => hu

theorem State.MemInv.execMovhi {x} (h : s.MemInv) : NextOk (execMovhi x s) := h.issue fun _ ht => ht.writeG fun _ hu => hu

theorem State.MemInv.execBfx {x} (h : s.MemInv) : NextOk (execBfx x s) := h.issue fun _ ht => ht.writeG fun _ hu => hu

theorem State.MemInv.execBfi {x} (h : s.MemInv) : NextOk (execBfi x s) := h.issue fun _ ht => ht.writeG fun _ hu => hu

theorem State.MemInv.execLea {x} (h : s.MemInv) : NextOk (execLea x s) := h.issue fun _ ht => ht.writeG fun _ hu => hu

theorem State.MemInv.execMadr {x} (h : s.MemInv) : NextOk (execMadr x s) := h.issue fun _ ht => ht.writeG fun _ hu => hu

theorem State.MemInv.execMov {x} (h : s.MemInv) : NextOk (execMov x s) := h.issue fun _ ht => ht.writeG fun _ hu => hu

theorem State.MemInv.pppExec {f x} (h : s.MemInv) : NextOk (pppExec f x s) := h.issue fun _ ht => ht.wrPred

theorem State.MemInv.execPnot {x} (h : s.MemInv) : NextOk (execPnot x s) := h.issue fun _ ht => ht.wrPred

theorem State.MemInv.execPmov {x} (h : s.MemInv) : NextOk (execPmov x s) := h.issue fun _ ht => ht.wrPred

theorem State.MemInv.execPany {x} (h : s.MemInv) : NextOk (execPany x s) := h.issue fun _ ht => ht.writeG fun _ hu => hu

/-! ### Exponent-locked reductions (Machine/Locked) -/

theorem State.MemInv.putLock {k y d} (h : s.MemInv) : (s.putLock k y d).MemInv := h.sramPut.sramPut

theorem State.MemInv.putNode {k m x n} (h : s.MemInv) : (s.putNode k m x n).MemInv := by
  unfold State.putNode
  extract_lets ty hd eb s1 others a r d s2 s3 s4
  have h1 : s1.MemInv := h.foldl fun _ _ ht => ht.enqueueMsg
  have hr : r.1.MemInv := .foldl_fst h1 fun _ _ hq => hq.putBlk
  have h3 : s3.MemInv := .modCore hr.fullBytes.fullBytes.setFlags.putLock fun _ hc => hc
  exact .ite (.tagDone (.ite h3 h3.enqueueMsg)) (.modCore h1.setFlags.putLock fun _ hc => hc)

theorem State.MemInv.lockTake {k q m e} (h : s.MemInv) : OptionOk State.MemInv (s.lockTake k q m e) := by
  dsimp only [State.lockTake]
  split
  · split
    · exact h.discard
    · split
      · exact h.discard
      · split
        · exact h.tagUe
        · split
          · exact h.discard
          · exact h.charge.popArr.putNode
  · split
    · exact h.discard
    · split
      · exact h.discard
      · split
        · exact h.discard
        · split
          · exact h.tagUe
          · split
            · exact h.discard
            · exact .ite h.discard (.ite trivial h.charge.popArr.putNode)

theorem State.MemInv.lockOrdered {k kind m} {f : State → Option State} (h : s.MemInv)
    (hf : ∀ t : State, t.MemInv → OptionOk State.MemInv (f t)) : OptionOk State.MemInv (s.lockOrdered k kind m f) := by
  dsimp only [State.lockOrdered]
  split
  next he => exact hf _ (h.orderAt.of_ok he)
  next he => exact .map fun _ => h.orderAt.of_error he

theorem State.MemInv.execLockedContribution {k i} (h : s.MemInv) : NextOk (execLockedContribution k i s) := by
  dsimp only [Machine.execLockedContribution]
  refine h.event ?_
  split
  · split
    · trivial
    · exact .ite (h.lockOrdered fun _ ht => ht.lockTake) trivial
  · split
    · trivial
    · exact .ite (h.lockOrdered fun _ ht => ht.lockTake) trivial

theorem State.MemInv.lockNote {k m f} (h : s.MemInv) : (s.lockNote k m f).MemInv := by
  dsimp only [State.lockNote]
  split
  · split
    · exact h.tagUe
    · split
      · exact h.discard
      · exact h.popArr.putNode
  · split
    · exact h.discard
    · split
      · exact h.tagUe
      · split
        · exact h.discard
        · exact h.popArr.putLock.foldl fun _ _ ht => ht.enqueueMsg

theorem State.MemInv.execRenorm {k i} (h : s.MemInv) : NextOk (execRenorm k i s) := by
  dsimp only [Machine.execRenorm]
  refine h.event ?_
  split
  · trivial
  · exact .ite trivial (ordered_memOk h.orderAt fun _ ht => ht.lockNote)

theorem State.MemInv.execNewExponentNotice {k i} (h : s.MemInv) : NextOk (execNewExponentNotice k i s) := by
  dsimp only [Machine.execNewExponentNotice]
  refine h.event ?_
  split
  · trivial
  split
  · exact ordered_memOk h.orderAt fun _ ht => ht.lockNote
  · trivial

theorem State.MemInv.takeNotice {k sl m} (h : s.MemInv) : (s.takeNotice k sl m).MemInv := h.wakeAt.modRegs.modSlot.stepStop

theorem State.MemInv.sysWatches {k} (h : s.MemInv) : (s.sysWatches k).MemInv := h.foldl fun _ _ ht => ht.endWatch

theorem State.MemInv.execSysmsg {k i} (h : s.MemInv) : NextOk (execSysmsg k i s) := by
  dsimp only [Machine.execSysmsg]
  refine h.event ?_
  split
  · trivial
  split
  · trivial
  split
  · exact h.popArr
  · exact .ite h.popArr (.ite h.takeNotice.sysWatches.popArr trivial)

/-! ### The outer side of the quays (Machine/Quays) -/

theorem State.MemInv.pf0Put {off v} (h : s.MemInv) : (s.pf0Put off v).MemInv :=
  .ite h.modMod (.ite h.modMod (.ite h.modMod (.ite h.modMod h)))

theorem State.MemInv.pf0Write {s : State} {off l n} (h : s.MemInv) : (s.pf0Write off l n).MemInv := by
  induction n generalizing s off l with
  | zero => exact h
  | succ n ih => exact h.ite (ih h.pf0Put)

theorem State.MemInv.answer {id ok l} (h : s.MemInv) : (s.answer id ok l).MemInv := h

theorem State.MemInv.execHostWrite {x data} (h : s.MemInv) : NextOk (execHostWrite x data s) := by
  dsimp only [Machine.execHostWrite]
  refine h.event ?_
  split
  · exact .some (.answer h)
  · exact .ite trivial h.answer
  · exact .ite trivial (.some ⟨Memory.writeBytes_wf h.gmem _ _, h.cores, h.parts⟩)
  · split
    · trivial
    · refine .bind fun _ => ?_
      split
      · exact h
      split
      · split
        · exact .ite h.gwriteBytes trivial
        · trivial
      · split
        · split
          · trivial
          · split
            · exact h
            · exact .some (.ite h.gwriteBytes (.ite h h.sendFrame))
        · split
          · trivial
          · split
            · exact h
            · exact .some (.ite h.gwriteBytes (.ite h h.sendFrame))
      · exact h.pf0Write
      · trivial

theorem State.MemInv.execCxlSnoop {y line} (h : s.MemInv) : NextOk (execCxlSnoop y line s) :=
  h.event (.ite trivial h.lineWritten)

theorem State.MemInv.putAll {s : State} {l bs} (h : s.MemInv) : (s.putAll l bs).MemInv := by
  induction l generalizing s bs with
  | nil => exact h
  | cons e l ih => exact ih (h.ite h.gwriteBytes)

theorem State.MemInv.chargeNet {q vf ps} (h : s.MemInv) : (s.chargeNet q vf ps).MemInv :=
  h.foldl fun _ _ ht => ht.chargeQuay.chargeQuay

theorem State.MemInv.relayed {q id ps} {f : State → List (ℕ × Option (List Byte)) → NetRes} (h : s.MemInv)
    (hf : ∀ t : State, t.MemInv → ∀ n : List (ℕ × Option (List Byte)), (f t n).MemOk) : (s.relayed q id ps f).MemOk := by
  dsimp only [State.relayed]
  split
  · exact hf _ h _
  split
  · exact .ite trivial (.wait (h.modQuay.foldl fun _ _ ht => ht.sendFrame))
  · exact .ite trivial (.ite trivial (hf _ h.modQuay _))

theorem State.MemInv.netPerform {q vf id op} (h : s.MemInv) : (s.netPerform q vf id op).MemOk := by
  dsimp only [State.netPerform]
  split
  · split
    · trivial
    · split
      · trivial
      · exact h.relayed fun _ ht _ => ht.chargeNet
  · split
    · trivial
    · split
      · trivial
      · exact h.relayed fun _ ht _ => ht.putAll.chargeNet
  · split
    · trivial
    · split
      · trivial
      · exact h.relayed fun _ ht _ => .ite ht.chargeNet (.done (.chargeNet (.ite ht ht.gwrite)))
  · exact .ite trivial (.ite trivial (.done (.chargeQuay (h.modPart fun _ hx => hx))))
  · exact h.netMessage

theorem State.MemInv.execNetRequestFrame {x} (h : s.MemInv) : NextOk (execNetRequestFrame x s) := by
  unfold Machine.execNetRequestFrame
  refine h.event ?_
  dsimp only
  split
  · trivial
  split
  · exact h
  · refine .bind fun _ => ?_
    split
    · exact .some h
    split
    · exact h
    split
    next he => exact .some (.rest (State.MemInv.modQuay (h.netPerform.of_done he)))
    · exact .some h
    · exact .some h
    · exact h
    next he => exact h.netPerform.of_wait he

theorem State.MemInv.dropFrame {q id} (h : s.MemInv) : (s.dropFrame q id).MemInv := h.modQuay

theorem State.MemInv.tileFail {k n els refused} (h : s.MemInv) : (s.tileFail k n els refused).MemInv := by
  dsimp only [State.tileFail]
  split
  · exact h
  split
  · exact h
  · exact .ite h (.ite h.streamFault h.streamFault)

theorem State.MemInv.tileAnswer {k n els bs} (h : s.MemInv) : (s.tileAnswer k n els bs).MemInv := h.modCore fun _ hc => hc

theorem State.MemInv.relayAnswer {q id i r} (h : s.MemInv) : (s.relayAnswer q id i r).MemInv := h.modQuay

theorem State.MemInv.frameFail {q o refused} (h : s.MemInv) : (s.frameFail q o refused).MemInv := by
  dsimp only [State.frameFail]
  split
  · split
    · exact h.netFail
    · exact h
  · exact h.tileFail
  · exact h
  · exact h.relayAnswer

theorem State.MemInv.frameDone {q o bs} (h : s.MemInv) : OptionOk State.MemInv (s.frameDone q o bs) := by
  dsimp only [State.frameDone]
  split
  · split
    · exact h.dropFrame
    · exact .ite trivial h.dropFrame.performed.chargeQuay
  · split
    · exact .ite trivial h.dropFrame.tileAnswer
    · exact h.dropFrame
  · exact h.dropFrame
  · exact h.dropFrame.relayAnswer

theorem State.MemInv.execNetAckFrame {q id data} (h : s.MemInv) : NextOk (execNetAckFrame q id data s) := by
  dsimp only [Machine.execNetAckFrame]
  refine h.event ?_
  split
  · trivial
  · refine .bind fun _ => ?_
    split
    · exact h.frameFail.dropFrame
    · exact h.frameDone

theorem State.MemInv.failPeer {s : State} {q peer l} (h : s.MemInv) : (s.failPeer q peer l).MemInv := by
  induction l generalizing s with
  | nil => exact h
  | cons o l ih => exact ih (h.frameFail.ite h)

theorem State.MemInv.execNetRetransmitTimeout {q id} (h : s.MemInv) : NextOk (execNetRetransmitTimeout q id s) := by
  dsimp only [Machine.execNetRetransmitTimeout]
  refine h.event ?_
  split
  · trivial
  · exact .ite h.modQuay h.failPeer.modQuay

theorem State.MemInv.execQuayLaneFailure {q} (h : s.MemInv) : NextOk (execQuayLaneFailure q s) :=
  h.event (.ite trivial (.ite h.modQuay h.modQuay))

/-! ### Vector instructions (Machine/Vector) -/

theorem State.MemInv.arithV {op x} (h : s.MemInv) : NextOk (arithV op x s) := h.vlanes

theorem State.MemInv.vlanesN {q cls n w d srcs f} (h : s.MemInv) : NextOk (vlanesN q cls n w d srcs f s) :=
  h.issueMasked fun _ ht => ht.chargeMore.vop

theorem State.MemInv.minmaxV {mx x} (h : s.MemInv) : NextOk (minmaxV mx x s) := h.vlanes

theorem State.MemInv.signV {neg x} (h : s.MemInv) : NextOk (signV neg x s) := h.vlanes

theorem State.MemInv.execVcmp {x} (h : s.MemInv) : NextOk (execVcmp x s) := h.issueMasked fun _ ht => ht.vop

theorem State.MemInv.execVfn {x} (h : s.MemInv) : NextOk (execVfn x s) := by
  dsimp only [Machine.execVfn]
  exact h.issueMasked fun _ ht => ht.fresh.chargeMore.vop

theorem State.MemInv.execVred {x} (h : s.MemInv) : NextOk (execVred x s) := h.issueMasked fun _ ht => ht.vop

theorem State.MemInv.execVscan {x} (h : s.MemInv) : NextOk (execVscan x s) := h.issueMasked fun _ ht => ht.vop

theorem State.MemInv.execVext {x} (h : s.MemInv) : NextOk (execVext x s) := h.issue fun _ ht => .ite trivial ht.vop

theorem State.MemInv.execVins {x} (h : s.MemInv) : NextOk (execVins x s) := h.issue fun _ ht => ht.vop

theorem State.MemInv.flgAct {d m} (h : s.MemInv) : (flgAct d m s).MemOk :=
  .ite (fun _ ht => ht) (h.modRegs.writeG fun _ ht => ht)

theorem State.MemInv.execFlg {d} (h : s.MemInv) : NextOk (execFlg d s) := h.issue fun _ ht => ht.flgAct

theorem State.MemInv.execFlgMasked {x} (h : s.MemInv) : NextOk (execFlgMasked x s) := h.issue fun _ ht => ht.flgAct

theorem State.MemInv.execVectorComplete {k i} (h : s.MemInv) : NextOk (execVectorComplete k i s) :=
  h.event (.map fun _ => .setFlags (.modRegs (h.modCore fun _ hc => hc)))

theorem State.MemInv.execVcvt {x} (h : s.MemInv) : NextOk (execVcvt x s) := by
  unfold Machine.execVcvt
  exact h.vissue

theorem State.MemInv.execVmov {x} (h : s.MemInv) : NextOk (execVmov x s) := by
  unfold Machine.execVmov
  exact h.vissue

/-! ### Walks (Machine/Walks) -/

theorem State.MemInv.execTranslationRequest {k i} (h : s.MemInv) : NextOk (execTranslationRequest k i s) := by
  dsimp only [Machine.execTranslationRequest]
  refine h.event ?_
  split
  · trivial
  · exact .ite trivial (.some (.modField (h.modCore fun _ hc => hc)))

theorem State.MemInv.addFault {k m f} (h : s.MemInv) : (s.addFault k m f).MemInv :=
  h.foldl fun _ _ ht => .counterFault (ht.modCore fun _ hc => hc)

theorem State.MemInv.walkAnswer {k m r} (h : s.MemInv) : (s.walkAnswer k m r).MemInv := by
  dsimp only [State.walkAnswer]
  split
  · exact .ite (h.modCore fun _ hc => hc) (.modCore (h.modCore fun _ hc => hc) fun _ hc => hc)
  · split
    · exact h.modCore fun _ hc => hc
    · exact .streamFault (h.modCore fun _ hc => hc)
  · exact .modCore (h.modCore fun _ hc => hc) fun _ hc => hc.addPort
  · split
    · exact .ite (.modSlot (h.modCore fun _ hc => hc)) (h.modCore fun _ hc => hc)
    · exact .ite (.addFault (h.modCore fun _ hc => hc)) (h.modCore fun _ hc => hc)

theorem State.MemInv.execWalkComplete {f i bad} (h : s.MemInv) : NextOk (execWalkComplete f i bad s) := by
  dsimp only [Machine.execWalkComplete]
  refine h.event ?_
  split
  · trivial
  · exact .ite trivial (.ite h.modField (.some (.foldl (.walkAnswer h) fun _ _ ht => ht.walkAnswer)))

/-! ### Every instruction and event (Machine/Dispatch) -/

theorem State.MemInv.exec {i} (h : s.MemInv) : NextOk (exec i s) := by
  cases i with
  | nop => exact h.execNop
  | nopTail tl bits => exact h.execNopTail (tl := tl) (bits := bits)
  | halt => exact h.execHalt
  | yield => exact h.execYield
  | bkpt => exact h.execBkpt
  | add | sub | mul | mulh | div | rem | and | or | xor | andn | shl | shr | sar | rot | min | max => exact h.aluExec
  | clz | ctz | popc | abs | neg | ext => exact h.unExec
  | cmp => exact h.execCmp
  | sel => exact h.execSel
  | movi => exact h.execMovi
  | movhi => exact h.execMovhi
  | bfx => exact h.execBfx
  | bfi => exact h.execBfi
  | lea => exact h.execLea
  | madr => exact h.execMadr
  | mov => exact h.execMov
  | pand | por | pxor => exact h.pppExec
  | pnot => exact h.execPnot
  | pmov => exact h.execPmov
  | pany => exact h.execPany
  | br => exact h.execBr
  | brp => exact h.execBrp
  | bcmp => exact h.execBcmp
  | call => exact h.execCall
  | calli => exact h.execCalli
  | ret => exact h.execRet
  | retReg => exact h.execRetReg
  | jmpi => exact h.execJmpi
  | loop => exact h.execLoop
  | waitev => exact h.execWaitev
  | waitevGuarded => exact h.execWaitevGuarded
  | eventWake => exact h.execEventWake
  | trap => exact h.execTrap
  | eret => exact h.execEret
  | aptest => exact h.execAptest
  | apcvt => exact h.execApcvt
  | time => exact h.execTime
  | meter => exact h.execMeter
  | deferredCauseTake => exact h.execDeferredCauseTake
  | vadd | vsub | vmul => exact h.arithV
  | vfma | vsel | vlog | vsh | vperm | vbcast | vclass => exact h.vlanes
  | vdiv | vsqrt => exact h.vlanesN
  | vmin | vmax => exact h.minmaxV
  | vabs | vneg => exact h.signV
  | vcmp => exact h.execVcmp
  | vcvt => exact h.execVcvt
  | vmov => exact h.execVmov
  | vfn => exact h.execVfn
  | vred => exact h.execVred
  | vscan => exact h.execVscan
  | vext => exact h.execVext
  | vins => exact h.execVins
  | flg => exact h.execFlg
  | flgMasked => exact h.execFlgMasked
  | badd | bmul | bfma | bnorm | brenorm | bscale | bscalePow2 => exact h.blockOp
  | bquant => exact h.execBquant
  | bdeq => exact h.execBdeq
  | bdot => exact h.execBdot
  | vectorComplete => exact h.execVectorComplete
  | mcfg => exact h.execMcfg
  | mrun => exact h.execMrun
  | mfeed => exact h.execMfeed
  | mzero => exact h.execMzero
  | mload => exact h.execMload
  | mdrainVector => exact h.execMdrainVector
  | mdrainSram => exact h.execMdrainSram
  | mstat => exact h.execMstat
  | scancfg => exact h.execScancfg
  | scan => exact h.execScan
  | scanstSave => exact h.execScanstSave
  | scanstLoad => exact h.execScanstLoad
  | operandPairTake => exact h.execOperandPairTake
  | scaleTokenTake => exact h.execScaleTokenTake
  | mrunComplete => exact h.execMrunComplete
  | mfeedComplete => exact h.execMfeedComplete
  | scanChunk => exact h.execScanChunk
  | scanStep => exact h.execScanStep
  | scanComplete => exact h.execScanComplete
  | ld => exact h.execLd
  | st => exact h.execSt
  | lds => exact h.execLds
  | stf => exact h.execStf
  | fesetFull | fesetEmpty => exact h.feset
  | fetest => exact h.execFetest
  | ldv => exact h.execLdv
  | stv => exact h.execStv
  | ldb => exact h.execLdb
  | stb => exact h.execStb
  | ldg => exact h.execLdg
  | stg => exact h.execStg
  | ldgv => exact h.execLdgv
  | stgv => exact h.execStgv
  | amo => exact h.execAmo
  | amog => exact h.execAmog
  | fence => exact h.execFence
  | mon => exact h.execMon
  | mwait => exact h.execMwait
  | mwaitTimeout => exact h.execMwaitTimeout
  | globalLoadReturn => exact h.execGlobalLoadReturn
  | globalAccessPerform => exact h.execGlobalAccessPerform
  | send => exact h.execSend
  | sendv => exact h.execSendv
  | sendb => exact h.execSendb
  | messageInject => exact h.execMessageInject
  | tagset => exact h.execTagset
  | tagget => exact h.execTagget
  | chk => exact h.execChk
  | semsig => exact h.execSemsig
  | semwait => exact h.execSemwait
  | semget => exact h.execSemget
  | semset => exact h.execSemset
  | shape => exact h.execShape
  | copy => exact h.execCopy
  | copyRing => exact h.execCopyRing
  | copyTileComplete => exact h.execCopyTileComplete
  | copyComplete => exact h.execCopyComplete
  | space => exact h.execSpace
  | freeSpaceNotice => exact h.execFreeSpaceNotice
  | cntwait => exact h.execCntwait
  | berthOut => exact h.execBerthOut
  | berthIn => exact h.execBerthIn
  | berthClose => exact h.execBerthClose
  | berthDataArrival => exact h.execBerthDataArrival
  | tide => exact h.execTide
  | tidewait => exact h.execTidewait
  | tideq => exact h.execTideq
  | chunkinit => exact h.execChunkinit
  | getchunk => exact h.execGetchunk
  | tideContributionArrival => exact h.execTideContributionArrival
  | tideWithdrawal => exact h.execTideWithdrawal
  | homeQueryRequest => exact h.execHomeQueryRequest
  | chunkRequest => exact h.execChunkRequest
  | tideAnswerArrival => exact h.execTideAnswerArrival
  | lace => exact h.execLace
  | unlace => exact h.execUnlace
  | unlaceStatus => exact h.execUnlaceStatus
  | relace => exact h.execRelace
  | laceq => exact h.execLaceq
  | laceForwardHead => exact h.execLaceForwardHead
  | laceTimeout => exact h.execLaceTimeout
  | spawn => exact h.execSpawn
  | migrate => exact h.execMigrate
  | taskid => exact h.execTaskid
  | messageArrival => exact h.execMessageArrival
  | deliver => exact h.execDeliver
  | deposit => exact h.execDeposit
  | addblock => exact h.execAddblock
  | inline => exact h.execInline
  | wake => exact h.execWake
  | tideAction => exact h.execTideAction
  | lockedContribution => exact h.execLockedContribution
  | renorm => exact h.execRenorm
  | newExponentNotice => exact h.execNewExponentNotice
  | sysmsg => exact h.execSysmsg
  | mfs => exact h.execMfs
  | mts => exact h.execMts
  | invalS1Page => exact h.execInvalS1Page
  | invalS1All => exact h.execInvalS1All
  | invalS2Page => exact h.execInvalS2Page
  | invalS2All => exact h.execInvalS2All
  | ctxsv => exact h.execCtxsv
  | ctxld => exact h.execCtxld
  | sramclr => exact h.execSramclr
  | frmld => exact h.execFrmld
  | frminv => exact h.execFrminv
  | grpset => exact h.execGrpset
  | rankset => exact h.execRankset
  | rankTableUpdateAck => exact h.execRankTableUpdateAck
  | streamRestart => exact h.execStreamRestart
  | streamEnd => exact h.execStreamEnd
  | migtRequestAct => exact h.execMigtRequestAct
  | watchdog => exact h.execWatchdog
  | launchPacket => exact h.execLaunchPacket
  | dependenceSatisfied => exact h.execDependenceSatisfied
  | launchPlace => exact h.execLaunchPlace
  | launchStart => exact h.execLaunchStart
  | launchComplete => exact h.execLaunchComplete
  | preemptPhase1 => exact h.execPreemptPhase1
  | preemptPhase2 => exact h.execPreemptPhase2
  | preemptPhase3 => exact h.execPreemptPhase3
  | preemptResume => exact h.execPreemptResume
  | moveFlushMarker => exact h.execMoveFlushMarker
  | moveCopy => exact h.execMoveCopy
  | translationRequest => exact h.execTranslationRequest
  | walkComplete => exact h.execWalkComplete
  | invalDrop => exact h.execInvalDrop
  | balanceAddReturn => exact h.execBalanceAddReturn
  | railVoteUpdate => exact h.execRailVoteUpdate
  | tokenRefill => exact h.execTokenRefill
  | sramScrub => exact h.execSramScrub
  | sampleLogWrite => exact h.execSampleLogWrite
  | orderLogStop => exact h.execOrderLogStop
  | berthCredit => exact h.execBerthCredit
  | berthJoin => exact h.execBerthJoin
  | sysRemoteAccess => exact h.execSysRemoteAccess
  | lcWrite => exact h.regEvent h.writeLc
  | stackRegWrite => exact h.regEvent h.writeStack
  | tstWrite => exact h.regEvent h.writeTst
  | wdogWrite => exact h.regEvent h.writeWdog
  | partdefWrite => exact h.regEvent h.writePartdef
  | rvoteWrite => exact h.regEvent h.writeRvote
  | migtWrite => exact h.regEvent h.writeMigt
  | lcstateWrite => exact h.regEvent h.writeLcstate
  | reprowWrite => exact h.regEvent h.writeReprow
  | stopEntryWrite => exact h.execStopEntryWrite
  | ownerWrite => exact h.regEvent (.ite h.writeSampctl h.writeCntctl)
  | ologctlWrite => exact h.regEvent h.writeOlogctl
  | eccstatRead => exact h.execEccstatRead
  | launchApertureWrite => exact h.execLaunchApertureWrite
  | meteringBoundary => exact h.execMeteringBoundary
  | quayGrantWindow => exact h.execQuayGrantWindow
  | memoryThrottleReport => exact h.execMemoryThrottleReport
  | devloadResponse => exact h.execDevloadResponse
  | devloadRestore => exact h.execDevloadRestore
  | sensorRead => exact h.execSensorRead
  | railRepower => exact h.execRailRepower
  | flitCheckFail => exact h.execFlitCheckFail
  | parityError => exact h.execParityError
  | powerOn => exact h.execPowerOn
  | railRegulationTimeout => exact h.execRailRegulationTimeout
  | skewMeasure => exact h.execSkewMeasure
  | hostWrite => exact h.execHostWrite
  | cxlSnoop => exact h.execCxlSnoop
  | netRequestFrame => exact h.execNetRequestFrame
  | netAckFrame => exact h.execNetAckFrame
  | netRetransmitTimeout => exact h.execNetRetransmitTimeout
  | attestationRequest => exact h.execAttestationRequest
  | quayLaneFailure => exact h.execQuayLaneFailure
  | ageingMonitorMeasure => exact h.execAgeingMonitorMeasure
  | configurationRequest => exact h.execConfigurationRequest

/-! ### Fetching and issue turns (Machine/Fetch) -/

theorem Core.MemOk.unpark {sl} (hc : c.MemOk) : (c.unpark sl).MemOk := .foldl hc fun _ _ hd => hd

theorem State.MemInv.issueHead {k sl f} (h : s.MemInv) : NextOk (issueHead s k sl f) := by
  dsimp only [Machine.issueHead]
  split
  · exact .next (.takeTrap (.rest (h.count.modCore fun _ hc => hc.unpark)))
  · exact .next (.takeTrap (.rest (h.count.modCore fun _ hc => hc.unpark)))
  · exact State.MemInv.exec (.rest (h.count.modCore fun _ hc => hc.unpark))

theorem State.MemInv.freeDetached {k sl} (h : s.MemInv) : (s.freeDetached k sl).MemInv := .ite h.modSlot h

theorem State.MemInv.slotTurn {k sl} (h : s.MemInv) : NextOk (slotTurn s k sl) := by
  dsimp only [Machine.slotTurn]
  split
  · exact h.freeDetached.modSlot
  split
  · exact h.freeDetached.exec
  split
  · exact h.freeDetached.exec
  split
  · split
    · split
      · exact h.freeDetached.modSlot.takeStop
      · exact h.freeDetached.modSlot.issueHead
    · exact .ite h.freeDetached.modSlot h.freeDetached.modSlot
  · split
    · exact h.freeDetached.modSlot
    · split
      · exact h.freeDetached.takeStop
      · split
        · exact h.freeDetached.takeTrap
        · exact h.freeDetached.issueHead

theorem State.MemInv.handlerTurn {k y} (h : s.MemInv) : NextOk (handlerTurn s k y) := by
  dsimp only [Machine.handlerTurn]
  split
  · exact .next (.handlerFail (.rest h.count))
  split
  · exact .next (.handlerFail (.rest h.count))
  · exact .next (.handlerFail (.rest h.count))
  · split
    · exact .next (.handlerFail (.rest h.count))
    · exact .next (.handlerFail (.rest h.count))
    · exact State.MemInv.exec (.rest h.count)

theorem State.MemInv.waitDue {t : State} {k n} (ht : t.MemInv) : (s.waitDue t k n).MemInv := by
  dsimp only [State.waitDue]
  split
  · split
    · exact ht.keepDue
    · exact ht
  · exact ht

theorem State.MemInv.wakeSlots {k} (h : s.MemInv) : (s.wakeSlots k).MemInv :=
  h.foldl fun _ _ ht => .ite (.ite ht.modSlot ht.waitDue) ht

theorem State.MemInv.noteAccess {t : State} {k sl issuer done} (h : s.MemInv) (ht : t.MemInv) :
    OrderOk (s.noteAccess t k sl issuer done) := by
  dsimp only [State.noteAccess]
  split
  · exact ht
  split
  · exact ht
  split
  · exact ht
  split
  next he => exact ht.orderAt.of_ok he
  · exact h.keepDue

theorem State.MemInv.noteEnd {t : State} {k y} (h : s.MemInv) (ht : t.MemInv) : OrderOk (s.noteEnd t k y) := by
  dsimp only [State.noteEnd]
  split
  · exact ht
  split
  next he => exact ht.orderEngine.of_ok he
  · exact h.keepDue

theorem State.MemInv.turnAmong {k l n} (h : s.MemInv) : NextOk (s.turnAmong k l n) := by
  induction n generalizing s l with
  | zero => exact h
  | succ n ih =>
    simp only [State.turnAmong]
    split
    · exact h
    split
    next he =>
      have ht := h.slotTurn.of_next he
      split
      next hu => exact (h.noteAccess ht).of_ok hu
      next hu => exact ih ((h.noteAccess ht).of_error hu)
    · exact h.slotTurn

theorem State.MemInv.slotsTurn {k} (h : s.MemInv) : NextOk (s.slotsTurn k) :=
  State.MemInv.turnAmong (h.modCore fun _ hc => hc)

theorem State.MemInv.countWaits {k} (h : s.MemInv) : (s.countWaits k).MemInv := h.foldl fun _ _ ht => .ite ht.count ht

theorem State.MemInv.countStall {k} (h : s.MemInv) : (s.countStall k).MemInv := .ite h.modUnits.count h.noteStarved

theorem State.MemInv.issueTurn {k} (h : s.MemInv) : NextOk (issueTurn s k) := by
  unfold Machine.issueTurn
  extract_lets u
  have hu : u.MemInv := h.countWaits.countStall.wakeSlots.inlineDue
  clear_value u
  split
  · split
    · exact h.slotTurn
    · exact h
  split
  · exact hu.slotsTurn
  split
  next he =>
    have ht := hu.handlerTurn.of_next he
    refine .ite hu.slotsTurn ?_
    split
    next hn => exact ((hu.noteAccess ht).of_error hn).slotsTurn
    next hn =>
      split
      next hd => exact (hu.noteEnd ((hu.noteAccess ht).of_ok hn)).of_ok hd
      next hd => exact ((hu.noteEnd ((hu.noteAccess ht).of_ok hn)).of_error hd).slotsTurn
  · exact hu.handlerTurn

/-! ### The choice of what is next (Machine/Schedule) -/

theorem Memory.mixBytes_wf {f os} {old new : Memory} (hold : old.wf = true) : (mixBytes f old new os).wf = true :=
  List.foldlRecOn (motive := fun m => Memory.wf m = true) os _ hold fun _ hm _ _ => Memory.put_wf hm _ _

theorem State.MemInv.raceTurn {k e} (h : s.MemInv) : NextOk (raceTurn s k e) := by
  have ht {f os new} : NextOk (Machine.issueTurn (State.modMem { s with free := f } k fun m =>
      { m with sram := mixBytes s.free (s.core k).mem.sram new os }) k) :=
    State.MemInv.issueTurn (.modMem h fun _ _ => Memory.mixBytes_wf h.core)
  dsimp only [Machine.raceTurn]
  split
  · exact h
  split
  · split
    · exact h
    · split
      next he =>
        split
        · split
          · exact .next ((ht.of_next he).modMem fun _ _ => h.core)
          · exact h
        · exact h
      · exact ht
  · exact h.exec

theorem State.MemInv.runChoice {a} (h : s.MemInv) : NextOk (runChoice s a) := by
  dsimp only [Machine.runChoice]
  split
  · exact h.issueTurn
  · exact .ite h.exec trivial
  · exact h.raceTurn
  · refine h.event ?_
    split
    · exact h.streamRefill
    · exact h.addRefill
  · exact h.event h.feedTurn

theorem State.MemInv.nextStep (h : s.MemInv) : NextOk (nextStep s) := by
  dsimp only [Machine.nextStep]
  split
  · exact State.MemInv.runChoice h
  split
  · exact .next h
  · exact State.MemInv.runChoice h
  · exact State.MemInv.runChoice h

/-! ### One step (Machine/Step) -/

theorem State.MemInv.step (h : s.MemInv) : NextOk (step s) := h.nextStep

end

/-! ### Memories that read alike, and reads of what was stored -/

section
variable {m n : Memory} {lo a : Nat} {b : Byte}

theorem Memory.wfFrom_cons_iff : Memory.wfFrom lo ((a, b) :: m) = true ↔ lo ≤ a ∧ b ≠ 0 ∧ m.wfFrom (a + 1) = true := by
  simp [wfFrom, and_assoc]

theorem Memory.get_cons_self : Memory.get ((a, b) :: m) a = b := by
  simp [get]

theorem Memory.get_cons_of_ne {x : Nat} (hx : x ≠ a) : Memory.get ((a, b) :: m) x = m.get x := by
  simp [get, hx]

/-- A memory in its canonical form reads something other than 0 at its first entry, and another one that starts later does not. -/
theorem Memory.head_le_of_get_eq (hb : b ≠ 0) (hn : n.wfFrom lo = true) (h : Memory.get ((a, b) :: m) a = n.get a) : lo ≤ a := by
  by_contra hlo
  rw [get_cons_self, get_below hn (not_le.1 hlo)] at h
  exact hb h

/-- Two memories in their canonical form that read alike are equal: their first entries agree, and so do the rests. -/
theorem Memory.eq_of_get_eq_from (hm : m.wfFrom lo = true) (hn : n.wfFrom lo = true) (h : ∀ x, m.get x = n.get x) : m = n := by
  induction m generalizing n lo with
  | nil =>
    cases n with
    | nil => rfl
    | cons e n =>
      obtain ⟨-, hb, -⟩ := wfFrom_cons_iff.1 hn
      exact absurd ((h e.1).trans get_cons_self).symm hb
  | cons e m ih =>
    obtain ⟨a, b⟩ := e
    obtain ⟨-, hb, hm⟩ := wfFrom_cons_iff.1 hm
    cases n with
    | nil => exact absurd (get_cons_self.symm.trans (h a)) hb
    | cons e' n =>
      obtain ⟨a', b'⟩ := e'
      obtain ⟨-, hb', hn'⟩ := wfFrom_cons_iff.1 hn
      obtain rfl : a = a' := le_antisymm
        (head_le_of_get_eq hb' (wfFrom_cons_iff.2 ⟨le_rfl, hb, hm⟩) (h a').symm)
        (head_le_of_get_eq hb (wfFrom_cons_iff.2 ⟨le_rfl, hb', hn'⟩) (h a))
      obtain rfl : b = b' := by simpa only [get_cons_self] using h a
      refine congrArg _ (ih hm hn' fun x => ?_)
      by_cases hx : x = a
      · rw [hx, get_below hm (Nat.lt_succ_self a), get_below hn' (Nat.lt_succ_self a)]
      · simpa only [get_cons_of_ne hx] using h x

theorem Memory.eq_of_get_eq (hm : m.wf = true) (hn : n.wf = true) (h : ∀ x, m.get x = n.get x) : m = n :=
  eq_of_get_eq_from hm hn h

theorem Memory.readLE_writeLE (hm : m.wf = true) (o k v : Nat) : (m.writeLE o k v).readLE o k = v % 256 ^ k := by
  induction k generalizing m o v with
  | zero => simp [readLE, Nat.mod_one]
  | succ k ih =>
    have first : (m.writeLE o (k + 1) v).get o = BitVec.ofNat 8 v := by
      simpa using get_writeLE hm o (k + 1) v 0 (Nat.succ_pos k)
    have rest : (m.writeLE o (k + 1) v).readLE (o + 1) k = v / 256 % 256 ^ k := ih (put_wf hm o _) (o + 1) (v / 256)
    calc (m.writeLE o (k + 1) v).readLE o (k + 1) = v % 256 + 256 * (v / 256 % 256 ^ k) := by
          simp only [readLE, first, rest, BitVec.toNat_ofNat, Nat.reducePow]
      _ = v % 256 ^ (k + 1) := by rw [Nat.pow_succ', Nat.mod_mul]

end

/-- Settles O60: a step keeps every memory canonical, because everything that a step may do keeps `State.MemInv`
(`State.MemInv.step`); the clauses on a byte put and on a store are the laws of the memory itself. -/
theorem stepKeepsMemory : Obligations.StepKeepsMemory := by
  unfold Obligations.StepKeepsMemory
  refine ⟨⟨fun s t h hst => h.step.of_next hst, fun m a b h => ?_, fun m n hm hn h => Memory.eq_of_get_eq hm hn h⟩,
    fun m o n v h => ?_⟩
  · exact ⟨Memory.put_wf h a b, by rw [Memory.get_put h, if_pos rfl], fun x hx => by rw [Memory.get_put h, if_neg hx]⟩
  · exact ⟨Memory.writeLE_wf h o n v, fun a ha => Memory.get_writeLE_ne h o n v a ha,
      fun i hi => Memory.get_writeLE h o n v i hi, Memory.readLE_writeLE h o n v⟩

end Sys2Proof.Machine
end

section
/-! PROOFS. What stands before an instruction's body, and what the register accessors do (O54). -/

namespace Sys2Proof.Machine

/-! ### Registers: reads after writes, and consumption -/

/-- Setting or clearing one presence bit leaves the others (R29). -/
theorem getLsbD_setPres (p : BitVec 8) (n m : Fin 8) (b : Bool) :
    (setPres p n b).getLsbD m.val = if m = n then b else p.getLsbD m.val := by
  by_cases h : m = n
  · subst h
    cases b <;> simp [setPres]
  · have hv : m.val ≠ n.val := fun e => h (Fin.ext e)
    cases b <;> simp [setPres, h] <;> omega

/-- Consumption touches presence bits alone (R157). -/
theorem Regs.consume_eq (r : Regs) (l : List GOp) : r.consume l = { r with pres := (r.consume l).pres } := by
  induction l generalizing r with
  | nil => rfl
  | cons g l ih => cases g with
    | g _ => exact ih r
    | c n => exact ih { r with pres := setPres r.pres n false }

/-- A channel is present after consumption where it was and is not among those consumed (R157). -/
theorem Regs.consume_pres (r : Regs) (l : List GOp) (n : Fin 8) :
    (r.consume l).pres.getLsbD n.val = (r.pres.getLsbD n.val && !decide (GOp.c n ∈ l)) := by
  induction l generalizing r with
  | nil => simp [Regs.consume]
  | cons g l ih => cases g with
    | g m =>
      have hg : r.consume (.g m :: l) = r.consume l := rfl
      rw [hg, ih]
      simp
    | c m =>
      have hc : r.consume (.c m :: l) = ({ r with pres := setPres r.pres m false } : Regs).consume l := rfl
      rw [hc, ih, getLsbD_setPres]
      by_cases h : n = m <;> simp [h]

theorem Regs.rdG_wrG (r : Regs) {n : Fin 32} (hn : n ≠ 0) (m : Fin 32) (v : Word) :
    (r.wrG n v).rdG m = if m = n then v else r.rdG m := by
  by_cases h : m = n
  · subst h
    simp [wrG, rdG, hn]
  · have hv : n.val ≠ m.val := fun e => h (Fin.ext e.symm)
    simp [wrG, rdG, hn, h, hv]

theorem Regs.rdP_wrP (r : Regs) {n : Fin 8} (hn : n ≠ 0) (m : Fin 8) (v : BitVec 16) :
    (r.wrP n v).rdP m = if m = n then v else r.rdP m := by
  by_cases h : m = n
  · subst h
    simp [wrP, rdP, hn]
  · have hv : n.val ≠ m.val := fun e => h (Fin.ext e.symm)
    simp [wrP, rdP, hn, h, hv]

theorem Regs.c_wrC (r : Regs) (n m : Fin 8) (v : Word) : (r.wrC n v).c[m] = if m = n then v else r.c[m] := by
  by_cases h : m = n
  · subst h
    simp [wrC]
  · have hv : n.val ≠ m.val := fun e => h (Fin.ext e.symm)
    simp [wrC, h, hv]

theorem Regs.pres_wrC (r : Regs) (n m : Fin 8) (v : Word) :
    (r.wrC n v).pres.getLsbD m.val = if m = n then true else r.pres.getLsbD m.val :=
  getLsbD_setPres r.pres n m true

/-! ### What stands before an instruction's body, form by form -/

theorem gated_aluExec {i : Instr} {x : Alu2} (op : AluOp) (h : ∀ s, exec i s = aluExec op x s) :
    Gated i (alu2Form x (aluClass op)) := gated_of (body := aluAct op x) h

theorem gated_unExec {i : Instr} {x : Alu1} (op : UnOp) (h : ∀ s, exec i s = unExec op x s) :
    Gated i (mkForm x.q 1 [x.a] [x.d]) := gated_of (body := fun s => writeG s x.d (unVal op x.t (s.rd x.a))) h

theorem gated_twoSource (x : Alu2) :
    ∀ e ∈ [(Instr.add x, (1 : Fin 32)), (.sub x, 1), (.mul x, 2), (.mulh x, 2), (.div x, 3), (.rem x, 3), (.and x, 1),
      (.or x, 1), (.xor x, 1), (.andn x, 1), (.shl x, 1), (.shr x, 1), (.sar x, 1), (.rot x, 1), (.min x, 1), (.max x, 1)],
      Gated e.1 (alu2Form x e.2) := by
  simp only [List.forall_mem_cons]
  exact ⟨gated_aluExec .add fun _ => rfl, gated_aluExec .sub fun _ => rfl, gated_aluExec .mul fun _ => rfl,
    gated_aluExec .mulh fun _ => rfl, gated_aluExec .div fun _ => rfl, gated_aluExec .rem fun _ => rfl,
    gated_aluExec .and fun _ => rfl, gated_aluExec .or fun _ => rfl, gated_aluExec .xor fun _ => rfl,
    gated_aluExec .andn fun _ => rfl, gated_aluExec .shl fun _ => rfl, gated_aluExec .shr fun _ => rfl,
    gated_aluExec .sar fun _ => rfl, gated_aluExec .rot fun _ => rfl, gated_aluExec .min fun _ => rfl,
    gated_aluExec .max fun _ => rfl, List.forall_mem_nil _⟩

theorem gated_oneSource (x : Alu1) :
    ∀ i ∈ [Instr.clz x, .ctz x, .popc x, .abs x, .neg x, .ext x], Gated i (mkForm x.q 1 [x.a] [x.d]) := by
  simp only [List.forall_mem_cons]
  exact ⟨gated_unExec .clz fun _ => rfl, gated_unExec .ctz fun _ => rfl, gated_unExec .popc fun _ => rfl,
    gated_unExec .abs fun _ => rfl, gated_unExec .neg fun _ => rfl, gated_unExec .ext fun _ => rfl, List.forall_mem_nil _⟩

/-- `exec` runs an instruction as an `issue`, through the function that stands for it. -/
theorem exec_issue {i : Instr} {f : Form} {body : State → Act} (e : State → Host.Outcome State Fault Refusal)
    (h : exec i = e) (he : e = issue f body) (s : State) : exec i s = issue f body s := by rw [h, he]

/-- Settles O54: each listed instruction is one `issue` of its form, so `gated_of` says what stands before its body; the
clauses on the accessors are the laws of `Regs`. -/
theorem gatesAndRegisters : Obligations.GatesAndRegisters := by
  unfold Obligations.GatesAndRegisters
  refine ⟨gated_twoSource, gated_oneSource, fun x => gated_of (exec_issue (execCmp x) rfl rfl),
    fun x => gated_of (exec_issue (execSel x) rfl rfl), fun x => gated_of (exec_issue (execMovhi x) rfl rfl),
    fun x => gated_of (exec_issue (execJmpi x) rfl rfl),
    fun x => ⟨gated_of (exec_issue (execLd x) rfl rfl), gated_of (exec_issue (execSt x) rfl rfl)⟩,
    fun x => gated_of (exec_issue (execLds x) rfl rfl),
    fun x => ⟨gated_of (exec_issue (execLdg x) rfl rfl), gated_of (exec_issue (execStg x) rfl rfl)⟩,
    fun x => gated_of (exec_issue (execAmog x) rfl rfl), fun x => gated_of (exec_issue (execSemwait x) rfl rfl),
    fun x => gated_of (exec_issue (execMfs x) rfl rfl), gated_of (exec_issue execEret rfl rfl),
    fun x => ⟨gated_of (exec_issue (execInvalS1Page x) rfl rfl), gated_of (exec_issue (execInvalS1All x) rfl rfl),
      gated_of (exec_issue (execInvalS2Page x) rfl rfl), gated_of (exec_issue (execInvalS2All x) rfl rfl)⟩,
    fun x => ⟨gated_of (exec_issue (execCtxsv x) rfl rfl), gated_of (exec_issue (execCtxld x) rfl rfl)⟩,
    fun x => ⟨gated_of (exec_issue (execGrpset x) rfl rfl), gated_of (exec_issue (execRankset x) rfl rfl)⟩,
    fun r n v => ⟨rfl, rfl, fun hn => ⟨?_, fun m hm => ?_⟩⟩, fun r n v => ⟨rfl, rfl, fun hn => ⟨?_, fun m hm => ?_⟩⟩,
    fun r n v => ⟨?_, ?_, fun m hm => ⟨?_, ?_⟩⟩, fun r l => ⟨r.consume_eq l, r.consume_pres l⟩⟩
  · rw [r.rdG_wrG hn, if_pos rfl]
  · rw [r.rdG_wrG hn, if_neg hm]
  · rw [r.rdP_wrP hn, if_pos rfl]
  · rw [r.rdP_wrP hn, if_neg hm]
  · rw [r.c_wrC, if_pos rfl]
  · rw [r.pres_wrC, if_pos rfl]
  · rw [r.c_wrC, if_neg hm]
  · rw [r.pres_wrC, if_neg hm]

/-! ### What reset leaves -/

/-- Settles O59: at reset nothing is listed, so every core, field and partition reads as its wiped state. -/
theorem resetState : Obligations.ResetState := by
  unfold Obligations.ResetState
  have core (k : CoreId) : State.reset.core k = Core.wiped := rfl
  have unit (k : CoreId) : State.reset.unit k = Units.wiped := rfl
  have slot (k : CoreId) (n : Fin 4) : State.reset.slot k n = Slot.wiped := by
    simp [State.slot, Core.slot, core, Core.wiped]
  have part (p : Nat) : State.reset.part p = Partition.absent := rfl
  have field (f : Nat) : State.reset.field f = Field.reset := rfl
  refine ⟨fun k n => ?_, fun k => ?_, fun p => ⟨rfl, by simp [part, Partition.absent, qIdle]⟩, fun f => ?_, fun _ => rfl, rfl, rfl, rfl, rfl, State.reset_memInv⟩
  · simp [slot, Slot.wiped, Regs.zero, TrapRegs.zero, LaceSt.solo]
  · simp [core, unit, Core.wiped, CoreMem.wiped, Units.wiped, Frame.empty, Tile.wiped, Berth.closed, CoreRegs.wiped,
      Memory.get, State.partOf, State.partOfField, field, Field.reset, pdValid]
  · simp [field, Field.reset, Rail.reset]

end Sys2Proof.Machine
end

section
/-! PROOFS. The clause on completion of `Obligations.LaunchesRun` (O47) fails: the completion add is a write like any other, and a
held launch of the partition that depends on the counter is marked as met by it (R336), so the launches that stay are not all
as they were. -/

namespace Sys2Proof.Machine.MetByCompletion

/-- A launch of VF 1, with its completion counter at address 0 where `done` is set, and its dependence on that counter where not. -/
def launch (num : Nat) (st : LaunchSt) (ctl : Word) : Launch :=
  { vf := 1, num := num, st := st, packet := (Vector.replicate 8 0).set 2 ctl, args := Vector.replicate 8 0,
    img := ⟨0, 0, 0, [], [], [], 1, 1, 1, 0, 0⟩, x0 := 0, y0 := 0, loaded := true, met := false, order := num }

/-- A running launch whose tasks are over, and that asks for a completion add (R332). -/
def ended : Launch := launch 1 .running 0x2000000

/-- A launch held until that counter reaches 1 (R336). -/
def held : Launch := launch 2 .held 0x1000000

/-- Partition 0 runs VF 1, which maps every address below 2^38 to itself (R309), with both launches; the second one watches
address 0 for the value 1. -/
def state : State :=
  { State.reset with
    gmem := (Memory.writeLE [] 0x4000 8 0x8001).writeLE 0x8000 8 0x3F
    deps := [⟨0, 1, 2, 0, 1⟩]
    parts := [(0, { Partition.absent with
      valid := true, qcur := 0x100000000, launches := [ended, held],
      ctx := { PartCtx.reset with s1root := 0x8000000000004000 } })] }

/-- What the completion leaves: the held launch, now with its counter met. -/
theorem launches_after : (match exec (.launchComplete 0 0) state with
    | .next t => decide ((t.part 0).launches = [{ held with met := true }])
    | _ => false) = true := by decide +kernel

end Sys2Proof.Machine.MetByCompletion

namespace Sys2Proof.Machine

open MetByCompletion in
/-- Refutes O47: where the completion add brings a counter to the target of a held launch, that launch changes. -/
theorem not_launchesRun : ¬ Obligations.LaunchesRun := by
  unfold Obligations.LaunchesRun
  intro ⟨_, _, _, _, _, complete⟩
  obtain ⟨t, ht, hl, -⟩ := complete 0 0 ended state rfl rfl rfl (by decide) (fun _ h => nomatch h) (fun _ _ h => nomatch h)
  have after := launches_after
  rw [ht, decide_eq_true_eq] at after
  have stays : (t.part 0).launches = [held] := hl
  rw [stays] at after
  exact absurd (congrArg (List.map Launch.met) after) (by decide)

end Sys2Proof.Machine
end

section
/-! PROOFS. Semaphores (O11): what a grant of waiters leaves, and when a head takes its threshold. -/

namespace Sys2Proof.Machine

/-! ### Grants (R261) -/

/-- The waiters of semaphore `n` in a queue, in their order. -/
def semWaiters (n : BitVec 8) (q : List (Fin 4 × BitVec 8 × BitVec 16)) : List (Fin 4 × BitVec 8 × BitVec 16) :=
  q.filter fun e => e.2.1 == n

/-- The waiters granted come first among those of the semaphore; their thresholds fit into the count; the first one left does
not; and waiters of other semaphores keep their places. -/
theorem grantLoop_spec (n : BitVec 8) (q : List (Fin 4 × BitVec 8 × BitVec 16)) (cnt : Nat) :
    let r := grantLoop n q cnt
    semWaiters n q = (r.1.map fun e => (e.1, n, e.2)) ++ semWaiters n r.2 ∧
    (r.2.filter fun e => e.2.1 != n) = (q.filter fun e => e.2.1 != n) ∧
    (r.1.map fun e => e.2.toNat).sum ≤ cnt ∧
    ∀ e ∈ (semWaiters n r.2).head?, cnt < (r.1.map fun e => e.2.toNat).sum + e.2.2.toNat := by
  induction q generalizing cnt with
  | nil => simp [grantLoop, semWaiters]
  | cons e q ih =>
    obtain ⟨sl, m, t⟩ := e
    simp only [semWaiters] at ih ⊢
    by_cases hm : m = n
    · subst hm
      by_cases ht : t.toNat ≤ cnt
      · obtain ⟨all, others, fits, next⟩ := ih (cnt - t.toNat)
        simp only [grantLoop, if_pos ht, if_true]
        refine ⟨by simpa using all, by simpa using others, by simp only [List.map_cons, List.sum_cons]; omega, fun e he => ?_⟩
        have := next e he
        simp only [List.map_cons, List.sum_cons]
        omega
      · simp [grantLoop, ht]
        omega
    · obtain ⟨all, others, fits, next⟩ := ih cnt
      simp only [grantLoop, if_neg hm]
      exact ⟨by simpa [hm] using all, by simpa [hm] using others, fits, by simpa [hm] using next⟩

/-- A slot is noted to have been granted semaphore `n`. -/
def Core.give (n : BitVec 8) (c : Core) (e : Fin 4 × BitVec 16) : Core :=
  c.setSlot e.1 { c.slot e.1 with grant := some (n, e.2) }

/-- Noting grants in their slots changes nothing but those slots' grants. -/
theorem Core.foldl_give (n : BitVec 8) (g : List (Fin 4 × BitVec 16)) (c : Core) :
    let b := g.foldl (give n) c
    b.mem = c.mem ∧ (∀ i, (∃ t, (c.slot i).grant = some (n, t)) ∨ (∃ e ∈ g, e.1 = i) → ∃ t, (b.slot i).grant = some (n, t)) ∧
      ∀ i, (∀ e ∈ g, e.1 ≠ i) → b.slot i = c.slot i := by
  induction g generalizing c with
  | nil => simp
  | cons e g ih =>
    obtain ⟨hmem, granted, kept⟩ := ih (give n c e)
    refine ⟨hmem, fun i hi => granted i ?_, fun i hi => ?_⟩
    · by_cases he : i = e.1
      · subst he
        exact .inl ⟨e.2, by simp [give]⟩
      · rw [give, slot_setSlot_ne _ _ _ _ he]
        refine hi.imp id fun ⟨d, hd, hdi⟩ => ⟨d, (List.mem_cons.1 hd).resolve_left ?_, hdi⟩
        rintro rfl
        exact he hdi.symm
    · have he : e.1 ≠ i := hi e (List.mem_cons_self ..)
      rw [List.foldl_cons, kept i fun d hd => hi d (List.mem_cons_of_mem _ hd), give, slot_setSlot_ne _ _ _ _ he.symm]

theorem Core.grants_eq (c : Core) (n : BitVec 8) : c.grants n =
    (grantLoop n c.mem.semQ (c.freeSem n)).1.foldl (give n)
      { c with mem := { c.mem with semQ := (grantLoop n c.mem.semQ (c.freeSem n)).2 } } := rfl

@[simp] theorem Core.grants_mem (c : Core) (n : BitVec 8) :
    (c.grants n).mem = { c.mem with semQ := (grantLoop n c.mem.semQ (c.freeSem n)).2 } := by
  rw [grants_eq]
  exact (foldl_give n _ _).1

/-- A grant of the waiters of a semaphore (R261): in order, within what is left of the count, up to the first one that it does not
suffice for; and only the slots granted change. -/
theorem Core.grants_order (c : Core) (n : BitVec 8) :
    ∃ g : List (Fin 4 × BitVec 16),
      semWaiters n c.mem.semQ = (g.map fun e => (e.1, n, e.2)) ++ semWaiters n (c.grants n).mem.semQ ∧
      ((c.grants n).mem.semQ.filter fun e => e.2.1 != n) = (c.mem.semQ.filter fun e => e.2.1 != n) ∧
      (g.map fun e => e.2.toNat).sum ≤ c.freeSem n ∧
      (∀ e ∈ (semWaiters n (c.grants n).mem.semQ).head?, c.freeSem n < (g.map fun e => e.2.toNat).sum + e.2.2.toNat) ∧
      (∀ e ∈ g, ∃ t, ((c.grants n).slot e.1).grant = some (n, t)) ∧
      ∀ i, (∀ e ∈ g, e.1 ≠ i) → (c.grants n).slot i = c.slot i := by
  obtain ⟨all, others, fits, next⟩ := grantLoop_spec n c.mem.semQ (c.freeSem n)
  obtain ⟨-, granted, kept⟩ := foldl_give n (grantLoop n c.mem.semQ (c.freeSem n)).1
    { c with mem := { c.mem with semQ := (grantLoop n c.mem.semQ (c.freeSem n)).2 } }
  rw [grants_mem]
  exact ⟨_, all, others, fits, next, fun e he => granted e.1 (.inr ⟨e, he, rfl⟩), kept⟩

/-- What is left of a semaphore's new count beside the grants not yet taken. -/
theorem Core.freeSem_set (c : Core) (n : BitVec 8) (v : BitVec 16) :
    Core.freeSem { c with mem := { c.mem with sem := c.mem.sem.set n.toFin v } } n =
      v.toNat - (c.slots.toList.map (·.owes n)).sum := by
  simp [freeSem]

theorem Slot.owes_of_grant {x : Slot} {n : BitVec 8} {t : BitVec 16} (h : x.grant = some (n, t)) : x.owes n = t.toNat := by
  simp [owes, h]

theorem Slot.owes_of_not_granted {x : Slot} {n : BitVec 8} (h : ∀ t, x.grant ≠ some (n, t)) : x.owes n = 0 := by
  unfold owes
  split
  · next m t hg =>
    by_cases hm : m = n
    · exact absurd (hm ▸ hg) (h t)
    · rw [if_neg hm]
  · rfl

/-! ### Taking a threshold (R136, R261) -/

theorem CoreMem.takeThr_eq (m : CoreMem) (n : BitVec 8) (t : BitVec 16) :
    m.takeThr n t = { m with sem := m.sem.set n.toFin (BitVec.ofNat 16 (m.sem[n.toFin].toNat - t.toNat)) } := by
  have h : m.sem[n.toFin] - (if t ≤ m.sem[n.toFin] then t else m.sem[n.toFin]) =
      BitVec.ofNat 16 (m.sem[n.toFin].toNat - t.toNat) := by
    apply BitVec.eq_of_toNat_eq
    have := m.sem[n.toFin].isLt
    split
    · next hle =>
      rw [BitVec.toNat_sub_of_le hle, BitVec.toNat_ofNat, Nat.mod_eq_of_lt (by omega)]
    · next hle =>
      have : m.sem[n.toFin].toNat < t.toNat := Nat.lt_of_not_le hle
      rw [BitVec.sub_self, Nat.sub_eq_zero_of_le this.le]
  rw [takeThr, h]

theorem State.modMem_takeThr (u : State) (n : BitVec 8) (t : BitVec 16) :
    (u.modMem u.cur.core fun m => m.takeThr n t) = u.taken n t := by
  simp only [State.taken, CoreMem.takeThr_eq]

@[simp] theorem State.taken_cur (u : State) (n : BitVec 8) (t : BitVec 16) : (u.taken n t).cur = u.cur := rfl
@[simp] theorem State.taken_me (u : State) (n : BitVec 8) (t : BitVec 16) : (u.taken n t).me = u.me :=
  State.slot_modMem _ _ _ _ _

/-- The issuing slot has been granted semaphore `n`, as `takeSem` asks it. -/
theorem State.granted_iff (u : State) (n : BitVec 8) :
    (u.me.grant.any fun g => g.1 == n) = true ↔ ∃ g, u.me.grant = some (n, g) := by
  cases h : u.me.grant with
  | none => simp
  | some g =>
    obtain ⟨m, t⟩ := g
    simp

/-- Nobody waits before the issuing slot and the count suffices, as `takeSem` asks it. -/
theorem State.unclaimed_iff (u : State) (n : BitVec 8) (t : BitVec 16) :
    (!((u.core u.cur.core).mem.semQ.any fun e => e.2.1 == n) && decide (t.toNat ≤ (u.core u.cur.core).freeSem n)) = true ↔
      (∀ e ∈ (u.core u.cur.core).mem.semQ, e.2.1 ≠ n) ∧ t.toNat ≤ (u.core u.cur.core).freeSem n := by
  simp only [Bool.and_eq_true, Bool.not_eq_true', List.any_eq_false, beq_iff_eq, decide_eq_true_eq, ne_eq]

/-- A head whose wait is over, and that has its place, takes its threshold and goes on. -/
theorem takeSem_free {u : State} {n : BitVec 8} {t : BitVec 16} {w : Wait} {k : State → Act} (h : u.semFree n t) :
    takeSem u n t true w k = k (u.taken n t) := by
  simp only [takeSem, State.modMem_takeThr]
  by_cases hg : ∃ g, u.me.grant = some (n, g)
  · rw [if_pos ((u.granted_iff n).2 hg), if_pos trivial]
  · rw [if_neg (mt (u.granted_iff n).1 hg), Bool.true_and, if_pos ((u.unclaimed_iff n t).2 (h.resolve_left hg))]

/-- A head that has not been granted its semaphore, and that has no place or whose wait is not over, joins the queue. -/
theorem takeSem_queues {u : State} {n : BitVec 8} {t : BitVec 16} {ready : Bool} {w : Wait} {k : State → Act}
    (hg : ¬ ∃ g, u.me.grant = some (n, g)) (h : ready = false ∨ ¬ u.semFree n t) :
    takeSem u n t ready w k =
      .wait .semaphore fun s => s.modCore s.cur.core fun c => c.enqueueSem s.cur.slot n t := by
  simp only [takeSem]
  rw [if_neg (mt (u.granted_iff n).1 hg), if_neg]
  rw [Bool.and_assoc, Bool.and_eq_true, State.unclaimed_iff]
  rintro ⟨hr, hu⟩
  rcases h with h | h
  · simp [h] at hr
  · exact h (.inr hu)

/-- A granted head that has no place keeps its grant, and waits for its place. -/
theorem takeSem_holds {u : State} {n : BitVec 8} {t : BitVec 16} {w : Wait} {k : State → Act}
    (hg : ∃ g, u.me.grant = some (n, g)) : takeSem u n t false w k = .wait w id := by
  simp only [takeSem]
  rw [if_pos ((u.granted_iff n).2 hg), if_neg Bool.false_ne_true]

/-! ### The instructions -/

theorem Core.semWord_taken (u : State) (n : BitVec 8) (t : BitVec 16) :
    ((u.taken n t).core u.cur.core).semWord n =
      (0#47 ++ BitVec.ofBool ((u.core u.cur.core).mem.sf.getLsbD n.toNat) ++
        BitVec.ofNat 16 ((u.core u.cur.core).mem.sem[n.toFin].toNat - t.toNat) : Word) := by
  simp [State.taken, State.modMem, semWord]

/-- SEMWAIT with a threshold that is not 0: what its body does (R261). -/
theorem exec_semwait {x : SemwaitF} {s : State} (h : s.issues (mkForm x.q 26 (semOps x.i) [x.d]))
    (ht : semVal (s.took (mkForm x.q 26 (semOps x.i) [x.d])) x.i ≠ 0) :
    exec (.semwait x) s = .next (finish s 26
      (let u := s.took (mkForm x.q 26 (semOps x.i) [x.d])
       takeSem u x.n (semVal u x.i) true .semaphore fun t => writeG t x.d ((t.core t.cur.core).semWord x.n))) := by
  rw [exec_issue (execSemwait x) rfl rfl, issue_done _ h, if_neg ht]
  rfl

/-- Settles O11: the instructions by the rule of `takeSem`, and the order of grants by `grantLoop_spec`. -/
theorem semaphores : Obligations.Semaphores := by
  unfold Obligations.Semaphores
  refine ⟨fun x => ?_, fun x => ?_, fun x => ⟨?_, ?_⟩, fun x => ⟨?_, ?_, ?_⟩, fun a n v => ?_,
    fun x n => ⟨fun t => Slot.owes_of_grant, Slot.owes_of_not_granted⟩⟩
  · exact puts_of (exec_issue (execSemget x) rfl rfl) fun u _ _ => rfl
  · exact does_of (exec_issue (execSemset x) rfl rfl) fun u _ _ => rfl
  · refine does_of (exec_issue (execSemsig x) rfl rfl) fun u _ h => ?_
    simp only [Core.addSem, if_neg (Nat.not_lt.2 h)]
  · refine traps_of (exec_issue (execSemsig x) rfl rfl) fun u _ h => ?_
    simp only [Core.addSem, if_pos h]
  · refine puts_of (exec_issue (execSemwait x) rfl rfl) fun u _ h => ?_
    simp only [if_pos h]
    rfl
  · intro s u v hi ht hf
    have hin : (u.taken x.n (semVal u x.i)).cur.inline = false := hi.1
    have refuses : (u.taken x.n (semVal u x.i)).slimRefuses x.d v = u.slimRefuses x.d v := by
      simp only [State.slimRefuses, State.taken_cur, State.taken_me]
    rw [exec_semwait hi ht]
    simp only
    rw [takeSem_free hf]
    refine ⟨fun hs => ?_, fun hs => ?_⟩
    · rw [State.taken_cur, Core.semWord_taken, writeG_done _ hin (refuses.trans hs), finish_ok _ hi.1]
    · rw [State.taken_cur, Core.semWord_taken, writeG, if_pos (refuses.trans hs), finish_trap _ _ _ hi.1]
  · intro s hi ht hf
    rw [exec_semwait hi ht]
    simp only
    rw [takeSem_queues (fun hg => hf (.inl hg)) (.inr hf), finish_wait _ _ _ hi.1]
  · obtain ⟨g, all, others, fits, next, granted, kept⟩ :=
      Core.grants_order { a with mem := { a.mem with sem := a.mem.sem.set n.toFin v } } n
    rw [Core.freeSem_set] at fits next
    refine ⟨?_, g.map fun e : Fin 4 × BitVec 16 => (e.1, n, e.2), all, others, ?_, ?_, ?_, fun i hi => kept i ?_⟩
    · rw [Core.setSem, Core.grants_mem]
    · rw [List.map_map]
      exact fits
    · rw [List.map_map]
      exact next
    · intro e he
      obtain ⟨d, hd, rfl⟩ := List.mem_map.1 he
      exact granted d hd
    · exact fun e he => hi (e.1, n, e.2) (List.mem_map_of_mem he)

end Sys2Proof.Machine
end

section
/-! PROOFS. Local accesses and the full/empty bits (O20). -/

namespace Sys2Proof.Machine

/-! ### Windows, alignment and error codes of a local access (R96, R97, R242, R372) -/

theorem aligned_iff (a : Word) (n : Nat) : aligned a n = true ↔ a.toNat % n = 0 := by simp [aligned]

theorem localCheck_ok {a : Word} {n : Nat} (h : LocalOk a n) (k : Nat → Act) : localCheck a n k = k (offOf a) := by
  simp [localCheck, h.1, (aligned_iff a n).2 h.2]

theorem localCheck_window {a : Word} (n : Nat) (h : isLocal a = false) (k : Nat → Act) :
    localCheck a n k = .trap 0x0A a := by
  simp [localCheck, h]

theorem localCheck_align {a : Word} {n : Nat} (h : isLocal a = true) (ha : a.toNat % n ≠ 0) (k : Nat → Act) :
    localCheck a n k = .trap 0x07 a := by
  simp [localCheck, h, aligned, ha]

/-- A body that checks a local access first traps as `LocalTraps` says. -/
theorem localTraps_of {i : Instr} {f : Form} {a : State → Word} {n : Nat} {k : State → Nat → Act}
    (he : ∀ s, exec i s = issue f (fun u => localCheck (a u) n (k u)) s) : LocalTraps i f a n :=
  ⟨traps_of he fun u _ h => localCheck_window n h (k u), traps_of he fun u _ h => localCheck_align h.1 h.2 (k u)⟩

theorem readLocal_sound {u : State} {a : Word} {n : Nat} (h : u.sound a n) (k : State → Nat → Act) :
    readLocal u (offOf a) n k = k (u.corrects a n) (u.sramAt a n) := by
  have hb : (u.core u.cur.core).badWord (offOf a) n = none := h
  simp only [readLocal, hb]
  rfl

theorem Core.correct_slots (c : Core) (o n : Nat) (sl : Option (Fin 4)) : (c.correct o n sl).slots = c.slots := by
  unfold correct
  split <;> rfl

@[simp] theorem State.corrects_cur (u : State) (a : Word) (n : Nat) : (u.corrects a n).cur = u.cur := rfl
@[simp] theorem State.corrects_me (u : State) (a : Word) (n : Nat) : (u.corrects a n).me = u.me := by
  have h := Core.correct_slots (u.core u.cur.core) (offOf a) n (some u.cur.slot)
  simp only [State.me, State.slot, Core.slot, corrects_cur]
  simp only [State.corrects, State.core_modCore, h]

@[simp] theorem State.wr_cur (u : State) (d : GOp) (v : Word) : (u.wr d v).cur = u.cur := by
  unfold State.wr
  split
  · split <;> rfl
  · rfl

/-- A local address lies in SRAM: its granule is one of 4,096. -/
theorem offOf_lt (a : Word) : offOf a < 65536 := (a.extractLsb' 0 16).isLt

/-! ### Full/empty bits (R20) -/

/-- Setting a run of granules sets these and no other. -/
theorem setFullRun_getLsbD (f : BitVec 4096) {g n : Nat} (b : Bool) {i : Nat} (hn : g + n ≤ 4096) (hi : i < 4096) :
    (setFullRun f g n b).getLsbD i = if g ≤ i ∧ i < g + n then b else f.getLsbD i := by
  have mask : ((BitVec.allOnes 4096 >>> (4096 - n)) <<< g).getLsbD i = decide (g ≤ i ∧ i < g + n) := by
    rw [BitVec.getLsbD_shiftLeft, BitVec.getLsbD_ushiftRight, BitVec.getLsbD_allOnes, Bool.eq_iff_iff]
    simp only [Bool.and_eq_true, Bool.not_eq_true', decide_eq_true_eq, decide_eq_false_iff_not]
    omega
  unfold setFullRun
  generalize (BitVec.allOnes 4096 >>> (4096 - n)) <<< g = m at mask ⊢
  cases b
  · rw [if_neg Bool.false_ne_true, BitVec.getLsbD_and, BitVec.getLsbD_not, mask]
    by_cases h : g ≤ i ∧ i < g + n <;> simp [h, hi]
  · rw [if_pos rfl, BitVec.getLsbD_or, mask]
    by_cases h : g ≤ i ∧ i < g + n <;> simp [h]

/-- What FETEST reads: the bits of `m` granules from granule `g` (R245). -/
def fullRun (full : BitVec 4096) (g m : Nat) : Word := BitVec.ofNat 64 ((full >>> g).toNat % 2 ^ m)

theorem fullRun_getLsbD (full : BitVec 4096) (g m : Nat) {i : Nat} (hi : i < 64) :
    (fullRun full g m).getLsbD i = (decide (i < m) && full.getLsbD (g + i)) := by
  rw [fullRun, BitVec.getLsbD_ofNat, Nat.testBit_mod_two_pow, decide_eq_true hi, Bool.true_and, BitVec.testBit_toNat,
    BitVec.getLsbD_ushiftRight]

/-! ### The instructions (R244, R245) -/

/-- FESET (R245), of either kind. -/
theorem feset_spec {i : Instr} {x : FesetF} {b : Bool} (he : ∀ s, exec i s = feset b x s) :
    let f := mkForm x.q 5 (x.a :: r16Ops x.n) []
    let n := fun u : State => match x.n with | .imm v => v.toNat | .reg r => (u.rd r).toNat % 2 ^ 13
    Does i f (fun u => LocalOk (u.rd x.a) 16 ∧ n u = 0) id ∧
    Does i f (fun u => LocalOk (u.rd x.a) 16 ∧ n u ≠ 0 ∧ offOf (u.rd x.a) / 16 + n u ≤ 4096)
      (fun u => u.setFull u.cur.core (offOf (u.rd x.a) / 16) (n u) b) ∧
    Traps i f (fun u => LocalOk (u.rd x.a) 16 ∧ 4096 < offOf (u.rd x.a) / 16 + n u) 0x07 (fun u => u.rd x.a) ∧
    LocalTraps i f (fun u => u.rd x.a) 16 := by
  intro f n
  refine ⟨does_of he fun u _ ⟨ha, hn⟩ => ?_, does_of he fun u _ ⟨ha, hn, hg⟩ => ?_, traps_of he fun u _ ⟨ha, hg⟩ => ?_,
    localTraps_of he⟩
  · rw [localCheck_ok ha]
    exact if_pos hn
  · rw [localCheck_ok ha]
    exact (if_neg hn).trans (if_neg (Nat.not_lt.2 hg))
  · have : n u ≠ 0 := by
      have := offOf_lt (u.rd x.a)
      omega
    rw [localCheck_ok ha]
    exact (if_neg this).trans (if_pos hg)

/-- Settles O20: LDS, STF and FETEST by the checks of their access in order, FESET by `feset_spec`, and what a run of granules
holds by `setFullRun_getLsbD`. -/
theorem fullEmptyBits : Obligations.FullEmptyBits := by
  unfold Obligations.FullEmptyBits
  refine ⟨fun x => ⟨?_, ?_, ?_⟩, fun x => ⟨?_, ?_⟩, fun x b => ?_, fun x => ⟨fullRun, ?_, ?_, ?_, ?_, ?_⟩,
    fun f g n b i => setFullRun_getLsbD f b⟩
  · refine does_of (exec_issue (execLds x) rfl rfl) fun u hi ⟨ha, hf, hs, hr⟩ => ?_
    have hi' : (u.corrects (u.ea x.a x.o) (tyBytes x.t)).cur.inline = false := hi
    have hr' : (u.corrects (u.ea x.a x.o) (tyBytes x.t)).slimRefuses x.d (putTy x.t (u.sramAt (u.ea x.a x.o) (tyBytes x.t))) =
        false := by
      simpa only [State.slimRefuses, State.corrects_cur, State.corrects_me] using hr
    rw [localCheck_ok ha, if_neg (by simpa [getFull] using hf), readLocal_sound hs, writeG_done _ hi' hr', State.wr_cur]
    rfl
  · refine waits_of (exec_issue (execLds x) rfl rfl) fun u _ ⟨ha, hf⟩ => ?_
    rw [localCheck_ok ha, if_pos (by simpa [getFull] using hf)]
  · exact localTraps_of (exec_issue (execLds x) rfl rfl)
  · exact does_of (exec_issue (execStf x) rfl rfl) fun u _ ha => localCheck_ok ha _
  · exact localTraps_of (exec_issue (execStf x) rfl rfl)
  · cases b
    · exact feset_spec (exec_issue (execFesetEmpty x) rfl rfl)
    · exact feset_spec (exec_issue (execFesetFull x) rfl rfl)
  · exact fun full g m i _ => fullRun_getLsbD full g m
  · refine puts_of (exec_issue (execFetest x) rfl rfl) fun u _ ⟨ha, h0, h64, hg⟩ => ?_
    rw [localCheck_ok ha]
    exact (if_neg (not_or.2 ⟨h0, Nat.not_lt.2 h64⟩)).trans (if_neg (Nat.not_lt.2 hg))
  · refine traps_of (exec_issue (execFetest x) rfl rfl) fun u _ ⟨ha, hn⟩ => ?_
    rw [localCheck_ok ha]
    exact if_pos hn
  · refine traps_of (exec_issue (execFetest x) rfl rfl) fun u _ ⟨ha, h0, h64, hg⟩ => ?_
    rw [localCheck_ok ha]
    exact (if_neg (not_or.2 ⟨h0, Nat.not_lt.2 h64⟩)).trans (if_pos hg)
  · exact localTraps_of (exec_issue (execFetest x) rfl rfl)

end Sys2Proof.Machine
end

section
/-! PROOFS. What an issue turn does (O58). -/

namespace Sys2Proof.Machine

/-! ### The oldest-ready slot (R68) -/

theorem Core.oldestOf_concat (c : Core) (l : List (Fin 4)) (x : Fin 4) :
    c.oldestOf (l ++ [x]) =
      if (c.slot x).st = .ready then
        (match c.oldestOf l with
         | none => some x
         | some b => if (c.slot x).readyAt < (c.slot b).readyAt then some x else some b)
      else c.oldestOf l := by
  simp only [oldestOf, List.foldl_append, List.foldl_cons, List.foldl_nil, beq_iff_eq] <;> rfl

/-- The oldest-ready of slots in rising order: it is READY, none that is READY is older, and of those as old it is the lowest. -/
theorem Core.oldestOf_spec (c : Core) (l : List (Fin 4)) (hl : l.Pairwise (· < ·)) :
    (c.oldestOf l = none ↔ ∀ n ∈ l, (c.slot n).st ≠ .ready) ∧
    ∀ n, c.oldestOf l = some n → n ∈ l ∧ (c.slot n).st = .ready ∧ ∀ m ∈ l, (c.slot m).st = .ready →
      (c.slot n).readyAt ≤ (c.slot m).readyAt ∧ ((c.slot m).readyAt = (c.slot n).readyAt → n ≤ m) := by
  induction l using List.reverseRecOn with
  | nil => simp [oldestOf]
  | append_singleton l x ih =>
    rw [List.pairwise_append] at hl
    obtain ⟨hl, -, below⟩ := hl
    have below : ∀ m ∈ l, m < x := fun m hm => below m hm x (List.mem_singleton_self x)
    obtain ⟨noneIff, best⟩ := ih hl
    rw [oldestOf_concat]
    by_cases hx : (c.slot x).st = .ready
    · rw [if_pos hx]
      cases hb : c.oldestOf l with
      | none =>
        have idle := noneIff.1 hb
        refine ⟨by simp [hx], fun n hn => ?_⟩
        obtain rfl : x = n := Option.some.inj hn
        refine ⟨by simp, hx, fun m hm hr => ?_⟩
        rcases List.mem_append.1 hm with hm | hm
        · exact absurd hr (idle m hm)
        · obtain rfl := List.mem_singleton.1 hm
          exact ⟨le_rfl, fun _ => le_rfl⟩
      | some b =>
        obtain ⟨hbl, hbr, hbm⟩ := best b hb
        refine ⟨by simp only; split <;> simp [hx], fun n hn => ?_⟩
        simp only at hn
        split at hn
        · next lt =>
          obtain rfl : x = n := Option.some.inj hn
          refine ⟨by simp, hx, fun m hm hr => ?_⟩
          rcases List.mem_append.1 hm with hm | hm
          · have := (hbm m hm hr).1
            exact ⟨by omega, fun h => by omega⟩
          · obtain rfl := List.mem_singleton.1 hm
            exact ⟨le_rfl, fun _ => le_rfl⟩
        · next ge =>
          obtain rfl : b = n := Option.some.inj hn
          refine ⟨List.mem_append_left _ hbl, hbr, fun m hm hr => ?_⟩
          rcases List.mem_append.1 hm with hm | hm
          · exact hbm m hm hr
          · obtain rfl := List.mem_singleton.1 hm
            exact ⟨Nat.le_of_not_lt ge, fun _ => (below b hbl).le⟩
    · rw [if_neg hx]
      refine ⟨⟨fun h n hn => ?_, fun h => noneIff.2 fun n hn => h n (List.mem_append_left _ hn)⟩, fun n hn => ?_⟩
      · rcases List.mem_append.1 hn with hn | hn
        · exact noneIff.1 h n hn
        · exact List.mem_singleton.1 hn ▸ hx
      · obtain ⟨hnl, hnr, hnm⟩ := best n hn
        refine ⟨List.mem_append_left _ hnl, hnr, fun m hm hr => ?_⟩
        rcases List.mem_append.1 hm with hm | hm
        · exact hnm m hm hr
        · exact absurd hr (List.mem_singleton.1 hm ▸ hx)

/-! ### Fetching (R131, R132, R138) -/

theorem cpSlot_eq (pc : Word) : cpSlot pc = pc.toNat % 32 := by
  simp [cpSlot, BitVec.extractLsb'_toNat]

theorem cpBad_iff (pc : Word) :
    cpBad pc = true ↔ pc.toNat / 2 ^ 60 ≠ 0 ∨ pc.getLsbD 5 = true ∨ pc.toNat % 32 = 31 := by
  have top : pc.extractLsb' 60 4 = 0#4 ↔ pc.toNat / 2 ^ 60 = 0 := by
    have := pc.isLt
    rw [← BitVec.toNat_inj, BitVec.extractLsb'_toNat, Nat.shiftRight_eq_div_pow]
    simp only [BitVec.toNat_ofNat]
    omega
  rw [cpBad, cpSlot_eq, Bool.or_eq_true, Bool.or_eq_true, bne_iff_ne, beq_iff_eq, Ne, top, or_assoc]

theorem fetchAt_missing {c : Core} {pc : Word} (h : c.mem.lineAt pc = none) : fetchAt c pc = .error (0x0C, cpLine pc) := by
  simp only [fetchAt, h]

theorem fetchAt_line {c : Core} {pc : Word} {l : Line} (h : c.mem.lineAt pc = some l) :
    let bad := pc.toNat / 2 ^ 60 ≠ 0 ∨ pc.getLsbD 5 = true ∨ pc.toNat % 32 = 31 ∨ lineLegal 512 l = false ∨
      lineHC l ≤ pc.toNat % 32
    (bad → fetchAt c pc = .error (0x01, pc)) ∧
    (¬ bad → fetchAt c pc = .ok ⟨lineHead l (pc.toNat % 32), lineTail 512 l (pc.toNat % 32), nextHead l pc⟩) := by
  intro bad
  have hb : (cpBad pc || !lineLegal 512 l || decide (lineHC l ≤ cpSlot pc)) = true ↔ bad := by
    simp only [Bool.or_eq_true, cpBad_iff, Bool.not_eq_true', decide_eq_true_eq, cpSlot_eq, or_assoc, bad]
  simp only [fetchAt, h]
  exact ⟨fun b => by rw [if_pos (hb.2 b)], fun b => by rw [if_neg (mt hb.1 b), cpSlot_eq]⟩

/-! ### The turn of a slot that runs on its own -/

theorem State.freeDetached_solo {s : State} {k : CoreId} {n : Fin 4} (h : (s.slot k n).lace.code = .solo) :
    s.freeDetached k n = s := by
  rw [freeDetached, if_neg]
  rintro ⟨hd, -⟩
  exact nomatch h.symm.trans hd

theorem State.laceFull_solo {s : State} {k : CoreId} {n : Fin 4} (h : (s.slot k n).lace.code = .solo) :
    s.laceFull k n = false := by
  simp only [laceFull, h]
  rfl

section
variable {v : State} {k : CoreId} {n : Fin 4} (solo : (v.slot k n).lace.code = .solo) (still : v.moving k n = false)
  (calm : (v.slot k n).deferred = []) (unasked : (v.core k).regs.migt[n].getLsbD 63 = false)
include solo still calm unasked

/-- A head that cannot be fetched is a cause (R138). -/
theorem slotTurn_error {c : BitVec 8} {a : Word} (hf : fetchAt (v.core k) (v.slot k n).pc = .error (c, a))
    (stop : v.boundaryStop k n false = none) : slotTurn v k n = .next (v.takeTrap k n c a) := by
  simp only [slotTurn, State.freeDetached_solo solo, still, calm, unasked, solo, State.laceFull_solo solo, hf, stop,
    List.isEmpty_nil, Bool.not_true, Bool.false_and, Bool.false_eq_true, if_false, reduceCtorEq, false_and]

/-- One that can be is issued. -/
theorem slotTurn_head {f : Fetched} (hf : fetchAt (v.core k) (v.slot k n).pc = .ok f)
    (stop : v.boundaryStop k n (isHalt f.head) = none) : slotTurn v k n = issueHead v k n f := by
  simp only [slotTurn, State.freeDetached_solo solo, still, calm, unasked, solo, State.laceFull_solo solo, hf, stop,
    List.isEmpty_nil, Bool.not_true, Bool.false_and, Bool.false_eq_true, if_false, reduceCtorEq, false_and]

end

/-! ### The issue turn of a core (R18, R68) -/

theorem step_issue {s : State} {k : CoreId} {rest : List Choice} (h : s.agenda = .issue k :: rest) :
    step s = issueTurn { s with now := s.now + 2, agenda := rest } k := by
  simp only [step, nextStep, h]
  rfl

theorem State.noteAccess_unlogged {s t : State} {k : CoreId} {sl : Fin 4} {issuer : Nat} {done : Bool} (h : s.logMode k = 0) :
    s.noteAccess t k sl issuer done = .ok t := by
  simp [noteAccess, h]

theorem State.noteEnd_unlogged {s t : State} {k : CoreId} {h : Handler} (hl : s.logMode k = 0) :
    s.noteEnd t k h = .ok t := by
  simp [noteEnd, hl]

section
variable {s v : State} {k : CoreId} {n : Fin 4} (runs : s.coreRuns k = true)
  (free : (((((s.countWaits k).countStall k).wakeSlots k).inlineDue k).core k).handler = none)
  (turn : v = ((((s.countWaits k).countStall k).wakeSlots k).inlineDue k).modCore k fun c => { c with handlerDone := false })
  (first : (((((s.countWaits k).countStall k).wakeSlots k).inlineDue k).core k).oldest = some n)
include runs free turn first

/-- Where no handler runs, the oldest-ready slot has its turn, and what it accesses is noted. -/
theorem issueTurn_noted {t t' : State} (ht : slotTurn v k n = .next t)
    (hn : v.noteAccess t k n n.val (v.turned t k n) = .ok t') : issueTurn s k = .next t' := by
  have first' : (v.core k).oldestOf (List.finRange 4) = some n := by
    subst turn
    rw [State.core_modCore]
    exact first
  simp only [issueTurn, runs, free, State.slotsTurn, ← turn, State.turnAmong, first', ht, hn, Bool.not_true,
    Bool.false_eq_true, if_false]

theorem issueTurn_unlogged (hl : v.logMode k = 0) : issueTurn s k = slotTurn v k n := by
  have first' : (v.core k).oldestOf (List.finRange 4) = some n := by
    subst turn
    rw [State.core_modCore]
    exact first
  cases ht : slotTurn v k n with
  | next t => exact issueTurn_noted runs free turn first ht (State.noteAccess_unlogged hl)
  | _ =>
    simp only [issueTurn, runs, free, State.slotsTurn, ← turn, State.turnAmong, first', ht, Bool.not_true,
      Bool.false_eq_true, if_false]

end

/-! ### The handler's turn (R74 to R76) -/

@[simp] theorem Core.settleQueue_handler (c : Core) (q : Fin 4) (fuel : Nat) : (c.settleQueue q fuel).handler = c.handler := by
  induction fuel generalizing c with
  | zero => rfl
  | succ fuel ih =>
    simp only [settleQueue]
    split
    · rfl
    · split
      · exact ih _
      · rfl

@[simp] theorem Core.settle_handler (c : Core) : c.settle.handler = c.handler := by
  have keep (c : Core) (q : Fin 4) : (if c.queueHeld q then c else c.settleQueue q c.arr[q].length).handler = c.handler := by
    split
    · rfl
    · exact settleQueue_handler _ _ _
  simp only [settle, List.foldl_cons, List.foldl_nil, keep]

theorem State.acted_core (s : State) (k j : CoreId) (m : Msg) : (s.acted k m).core j = s.core j := by
  unfold acted
  split <;> rfl

@[simp] theorem State.noteUE_handler (s : State) (k j : CoreId) (c : BitVec 8) (a : Word) :
    ((s.noteUE k c a).core j).handler = (s.core j).handler := by
  unfold noteUE
  split
  · exact State.part_modCore (·.handler) s k j _ rfl
  · rfl

@[simp] theorem State.defer_handler (s : State) (k j : CoreId) (sl : Fin 4) (c : BitVec 8) (a : Word) (o : Bool) :
    ((s.defer k sl c a o).core j).handler = (s.core j).handler := by
  unfold defer
  simp only
  split
  · exact (State.part_modCore (·.handler) _ k j _ rfl).trans (s.noteUE_handler k j c a)
  · exact (State.part_modCore (·.handler) _ k j _ rfl).trans (s.noteUE_handler k j c a)

/-- A handler that fails is abandoned (R76). -/
theorem State.handlerFail_handler (s : State) (k : CoreId) (h : Handler) (c : BitVec 8) (a : Word) :
    ((s.handlerFail k h c a).core k).handler = none := by
  rw [handlerFail, defer_handler, handlerEnd, acted_core, core_modCore, Core.settle_handler]

section
variable {s u : State} {k : CoreId} {h : Handler} (runs : s.coreRuns k = true)
  (turn : u = (((s.countWaits k).countStall k).wakeSlots k).inlineDue k) (busy : (u.core k).handler = some h)
  (unlogged : u.logMode k = 0)
include runs turn busy unlogged

/-- The handler's turn, where it does not wait at its head. -/
theorem issueTurn_handler {t : State} (ht : handlerTurn u k h = .next t)
    (gone : (t.core k).handler.map Handler.next ≠ some h.next) : issueTurn s k = .next t := by
  simp only [issueTurn, runs, ← turn, busy, ht, if_neg gone, State.noteAccess_unlogged unlogged, State.noteEnd_unlogged unlogged,
    Bool.not_true, Bool.false_eq_true, if_false]

end

/-- What the handler's head does, where its line is in order and the head decodes (R75). -/
theorem handlerTurn_decoded {u w : State} {k : CoreId} {h : Handler} {i : Instr}
    (hw : w = { u.count k 1 (some h.slot) with
      cur := ⟨k, h.slot, true, lineHead h.line h.next, lineTail (64 * h.cl) h.line h.next, 0⟩ })
    (next : h.next < lineHC h.line) (short : lineHC h.line ≤ 4) (legal : lineLegal (64 * h.cl) h.line = true)
    (dec : decode w.cur.head w.cur.tail = .ok i) :
    (handlerForm i = none → handlerTurn u k h = .next (w.handlerFail k h 0x02 (w.cur.head.setWidth 64))) ∧
    (handlerForm i = some false → handlerTurn u k h = .next (w.handlerFail k h 0x03 (w.cur.head.setWidth 64))) ∧
    (handlerForm i = some true → handlerTurn u k h = exec i w) := by
  subst hw
  have heads : (!lineLegal (64 * h.cl) h.line || lineHC h.line == 0 || decide (4 < lineHC h.line)) = false := by
    simp [legal, short]
    omega
  simp only at dec
  refine ⟨fun hf => ?_, fun hf => ?_, fun hf => ?_⟩ <;>
    simp only [handlerTurn, heads, dec, hf, Bool.false_eq_true, if_false, State.headWord]

/-! ### The statement -/

theorem issueHead_eq {v w : State} {k : CoreId} {n : Fin 4} {f : Fetched}
    (hw : w = { (v.count k 1 (some n)).modCore k (fun c => c.unpark n) with cur := ⟨k, n, false, f.head, f.tail, f.next⟩ }) :
    (∀ i, decode f.head f.tail = .ok i → issueHead v k n f = exec i w) ∧
    (decode f.head f.tail = .error .illegalOp → issueHead v k n f = .next (w.takeTrap k n 0x02 (f.head.setWidth 64))) ∧
    (decode f.head f.tail = .error .illegalForm → issueHead v k n f = .next (w.takeTrap k n 0x03 (f.head.setWidth 64))) := by
  subst hw
  refine ⟨fun i hd => ?_, fun hd => ?_, fun hd => ?_⟩ <;> simp only [issueHead, hd, State.headWord]

/-- Settles O58: the turn of the oldest-ready slot (`slotTurn_head`, `issueTurn_noted`), that of a handler
(`handlerTurn_decoded`), what `fetchAt` finds, and which slot is the oldest. -/
theorem stepRunsDecoded : Obligations.StepRunsDecoded := by
  unfold Obligations.StepRunsDecoded
  refine ⟨?_, ?_, fun c pc => ⟨fetchAt_missing, fun l hl => ?_⟩, fun c => ?_⟩
  · intro s k rest n agenda s1 u v x runs free first solo still calm unasked stop
    rw [step_issue agenda]
    refine ⟨fun hl c a hf => ?_, fun f hf stop' => ?_⟩
    · rw [issueTurn_unlogged runs free rfl first hl, slotTurn_error solo still calm unasked hf stop]
    · intro w
      have head := slotTurn_head solo still calm unasked hf stop'
      obtain ⟨runs', noOp, noForm⟩ := issueHead_eq (w := w) rfl
      refine ⟨fun i t t' hd ht hn => issueTurn_noted runs free rfl first (head.trans ((runs' i hd).trans ht)) hn,
        fun hl i hd => ?_, fun hl hd => ?_, fun hl hd => ?_⟩
      · rw [issueTurn_unlogged runs free rfl first hl, head, runs' i hd]
      · rw [issueTurn_unlogged runs free rfl first hl, head, noOp hd]
      · rw [issueTurn_unlogged runs free rfl first hl, head, noForm hd]
  · intro s k rest h agenda s1 u w runs busy hl next short legal i hd
    obtain ⟨noOp, noForm, runs'⟩ := handlerTurn_decoded (w := w) rfl next short legal hd
    rw [step_issue agenda]
    have failed (c : BitVec 8) (a : Word) :
        ((w.handlerFail k h c a).core k).handler.map Handler.next ≠ some h.next := by
      rw [State.handlerFail_handler]
      exact nofun
    exact ⟨fun hf => issueTurn_handler runs rfl busy hl (noOp hf) (failed _ _),
      fun hf => issueTurn_handler runs rfl busy hl (noForm hf) (failed _ _),
      fun hf t ht gone => issueTurn_handler runs rfl busy hl ((runs' hf).trans ht) gone⟩
  · obtain ⟨isBad, isOk⟩ := fetchAt_line hl
    refine ⟨isBad, fun hb => ⟨_, isOk hb, rfl, rfl, ?_⟩⟩
    simp only [nextHead, cpSlot_eq]
  · obtain ⟨noneIff, best⟩ := c.oldestOf_spec (List.finRange 4) (List.pairwise_lt_finRange 4)
    refine ⟨noneIff.trans ⟨fun h n => h n (List.mem_finRange n), fun h n _ => h n⟩, fun n hn => ?_⟩
    obtain ⟨-, ready, oldest⟩ := best n hn
    exact ⟨ready, fun m => oldest m (List.mem_finRange m)⟩

end Sys2Proof.Machine
end

section
/-! PROOFS. What a write to module memory, and a charge of a quay, leave alone: the frame that the proofs about launches and
messages use. -/

namespace Sys2Proof.Machine

/-! ### The frame of a write to module memory (R117, R118, R336) -/

/-- A launch, but for whether its counter has been met. -/
def Launch.unmet (l : Launch) : Launch := { l with met := false }

/-- A partition after a write: of its launches only which counters are met has changed. -/
structure Partition.MetOnly (x y : Partition) : Prop where
  rest : y = { x with launches := y.launches }
  launches : y.launches.map Launch.unmet = x.launches.map Launch.unmet

/-- A slot after a write: its watch, its EV and its reply may have changed. -/
structure Slot.EndedOnly (x y : Slot) : Prop where
  rest : y = { x with ev := y.ev, watch := y.watch, reply := y.reply }

/-- A core after a write: only slots have changed, and these as `Slot.EndedOnly` says. -/
structure Core.EndedOnly (c d : Core) : Prop where
  rest : d = { c with slots := d.slots }
  slots : ∀ n, (c.slot n).EndedOnly (d.slot n)

/-- What writes to module memory leave of a state, with the watches and waits that they end, and the charges and the frames of
the quays that carry them. -/
structure State.WriteFrame (s t : State) : Prop where
  vfs : t.vfs = s.vfs
  mesh : t.mesh = s.mesh
  parts : ∀ p, (s.part p).MetOnly (t.part p)
  cores : ∀ k, (s.core k).EndedOnly (t.core k)

theorem Partition.MetOnly.refl (x : Partition) : x.MetOnly x := ⟨rfl, rfl⟩

theorem Partition.MetOnly.trans {x y z : Partition} (h : x.MetOnly y) (h' : y.MetOnly z) : x.MetOnly z :=
  ⟨by rw [h'.rest, h.rest], h'.launches.trans h.launches⟩

theorem Slot.EndedOnly.refl (x : Slot) : x.EndedOnly x := ⟨rfl⟩

theorem Slot.EndedOnly.trans {x y z : Slot} (h : x.EndedOnly y) (h' : y.EndedOnly z) : x.EndedOnly z :=
  ⟨by rw [h'.rest, h.rest]⟩

theorem Core.EndedOnly.refl (c : Core) : c.EndedOnly c := ⟨rfl, fun n => .refl (c.slot n)⟩

theorem Core.EndedOnly.trans {c d e : Core} (h : c.EndedOnly d) (h' : d.EndedOnly e) : c.EndedOnly e :=
  ⟨by rw [h'.rest, h.rest], fun n => (h.slots n).trans (h'.slots n)⟩

theorem Core.EndedOnly.setSlot {c : Core} {n : Fin 4} {x : Slot} (h : (c.slot n).EndedOnly x) : c.EndedOnly (c.setSlot n x) := by
  refine ⟨rfl, fun m => ?_⟩
  by_cases hm : m = n
  · subst hm
    rw [slot_setSlot]
    exact h
  · rw [slot_setSlot_ne _ _ _ _ hm]
    exact .refl _

theorem Core.EndedOnly.asked {c d : Core} (h : c.EndedOnly d) (n : Fin 4) : (d.slot n).asked = (c.slot n).asked := by
  rw [(h.slots n).rest]

namespace State.WriteFrame

variable {s t u : State}

theorem refl (s : State) : s.WriteFrame s := ⟨rfl, rfl, fun _ => .refl _, fun _ => .refl _⟩

theorem trans (h : s.WriteFrame t) (h' : t.WriteFrame u) : s.WriteFrame u :=
  ⟨h'.vfs.trans h.vfs, h'.mesh.trans h.mesh, fun p => (h.parts p).trans (h'.parts p), fun k => (h.cores k).trans (h'.cores k)⟩

/-- A step that leaves these components as they are. -/
theorem of_eq (hv : t.vfs = s.vfs) (hm : t.mesh = s.mesh) (hp : t.parts = s.parts) (hc : t.cores = s.cores) :
    s.WriteFrame t :=
  ⟨hv, hm, fun p => by simp only [part, hp]; exact .refl _, fun k => by simp only [core, hc]; exact .refl _⟩

theorem foldl {α : Type} {f : State → α → State} (hf : ∀ (s : State) (a : α), s.WriteFrame (f s a)) (l : List α) (s : State) :
    s.WriteFrame (l.foldl f s) := by
  induction l generalizing s with
  | nil => exact refl s
  | cons a l ih => exact (hf s a).trans (ih _)

theorem modSlot {k : CoreId} {n : Fin 4} {g : Slot → Slot} (h : (s.slot k n).EndedOnly (g (s.slot k n))) :
    s.WriteFrame (s.modSlot k n g) := by
  refine ⟨rfl, rfl, fun _ => .refl _, fun j => ?_⟩
  by_cases hj : j = k
  · subst hj
    rw [core_modSlot]
    exact .setSlot h
  · rw [core_modSlot_ne _ _ _ _ _ hj]
    exact .refl _

theorem modPart {p : Nat} {g : Partition → Partition} (h : (s.part p).MetOnly (g (s.part p))) : s.WriteFrame (s.modPart p g) := by
  refine ⟨rfl, rfl, fun j => ?_, fun _ => .refl _⟩
  by_cases hj : j = p
  · subst hj
    rw [part_modPart]
    exact h
  · rw [part_modPart_ne _ _ _ _ hj]
    exact .refl _

end State.WriteFrame

theorem State.endWatch_frame (s : State) (k : CoreId) (sl : Fin 4) (c : BitVec 3) : s.WriteFrame (s.endWatch k sl c) := by
  unfold endWatch
  split
  · exact .trans (.modSlot (k := k) (n := sl)
      (g := fun x => { x with ev := true, watch := { x.watch with armed := false, ended := some c } }) ⟨rfl⟩)
      (.of_eq rfl rfl rfl rfl)
  · exact .refl s

theorem State.countReached_frame (s : State) (w : CntWait) : s.WriteFrame (s.countReached w) := by
  simp only [countReached]
  split
  · exact .modSlot ⟨rfl⟩
  · exact .refl s

theorem State.depReached_frame (s : State) (w : DepWait) : s.WriteFrame (s.depReached w) := by
  unfold depReached
  split
  · refine .modPart ⟨rfl, ?_⟩
    rw [List.map_map]
    refine List.map_congr_left fun l _ => ?_
    simp only [Function.comp]
    split <;> rfl
  · exact .refl s

theorem State.lineWritten_frame (s : State) (d : Nat) : s.WriteFrame (s.lineWritten d) := by
  unfold lineWritten
  refine .trans ?_ (.foldl depReached_frame _ _)
  refine .trans ?_ (.foldl countReached_frame _ _)
  exact .foldl (fun (s : State) (w : Watch) => s.endWatch_frame w.core w.slot 0) _ _

theorem State.gwrite_frame (s : State) (d n v : Nat) : s.WriteFrame (s.gwrite d n v) :=
  .trans (t := { s with gmem := s.gmem.writeLE d n v }) (.of_eq rfl rfl rfl rfl) (.foldl lineWritten_frame _ _)

theorem State.gwriteBytes_frame (s : State) (d : Nat) (l : List Byte) : s.WriteFrame (s.gwriteBytes d l) := by
  unfold gwriteBytes
  split
  · exact .refl s
  · exact .trans (t := { s with gmem := s.gmem.writeBytes d l }) (.of_eq rfl rfl rfl rfl) (.foldl lineWritten_frame _ _)

theorem State.saveBytes_frame (s : State) (c : PartCtx) (vf va : Nat) (l : List Byte) (fuel : Nat) :
    s.WriteFrame (s.saveBytes c vf va l fuel) := by
  induction fuel generalizing s va l with
  | zero => exact .refl s
  | succ fuel ih =>
    simp only [saveBytes]
    split
    · exact .refl s
    · refine .trans ?_ (ih _ _ _)
      split
      · exact .refl s
      · split
        · exact .refl s
        · exact s.gwriteBytes_frame _ _

/-! ### Charges of the quays (R344) -/

/-- A charge of a quay falls to its field's meters. -/
theorem State.chargeQuay_eq (s : State) (q vf n : Nat) : ∃ l, s.chargeQuay q vf n = { s with fields := l } := by
  simp only [chargeQuay]
  split
  · exact ⟨s.fields, rfl⟩
  · exact ⟨_, rfl⟩

theorem State.chargeVa_eq (s : State) (c : PartCtx) (vf : Nat) (acc : BitVec 8) (va n fuel : Nat) :
    ∃ l, s.chargeVa c vf acc va n fuel = { s with fields := l } := by
  induction fuel generalizing s va n with
  | zero => exact ⟨s.fields, rfl⟩
  | succ fuel ih =>
    simp only [chargeVa]
    split
    · exact ⟨s.fields, rfl⟩
    · split
      · exact ⟨s.fields, rfl⟩
      · next d _ _ =>
        obtain ⟨l, hl⟩ := s.chargeQuay_eq (s.quayOf d) vf (min n (65536 - va % 65536))
        rw [hl]
        obtain ⟨l', hl'⟩ := ih { s with fields := l } (va + min n (65536 - va % 65536)) (n - min n (65536 - va % 65536))
        exact ⟨l', hl'⟩

theorem State.chargeVas_eq (s : State) (c : PartCtx) (vf : Nat) (acc : BitVec 8) (l : List (Nat × Nat)) :
    ∃ fs, s.chargeVas c vf acc l = { s with fields := fs } := by
  unfold chargeVas
  induction l generalizing s with
  | nil => exact ⟨s.fields, rfl⟩
  | cons e l ih =>
    obtain ⟨fs, hfs⟩ := s.chargeVa_eq c vf acc e.1 e.2 (e.2 / 65536 + 2)
    rw [List.foldl_cons, hfs]
    obtain ⟨fs', hfs'⟩ := ih { s with fields := fs }
    exact ⟨fs', hfs'⟩

theorem State.chargeQuay_frame (s : State) (q vf n : Nat) : s.WriteFrame (s.chargeQuay q vf n) := by
  obtain ⟨l, h⟩ := s.chargeQuay_eq q vf n
  rw [h]
  exact .of_eq rfl rfl rfl rfl

theorem State.hubWrite_frame (s : State) (p d v : Nat) : s.WriteFrame (s.hubWrite p d v) := by
  unfold hubWrite
  split
  · exact s.gwrite_frame d 8 v
  · split
    · exact .refl s
    · exact .of_eq rfl rfl rfl rfl

/-- The status store of a packet (R334). -/
theorem State.writeStatus_frame (s : State) (p : Nat) (c : PartCtx) (vf : Nat) (k : Packet) (w : Word) :
    s.WriteFrame (s.writeStatus p c vf k w) := by
  simp only [writeStatus]
  split
  · exact .refl s
  · split
    · exact .refl s
    · exact (s.hubWrite_frame _ _ _).trans (chargeQuay_frame _ _ _ _)

/-! ### Sparse maps -/

/-- What a map lists is still listed after a change, or was its entry for that key. -/
theorem mem_mset_of_mem {α : Type} {l : List (Nat × α)} {e : Nat × α} (k : Nat) (v : α) (h : e ∈ l) :
    e ∈ mset l k v ∨ e.1 = k ∧ mget l k = some e.2 := by
  induction l with
  | nil => cases h
  | cons a l ih =>
    simp only [mset, mget]
    by_cases hk : k = a.1
    · rcases List.mem_cons.1 h with rfl | h
      · exact .inr ⟨hk.symm, by simp [hk]⟩
      · exact .inl (by simp [hk, h])
    · rw [if_neg hk, if_neg hk]
      by_cases hlt : k < a.1
      · rw [if_pos hlt]
        exact .inl (List.mem_cons_of_mem _ h)
      · rw [if_neg hlt]
        rcases List.mem_cons.1 h with rfl | h
        · exact .inl (List.mem_cons_self ..)
        · exact (ih h).imp (List.mem_cons_of_mem _) id

theorem mem_mset_self {α : Type} (l : List (Nat × α)) (k : Nat) (v : α) : (k, v) ∈ mset l k v :=
  mem_of_mget (mget_mset_self l k v)

end Sys2Proof.Machine
end

section
/-! PROOFS. What the dispatcher does with a launch packet (O46). -/

namespace Sys2Proof.Machine

/-! ### Launch numbers (R27) -/

/-- A number that a launch may take. -/
def freeNumber (held : List Nat) (n : Nat) : Prop := n ≠ 0 ∧ n ∉ held

theorem nextNumber_congr {held held' : List Nat} (h : ∀ n, n ∈ held ↔ n ∈ held') (last fuel : Nat) :
    nextNumber held last fuel = nextNumber held' last fuel := by
  induction fuel generalizing last with
  | zero => rfl
  | succ fuel ih => simp only [nextNumber, List.contains_iff_mem, h, ih]

/-- The next number is the first one after the last that is free, where one is within the fuel. -/
theorem nextNumber_spec (held : List Nat) (last fuel : Nat)
    (h : ∃ j, 1 ≤ j ∧ j ≤ fuel ∧ freeNumber held ((last + j) % 65536)) :
    ∃ j, 1 ≤ j ∧ j ≤ fuel ∧ nextNumber held last fuel = (last + j) % 65536 ∧ freeNumber held ((last + j) % 65536) ∧
      ∀ i, 1 ≤ i → i < j → ¬freeNumber held ((last + i) % 65536) := by
  induction fuel generalizing last with
  | zero => obtain ⟨j, h1, h0, -⟩ := h; omega
  | succ fuel ih =>
    have shift (j : Nat) : ((last + 1) % 65536 + j) % 65536 = (last + (j + 1)) % 65536 := by omega
    by_cases free : freeNumber held ((last + 1) % 65536)
    · refine ⟨1, le_rfl, by omega, ?_, free, fun i h1 h2 => by omega⟩
      simp only [nextNumber, List.contains_iff_mem]
      exact if_neg fun e => e.elim free.1 free.2
    · obtain ⟨j, h1, hj, hfree⟩ := h
      have hj1 : j ≠ 1 := by rintro rfl; exact free hfree
      obtain ⟨i, i1, ifuel, heq, ifree, least⟩ :=
        ih ((last + 1) % 65536) ⟨j - 1, by omega, by omega, by rw [shift, Nat.sub_add_cancel h1]; exact hfree⟩
      refine ⟨i + 1, by omega, by omega, ?_, by rwa [shift] at ifree, fun m m1 mi => ?_⟩
      · rw [← shift, ← heq]
        simp only [nextNumber, List.contains_iff_mem]
        exact if_pos (by unfold freeNumber at free; tauto)
      · rcases Nat.eq_or_lt_of_le m1 with rfl | m2
        · exact free
        · have := least (m - 1) (by omega) (by omega)
          rwa [shift, Nat.sub_add_cancel m1] at this

/-- Some number after the last is any number below 65,536. -/
theorem exists_step_to (last n : Nat) (hn : n < 65536) : ∃ j, 1 ≤ j ∧ j ≤ 65536 ∧ (last + j) % 65536 = n :=
  ⟨(n + 65536 - last % 65536 - 1) % 65536 + 1, by omega, by omega, by omega⟩

/-- A change of a listed partition that keeps its launches leaves the resident launches of every VF. -/
theorem State.mem_vfLaunches_modPart {s : State} {p : Nat} {g : Partition → Partition}
    (hg : (g (s.part p)).launches = (s.part p).launches) (hp : (s.part p).launches ≠ [] → mget s.parts p = some (s.part p))
    (vf n : Nat) : n ∈ (s.modPart p g).vfLaunches vf ↔ n ∈ s.vfLaunches vf := by
  simp only [vfLaunches, modPart, List.mem_flatMap]
  constructor
  · rintro ⟨e, he, hn⟩
    rcases eq_or_mem_of_mem_mset he with rfl | he
    · rw [hg] at hn
      have listed := hp (by rintro h; simp [h] at hn)
      exact ⟨_, mem_of_mget listed, hn⟩
    · exact ⟨e, he, hn⟩
  · rintro ⟨e, he, hn⟩
    rcases mem_mset_of_mem p (g (s.part p)) he with he | ⟨-, hm⟩
    · exact ⟨e, he, hn⟩
    · refine ⟨_, mem_mset_self s.parts p (g (s.part p)), ?_⟩
      have : s.part p = e.2 := by simp [State.part, hm]
      rwa [hg, this]

/-! ### The answer to a packet (R274, R334, R336) -/

theorem State.answerSpawn_frame (s : State) (src : PktSrc) (w : Word) : s.WriteFrame (s.answerSpawn src w) := by
  unfold answerSpawn
  split
  · next k sl =>
    refine .modSlot ?_
    split
    · exact ⟨rfl⟩
    · exact .refl _
  · exact .refl s

/-- The slot that asked gets the status word. -/
theorem State.answerSpawn_reply (s : State) (k : CoreId) (sl : Fin 4) (w : Word) (h : (s.slot k sl).asked = true) :
    ((s.answerSpawn (.spawn k sl) w).slot k sl).reply = some (.value w) := by
  simp [answerSpawn, h]

theorem State.watchDep_frame (s : State) (p vf num : Nat) (k : Packet) : s.WriteFrame (s.watchDep p vf num k) := by
  unfold watchDep
  split
  · exact .refl s
  · split
    · exact .refl s
    · exact .of_eq rfl rfl rfl rfl

/-- What the taking of a packet charges touches the fields' meters alone. -/
theorem State.takePacket_charge (s : State) (p : Nat) (src : PktSrc) (vf : Nat) (k : Packet) :
    ∃ fs, (if k.malformed || s.notPermitted vf src k then s
      else s.chargeVas ((s.part p).vfCtx vf) vf 0 (s.imageReads ((s.part p).vfCtx vf) vf k)) = { s with fields := fs } := by
  split
  · exact ⟨s.fields, rfl⟩
  · exact s.chargeVas_eq _ _ _ _

/-- A refused packet: counted, its status stored and answered. -/
theorem State.takePacket_refused {s : State} {p : Nat} {src : PktSrc} {vf : Nat} {bytes : List Byte} {n : Nat}
    (h : s.validate p vf src (packetOf (packetWords bytes)) = .error n) :
    ∃ t, (s.modVf vf fun v => { v with refused := v.refused + 1 }).WriteFrame t ∧
      s.takePacket p src vf bytes = t.answerSpawn src (statusWord n 0) := by
  obtain ⟨fs, hfs⟩ := s.takePacket_charge p src vf (packetOf (packetWords bytes))
  have charged : (s.modVf vf fun v => { v with refused := v.refused + 1 }).WriteFrame
      ({ s with fields := fs }.modVf vf fun v => { v with refused := v.refused + 1 }) := .of_eq rfl rfl rfl rfl
  refine ⟨_, charged.trans (writeStatus_frame _ p ((s.part p).vfCtx vf) vf (packetOf (packetWords bytes)) (statusWord n 0)), ?_⟩
  simp only [takePacket, h, hfs]

/-- An accepted packet: its launch is listed under the next number, counted, its status stored and answered. -/
theorem State.takePacket_accepted {s : State} {p : Nat} {src : PktSrc} {vf : Nat} {bytes : List Byte} {img : Image}
    (h : s.validate p vf src (packetOf (packetWords bytes)) = .ok img) :
    ∃ l t, ((s.modVf vf fun v => { v with accepted := v.accepted + 1, lastLaunch := l.num }).modPart p fun x =>
        { x with launches := x.launches ++ [l] }).WriteFrame t ∧
      s.takePacket p src vf bytes = t.answerSpawn src (statusWord 0 l.num) ∧ l.vf = vf ∧ l.img = img ∧
      l.st = (if (packetOf (packetWords bytes)).depen then .held else .queued) ∧
      l.num = nextNumber (s.vfLaunches vf) (s.vf vf).lastLaunch 65536 := by
  obtain ⟨fs, hfs⟩ := s.takePacket_charge p src vf (packetOf (packetWords bytes))
  let c := { s with fields := fs }
  let num := nextNumber (s.vfLaunches vf) (s.vf vf).lastLaunch 65536
  let l := c.newLaunch p vf num (packetWords bytes) img
  have charged : ((s.modVf vf fun v => { v with accepted := v.accepted + 1, lastLaunch := num }).modPart p fun x =>
        { x with launches := x.launches ++ [l] }).WriteFrame
      ((c.modVf vf fun v => { v with accepted := v.accepted + 1, lastLaunch := num }).modPart p fun x =>
        { x with launches := x.launches ++ [l] }) := .of_eq rfl rfl rfl rfl
  refine ⟨l, _, (charged.trans (watchDep_frame _ p vf num (packetOf (packetWords bytes)))).trans
    (writeStatus_frame _ p ((s.part p).vfCtx vf) vf (packetOf (packetWords bytes)) (statusWord 0 num)), ?_, rfl, rfl, rfl, rfl⟩
  simp only [takePacket, h, hfs]
  rfl

/-! ### The first packet that the dispatcher looks at (R305, R308, R333) -/

theorem Partition.packetDue_first {x : Partition} {i : Nat} (h : x.packetDue = some i) :
    (x.phase = .run → i = 0) ∧ (x.phase ≠ .run → ∃ k sl y, x.packets[i]? = some (.spawn k sl, y) ∧
      ∀ j < i, ∀ q, x.packets[j]? = some q → q.1.isSpawn = false) := by
  unfold packetDue at h
  split at h
  · next hr =>
    refine ⟨fun _ => ?_, fun hn => absurd hr hn⟩
    split at h
    · cases h
    · exact (Option.some.inj h).symm
  · next hr =>
    refine ⟨fun e => absurd e hr, fun _ => ?_⟩
    obtain ⟨hi, hsp, before⟩ := List.findIdx?_eq_some_iff_getElem.1 h
    generalize hq : x.packets[i] = q at hsp
    obtain ⟨src, y⟩ := q
    cases src with
    | spawn k sl =>
      refine ⟨k, sl, y, by rw [List.getElem?_eq_getElem hi, hq], fun j hj q hjq => ?_⟩
      obtain ⟨_, rfl⟩ := List.getElem?_eq_some_iff.1 hjq
      simpa using before j hj
    | host => cases hsp
    | net _ => cases hsp

/-! ### The apertures (R333, R396) -/

theorem launchApertureWrite_spec (vf p off : Nat) (bytes : List Byte) (s : State) (hv : (s.part p).valid = true)
    (hvf : vf < 512) :
    (0x40 ≤ off → exec (.launchApertureWrite vf p off bytes) s = .next s) ∧
    (off < 0x40 → (s.part p).phase = .run ∨ (s.part p).hostHolds vf < 16 →
      (off = 0 → bytes.length = 64 → exec (.launchApertureWrite vf p off bytes) s =
        .next (s.modPart p fun x => { x with packets := x.packets ++ [(.host, vf, bytes)] })) ∧
      (off ≠ 0 ∨ bytes.length ≠ 64 → exec (.launchApertureWrite vf p off bytes) s =
        .next (s.modVf vf fun v => { v with refused := v.refused + 1 }))) := by
  have run : exec (.launchApertureWrite vf p off bytes) s = execLaunchApertureWrite vf p off bytes s := rfl
  have hvf' : ¬512 ≤ vf := by omega
  rw [run]
  refine ⟨fun beyond => ?_, fun inside room => ?_⟩
  · have : ¬off < 0x40 := by omega
    simp [execLaunchApertureWrite, event, hv, hvf', this, beyond]
  · have taken : ¬((s.part p).phase ≠ .run ∧ 16 ≤ (s.part p).hostHolds vf) := fun h =>
      room.elim h.1 (by have := h.2; omega)
    have hoff : ¬0x40 ≤ off := by omega
    refine ⟨fun h0 hlen => ?_, fun bad => ?_⟩
    · simp only [execLaunchApertureWrite, event, hv, h0, hlen]
      simp [hvf', taken]
    · have : (off != 0 || bytes.length != 64) = true := by simpa using bad
      simp [execLaunchApertureWrite, event, hv, hvf', taken, hoff, this, inside]

/-! ### The order of the checks (R334) -/

section
variable {s : State} {p vf : Nat} {src : PktSrc} {k : Packet}

theorem State.validate_malformed (h : k.malformed = true) : s.validate p vf src k = .error 1 := by
  simp [validate, h]

theorem State.validate_notPermitted (h : k.malformed = false) (h' : s.notPermitted vf src k = true) :
    s.validate p vf src k = .error 2 := by
  simp [validate, h, h']

theorem State.validate_unread (h : k.malformed = false) (h' : s.notPermitted vf src k = false) {n : Nat}
    (hr : s.readImage ((s.part p).vfCtx vf) vf k = .error n) : s.validate p vf src k = .error n := by
  simp [validate, h, h', hr]

theorem State.validate_read (h : k.malformed = false) (h' : s.notPermitted vf src k = false) {r : ImageRead}
    (hr : s.readImage ((s.part p).vfCtx vf) vf k = .ok r) :
    s.validate p vf src k =
      match (if r.lists then s.templates ((s.part p).vfCtx vf) vf r.img.ranks r.img.groups else some []) with
      | none => .error 3
      | some ts =>
        if !r.ok then .error 4
        else if s.shapeBad p vf k r.img then .error 5
        else if templatesBad ((s.part p).vfCtx vf) r.img.ranks ts then .error 6
        else if s.full p vf then .error 7
        else if !k.any && !s.admits p vf k.x0 k.y0 r.img.w r.img.h then .error 8
        else .ok r.img := by
  simp only [validate, h, h', hr, Bool.false_eq_true, if_false] <;> rfl

theorem State.validate_unlisted (h : k.malformed = false) (h' : s.notPermitted vf src k = false) {r : ImageRead}
    (hr : s.readImage ((s.part p).vfCtx vf) vf k = .ok r) (hl : r.lists = true)
    (ht : s.templates ((s.part p).vfCtx vf) vf r.img.ranks r.img.groups = none) : s.validate p vf src k = .error 3 := by
  rw [validate_read h h' hr, if_pos hl, ht]

theorem State.validate_illFormed (h : k.malformed = false) (h' : s.notPermitted vf src k = false) {r : ImageRead}
    (hr : s.readImage ((s.part p).vfCtx vf) vf k = .ok r)
    (hl : r.lists = false ∨ s.templates ((s.part p).vfCtx vf) vf r.img.ranks r.img.groups ≠ none) (hok : r.ok = false) :
    s.validate p vf src k = .error 4 := by
  rw [validate_read h h' hr]
  obtain ⟨ts, hts⟩ : ∃ ts,
      (if r.lists then s.templates ((s.part p).vfCtx vf) vf r.img.ranks r.img.groups else some []) = some ts := by
    rcases hl with hl | hl
    · exact ⟨[], by simp [hl]⟩
    · split
      · exact Option.ne_none_iff_exists'.1 hl
      · exact ⟨[], rfl⟩
  simp [hts, hok]

theorem State.validate_listed (h : k.malformed = false) (h' : s.notPermitted vf src k = false) {r : ImageRead}
    {ts : List (Nat × BitVec 192 × List Nat)}
    (hr : s.readImage ((s.part p).vfCtx vf) vf k = .ok r) (hok : r.ok = true) (hl : r.lists = true)
    (ht : s.templates ((s.part p).vfCtx vf) vf r.img.ranks r.img.groups = some ts) :
    s.validate p vf src k =
      if s.shapeBad p vf k r.img then .error 5
      else if templatesBad ((s.part p).vfCtx vf) r.img.ranks ts then .error 6
      else if s.full p vf then .error 7
      else if k.any = false ∧ s.admits p vf k.x0 k.y0 r.img.w r.img.h = false then .error 8
      else .ok r.img := by
  rw [validate_read h h' hr, if_pos hl, ht]
  simp [hok]

end

/-! ### The status word (R274) -/

theorem statusWord_refused (n : Nat) (h0 : 0 < n) :
    (statusWord n 0).getLsbD 63 = true ∧ (statusWord n 0).extractLsb' 48 8 = BitVec.ofNat 8 n ∧
      (statusWord n 0).extractLsb' 0 48 = 0 := by
  have fields : ∀ code : BitVec 8, (1#1 ++ 0#7 ++ code ++ 0#48).getLsbD 63 = true ∧
      (1#1 ++ 0#7 ++ code ++ 0#48).extractLsb' 48 8 = code ∧ (1#1 ++ 0#7 ++ code ++ 0#48).extractLsb' 0 48 = 0 := by decide
  rw [statusWord, if_neg (by omega)]
  exact fields _

/-! ### The packet taken -/

/-- The dispatcher takes the packet that is due, which stands no longer in its queue. -/
theorem launchPacket_next {p i : Nat} {src : PktSrc} {vf : Nat} {bytes : List Byte} {s : State}
    (due : (s.part p).packetDue = some i) (hq : (s.part p).packets[i]? = some (src, vf, bytes))
    (hv : (s.part p).valid = true) :
    exec (.launchPacket p) s =
      .next ((s.modPart p fun x => { x with packets := x.packets.eraseIdx i }).takePacket p src vf bytes) := by
  show event s _ = _
  simp [event, hv, due, hq]

/-- A partition with packets is listed. -/
theorem State.mget_parts {s : State} {p i : Nat} {q : PktSrc × Nat × List Byte} (h : (s.part p).packets[i]? = some q) :
    mget s.parts p = some (s.part p) := by
  cases hm : mget s.parts p with
  | some x => simp [part, hm]
  | none =>
    have : (s.part p).packets = [] := by rw [part, hm]; rfl
    simp [this] at h

/-- What is left of a partition and of its VF after writes to module memory. -/
theorem State.WriteFrame.answered {s t u : State} (h : s.WriteFrame t) (src : PktSrc) (w : Word) (hu : u = t.answerSpawn src w)
    (p vf : Nat) :
    (u.part p).packets = (s.part p).packets ∧ (u.part p).launches.map Launch.unmet = (s.part p).launches.map Launch.unmet ∧
      u.vf vf = s.vf vf ∧
      ∀ c sl, src = .spawn c sl → (s.slot c sl).asked = true → (u.slot c sl).reply = some (.value w) := by
  have all := h.trans (t.answerSpawn_frame src w)
  rw [← hu] at all
  refine ⟨by rw [(all.parts p).rest], (all.parts p).launches, by simp only [State.vf, all.vfs], fun c sl hsrc asked => ?_⟩
  rw [hu, hsrc]
  exact t.answerSpawn_reply c sl w (((h.cores c).asked sl).trans asked)

/-- Settles O46: the apertures, the packet taken, the packet due, the checks in their order, the status word and the numbers,
each by its lemma above. -/
theorem launchPackets : Obligations.LaunchPackets := by
  refine ⟨launchApertureWrite_spec, ?_, fun x i h => x.packetDue_first h, ?_, fun n h0 _ => statusWord_refused n h0,
    fun n _ => rfl, ?_⟩
  · intro p i src vf bytes s k rest u unmet due hq hv
    refine ⟨_, launchPacket_next due hq hv, ?_⟩
    have hu : (s.modPart p fun x => { x with packets := x.packets.eraseIdx i }) = u := rfl
    have upart : u.part p = { s.part p with packets := rest } := by rw [← hu, State.part_modPart]
    rw [hu]
    cases hval : u.validate p vf src k with
    | error n =>
      obtain ⟨t, ht, heq⟩ := State.takePacket_refused hval
      obtain ⟨packets, launches, vfEq, reply⟩ := ht.answered src _ heq p vf
      have : (u.modVf vf fun v => { v with refused := v.refused + 1 }).part p = u.part p := rfl
      rw [this, upart] at packets launches
      rw [State.vf_modVf] at vfEq
      refine ⟨packets, fun m hm => ?_, fun img hi => by cases hi⟩
      obtain rfl : n = m := by injection hm
      exact ⟨launches, by rw [vfEq]; rfl, by rw [vfEq]; rfl, reply⟩
    | ok img =>
      obtain ⟨l, t, ht, heq, lvf, limg, lst, lnum⟩ := State.takePacket_accepted hval
      obtain ⟨packets, launches, vfEq, reply⟩ := ht.answered src _ heq p vf
      have : (u.modVf vf fun v => { v with accepted := v.accepted + 1, lastLaunch := l.num }).part p = u.part p := rfl
      rw [State.part_modPart, this, upart] at packets launches
      have vfU : ((u.modVf vf fun v => { v with accepted := v.accepted + 1, lastLaunch := l.num }).modPart p fun x =>
        { x with launches := x.launches ++ [l] }).vf vf = { s.vf vf with accepted := (s.vf vf).accepted + 1, lastLaunch := l.num } :=
        State.vf_modVf u vf fun v => { v with accepted := v.accepted + 1, lastLaunch := l.num }
      rw [vfU] at vfEq
      refine ⟨packets, fun n hn => (by cases hn), fun img' hi => ?_⟩
      obtain rfl : img = img' := by injection hi
      refine ⟨l, launches, lvf, limg, lst, by rw [vfEq], ?_, by rw [vfEq], reply⟩
      rw [lnum]
      exact nextNumber_congr (State.mem_vfLaunches_modPart (p := p) rfl (fun _ => State.mget_parts hq) vf) _ _
  · intro s p vf src k c
    refine ⟨State.validate_malformed, State.validate_notPermitted, fun h h' =>
      ⟨fun n hr => State.validate_unread h h' hr, fun r hr hl ht => State.validate_unlisted h h' hr hl ht,
        fun r hr hl hok => State.validate_illFormed h h' hr hl hok, ?_⟩⟩
    intro r ts hr hok hl ht shape group full power
    rw [State.validate_listed h h' hr hok hl ht]
    exact ⟨fun a => if_pos a, fun a b => by rw [if_neg a, if_pos b], fun a b c => by rw [if_neg a, if_neg b, if_pos c],
      fun a b c d => by rw [if_neg a, if_neg b, if_neg c, if_pos d],
      fun a b c d => by rw [if_neg a, if_neg b, if_neg c, if_neg d]⟩
  · intro held last hfree
    obtain ⟨n, h0, hn, hnot⟩ := hfree
    obtain ⟨j, hj1, hj, hjn⟩ := exists_step_to last n hn
    obtain ⟨i, hi1, hi, heq, free, least⟩ :=
      nextNumber_spec held last 65536 ⟨j, hj1, hj, by rw [hjn]; exact ⟨by omega, hnot⟩⟩
    rw [heq]
    refine ⟨Nat.pos_of_ne_zero free.1, Nat.mod_lt _ (by omega), free.2, i, hi1, hi, rfl, fun m hm hmi => ?_⟩
    have := least m hm hmi
    unfold freeNumber at this
    tauto

end Sys2Proof.Machine
end

section
/-! PROOFS. How messages travel (O27). -/

namespace Sys2Proof.Machine

/-! ### Flits (R17) -/

/-- The trailer of a message fits it as it was sent. -/
theorem trailerOk_wire (m : Msg) : trailerOk m.wire 0 = true := by
  have data (l : List WireFlit) : l.mapIdx (fun i f => f.data ^^^ BitVec.ofNat 64 (0 / 2 ^ (64 * i))) = l.map (·.data) := by
    simp [List.mapIdx_eq_iff, List.getElem?_map]
  have words : m.wire.map (·.data) = (m.header :: m.payload) ++ [(crcWords (m.header :: m.payload)).setWidth 64] := by
    simp [Msg.wire, wireFlit, Function.comp_def]
  simp only [trailerOk, data, words, List.getLast?_concat, List.dropLast_concat, beq_self_eq_true]

theorem Msg.wire_length (m : Msg) : m.wire.length = m.payload.length + 2 := by simp [wire]

/-! ### The record by which a message finds its rank (R26) -/

/-- `h` is the record of a launch at the cores that it holds, and there is one. -/
def State.LaunchHeld (s : State) (vf launch : Nat) (h : Held) : Prop :=
  (∃ e ∈ s.cores, e.2.held = some h ∧ h.vf = vf ∧ h.launch = launch) ∧
  ∀ e ∈ s.cores, ∀ g, e.2.held = some g → g.vf = vf → g.launch = launch → g = h

section
variable {s : State} {vf launch : Nat} {h : Held}

theorem State.exists_held_of_heldOf (hh : s.heldOf vf launch = some h) :
    ∃ e ∈ s.cores, e.2.held = some h ∧ h.vf = vf ∧ h.launch = launch := by
  obtain ⟨e, he, hm⟩ := List.exists_of_findSome?_eq_some hh
  split at hm
  · next g hg =>
    split at hm
    · next hgv =>
      obtain rfl : g = h := Option.some.inj hm
      exact ⟨e, he, hg, hgv⟩
    · cases hm
  · cases hm

theorem State.LaunchHeld.heldOf (hh : s.LaunchHeld vf launch h) : s.heldOf vf launch = some h := by
  obtain ⟨⟨e, he, hg, hv⟩, only⟩ := hh
  cases hf : s.heldOf vf launch with
  | none =>
    have := List.findSome?_eq_none_iff.1 hf e he
    simp [hg, hv] at this
  | some g =>
    obtain ⟨e', he', hg', hv', hl'⟩ := exists_held_of_heldOf hf
    rw [only e' he' g hg' hv' hl']

/-- A listed core may change, where it keeps its record. -/
theorem State.LaunchHeld.setCore (hh : s.LaunchHeld vf launch h) {k : CoreId} {c : Core} (hk : mget s.cores k = some (s.core k))
    (hc : c.held = (s.core k).held) : (s.setCore k c).LaunchHeld vf launch h := by
  obtain ⟨⟨e, he, hg, hv⟩, only⟩ := hh
  constructor
  · rcases mem_mset_of_mem k c he with he' | ⟨-, hm⟩
    · exact ⟨e, he', hg, hv⟩
    · have : s.core k = e.2 := by simp [State.core, hm]
      exact ⟨_, mem_mset_self s.cores k c, by rw [hc, this, hg], hv⟩
  · intro e he g hg
    rcases eq_or_mem_of_mem_mset he with rfl | he
    · exact only _ (mem_of_mget hk) g (hc ▸ hg)
    · exact only e he g hg

theorem State.LaunchHeld.modCoreRegs (hh : s.LaunchHeld vf launch h) {k : CoreId} {g : CoreRegs → CoreRegs}
    (hk : mget s.cores k = some (s.core k)) : (s.modCoreRegs k g).LaunchHeld vf launch h :=
  hh.setCore hk rfl

end

theorem State.mget_setCore (s : State) (k : CoreId) (c : Core) : mget (s.setCore k c).cores k = some ((s.setCore k c).core k) := by
  rw [core_setCore]
  exact mget_mset_self _ _ _

/-- A core with a message to send is listed. -/
theorem State.mget_cores {s : State} {k : CoreId} {i : Nat} {m : Msg} (h : (s.core k).inj[i]? = some m) :
    mget s.cores k = some (s.core k) := by
  cases hk : mget s.cores k with
  | some c => simp [core, hk]
  | none =>
    have : (s.core k).inj = [] := by rw [core, hk]; rfl
    simp [this] at h

/-! ### Injection (R126, R253) -/

@[simp] theorem State.core_modCoreRegs (s : State) (k : CoreId) (f : CoreRegs → CoreRegs) :
    (s.modCoreRegs k f).core k = { s.core k with regs := f (s.core k).regs } := core_modCore _ _ _

theorem Core.sampleTick_eq (c : Core) (cls : Fin 4) : ∃ r, (c.sampleTick cls).2 = { c with regs := r } := by
  unfold sampleTick
  dsimp only
  split
  · exact ⟨c.regs, rfl⟩
  · split
    · exact ⟨_, rfl⟩
    · exact ⟨_, rfl⟩

theorem State.tick_eq (s : State) (b : Bool) (f : Nat) :
    ∃ fs n, (if b then s.tick f else s) = { s with fields := fs, free := n } := by
  cases b
  · exact ⟨s.fields, s.free, rfl⟩
  · exact ⟨_, _, rfl⟩

theorem State.foldl_cross_eq (w : List WireFlit) (l : List Nat) (s : State) :
    ∃ ls, l.foldl (fun s n => s.cross n w) s = { s with links := ls } := by
  induction l generalizing s with
  | nil => exact ⟨s.links, rfl⟩
  | cons n l ih => exact ih (s.cross n w)

section
variable (w : List WireFlit) (l : List Nat) (s : State)

@[simp] theorem State.foldl_cross_mesh : (l.foldl (fun s n => s.cross n w) s).mesh = s.mesh := by
  obtain ⟨ls, h⟩ := foldl_cross_eq w l s
  rw [h]

@[simp] theorem State.foldl_cross_gmem : (l.foldl (fun s n => s.cross n w) s).gmem = s.gmem := by
  obtain ⟨ls, h⟩ := foldl_cross_eq w l s
  rw [h]

@[simp] theorem State.foldl_cross_core (k : CoreId) : (l.foldl (fun s n => s.cross n w) s).core k = s.core k := by
  obtain ⟨ls, h⟩ := foldl_cross_eq w l s
  rw [h]
  rfl

end

/-- A message of a held launch goes onto the mesh with the next sequence number of its pair. -/
theorem State.inject_spec {s : State} {k : CoreId} {i : Nat} {m : Msg} {h : Held} (hi : (s.core k).inj[i]? = some m)
    (hh : s.LaunchHeld m.vf m.launch h) {t : State} (ht : s.inject k i m = t) :
    ∃ b g, g = { m with seq := (mget (s.core k).seqOut m.pair).getD 0, from_ := k, sample := b } ∧
      t.mesh = s.mesh ++ [⟨g, (s.route h m.dst.toNat).1, g.wire⟩] ∧
      (t.core k).inj = (s.core k).inj.eraseIdx i ∧ (t.core k).seqOut = mset (s.core k).seqOut m.pair (g.seq + 1) ∧
      t.gmem = s.gmem := by
  unfold inject at ht
  extract_lets q st old sent ticked g fl v counted at ht
  obtain ⟨r, hr⟩ : ∃ r, st.2 = { s.core k with regs := r } := (s.core k).sampleTick_eq m.cls
  obtain ⟨fs, n, hticked⟩ : ∃ fs n, ticked = { sent with fields := fs, free := n } := sent.tick_eq st.1 (fieldOf k)
  have sentHeld : sent.LaunchHeld m.vf m.launch h := hh.setCore (mget_cores hi) (by show st.2.held = _; rw [hr])
  have tickedHeld : ticked.LaunchHeld m.vf m.launch h := by rw [hticked]; exact sentHeld
  have listed : mget ticked.cores k = some (ticked.core k) := by rw [hticked]; exact s.mget_setCore k _
  have countedHeld : counted.LaunchHeld m.vf m.launch h := (tickedHeld.modCoreRegs listed).modCoreRegs (mget_setCore _ _ _)
  have held : counted.heldOf g.vf g.launch = some h := countedHeld.heldOf
  have parts : counted.parts = s.parts := (congrArg State.parts hticked :)
  have mesh : counted.mesh = s.mesh := (congrArg State.mesh hticked :)
  have gmem : counted.gmem = s.gmem := (congrArg State.gmem hticked :)
  have sentCore : (counted.core k).inj = (sent.core k).inj ∧ (counted.core k).seqOut = (sent.core k).seqOut := by
    simp only [counted, count, core_modCoreRegs, hticked]
    exact ⟨rfl, rfl⟩
  have route : counted.route h g.dst.toNat = s.route h m.dst.toNat := by
    simp only [State.route, rankLookup, part, parts]; rfl
  clear_value counted
  rw [held] at ht
  dsimp only at ht
  rw [route] at ht
  generalize hcharged : counted.modCoreRegs k _ = charged at ht
  subst ht
  have sentEq : sent.core k = _ := core_setCore s k _
  refine ⟨_, g, rfl, ?_, ?_, ?_, ?_⟩
  · rw [foldl_cross_mesh]
    rw [← hcharged]
    exact congrArg (· ++ _) mesh
  · rw [foldl_cross_core]
    show (charged.core k).inj = _
    rw [← hcharged, core_modCoreRegs, sentCore.1, sentEq]
    show st.2.inj.eraseIdx i = _
    rw [hr]
  · rw [foldl_cross_core]
    show (charged.core k).seqOut = _
    rw [← hcharged, core_modCoreRegs, sentCore.2, sentEq]
    show mset st.2.seqOut m.pair (q + 1) = _
    rw [hr]
  · rw [foldl_cross_gmem, ← hcharged]
    exact gmem

theorem messageInject_next {k : CoreId} {i : Nat} {m : Msg} {s : State} (hi : (s.core k).inj[i]? = some m)
    (run : s.phaseOf k = .run) (stays : s.inTransit m = false)
    (before : ∀ n ∈ (s.core k).inj.take i, n.cls = m.cls → s.inTransit n = true ∧ n.sameDst m = false) :
    exec (.messageInject k i) s = .next (s.inject k i m) := by
  have held : (((s.core k).inj.take i).filter fun n => n.cls == m.cls).all fun n => s.inTransit n && !n.sameDst m := by
    simp only [List.all_eq_true, List.mem_filter, beq_iff_eq, Bool.and_eq_true, Bool.not_eq_true']
    exact fun n hn => before n hn.1 hn.2
  show event s _ = _
  simp only [event, hi, run, stays, held]
  rfl

/-! ### Arrival (R126, R370) -/

/-- The state in which a message has left the mesh, counted at its core. -/
def State.arrived (s : State) (i : Nat) (f : Flight) : State :=
  State.count { s with mesh := s.mesh.eraseIdx i } f.target 5 (s.slotOf f.target f.msg) f.msg.flits

theorem State.arrived_core (s : State) (i : Nat) (f : Flight) :
    ∃ r, (s.arrived i f).core f.target = { s.core f.target with regs := r } := ⟨_, core_modCoreRegs _ _ _⟩

section
variable {s : State} {i : Nat} {f : Flight} (hf : s.mesh[i]? = some f) (may : s.mayArrive i f = true)
include hf may

/-- A message whose trailer does not fit. -/
theorem messageArrival_failed {err : Nat} (bad : trailerOk f.wire err = false) :
    exec (.messageArrival i err) s = .next ((s.arrived i f).crcFail f.target f.msg) := by
  show event s _ = _
  simp only [event, hf, may, bad]
  rfl

/-- A message that has been accepted before. -/
theorem messageArrival_again (ok : trailerOk f.wire 0 = true)
    (again : mget (s.core f.target).seqIn f.msg.pair = some f.msg.seq) :
    exec (.messageArrival i 0) s = .next (s.arrived i f) := by
  have dup : s.duplicate f.target f.msg = true := by simp [State.duplicate, again]
  show event s _ = _
  simp only [event, hf, may, ok, dup, Nat.zero_mod, bne_self_eq_false, Bool.not_true, Bool.and_false, Bool.or_false, if_true,
    Bool.false_eq_true, if_false]
  rfl

theorem messageArrival_notice (ok : trailerOk f.wire 0 = true)
    (new : mget (s.core f.target).seqIn f.msg.pair ≠ some f.msg.seq) {r : CoreId} {n : Fin 8} {u c : Nat}
    (kind : f.msg.kind = .freeSpace r n u c) :
    exec (.messageArrival i 0) s = .next (((s.arrived i f).noteSeq f.target f.msg).modCore f.target fun x =>
      { x with notices := x.notices ++ [(r, n, u, c)] }) := by
  have dup : s.duplicate f.target f.msg = false := by simp [State.duplicate, new]
  have berth : f.msg.forBerth = false := by simp [Msg.forBerth, kind]
  show event s _ = _
  simp only [event, hf, may, ok, dup, berth, kind, Nat.zero_mod, bne_self_eq_false]
  rfl

theorem messageArrival_new (ok : trailerOk f.wire 0 = true)
    (new : mget (s.core f.target).seqIn f.msg.pair ≠ some f.msg.seq) (berth : f.msg.forBerth = false)
    (kind : ∀ r n u c, f.msg.kind ≠ .freeSpace r n u c) (quiet : s.unlogged f.target) :
    exec (.messageArrival i 0) s = .next ((s.arrived i f).accept f.target f.msg) := by
  have dup : s.duplicate f.target f.msg = false := by simp [State.duplicate, new]
  have order : s.orderAt f.target 1 f.msg.cls.val f.msg.logKey = .ok s := by
    unfold State.orderAt
    cases hp : s.partOf f.target with
    | none => rfl
    | some p => simp only [State.order, quiet p hp]
  show event s _ = _
  simp only [event, hf, may, ok, dup, berth, order, ordered, Nat.zero_mod, bne_self_eq_false]
  cases hk : f.msg.kind with
  | freeSpace r n u c => exact absurd hk (kind r n u c)
  | _ => rfl

end

/-! ### The class queues (R70, R73) -/

/-- Where the head can be acted on, nothing is discarded. -/
theorem Core.settleQueue_settled {c : Core} (h : c.settled c.arr) {q : Fin 4} (hq : q.val < 2) (fuel : Nat) :
    c.settleQueue q fuel = c := by
  cases fuel with
  | zero => rfl
  | succ fuel =>
    simp only [settleQueue]
    split
    · rfl
    · next m l hl =>
      have : ¬(m.kind == .plain && tagHopeless c m) = true := by
        simp only [Bool.and_eq_true, beq_iff_eq, not_and, Bool.not_eq_true]
        exact h q m hq (by rw [hl]; rfl)
      exact if_neg this

theorem Core.settle_settled {c : Core} (h : c.settled c.arr) : c.settle = c := by
  simp only [settle, List.foldl_cons, List.foldl_nil, settleQueue_settled h (q := 0) (by decide),
    settleQueue_settled h (q := 1) (by decide), ite_self]

@[simp] theorem State.noteSeq_core (s : State) (k : CoreId) (m : Msg) :
    (s.noteSeq k m).core k = { s.core k with seqIn := mset (s.core k).seqIn m.pair m.seq } := core_modCore _ _ _

/-- Outside a save's second phase a message joins its class queue, whose head can be acted on. -/
theorem State.accept_queues {s : State} {k : CoreId} {m : Msg} (run : s.phaseOf k ≠ .drain2)
    (h : (s.core k).settled ((s.core k).arr.set m.cls ((s.core k).arr[m.cls] ++ [m]))) :
    (s.accept k m).mesh = s.mesh ∧ (s.accept k m).core k =
      { s.core k with
        seqIn := mset (s.core k).seqIn m.pair m.seq, arr := (s.core k).arr.set m.cls ((s.core k).arr[m.cls] ++ [m]) } := by
  have phase : ((s.noteSeq k m).phaseOf k == .drain2) = false := beq_eq_false_iff_ne.2 run
  simp only [accept, phase, Bool.false_and, Bool.false_eq_true, if_false, settleTags, core_modCore, noteSeq_core]
  exact ⟨rfl, Core.settle_settled h⟩

theorem State.writeOverflow_frame (s : State) (p : Nat) (k : CoreId) (m : Msg) :
    ∃ ps, (s.modCtx p fun c => { c with overflow := c.overflow ++ [(k, m)], pieces := ps }).WriteFrame (s.writeOverflow p k m) := by
  unfold writeOverflow
  dsimp only
  exact ⟨_, saveBytes_frame _ _ _ _ _ _⟩

/-- In a save's second phase a message that finds its queue full goes into the overflow area (R306). -/
theorem State.accept_overflows {s : State} {k : CoreId} {m : Msg} (drain : s.phaseOf k = .drain2)
    (full : Config.arrivalDepth ≤ (s.core k).arr[m.cls].length) :
    (s.accept k m).mesh = s.mesh ∧ ((s.accept k m).core k).arr = (s.core k).arr ∧
      ((s.accept k m).part (s.partNum k)).ctx.overflow = (s.part (s.partNum k)).ctx.overflow ++ [(k, m)] := by
  have phase : ((s.noteSeq k m).phaseOf k == .drain2) = true := beq_iff_eq.2 drain
  have goes : s.accept k m = (s.noteSeq k m).writeOverflow (s.partNum k) k m := by
    simp only [accept, phase, noteSeq_core, full, decide_true, Bool.true_or, Bool.and_self, if_true]
    rfl
  rw [goes]
  obtain ⟨ps, frame⟩ := (s.noteSeq k m).writeOverflow_frame (s.partNum k) k m
  refine ⟨frame.mesh, ?_, ?_⟩
  · rw [(frame.cores k).rest]
    exact (congrArg Core.arr (s.noteSeq_core k m) :)
  · rw [(frame.parts (s.partNum k)).rest]
    exact congrArg (·.ctx.overflow) (part_modPart (s.noteSeq k m) (s.partNum k) _)

/-! ### A trailer that does not fit (R370) -/

/-- What UNCORRECTABLE names of a message is no local address. -/
theorem isLocal_source (src : BitVec 22) (tag : BitVec 6) : isLocal (src.setWidth 64 ||| (tag.setWidth 64 <<< 24)) = false := by
  have : winBits (src.setWidth 64 ||| (tag.setWidth 64 <<< 24)) = 0 := by
    refine BitVec.eq_of_getLsbD_eq fun i hi => ?_
    have hsrc : src.getLsbD (60 + i) = false := BitVec.getLsbD_of_ge _ _ (by omega)
    have htag : tag.getLsbD (60 + i - 24) = false := BitVec.getLsbD_of_ge _ _ (by omega)
    simp [winBits, BitVec.getLsbD_setWidth, hi, hsrc, htag]
  simp [isLocal, this]

/-- A cause that names no local address is noted at no memory. -/
theorem State.noteUE_elsewhere {s : State} {k : CoreId} {c : BitVec 8} {a : Word} (h : isLocal a = false) : s.noteUE k c a = s := by
  simp [noteUE, h]

/-- A cause deferred at an address that is not local stands at its slot, or goes out as a notice. -/
theorem State.defer_spec {s : State} {k : CoreId} {sl : Fin 4} {c : BitVec 8} {a : Word} (h : isLocal a = false) :
    (s.defer k sl c a).mesh = s.mesh ∧ ((s.defer k sl c a).core k).arr = (s.core k).arr ∧
      ((s.defer k sl c a).core k).mem = (s.core k).mem ∧
      ((s.slot k sl).st ≠ .halting → (s.slot k sl).st ≠ .empty →
        ((s.defer k sl c a).slot k sl).deferred = addDeferredTo (s.slot k sl).deferred ⟨c, a, false, false⟩) := by
  simp only [defer, noteUE_elsewhere h]
  split
  · next gone =>
    exact ⟨rfl, part_modCore (·.arr) s k k _ rfl, part_modCore (·.mem) s k k _ rfl,
      fun busy busy' => absurd gone (not_or.2 ⟨busy, busy'⟩)⟩
  · exact ⟨rfl, part_modCore (·.arr) s k k _ rfl, part_modCore (·.mem) s k k _ rfl, fun _ _ => by rw [slot_modSlot]⟩

/-- A request or a response whose trailer does not fit sets ERR in its tag, and defers UNCORRECTABLE to the tag's slot. -/
theorem State.crcFail_spec {s : State} {k : CoreId} {m : Msg} (hm : m.cls.val < 2) {t : State} (ht : s.crcFail k m = t) :
    let sl := tagSlot (s.core k).mem.tags[m.tag.toFin].word
    t.mesh = s.mesh ∧ (t.core k).arr = (s.core k).arr ∧
      (t.core k).mem.tags[m.tag.toFin].word.getLsbD 58 = true ∧ (t.core k).mem.sram = (s.core k).mem.sram ∧
      ((s.slot k sl).st ≠ .halting → (s.slot k sl).st ≠ .empty → (t.slot k sl).deferred =
        addDeferredTo (s.slot k sl).deferred ⟨0x0F, m.src.setWidth 64 ||| (m.tag.setWidth 64 <<< 24), false, false⟩) := by
  intro sl
  rw [crcFail, if_pos hm] at ht
  subst ht
  obtain ⟨mesh, arr, mem, deferred⟩ := (s.modCore k fun c => c.tagErr m.tag).defer_spec (k := k) (sl := sl) (c := 0x0F)
    (isLocal_source m.src m.tag)
  rw [core_modCore] at arr mem
  have slot : (s.modCore k fun c => c.tagErr m.tag).slot k sl = s.slot k sl :=
    part_modCore (·.slot sl) s k k (fun c => c.tagErr m.tag) rfl
  rw [slot] at deferred
  refine ⟨mesh, arr, ?_, (congrArg CoreMem.sram mem :), deferred⟩
  have word := congrArg (·.tags[m.tag.toFin].word) mem
  rw [show _ = _ from word]
  simp [Core.tagErr]

/-- Settles O27: what an injection leaves, and the ways in which a message that arrives is taken, each by its lemma above. -/
theorem messagesTravel : Obligations.MessagesTravel := by
  constructor
  · intro k i m h s hi run stays before held only
    obtain ⟨b, g, rfl, mesh, inj, seqOut, gmem⟩ := State.inject_spec hi ⟨State.exists_held_of_heldOf held, only⟩ rfl
    exact ⟨_, _, messageInject_next hi run stays before, inj, mesh, trailerOk_wire _, Msg.wire_length _, rfl,
      by rw [seqOut, mget_mset_self], rfl, rfl, rfl, rfl, rfl, rfl, gmem⟩
  · intro i f s m k new note hf may quiet
    obtain ⟨r, core⟩ : ∃ r, (s.arrived i f).core k = { s.core k with regs := r } := s.arrived_core i f
    have slots (n : Fin 4) : (s.arrived i f).slot k n = s.slot k n := (congrArg (Core.slot · n) core :)
    refine ⟨fun ok => ⟨fun again => ?_, fun r n u c fresh kind => ?_, fun fresh berth kind => ⟨fun run settled => ?_,
      fun drain full => ?_⟩⟩, fun err bad cls => ?_⟩
    · refine ⟨_, messageArrival_again hf may ok (not_not.1 again), ⟨rfl, ?_, slots⟩, (congrArg Core.arr core :),
        (congrArg Core.notices core :)⟩
      rw [core]
      exact not_not.1 again
    · have accepted : ((s.arrived i f).noteSeq k m).core k = _ := State.noteSeq_core _ _ _
      rw [core] at accepted
      refine ⟨_, messageArrival_notice hf may ok fresh kind, ⟨rfl, ?_, fun n => ?_⟩, ?_, ?_⟩
      · rw [State.core_modCore, accepted]
        exact mget_mset_self _ _ _
      · rw [State.slot, State.core_modCore, accepted]
        rfl
      · rw [State.core_modCore, accepted]
      · rw [State.core_modCore, accepted]
    · have settled' : ((s.arrived i f).core k).settled (((s.arrived i f).core k).arr.set m.cls
          (((s.arrived i f).core k).arr[m.cls] ++ [m])) := by rw [core]; exact settled
      obtain ⟨mesh, accepted⟩ := State.accept_queues (s := s.arrived i f) run settled'
      rw [core] at accepted
      refine ⟨_, messageArrival_new hf may ok fresh berth kind quiet, ⟨mesh, ?_, fun n => ?_⟩, ?_⟩
      · rw [accepted]
        exact mget_mset_self _ _ _
      · rw [State.slot, accepted]
        rfl
      · rw [accepted]
    · obtain ⟨mesh, arrEq, overflow⟩ := State.accept_overflows (s := s.arrived i f) (m := m) drain (by rw [core]; exact full)
      rw [core] at arrEq
      exact ⟨_, messageArrival_new hf may ok fresh berth kind quiet, mesh, arrEq, overflow⟩
    · obtain ⟨mesh, arr, err58, sram, deferred⟩ := State.crcFail_spec (s := s.arrived i f) (k := k) cls rfl
      rw [slots] at deferred
      rw [core] at arr sram deferred
      exact ⟨_, messageArrival_failed hf may bad, mesh, arr, err58, sram, deferred⟩

end Sys2Proof.Machine
end

section
/-! PROOFS. The matrix instructions (O31). -/

namespace Sys2Proof.Machine

/-! ### Fields of numbers, and parts of what stands in memory (R5, R188) -/

/-- A field below a bound does not see what is above it. -/
theorem mod_div_mod_two_pow (x : Nat) {n i j : Nat} (h : i + j ≤ n) : x % 2 ^ n / 2 ^ i % 2 ^ j = x / 2 ^ i % 2 ^ j := by
  obtain ⟨d, rfl⟩ := Nat.exists_eq_add_of_le h
  rw [Nat.add_assoc, Nat.pow_add, Nat.mod_mul_right_div_self, Nat.pow_add, Nat.mod_mul_right_mod]

/-- A field of a packed list is its element. -/
theorem packNat_field (w : Nat) (l : List Nat) (i : Nat) : packNat w l / 2 ^ (w * i) % 2 ^ w = l.getD i 0 % 2 ^ w := by
  induction l generalizing i with
  | nil => simp [packNat]
  | cons x l ih =>
    have hx : x % 2 ^ w < 2 ^ w := Nat.mod_lt _ (Nat.two_pow_pos w)
    cases i with
    | zero => simp [packNat]
    | succ i =>
      rw [Nat.mul_succ, Nat.add_comm, Nat.pow_add, ← Nat.div_div_eq_div_mul, packNat, Nat.add_mul_div_left _ _ (Nat.two_pow_pos w),
        Nat.div_eq_of_lt hx, Nat.zero_add, ih, List.getD_cons_succ]

theorem lane_packL (w : Nat) (l : List Nat) {i : Nat} (hi : w * i + w ≤ 512) : lane w (packL w l) i = l.getD i 0 % 2 ^ w := by
  rw [lane, packL, BitVec.toNat_ofNat, mod_div_mod_two_pow (n := 512) _ hi, packNat_field]

theorem Memory.readLE_add (m : Memory) (a i j : Nat) : m.readLE a (i + j) = m.readLE a i + 256 ^ i * m.readLE (a + i) j := by
  induction i generalizing a with
  | zero => simp [readLE]
  | succ i ih =>
    rw [Nat.add_right_comm, readLE, ih, readLE, Nat.pow_succ', show a + 1 + i = a + (i + 1) by omega]
    ring

/-- Some bytes of what is read are what is read there. -/
theorem Memory.readLE_field (m : Memory) (a : Nat) {n i j : Nat} (h : i + j ≤ n) :
    m.readLE a n / 256 ^ i % 256 ^ j = m.readLE (a + i) j := by
  obtain ⟨d, rfl⟩ := Nat.exists_eq_add_of_le h
  rw [Nat.add_assoc, readLE_add, Nat.add_mul_div_left _ _ (Nat.pow_pos (by decide)), Nat.div_eq_of_lt (readLE_lt ..), Nat.zero_add,
    readLE_add, Nat.add_mul_mod_self_left, Nat.mod_eq_of_lt (readLE_lt ..)]

/-- Word i of an area of 256 bytes. -/
theorem Memory.readLE_word (m : Memory) (a : Nat) (i : Fin 64) : m.readLE a 256 / 2 ^ (32 * i.val) % 2 ^ 32 = m.readLE (a + 4 * i.val) 4 := by
  have h := m.readLE_field a (n := 256) (i := 4 * i.val) (j := 4) (by omega)
  rwa [show (256 : Nat) ^ (4 * i.val) = 2 ^ (32 * i.val) by rw [show 256 = 2 ^ 8 by rfl, ← Nat.pow_mul]; congr 1; omega] at h

theorem orFlags_zero (l : List Nat) : orFlags (l.map fun v => (v, 0)) = 0 := by
  simp [orFlags, List.foldl_map]

/-! ### Tiles and areas (R24, R226, R228) -/

/-- A tile of the issuing core. -/
abbrev State.myTile (u : State) (n : Fin 4) : Tile := (u.unit u.cur.core).tiles[n]

/-- The issuing slot holds the tile (R24). -/
abbrev State.holdsTile (u : State) (n : Fin 4) : Prop := (u.myTile n).owner = some u.cur.slot

/-- A tile of the issuing core gets a new state. -/
abbrev State.putTile (u : State) (n : Fin 4) (t : Tile) : State := u.modUnits u.cur.core fun v => v.setTile n t

theorem heldTile_mine {u : State} {n : Fin 4} (h : u.holdsTile n) (k : Tile → Act) : heldTile u n k = k (u.myTile n) := if_pos h

/-- An instruction on a tile that the issuing slot does not hold (R228). -/
theorem notHeld_of {i : Instr} {f : Form} {n : Fin 4} {k : State → Tile → Act}
    (he : ∀ s, exec i s = issue f (fun u => heldTile u n (k u)) s) :
    Traps i f (fun u => ¬u.holdsTile n) 0x09 (fun _ => BitVec.ofNat 64 n.val) :=
  traps_of he fun _ _ h => if_neg h

theorem areaCheck_ok {a : Word} {n : Nat} (h : LocalOk a 16 ∧ offOf a + n ≤ 65536) (k : Nat → Act) :
    areaCheck a n k = k (offOf a) := by
  simp [areaCheck, h.1.1, (aligned_iff a 16).2 h.1.2, Nat.not_lt.2 h.2]

theorem areaCheck_window {a : Word} (n : Nat) (h : isLocal a = false) (k : Nat → Act) : areaCheck a n k = .trap 0x0A a := by
  simp [areaCheck, h]

theorem areaCheck_outside {a : Word} {n : Nat} (h : isLocal a = true) (h' : ¬(LocalOk a 16 ∧ offOf a + n ≤ 65536)) (k : Nat → Act) :
    areaCheck a n k = .trap 0x07 a := by
  have out : (!aligned a 16 || decide (65536 < offOf a + n)) = true := by
    simp only [Bool.or_eq_true, Bool.not_eq_true', decide_eq_true_eq, ← Bool.not_eq_true, aligned_iff]
    by_contra hc
    rw [not_or, not_not, Nat.not_lt] at hc
    exact h' ⟨⟨h, hc.1⟩, hc.2⟩
  simp [areaCheck, h, out]

/-! ### Commands (R117, R136, R224) -/

theorem isGlobal_of_lt {a : Word} (h : a.toNat < 2 ^ 60) : isGlobal a = true := by
  have : winBits a = 0 := by
    refine BitVec.eq_of_toNat_eq ?_
    rw [winBits, BitVec.extractLsb'_toNat, Nat.shiftRight_eq_div_pow, Nat.div_eq_of_lt h]
    rfl
  simp [isGlobal, this]

theorem counterWord_ok {u : State} {c : Option Ctr} (h : u.counterOk c) (k : Option (Word × BitVec 26) → Act) :
    counterWord u c k = k (c.map fun x => (u.rd (.g (Fin.ofNat 32 x.creg.toNat)), x.cinc)) := by
  cases c with
  | none => rfl
  | some x =>
    obtain ⟨hg, ha⟩ := h x rfl
    simp only [counterWord, isGlobal_of_lt hg, (aligned_iff _ 8).2 ha, Bool.not_true, Bool.false_eq_true, if_false,
      Option.map_some]

/-- A command whose wait is over, and that has its place, goes on. -/
theorem syncIssue_syncs {u t : State} {y : Sync} (h : u.Syncs y t) (w : Wait) (k : State → Act) : syncIssue u y w true k = k t := by
  rcases h with ⟨h0, rfl⟩ | ⟨h0, hf, rfl⟩
  · rw [syncIssue, if_pos h0, if_pos rfl]
  · rw [syncIssue, if_neg h0, takeSem_free hf]

theorem State.Syncs.cur {u t : State} {y : Sync} (h : u.Syncs y t) : t.cur = u.cur := by
  rcases h with ⟨-, rfl⟩ | ⟨-, -, rfl⟩ <;> rfl

/-- A command that is otherwise in order is held back as R136 says. -/
theorem syncGated_of {i : Instr} {f : Form} {body : State → Act} (he : ∀ s, exec i s = issue f body s) {s : State}
    (hi : s.issues f) {y : Sync} {w : Wait} {room : Prop} [Decidable room] {k : State → Act}
    (hb : body (s.took f) = syncIssue (s.took f) y w (decide room) k) : s.SyncGated (s.took f) i y w room := by
  constructor
  · intro hroom hw
    rw [he, issue_done _ hi, hb, decide_eq_false hroom]
    have holds : syncIssue (s.took f) y w false k = .wait w id := by
      unfold syncIssue
      split
      · rfl
      · next h0 => exact takeSem_holds (hw.resolve_left h0)
    rw [holds, finish_wait _ _ _ hi.1]
    rfl
  · intro h0 hg hw
    rw [he, issue_done _ hi, hb, syncIssue, if_neg h0, takeSem_queues hg (hw.imp decide_eq_false id), finish_wait _ _ _ hi.1]

/-! ### The instructions on a tile (R225 to R230) -/

/-- MFEED's sources, in order (R229). -/
theorem feedCheck_ok {u : State} {t : Tile} {gd ga : Word} {a : GOp} {nb : Nat} {k : Act}
    (h : (LocalOk gd 16 ∧ offOf gd + nb * (flitsOf t.ty * 8) ≤ 65536 ∧
        (scaleBytes t.ty = 0 ∧ a = .g 0 ∨ scaleBytes t.ty ≠ 0 ∧ LocalOk ga (scaleBytes t.ty) ∧
          offOf ga + nb * scaleBytes t.ty ≤ 65536) ∨
       isBerth gd = true ∧ gd.toNat % 16 = 0 ∧ a = .g 0)) : feedCheck t gd ga a nb u k = k := by
  rcases h with ⟨⟨hl, ha⟩, hlen, hsc⟩ | ⟨hb, ha, rfl⟩
  · have notBerth : isBerth gd = false := by
      have : winBits gd = 0xE := by
        simp only [isLocal, Bool.and_eq_true, beq_iff_eq] at hl
        exact hl.1
      simp [isBerth, this]
    rcases hsc with ⟨h0, rfl⟩ | ⟨h0, ⟨hsl, hsa⟩, hslen⟩
    · simp [feedCheck, hl, notBerth, h0, (aligned_iff gd 16).2 ha, Nat.not_lt.2 hlen]
    · simp [feedCheck, hl, notBerth, h0, (aligned_iff gd 16).2 ha, Nat.not_lt.2 hlen, hsl, (aligned_iff ga _).2 hsa, Nat.not_lt.2 hslen]
  · have notLocal : isLocal gd = false := by
      have : winBits gd = 0xD := by
        simp only [isBerth, Bool.and_eq_true, beq_iff_eq] at hb
        exact hb.1
      simp [isLocal, this]
    simp [feedCheck, hb, notLocal, (aligned_iff gd 16).2 ha]

/-- MCFG's links lead to cores of the launch (R225). -/
def State.mcfgNear (u : State) (x : McfgF) : Prop :=
  (x.flags.getLsbD 2 = true → (u.core u.cur.core).hasEast u.cur.core = true) ∧
    (x.flags.getLsbD 3 = true → (u.core u.cur.core).hasSouth u.cur.core = true)

/-- MCFG's tile has no run and no feed. -/
def State.mcfgIdle (u : State) (x : McfgF) : Prop :=
  (u.unit u.cur.core).tileRuns x.d = false ∧ (u.unit u.cur.core).tileFeeds x.d = false

open Classical in
/-- MCFG by its conditions. -/
theorem exec_mcfg (x : McfgF) (s : State) : exec (.mcfg x) s = issue (mkForm x.q 1 [] []) (fun u =>
    if (((u.myTile x.d).owner ≠ none ∨ x.flags.getLsbD 4 = true) ∧ ¬u.holdsTile x.d) ∨ ¬u.mcfgNear x then
      .trap 0x09 (BitVec.ofNat 64 x.d.val)
    else if ¬u.mcfgIdle x then .wait .tile id
    else .ok (u.putTile x.d
      (if x.flags.getLsbD 4 then { u.myTile x.d with owner := none }
       else (u.myTile x.d).config u.cur.slot x.t (x.flags.extractLsb' 0 5)))) s := by
  rw [exec_issue (execMcfg x) rfl rfl]
  refine congrArg (issue _ · s) (funext fun u => ?_)
  have far : ((x.flags.getLsbD 2 && !(u.core u.cur.core).hasEast u.cur.core) ||
      (x.flags.getLsbD 3 && !(u.core u.cur.core).hasSouth u.cur.core)) = true ↔ ¬u.mcfgNear x := by
    simp only [State.mcfgNear, Bool.or_eq_true, Bool.and_eq_true, Bool.not_eq_true', ← Bool.not_eq_true]
    tauto
  have busy : ((u.unit u.cur.core).tileRuns x.d || (u.unit u.cur.core).tileFeeds x.d) = true ↔ ¬u.mcfgIdle x := by
    simp only [State.mcfgIdle, Bool.or_eq_true, ← Bool.not_eq_true]
    tauto
  simp only [far, show (u.core u.cur.core).unit = u.unit u.cur.core from rfl, busy, State.holdsTile, State.putTile,
    State.myTile]
  cases ho : (u.unit u.cur.core).tiles[x.d].owner with
  | none => cases x.flags.getLsbD 4 <;> simp
  | some o => by_cases hm : o = u.cur.slot <;> simp [hm]

section
variable (x : McfgF)

theorem mcfg_releases :
    Does (.mcfg x) (mkForm x.q 1 [] []) (fun u => x.flags.getLsbD 4 = true ∧
        u.holdsTile x.d ∧ u.mcfgNear x ∧ u.mcfgIdle x)
      (fun u => u.putTile x.d { u.myTile x.d with owner := none }) := by
  refine does_of (exec_mcfg x) fun u _ ⟨rel, own, near, idle⟩ => ?_
  simp only [own, near, idle, rel, not_true, ne_eq, and_false, or_false, if_false, if_true]

theorem mcfg_takes :
    Does (.mcfg x) (mkForm x.q 1 [] []) (fun u => x.flags.getLsbD 4 = false ∧
        ((u.myTile x.d).owner = none ∨ u.holdsTile x.d) ∧
        u.mcfgNear x ∧ u.mcfgIdle x)
      (fun u => u.putTile x.d ((u.myTile x.d).config u.cur.slot x.t (x.flags.extractLsb' 0 5))) := by
  refine does_of (exec_mcfg x) fun u _ ⟨rel, own, near, idle⟩ => ?_
  rcases own with own | own <;>
    simp only [own, near, idle, rel, not_true, ne_eq, and_false, false_and, or_false, if_false, Bool.false_eq_true]

theorem mcfg_traps :
    Traps (.mcfg x) (mkForm x.q 1 [] []) (fun u =>
      ((u.myTile x.d).owner ≠ none ∨ x.flags.getLsbD 4 = true) ∧
        ¬u.holdsTile x.d ∨
      ((u.myTile x.d).owner = none ∨ u.holdsTile x.d) ∧ ¬u.mcfgNear x)
      0x09 (fun _ => BitVec.ofNat 64 x.d.val) :=
  traps_of (exec_mcfg x) fun _ _ h => if_pos (h.imp id And.right)

theorem mcfg_waits :
    Waits (.mcfg x) (mkForm x.q 1 [] []) (fun u =>
      (u.holdsTile x.d ∨
        x.flags.getLsbD 4 = false ∧ (u.myTile x.d).owner = none) ∧ u.mcfgNear x ∧ ¬u.mcfgIdle x) .tile := by
  refine waits_of (exec_mcfg x) fun u _ ⟨own, near, busy⟩ => ?_
  rcases own with own | ⟨rel, own⟩
  · simp only [own, near, busy, not_true, ne_eq, and_false, or_false, if_false, not_false_eq_true, if_true]
  · simp only [own, near, busy, rel, not_true, ne_eq, false_and, Bool.false_eq_true, or_false, if_false, not_false_eq_true, if_true]

end

/-- MRUN's tile takes each operand from a link or from a neighbour of the launch (R230). -/
def State.mrunNear (u : State) (x : MrunF) : Prop :=
  ((u.myTile x.d).cfg.getLsbD 0 = true ∨ (u.core u.cur.core).hasWest u.cur.core = true) ∧
    ((u.myTile x.d).cfg.getLsbD 1 = true ∨ (u.core u.cur.core).hasNorth u.cur.core = true)

/-- MRUN's count in units of k is one of whole blocks (R230). -/
def State.mrunWhole (u : State) (x : MrunF) : Prop :=
  x.imm.getLsbD 24 = true → (x.imm.extractLsb' 0 24).toNat % kMultiple (u.myTile x.d).ty = 0

/-- The run that MRUN queues (R230). -/
def mrunRun (x : MrunF) (sl : Fin 4) (d : Done) : Run :=
  ⟨x.d, sl, x.imm.getLsbD 24, (x.imm.extractLsb' 0 24).toNat, 0, false, 0, d⟩

/-- A run joins the queue of the unit, and starts where it is the first. -/
def Units.addRun (v : Units) (r : Run) : Units :=
  if v.runs.isEmpty then { v with runs := v.runs ++ [r] }.startRun else { v with runs := v.runs ++ [r] }

open Classical in
/-- MRUN by its conditions. -/
theorem exec_mrun (x : MrunF) (s : State) : exec (.mrun x) s = issue (mkForm x.q 1 (ctrOps x.ctr) []) (fun u =>
    heldTile u x.d fun _ =>
      if ¬u.mrunNear x then .trap 0x09 (BitVec.ofNat 64 x.d.val)
      else if ¬u.mrunWhole x then .trap 0x03 u.headWord
      else counterWord u x.ctr fun ctr =>
        syncIssue u x.sync .unit (decide ((u.unit u.cur.core).runs.length < 4)) fun t =>
          .ok (t.modUnits u.cur.core fun v => v.addRun (mrunRun x t.cur.slot (syncDone x.sync ctr)))) s := by
  rw [exec_issue (execMrun x) rfl rfl]
  refine congrArg (issue _ · s) (funext fun u => ?_)
  have far : ((!(u.myTile x.d).cfg.getLsbD 0 && !(u.core u.cur.core).hasWest u.cur.core) ||
      (!(u.myTile x.d).cfg.getLsbD 1 && !(u.core u.cur.core).hasNorth u.cur.core)) = true ↔ ¬u.mrunNear x := by
    simp only [State.mrunNear, Bool.or_eq_true, Bool.and_eq_true, Bool.not_eq_true', ← Bool.not_eq_true]
    tauto
  have part : (x.imm.getLsbD 24 && (x.imm.extractLsb' 0 24).toNat % kMultiple (u.myTile x.d).ty != 0) = true ↔
      ¬u.mrunWhole x := by
    simp only [State.mrunWhole, Bool.and_eq_true, bne_iff_ne]
    tauto
  by_cases own : u.holdsTile x.d
  · rw [heldTile_mine own, heldTile_mine own]
    simp only [far, part]
    rfl
  · exact (if_neg own).trans (if_neg own).symm

section
variable {x : MrunF} {s t u : State} (hi : s.issues (mkForm x.q 1 (ctrOps x.ctr) []))
  (hu : s.took (mkForm x.q 1 (ctrOps x.ctr) []) = u) (own : u.holdsTile x.d)
include hi hu own

theorem mrun_far (far : ¬u.mrunNear x) :
    exec (.mrun x) s = .next (s.takeTrap s.cur.core s.cur.slot 0x09 (BitVec.ofNat 64 x.d.val)) := by
  subst hu
  rw [exec_mrun, issue_done _ hi, heldTile_mine own, if_pos far, finish_trap _ _ _ hi.1]

variable (near : u.mrunNear x)
include near

theorem mrun_part (part : ¬u.mrunWhole x) :
    exec (.mrun x) s = .next (s.takeTrap s.cur.core s.cur.slot 0x03 (s.cur.head.setWidth 64)) := by
  subst hu
  rw [exec_mrun, issue_done _ hi, heldTile_mine own, if_neg (not_not.2 near), if_pos part, finish_trap _ _ _ hi.1]
  rfl

variable (whole : u.mrunWhole x)
  (ctr : u.counterOk x.ctr)
include whole ctr

theorem mrun_gated : s.SyncGated u (.mrun x) x.sync .unit
    ((u.unit u.cur.core).runs.length < 4) := by
  subst hu
  exact syncGated_of (exec_mrun x) hi
    (by rw [heldTile_mine own, if_neg (not_not.2 near), if_neg (not_not.2 whole), counterWord_ok ctr])

theorem mrun_queues (sync : u.Syncs x.sync t)
    (room : (u.unit u.cur.core).runs.length < 4) :
    exec (.mrun x) s = .next ((t.modUnits s.cur.core fun v =>
      v.addRun (mrunRun x s.cur.slot (u.doneOf x.sync x.ctr))).retire 1) := by
  subst hu
  rw [exec_mrun, issue_done _ hi, heldTile_mine own, if_neg (not_not.2 near), if_neg (not_not.2 whole), counterWord_ok ctr,
    decide_eq_true room, syncIssue_syncs sync, finish_ok _ hi.1, sync.cur]
  rfl

end

/-- The feed that MFEED queues (R229). -/
def mfeedFeed (x : MfeedF) (u : State) (sl : Fin 4) (d : Done) : Feed :=
  ⟨x.b, sl, u.rd x.d, u.rd x.a, (x.imm.extractLsb' 0 24).toNat, 0, false, 0, [], false, d⟩

/-- A feed joins the queue of its edge. -/
def Units.addFeed (v : Units) (e : Fin 2) (f : Feed) : Units := { v with feeds := v.feeds.set e (v.feeds[e] ++ [f]) }

/-- The sources of MFEED stand as R229 asks. -/
def State.mfeedSources (u : State) (x : MfeedF) : Prop :=
  let sb := scaleBytes (u.myTile x.b).ty
  let nb := (x.imm.extractLsb' 0 24).toNat
  LocalOk (u.rd x.d) 16 ∧ offOf (u.rd x.d) + nb * (flitsOf (u.myTile x.b).ty * 8) ≤ 65536 ∧
    (sb = 0 ∧ x.a = .g 0 ∨ sb ≠ 0 ∧ LocalOk (u.rd x.a) sb ∧ offOf (u.rd x.a) + nb * sb ≤ 65536) ∨
  isBerth (u.rd x.d) = true ∧ (u.rd x.d).toNat % 16 = 0 ∧ x.a = .g 0

/-- MFEED, but for the wait of its command. -/
theorem exec_mfeed (x : MfeedF) (s : State) : exec (.mfeed x) s = issue (mkForm x.q 1 (x.d :: x.a :: ctrOps x.ctr) []) (fun u =>
    heldTile u x.b fun t =>
      if !t.cfg.getLsbD (edgeOf (x.imm.getLsbD 24)).val then .trap 0x09 (BitVec.ofNat 64 x.b.val)
      else feedCheck t (u.rd x.d) (u.rd x.a) x.a (x.imm.extractLsb' 0 24).toNat u (counterWord u x.ctr fun ctr =>
        syncIssue u x.sync .unit (decide ((u.unit u.cur.core).feeds[edgeOf (x.imm.getLsbD 24)].length < 2)) fun t =>
          .ok (t.modUnits t.cur.core fun v =>
            v.addFeed (edgeOf (x.imm.getLsbD 24)) (mfeedFeed x u t.cur.slot (syncDone x.sync ctr))))) s :=
  exec_issue (execMfeed x) rfl rfl s

section
variable {x : MfeedF} {s t u : State} (hi : s.issues (mkForm x.q 1 (x.d :: x.a :: ctrOps x.ctr) []))
  (hu : s.took (mkForm x.q 1 (x.d :: x.a :: ctrOps x.ctr) []) = u) (own : u.holdsTile x.b)
  (edge : (u.myTile x.b).cfg.getLsbD (edgeOf (x.imm.getLsbD 24)).val = true) (ctr : u.counterOk x.ctr)
  (sources : u.mfeedSources x)
include hi hu own edge ctr sources

theorem mfeed_gated : s.SyncGated u (.mfeed x) x.sync .unit
    ((u.unit u.cur.core).feeds[edgeOf (x.imm.getLsbD 24)].length < 2) := by
  subst hu
  exact syncGated_of (exec_mfeed x) hi
    (by rw [heldTile_mine own, if_neg (by rw [edge]; exact Bool.false_ne_true), feedCheck_ok sources, counterWord_ok ctr])

theorem mfeed_queues (sync : u.Syncs x.sync t) (room : (u.unit u.cur.core).feeds[edgeOf (x.imm.getLsbD 24)].length < 2) :
    exec (.mfeed x) s = .next ((t.modUnits s.cur.core fun v =>
      v.addFeed (edgeOf (x.imm.getLsbD 24)) (mfeedFeed x u s.cur.slot (u.doneOf x.sync x.ctr))).retire 1) := by
  subst hu
  rw [exec_mfeed, issue_done _ hi, heldTile_mine own, edge, feedCheck_ok sources, counterWord_ok ctr, decide_eq_true room,
    syncIssue_syncs sync, sync.cur]
  exact congrArg _ (finish_ok _ hi.1)

end

section
variable (x : MzeroF)

theorem exec_mzero (s : State) : exec (.mzero x) s = issue (mkForm x.q 19 [] []) (fun u => heldTile u x.d fun t =>
    if (u.unit u.cur.core).tileRuns x.d then .wait .tile id
    else .ok (u.putTile x.d { t with acc := Vector.replicate 64 0, work := Vector.replicate 64 0 })) s :=
  exec_issue (execMzero x) rfl rfl s

theorem mzero_zeroes : Does (.mzero x) (mkForm x.q 19 [] []) (fun u => u.holdsTile x.d ∧ (u.unit u.cur.core).tileRuns x.d = false)
    (fun u => u.putTile x.d { u.myTile x.d with acc := Vector.replicate 64 0, work := Vector.replicate 64 0 }) :=
  does_of (exec_mzero x) fun u _ ⟨own, runs⟩ => by rw [heldTile_mine own, runs]; rfl

theorem mzero_waits :
    Waits (.mzero x) (mkForm x.q 19 [] []) (fun u => u.holdsTile x.d ∧ (u.unit u.cur.core).tileRuns x.d = true) .tile :=
  waits_of (exec_mzero x) fun u _ ⟨own, runs⟩ => by rw [heldTile_mine own, if_pos runs]

end

/-- The accumulators that MLOAD leaves, and its flags, from the 64 words that it reads. -/
def mloadSums (add : Bool) (acc : Vector (BitVec 32) 64) (vs : List Nat) : List (Nat × BitVec 8) :=
  if add then (vs.zip acc.toList).map fun p => loadT p.1 p.2.toNat else vs.map fun v => (v, 0)

theorem mloadSums_getD (add : Bool) (acc : Vector (BitVec 32) 64) (f : Nat → Nat) (i : Fin 64) :
    ((mloadSums add acc ((List.range 64).map f)).getD i.val (0, 0)).1 =
      if add then (loadT (f i.val) acc[i].toNat).1 else f i.val := by
  cases add <;> simp [mloadSums]

section
variable (x : MloadF)

theorem exec_mload (s : State) : exec (.mload x) s = issue (mkForm x.q 19 [x.a, x.b] []) (fun u => heldTile u x.d fun t =>
    areaCheck (u.rd x.a) 256 fun o =>
      if (u.unit u.cur.core).tileRuns x.d then .wait .tile id
      else readLocal u o 256 fun v w =>
        let rs := mloadSums ((u.rd x.b).getLsbD 0) t.acc ((List.range 64).map fun i => w / 2 ^ (32 * i) % 2 ^ 32)
        let acc : Vector (BitVec 32) 64 := Vector.ofFn fun i : Fin 64 => BitVec.ofNat 32 (rs.getD i.val (0, 0)).1
        .ok ((v.modUnits u.cur.core fun y => y.setTile x.d { t with acc := acc, work := acc }).setMyFlags (orFlags rs))) s :=
  exec_issue (execMload x) rfl rfl s

theorem mload_window : Traps (.mload x) (mkForm x.q 19 [x.a, x.b] []) (fun u => u.holdsTile x.d ∧ isLocal (u.rd x.a) = false) 0x0A
    (fun u => u.rd x.a) :=
  traps_of (exec_mload x) fun u _ ⟨own, h⟩ => by rw [heldTile_mine own, areaCheck_window 256 h]

theorem mload_outside : Traps (.mload x) (mkForm x.q 19 [x.a, x.b] []) (fun u => u.holdsTile x.d ∧ isLocal (u.rd x.a) = true ∧
    ¬(LocalOk (u.rd x.a) 16 ∧ offOf (u.rd x.a) + 256 ≤ 65536)) 0x07 (fun u => u.rd x.a) :=
  traps_of (exec_mload x) fun u _ ⟨own, h, out⟩ => by rw [heldTile_mine own, areaCheck_outside h out]

theorem mload_waits : Waits (.mload x) (mkForm x.q 19 [x.a, x.b] []) (fun u => u.holdsTile x.d ∧
    (LocalOk (u.rd x.a) 16 ∧ offOf (u.rd x.a) + 256 ≤ 65536) ∧ (u.unit u.cur.core).tileRuns x.d = true) .tile :=
  waits_of (exec_mload x) fun u _ ⟨own, area, runs⟩ => by rw [heldTile_mine own, areaCheck_ok area, if_pos runs]

theorem mload_loads {s u : State} (hi : s.issues (mkForm x.q 19 [x.a, x.b] [])) (hu : s.took (mkForm x.q 19 [x.a, x.b] []) = u)
    (own : u.holdsTile x.d) (area : LocalOk (u.rd x.a) 16 ∧ offOf (u.rd x.a) + 256 ≤ 65536) (sound : u.sound (u.rd x.a) 256)
    (runs : (u.unit u.cur.core).tileRuns x.d = false) :
    ∃ (acc : Vector (BitVec 32) 64) (fl : BitVec 8),
      exec (.mload x) s = .next ((((u.corrects (u.rd x.a) 256).putTile x.d
        { u.myTile x.d with acc := acc, work := acc }).setMyFlags fl).retire 19) ∧
      (∀ i : Fin 64, acc[i] = BitVec.ofNat 32
        (if (u.rd x.b).getLsbD 0 then
          (loadT ((u.core u.cur.core).mem.sram.readLE (offOf (u.rd x.a) + 4 * i.val) 4) (u.myTile x.d).acc[i].toNat).1
         else (u.core u.cur.core).mem.sram.readLE (offOf (u.rd x.a) + 4 * i.val) 4)) ∧
      ((u.rd x.b).getLsbD 0 = false → fl = 0) := by
  subst hu
  have run := exec_mload x s
  rw [issue_done _ hi, heldTile_mine own, areaCheck_ok area, runs, if_neg Bool.false_ne_true, readLocal_sound sound,
    finish_ok _ hi.1] at run
  refine ⟨_, _, run, fun i => ?_, fun h => ?_⟩
  · simp only [Fin.getElem_fin, Vector.getElem_ofFn]
    rw [mloadSums_getD]
    simp only [State.sramAt, Memory.readLE_word]
    rfl
  · rw [h]
    exact orFlags_zero _

end

/-- Lane i % 16 of the quarter i / 16 of the accumulators is accumulator i. -/
theorem lane_quarter (acc : Vector (BitVec 32) 64) (i : Fin 64) :
    lane 32 (packL 32 ((List.range 16).map fun j => (acc.toList.getD (16 * (i.val / 16) + j) 0).toNat)) (i.val % 16) =
      acc[i].toNat := by
  have hlane : i.val % 16 < 16 := Nat.mod_lt _ (by decide)
  have hsum : 16 * (i.val / 16) + i.val % 16 = i.val := Nat.div_add_mod _ _
  have hlt : acc[i].toNat < 2 ^ 32 := BitVec.isLt _
  rw [lane_packL 32 _ (by omega)]
  simpa [List.getElem?_range hlane, hsum] using hlt

section
variable {x : MdrainVF} {s u : State}

theorem exec_mdrainVector (x : MdrainVF) (s : State) : exec (.mdrainVector x) s = issue (mkForm x.q 19 [x.b] [] [.v x.d]) (fun u =>
    heldTile u x.a fun t =>
      let q := ((u.rd x.b).extractLsb' 0 2).toNat
      let v := packL 32 ((List.range 16).map fun i => (t.acc.toList.getD (16 * q + i) 0).toNat)
      let acc : Vector (BitVec 32) 64 := Vector.ofFn fun i : Fin 64 => if i.val / 16 = q then 0 else t.acc[i]
      .ok (if (u.rd x.b).getLsbD 2 then (u.wrV x.d v 0).putTile x.a { t with acc := acc } else u.wrV x.d v 0)) s :=
  exec_issue (execMdrainVector x) rfl rfl s

theorem mdrainVector_drains (hi : s.issues (mkForm x.q 19 [x.b] [] [.v x.d])) (hu : s.took (mkForm x.q 19 [x.b] [] [.v x.d]) = u)
    (own : u.holdsTile x.a) :
    ∃ (v : VWord) (acc : Vector (BitVec 32) 64),
      exec (.mdrainVector x) s = .next (State.retire
        (if (u.rd x.b).getLsbD 2 then (u.wrV x.d v 0).putTile x.a { u.myTile x.a with acc := acc } else u.wrV x.d v 0) 19) ∧
      (∀ i : Fin 64, i.val / 16 = (u.rd x.b).toNat % 4 → lane 32 v (i.val % 16) = (u.myTile x.a).acc[i].toNat) ∧
      ∀ i : Fin 64, acc[i] = if i.val / 16 = (u.rd x.b).toNat % 4 then 0 else (u.myTile x.a).acc[i] := by
  subst hu
  have quarter (w : Word) : (w.extractLsb' 0 2).toNat = w.toNat % 4 := by simp [BitVec.extractLsb'_toNat]
  have run := exec_mdrainVector x s
  rw [issue_done _ hi, heldTile_mine own, finish_ok _ hi.1] at run
  refine ⟨_, _, run, fun i h => ?_, fun i => ?_⟩
  · rw [quarter, ← h]
    exact lane_quarter _ i
  · rw [← quarter]
    simp only [Fin.getElem_fin, Vector.getElem_ofFn]

end

/-! ### MDRAIN to SRAM (R227, R372) -/

@[simp] theorem Core.storing_slots (c : Core) (o n : Nat) (sl : Option (Fin 4)) : (c.storing o n sl).slots = c.slots := by
  have whole : (c.overwrite o n).slots = c.slots := by unfold overwrite; split <;> rfl
  simp only [storing]
  split <;> simp only [correct_slots, whole]

theorem Core.correct_unit (c : Core) (o n : Nat) (sl : Option (Fin 4)) : (c.correct o n sl).unit = c.unit := by
  unfold correct
  split <;> rfl

@[simp] theorem Core.storing_unit (c : Core) (o n : Nat) (sl : Option (Fin 4)) : (c.storing o n sl).unit = c.unit := by
  have whole : (c.overwrite o n).unit = c.unit := by unfold overwrite; split <;> rfl
  simp only [storing]
  split <;> simp only [correct_unit, whole]

/-- The accumulators of a tile as the 256 bytes that MDRAIN stores. -/
def drainBytes (acc : Vector (BitVec 32) 64) : Nat := packNat 32 (acc.toList.map (·.toNat))

/-- Word i of what MDRAIN stores is accumulator i. -/
theorem readLE_drained {m : Memory} (hm : m.wf = true) (o : Nat) (acc : Vector (BitVec 32) 64) (i : Fin 64) :
    (m.writeLE o 256 (drainBytes acc)).readLE (o + 4 * i.val) 4 = acc[i].toNat := by
  have hi := i.isLt
  rw [← Memory.readLE_word, Memory.readLE_writeLE hm, show (256 : Nat) ^ 256 = 2 ^ (8 * 256) by rw [Nat.pow_mul],
    mod_div_mod_two_pow _ (by omega), drainBytes, packNat_field]
  have hlt : acc[i].toNat < 2 ^ 32 := BitVec.isLt _
  simpa using Nat.mod_eq_of_lt hlt

/-- The core that MDRAIN to SRAM leaves (R227): `fill` marks the granules, `clear` clears the tile. -/
def Core.drained (c : Core) (o : Nat) (n : Fin 4) (sl : Fin 4) (fill clear : Bool) : Core :=
  { c.storing o 256 (some sl) with
    mem := { c.mem with
      sram := c.mem.sram.writeLE o 256 (drainBytes c.unit.tiles[n].acc)
      full := if fill then setFullRun c.mem.full (o / 16) 16 true else c.mem.full }
    unit := if clear then c.unit.setTile n { c.unit.tiles[n] with acc := Vector.replicate 64 0 } else c.unit }

/-- The state that MDRAIN to SRAM leaves. -/
def State.drained (u : State) (n : Fin 4) (o : Nat) (fill clear : Bool) : State :=
  let v := u.sramPut u.cur.core o 256 (drainBytes (u.myTile n).acc) (some u.cur.slot)
  let v := if fill then v.setFull u.cur.core (o / 16) 16 true else v
  if clear then v.modUnits u.cur.core fun y => y.setTile n { u.myTile n with acc := Vector.replicate 64 0 } else v

section
variable (u : State) (n : Fin 4) (o : Nat) (fill clear : Bool)

@[simp] theorem State.drained_cur : (u.drained n o fill clear).cur = u.cur := by cases fill <;> cases clear <;> rfl
@[simp] theorem State.drained_gmem : (u.drained n o fill clear).gmem = u.gmem := by cases fill <;> cases clear <;> rfl

theorem State.drained_core :
    (u.drained n o fill clear).core u.cur.core = (u.core u.cur.core).drained o n u.cur.slot fill clear := by
  cases fill <;> cases clear <;> simp [drained, Core.drained, sramPut, setFull, modMem, modUnits, unit]

@[simp] theorem State.drained_me : (u.drained n o fill clear).me = u.me := by
  simp only [me, slot, drained_cur, drained_core, Core.slot, Core.drained, Core.storing_slots]

end

section
variable {c : Core} {o : Nat} (n sl : Fin 4) (fill clear : Bool)

theorem Core.drained_sram : (c.drained o n sl fill clear).mem.sram = c.mem.sram.writeLE o 256 (drainBytes c.unit.tiles[n].acc) := by
  simp only [drained]

theorem Core.drained_words (hm : c.MemOk) (i : Fin 64) :
    (c.drained o n sl fill clear).mem.sram.readLE (o + 4 * i.val) 4 = (c.unit.tiles[n].acc[i]).toNat := by
  rw [drained_sram, readLE_drained hm]

theorem Core.drained_get_ne (hm : c.MemOk) {a : Nat} (ha : a < o ∨ o + 256 ≤ a) :
    (c.drained o n sl fill clear).mem.sram.get a = c.mem.sram.get a := by
  rw [drained_sram, Memory.get_writeLE_ne hm o 256 _ a ha]

theorem Core.drained_full (ho : o + 256 ≤ 65536) {g : Nat} (hg : g < 4096) :
    (c.drained o n sl fill clear).mem.full.getLsbD g =
      ((fill && decide (o / 16 ≤ g ∧ g < o / 16 + 16)) || c.mem.full.getLsbD g) := by
  cases fill with
  | false => simp only [drained, Bool.false_eq_true, if_false, Bool.false_and, Bool.false_or]
  | true =>
    simp only [drained, if_true, setFullRun_getLsbD c.mem.full true (show o / 16 + 16 ≤ 4096 by omega) hg]
    by_cases h : o / 16 ≤ g ∧ g < o / 16 + 16 <;> simp [h]

theorem Core.drained_tile : (c.drained o n sl fill clear).unit.tiles[n] =
    { c.unit.tiles[n] with acc := if clear then Vector.replicate 64 0 else c.unit.tiles[n].acc } := by
  cases clear <;> simp [drained, Units.setTile]

end

theorem State.drained_myTile (u : State) (n : Fin 4) (o : Nat) (fill clear : Bool) :
    (u.drained n o fill clear).myTile n =
      { u.myTile n with acc := if clear then Vector.replicate 64 0 else (u.myTile n).acc } := by
  simp only [myTile, unit, drained_cur, drained_core, Core.drained_tile]

theorem exec_mdrainSram (x : MdrainSF) (s : State) : exec (.mdrainSram x) s = issue (mkForm x.q 19 [x.b, x.c] []) (fun u =>
    heldTile u x.a fun t => areaCheck (u.rd x.c) 256 fun o =>
      let v := u.sramPut u.cur.core o 256 (drainBytes t.acc) (some u.cur.slot)
      let v := if (u.rd x.b).getLsbD 3 then v.setFull u.cur.core (o / 16) 16 true else v
      .ok (if (u.rd x.b).getLsbD 2 then v.modUnits u.cur.core fun y => y.setTile x.a { t with acc := Vector.replicate 64 0 }
        else v)) s :=
  exec_issue (execMdrainSram x) rfl rfl s

theorem mdrainSram_drains {x : MdrainSF} {s u : State} (hi : s.issues (mkForm x.q 19 [x.b, x.c] []))
    (hu : s.took (mkForm x.q 19 [x.b, x.c] []) = u) (own : u.holdsTile x.a)
    (area : LocalOk (u.rd x.c) 16 ∧ offOf (u.rd x.c) + 256 ≤ 65536) :
    exec (.mdrainSram x) s =
      .next ((u.drained x.a (offOf (u.rd x.c)) ((u.rd x.b).getLsbD 3) ((u.rd x.b).getLsbD 2)).retire 19) := by
  subst hu
  rw [exec_mdrainSram, issue_done _ hi, heldTile_mine own, areaCheck_ok area]
  exact congrArg _ (finish_ok _ hi.1)

/-! ### MSTAT (R228) -/

theorem exec_mstat (x : MstatF) (s : State) : exec (.mstat x) s = issue (mkForm x.q 1 [] [x.d]) (fun u => heldTile u x.a fun t =>
    writeG u x.d (t.index ++ t.done ++ encFull t.ty ++ (u.unit u.cur.core).tileState x.a ++ BitVec.ofBool t.err ++
      BitVec.ofNat 2 u.cur.slot.val ++ 0#1 ++ t.cfg)) s := exec_issue (execMstat x) rfl rfl s

/-- Settles O31: each instruction by the lemmas above on what its body does, on a tile that the issuing slot holds. -/
theorem matrixCommands : Obligations.MatrixCommands := by
  refine ⟨fun x => ⟨mcfg_releases x, mcfg_takes x, mcfg_traps x, mcfg_waits x⟩, fun x => ⟨notHeld_of (exec_mrun x), ?_⟩,
    fun x => ⟨notHeld_of (exec_mfeed x), ?_⟩, fun x => ⟨notHeld_of (exec_mzero x), mzero_zeroes x, mzero_waits x⟩,
    fun x => ⟨notHeld_of (exec_mload x), mload_window x, mload_outside x, mload_waits x, ?_⟩,
    fun x => ⟨notHeld_of (exec_mdrainVector x), ?_⟩, fun x => ⟨notHeld_of (exec_mdrainSram x), ?_⟩,
    fun x => ⟨notHeld_of (exec_mstat x), ?_⟩⟩
  · intro s t f u count room links whole r hi own
    exact ⟨mrun_far hi rfl own, mrun_part hi rfl own, mrun_gated hi rfl own, fun near block ctr sync room =>
      mrun_queues hi rfl own near block ctr sync room⟩
  · intro s t f u e nb sb src sc room hi own edge ctr sources
    have edge' : (u.myTile x.b).cfg.getLsbD (edgeOf (x.imm.getLsbD 24)).val = true := edge
    exact ⟨mfeed_gated hi rfl own edge' ctr sources, mfeed_queues hi rfl own edge' ctr sources⟩
  · intro s u v hi own area sound runs
    exact mload_loads x hi rfl own area sound runs
  · intro s f u q hi own
    exact mdrainVector_drains hi rfl own
  · intro s f u o k hi own area hm
    have hcore : (u.core k).mem = (s.core k).mem := State.part_modCore (·.mem) s k k _ rfl
    have hm : (u.core u.cur.core).MemOk := by
      show (u.core k).mem.sram.wf = true
      rw [hcore]
      exact hm
    have core : (u.drained x.a o ((u.rd x.b).getLsbD 3) ((u.rd x.b).getLsbD 2)).core k = _ := State.drained_core ..
    refine ⟨_, mdrainSram_drains hi rfl own area, fun i => ?_, fun a ha => ?_, fun g hg => ?_, ?_, State.drained_me .., ?_⟩
    · rw [core, Core.drained_words _ _ _ _ hm]
      rfl
    · rw [core, Core.drained_get_ne _ _ _ _ hm ha]
      exact congrArg (·.sram.get a) hcore
    · rw [core, Core.drained_full _ _ _ _ area.2 hg]
      exact congrArg (fun m => _ || m.full.getLsbD g) hcore
    · exact State.drained_myTile ..
    · rw [State.drained_gmem]
      rfl
  · refine puts_of (exec_mstat x) fun u _ own => ?_
    rw [heldTile_mine own]
    rfl

end Sys2Proof.Machine
end

section
/-! PROOFS. Reductions and running values over the active lanes (O14). -/

namespace Sys2Proof.Machine

/-! ### Queueing an operation under a lane mask (R190, R192) -/

/-- Taking a head's operands leaves its mask (R157, R190). -/
@[simp] theorem State.took_mask (s : State) (f : Form) (q : Guard) : (s.took f).me.r.mask q = s.me.r.mask q := by
  rw [State.took, State.me_modMe, Regs.consume_eq]
  rfl

theorem issueMasked_done {f : Form} {holds : State → Bool} {body : State → Act} {s : State} (h : s.issuesMasked f)
    (on : holds s = true) : issueMasked f holds body s = .next (finish s f.cls (body (s.took f))) := by
  obtain ⟨issues, free⟩ := h
  rw [issueMasked, if_neg (mt List.contains_iff_mem.1 free), on, issue_done body issues]
  rfl

theorem issueMasked_off {f : Form} {holds : State → Bool} {body : State → Act} {s : State} (free : ¬s.pends (.p f.q.p))
    (off : holds s = false) : issueMasked f holds body s = .next (s.retire 0) := by
  rw [issueMasked, if_neg (mt List.contains_iff_mem.1 free), off]
  rfl

/-- An instruction that is one masked issue, whose body queues writes and flags, queues what these are. -/
theorem queues_of {i : Instr} {f : Form} {holds : State → Bool} {on : State → Prop}
    {ok : State → List RegWrite → BitVec 8 → Prop} {ws : BitVec 16 → State → List RegWrite} {fl : BitVec 16 → State → BitVec 8}
    (he : ∀ s, exec i s = issueMasked f holds (fun u => .ok (u.vop (ws (s.me.r.mask f.q) u) (fl (s.me.r.mask f.q) u))) s)
    (hon : ∀ s, holds s = true ↔ on s) (hok : ∀ u, ok u (ws (u.me.r.mask f.q) u) (fl (u.me.r.mask f.q) u)) :
    Queues i f on id ok := by
  constructor
  · intro s h ho
    refine ⟨_, _, ?_, hok (s.took f)⟩
    rw [he, issueMasked_done h ((hon s).2 ho), finish_ok _ (State.issues_inline h.1), State.took_mask]
    rfl
  · intro s free off
    rw [he, issueMasked_off free (by rw [← Bool.not_eq_true, hon]; exact off)]

/-! ### Active lanes -/

theorem filterMap_active {α β : Type} (p : α → Bool) (g : α → β) (l : List α) :
    (l.map fun x => if p x then some (g x) else none).reduceOption = (l.filter p).map g := by
  induction l with
  | nil => rfl
  | cons x l ih => by_cases h : p x = true <;> simp [h, ih]

/-- The lanes of a register that are active, absent where they are not (R63). -/
def activeLanes (m : BitVec 16) (w : Nat) (v : VWord) (n : Nat) : List (Option Nat) :=
  (List.range n).map fun i => if laneOn m w i then some (lane w v i) else none

theorem activeLanes_sum (m : BitVec 16) (w : Nat) (v : VWord) (n : Nat) :
    (activeLanes m w v n).reduceOption.sum = (((List.range n).filter (laneOn m w)).map (lane w v)).foldl (· + ·) 0 := by
  rw [activeLanes, filterMap_active, List.sum_eq_foldl]

/-! ### The tree of an integer sum (R63, R203) -/

/-- One level of the tree keeps the sum modulo 2^w, halves the operands and sets no flag. -/
theorem redLevel_sum (t : IntTy) : ∀ l : List (Option Nat),
    (redLevel .sum (.int t) l).1.reduceOption.sum ≡ l.reduceOption.sum [MOD 2 ^ tyWidth t] ∧
      (redLevel .sum (.int t) l).1.length = (l.length + 1) / 2 ∧ (redLevel .sum (.int t) l).2 = 0
  | [] => ⟨rfl, rfl, rfl⟩
  | [_] => ⟨rfl, by simp [redLevel], rfl⟩
  | a :: b :: l => by
    obtain ⟨sum, len, flags⟩ := redLevel_sum t l
    have halves : (l.length + 1) / 2 + 1 = (l.length + 1 + 1 + 1) / 2 := by omega
    match a, b with
    | some x, some y =>
      refine ⟨?_, by simp [redLevel, len, halves], by simp [redLevel, redNode, arithLane, flags]⟩
      simpa [redLevel, redNode, arithLane, arithInt, add_assoc] using (Nat.mod_modEq (x + y) _).add sum
    | some x, none =>
      exact ⟨by simpa [redLevel] using sum.add_left x, by simp [redLevel, len, halves], by simp [redLevel, flags]⟩
    | none, y =>
      refine ⟨?_, by simp [redLevel, len, halves], by simp [redLevel, flags]⟩
      cases y with
      | none => simpa [redLevel] using sum
      | some y => simpa [redLevel] using sum.add_left y

/-- The tree of an integer sum has the sum of the operands that are present, modulo 2^w, and sets no flag. -/
theorem redTree_sum (t : IntTy) (n : Nat) (l : List (Option Nat)) (hl : l.length ≤ 2 ^ n) :
    (redTree .sum (.int t) l n).1.getD 0 ≡ l.reduceOption.sum [MOD 2 ^ tyWidth t] ∧ (redTree .sum (.int t) l n).2 = 0 := by
  induction n generalizing l with
  | zero =>
    match l, hl with
    | [], _ => exact ⟨rfl, rfl⟩
    | [none], _ => exact ⟨rfl, rfl⟩
    | [some x], _ => exact ⟨by simp [redTree]; rfl, rfl⟩
  | succ n ih =>
    obtain ⟨sum, len, flags⟩ := redLevel_sum t l
    obtain ⟨sum', flags'⟩ := ih (redLevel .sum (.int t) l).1 (by rw [len]; omega)
    exact ⟨sum'.trans sum, by simp [redTree, flags, flags']⟩

/-! ### Integer running sums (R62, R204) -/

/-- A running sum at lane i is what came before and the lanes up to i that are present, modulo 2^w; none sets a flag. -/
theorem scanFrom_sum (t : IntTy) (acc : Option Nat) (l : List (Option Nat)) :
    (scanFrom (.int t) acc l).2 = 0 ∧ ∀ i < l.length,
      (scanFrom (.int t) acc l).1.getD i 0 ≡ acc.getD 0 + (l.take (i + 1)).reduceOption.sum [MOD 2 ^ tyWidth t] := by
  induction l generalizing acc with
  | nil => exact ⟨rfl, fun i hi => absurd hi (Nat.not_lt_zero i)⟩
  | cons x l ih =>
    obtain ⟨y, hy, eq⟩ : ∃ y : Option Nat, y.getD 0 ≡ acc.getD 0 + ([x].reduceOption).sum [MOD 2 ^ tyWidth t] ∧
        scanFrom (.int t) acc (x :: l) = (y.getD 0 :: (scanFrom (.int t) y l).1, (scanFrom (.int t) y l).2) := by
      match acc, x with
      | some a, some b =>
        exact ⟨some ((a + b) % 2 ^ tyWidth t), by simp [Nat.mod_modEq], by simp [scanFrom, arithLane, arithInt, nfOf, vmodTy]⟩
      | some a, none => exact ⟨some a, by simp; rfl, by simp [scanFrom, nfOf, vmodTy]⟩
      | none, y => exact ⟨y, by cases y <;> simp <;> rfl, by simp [scanFrom, nfOf, vmodTy]⟩
    obtain ⟨flags, sums⟩ := ih y
    rw [eq]
    refine ⟨flags, fun i hi => ?_⟩
    have split (r : List (Option Nat)) : (x :: r).reduceOption.sum = [x].reduceOption.sum + r.reduceOption.sum := by
      cases x <;> simp
    cases i with
    | zero => simpa using hy
    | succ i =>
      rw [List.take_succ_cons, split, ← add_assoc]
      exact (sums i (by simpa using hi)).trans (hy.add_right _)

/-! ### The registers that VRED and VSCAN write -/

theorem lane_fits {w i : Nat} (hi : i < 512 / w) : w * i + w ≤ 512 := by
  rw [← Nat.mul_succ, Nat.mul_comm]
  exact Nat.mul_le_of_le_div w (i + 1) 512 hi

theorem lanes_le (t : IntTy) : 512 / tyWidth t ≤ 64 := by cases t <;> decide

/-- Every lane of a reduction above lane 0 is zero (R203). -/
theorem lane_redReg_zero (op : VRedOp) (md : VMod) (m : BitVec 16) (v : VWord) {i : Nat} (hi : i < 512 / vtyWidth (vmodTy md))
    (h0 : i ≠ 0) : lane (vtyWidth (vmodTy md)) (redReg op md m v).1 i = 0 := by
  obtain ⟨j, rfl⟩ := Nat.exists_eq_succ_of_ne_zero h0
  exact (lane_packL _ _ (lane_fits hi)).trans (Nat.zero_mod _)

theorem redReg_sum (t : IntTy) (m : BitVec 16) (v : VWord) :
    lane (tyWidth t) (redReg .sum (.int t) m v).1 0 = (activeLanes m (tyWidth t) v (512 / tyWidth t)).reduceOption.sum % 2 ^ tyWidth t ∧
      (redReg .sum (.int t) m v).2 = 0 := by
  let tree := redTree .sum (.int t) (activeLanes m (tyWidth t) v (512 / tyWidth t)) 6
  have eq : redReg .sum (.int t) m v = (packL (tyWidth t) [tree.1.getD 0], tree.2 &&& ~~~flagNF ||| 0) := rfl
  obtain ⟨sum, flags⟩ : tree.1.getD 0 ≡ _ [MOD _] ∧ tree.2 = 0 := redTree_sum t 6 _ (by simpa [activeLanes] using lanes_le t)
  have fits : tyWidth t * 0 + tyWidth t ≤ 512 := by cases t <;> decide
  rw [eq, lane_packL _ _ fits, flags]
  exact ⟨sum, rfl⟩

theorem lane_scanReg_sum (t : IntTy) (m : BitVec 16) (v : VWord) {i : Nat} (hi : i < 512 / tyWidth t) :
    lane (tyWidth t) (scanReg (.int t) m v).1 i = (activeLanes m (tyWidth t) v (i + 1)).reduceOption.sum % 2 ^ tyWidth t := by
  have eq : scanReg (.int t) m v = (packL (tyWidth t) (scanFrom (.int t) none (activeLanes m (tyWidth t) v (512 / tyWidth t))).1,
      (scanFrom (.int t) none (activeLanes m (tyWidth t) v (512 / tyWidth t))).2) := rfl
  have sum := (scanFrom_sum t none (activeLanes m (tyWidth t) v (512 / tyWidth t))).2 i (by simpa [activeLanes] using hi)
  have upto : (activeLanes m (tyWidth t) v (512 / tyWidth t)).take (i + 1) = activeLanes m (tyWidth t) v (i + 1) := by
    rw [activeLanes, ← List.map_take, List.take_range, min_eq_left hi]
    rfl
  rw [upto, Option.getD_none, Nat.zero_add] at sum
  rw [eq, lane_packL _ _ (lane_fits hi)]
  exact sum

/-- Settles O14: the tree and the running values are sums modulo 2^w at every node, so that lane 0, and each lane of a scan, holds the
sum of the active lanes. -/
theorem reductionsAndPrefixes : Obligations.ReductionsAndPrefixes := by
  constructor
  · intro x w f
    refine queues_of (holds := fun _ => true) (ws := fun m u => [.v x.d (redReg x.op x.m m (u.rdV x.a)).1 0])
      (fl := fun m u => (redReg x.op x.m m (u.rdV x.a)).2) (fun _ => rfl) (fun _ => ⟨fun _ => trivial, fun _ => rfl⟩) fun u => ?_
    refine ⟨rfl, rfl, fun i hi h0 => lane_redReg_zero _ _ _ _ hi h0, fun t hm hop => ?_⟩
    obtain ⟨sum, flags⟩ := redReg_sum t (u.me.r.mask x.q) (u.rdV x.a)
    rw [activeLanes_sum] at sum
    simp only [w, f, hm, hop]
    exact ⟨sum, flags⟩
  · intro x w f
    refine queues_of (holds := fun _ => true) (ws := fun m u => [.v x.d (scanReg x.m m (u.rdV x.a)).1 0])
      (fl := fun m u => (scanReg x.m m (u.rdV x.a)).2) (fun _ => rfl) (fun _ => ⟨fun _ => trivial, fun _ => rfl⟩) fun u => ?_
    refine ⟨rfl, rfl, fun t hm => ?_⟩
    simp only [w, f, hm]
    exact ⟨(scanFrom_sum t none _).1, fun i hi => by rw [← activeLanes_sum]; exact lane_scanReg_sum t _ _ hi⟩

end Sys2Proof.Machine
end

section
/-! PROOFS. Block arithmetic (O16): what a blockwise operation writes, and exact block sums. -/

namespace Sys2Proof.Machine

/-! ### What a blockwise operation writes (R190, R210) -/

theorem packNat_lt (w : Nat) (l : List Nat) : packNat w l < 2 ^ (w * l.length) := by
  induction l with
  | nil => simp [packNat]
  | cons x l ih =>
    have low : x % 2 ^ w < 2 ^ w := Nat.mod_lt _ (Nat.two_pow_pos w)
    have high : 2 ^ w * (packNat w l + 1) ≤ 2 ^ w * 2 ^ (w * l.length) := Nat.mul_le_mul_left _ ih
    rw [List.length_cons, Nat.mul_succ, Nat.add_comm (w * _), Nat.pow_add, packNat]
    rw [Nat.mul_succ] at high
    omega

theorem blocks_fit (k : BlkTy) {b : Nat} (hb : b < pbCount k) :
    16 * pbBits k * b + 16 * pbBits k ≤ 512 ∧ 16 * b + 16 ≤ 128 := by
  cases k <;> simp only [pbCount, pbBits, isPb4] at * <;> simp at * <;> omega

/-- An entry of a list that is made place by place. -/
theorem getD_map_range {α : Type} (n : Nat) (f : Nat → α) (d : α) {b : Nat} (hb : b < n) :
    ((List.range n).map f).getD b d = f b := by
  simp [List.getD_eq_getElem?_getD, hb]

section
variable (k : BlkTy) (m : BitVec 16) (v : VWord) (h : BitVec 128) (f : Nat → Blk × BitVec 8) {b : Nat} (hb : b < pbCount k)

include hb in
/-- The element bits of block b: those of `f b` where it is active, the previous ones elsewhere. -/
theorem lane_mapBlks : lane (16 * pbBits k) (mapBlks k m v h f).1 b =
    if blkOn k m b = true then packNat (pbBits k) ((f b).1.codes k) % 2 ^ (16 * pbBits k) else lane (16 * pbBits k) v b := by
  rw [lane, mapBlks, BitVec.toNat_ofNat, mod_div_mod_two_pow _ (blocks_fit k hb).1, Nat.mul_comm 16, packNat_field,
    getD_map_range _ _ _ hb, getD_map_range _ _ _ hb]
  cases blkOn k m b <;> rfl

include hb in
/-- The header of block b. -/
theorem header_mapBlks : (mapBlks k m v h f).2.1.toNat / 2 ^ (16 * b) % 2 ^ 16 =
    if blkOn k m b = true then (f b).1.hdr % 2 ^ 16 else h.toNat / 2 ^ (16 * b) % 2 ^ 16 := by
  rw [mapBlks, BitVec.toNat_ofNat, mod_div_mod_two_pow _ (blocks_fit k hb).2, packNat_field,
    getD_map_range _ _ _ hb, getD_map_range _ _ _ hb]
  cases blkOn k m b <;> rfl

/-- Header bits beyond the last block's are zero (R34). -/
theorem header_mapBlks_lt : (mapBlks k m v h f).2.1.toNat < 2 ^ (16 * pbCount k) := by
  rw [mapBlks, BitVec.toNat_ofNat]
  exact (Nat.mod_le _ _).trans_lt ((packNat_lt 16 _).trans_eq (by simp))

/-- A flag that a fold over blocks leaves set was set before, or by one of the blocks. -/
theorem getLsbD_foldl_flags (l : List (Option (Blk × BitVec 8))) (a : BitVec 8) (i : Nat) :
    (l.foldl (fun a x => match x with | some y => a ||| y.2 | none => a) a).getLsbD i = true ↔
      a.getLsbD i = true ∨ ∃ y, some y ∈ l ∧ y.2.getLsbD i = true := by
  induction l generalizing a with
  | nil => simp
  | cons x l ih => cases x with
    | none => simp [ih]
    | some x => simp [ih, or_assoc]

/-- The flags are those of the active blocks together. -/
theorem flags_mapBlks (i : Nat) : (mapBlks k m v h f).2.2.getLsbD i =
    decide (∃ j < pbCount k, blkOn k m j = true ∧ (f j).2.getLsbD i = true) := by
  rw [Bool.eq_iff_iff, decide_eq_true_iff, mapBlks]
  refine (getLsbD_foldl_flags _ _ _).trans ((or_iff_right (by simp)).trans ?_)
  simp only [List.mem_map, List.mem_range, Option.ite_none_right_eq_some,
    Option.some.injEq]
  constructor
  · rintro ⟨_, ⟨j, hj, on, rfl⟩, flag⟩
    exact ⟨j, hj, on, flag⟩
  · rintro ⟨j, hj, on, flag⟩
    exact ⟨f j, ⟨j, hj, on, rfl⟩, flag⟩

end

/-- An instruction that is one blockwise operation puts its function's blocks. -/
theorem blocksPut_of {i : Instr} {q : Guard} {k : BlkTy} {d : Fin 16} {srcs : List (Fin 16)} {gs : List GOp}
    {val : State → Nat → Blk × BitVec 8} (he : ∀ s, exec i s = blockOp q k d srcs gs val s) :
    BlocksPut i (vform q 15 (d :: srcs) gs) k d val := by
  refine queues_of (holds := anyBlk q k)
    (ws := fun m u => [.v d (mapBlks k m (u.rdV d) (u.rdH d) (val u)).1 (mapBlks k m (u.rdV d) (u.rdH d) (val u)).2.1])
    (fl := fun m u => (mapBlks k m (u.rdV d) (u.rdH d) (val u)).2.2) he (fun s => ?_) fun u => ?_
  · simp only [anyBlk, List.any_eq_true, List.mem_range]
    rfl
  · exact ⟨_, _, rfl, fun b hb => ⟨lane_mapBlks k _ _ _ _ hb, header_mapBlks k _ _ _ _ hb⟩, header_mapBlks_lt k _ _ _ _,
      fun b _ => flags_mapBlks k _ _ _ _ b⟩

/-! ### Block sums (R36, R37) -/

theorem addBlk_nan (k : BlkTy) (a b : Blk) (h : a.isNan = true ∨ b.isNan = true) : addBlk k a b = (Blk.nan, flagNF) := by
  rw [addBlk, if_pos (Bool.or_eq_true_iff.2 h)]

theorem rneShiftInt_zero (x : Int) : rneShiftInt x 0 = x := by
  have keep (n : Nat) : rneShift n 0 = n := by simp [rneShift, roundAt]
  rw [rneShiftInt, keep]
  split <;> omega

theorem shiftLoss_zero (x : Int) : shiftLoss x 0 = (x, false) := by
  simp [shiftLoss, rneShiftInt_zero]

/-- With every micro-exponent 1 the elements stand on the block's fine grid (R36). -/
theorem Blk.fine_of_d {a : Blk} (h : a.d = 255) {i : Nat} (hi : i < 16) : a.fine i = a.el.getD i 0 := by
  have one : a.dOf i = 1 := by
    rw [Blk.dOf, h]
    interval_cases i <;> rfl
  rw [Blk.fine, one, Nat.sub_self, pow_zero, mul_one]

/-- Elements that are all below HLIM are packed as they are, with every micro-exponent 1 and no flag (R36). -/
theorem pack_small (k : BlkTy) (t : List Int) (E : Nat) (fl : BitVec 8) (fuel : Nat) (len : t.length = 16)
    (small : ∀ i < 16, (t.getD i 0).natAbs < pbLim k) : pack k false t E fl (fuel + 1) = (⟨E, 255, t⟩, fl) := by
  have d : packD k t = 255 := by
    have all : ((List.range 8).map fun j => if ((t.getD (2 * j) 0).natAbs < pbLim k && (t.getD (2 * j + 1) 0).natAbs < pbLim k)
        then 1 else 0) = List.replicate 8 1 := by
      refine List.eq_replicate_iff.2 ⟨by simp, fun x hx => ?_⟩
      obtain ⟨j, hj, rfl⟩ := List.mem_map.1 hx
      have hj := List.mem_range.1 hj
      simp only [small (2 * j) (by omega), small (2 * j + 1) (by omega), decide_true, Bool.and_self, if_true]
    exact congrArg (packNat 1) all
  have q : packQ 255 t = (t, false) := by
    have keep : (t.zipIdx.map fun (x, i) => if 255 / 2 ^ (i / 2) % 2 = 1 then (x, false) else (rneShiftInt x 1, x % 2 != 0)) =
        t.zipIdx.map fun p => (p.1, false) := by
      refine List.map_congr_left fun p hp => if_pos ?_
      have hi : p.2 < 16 := by simpa [len] using List.snd_lt_of_mem_zipIdx hp
      interval_cases p.2 <;> rfl
    rw [packQ, keep]
    simp [Function.comp_def]
  have inRange : (t.all fun x => decide (x.natAbs ≤ pbMax k)) = true := by
    refine List.all_eq_true.2 fun x hx => decide_eq_true ?_
    obtain ⟨i, hi, rfl⟩ := List.mem_iff_getElem.1 hx
    have lim : pbLim k ≤ pbMax k := by cases k <;> decide
    have := small i (by omega)
    rw [List.getD_eq_getElem _ _ hi] at this
    omega
  simp only [pack, d, q, inRange, Bool.false_eq_true, if_false, if_true]

/-- R37: with every micro-exponent 1, one exponent and sums that fit, a block sum is exact, element by element. -/
theorem addBlk_exact (k : BlkTy) {a b : Blk} {e : Nat} (ha : a.e = e) (hb : b.e = e) (he : e < 0xFF) (da : a.d = 255)
    (db : b.d = 255) (fits : ∀ i < 16, (a.el.getD i 0 + b.el.getD i 0).natAbs < pbLim k) :
    addBlk k a b = (⟨e, 255, (List.range 16).map fun i => a.el.getD i 0 + b.el.getD i 0⟩, 0) := by
  have real : (a.isNan || b.isNan) = false := by
    simp only [Blk.isNan, ha, hb, Bool.or_self, beq_eq_false_iff_ne]
    omega
  have terms : ((List.range 16).map fun i =>
      ((shiftLoss (a.fine i) (e - e)).1 + (shiftLoss (b.fine i) (e - e)).1,
        (shiftLoss (a.fine i) (e - e)).2 || (shiftLoss (b.fine i) (e - e)).2)) =
      (List.range 16).map fun i => (a.el.getD i 0 + b.el.getD i 0, false) := by
    refine List.map_congr_left fun i hi => ?_
    have hi := List.mem_range.1 hi
    rw [Blk.fine_of_d da hi, Blk.fine_of_d db hi, Nat.sub_self, shiftLoss_zero, shiftLoss_zero]
    rfl
  simp only [addBlk, real, ha, hb, max_self, terms, List.map_map, List.any_map, Bool.false_eq_true, if_false]
  refine (pack_small k _ e _ 3 (by simp) fun i hi => ?_).trans ?_
  · rw [getD_map_range _ _ _ hi]
    exact fits i hi
  · simp [Function.comp_def]

/-- Settles O16: each instruction is one blockwise operation; sums by the two cases of R36 and R37. -/
theorem blockArithmetic : Obligations.BlockArithmetic := by
  refine ⟨⟨fun x => ⟨blocksPut_of fun _ => rfl, blocksPut_of fun _ => rfl⟩, fun x => blocksPut_of fun _ => rfl,
    fun x => blocksPut_of fun _ => rfl, fun x => blocksPut_of fun _ => rfl, fun x => blocksPut_of fun _ => rfl,
    fun x => blocksPut_of fun _ => rfl⟩, fun k a b => ⟨addBlk_nan k a b, ?_⟩⟩
  intro e ha hb he da db _ _ fits
  exact addBlk_exact k ha hb he da db fits

end Sys2Proof.Machine
end

section
/-! PROOFS. Exponent-locked reductions (O30). -/

namespace Sys2Proof.Machine

/-! ### Choices where no order log is kept (R389) -/

theorem State.orderAt_unlogged {s : State} {k : CoreId} (h : s.unlogged k) (kind obj choice : Nat) :
    s.orderAt k kind obj choice = .ok s := by
  unfold orderAt
  split
  · rfl
  · next p hp => simp only [order, h p hp]

/-! ### Places of rounding (R41) -/

theorem rneShift_one (m : Nat) : rneShift m 1 = if m % 4 = 3 then m / 2 + 1 else m / 2 := by
  have odd : (decide (2 < 2 * (m % 2)) || 2 * (m % 2) == 2 && m / 2 % 2 == 1) = decide (m % 4 = 3) := by
    rw [Bool.eq_iff_iff]
    simp
    omega
  have eq : rneShift m 1 = if (decide (2 < 2 * (m % 2)) || 2 * (m % 2) == 2 && m / 2 % 2 == 1) = true then m / 2 + 1 else m / 2 := rfl
  rw [eq, odd]
  simp

/-- Half of an even number, and the even one of the neighbours of half an odd one. -/
theorem rneShiftInt_one {x h : Int} (hx : 2 * h = x ∨ (2 * h = x + 1 ∨ 2 * h = x - 1) ∧ h % 2 = 0) : rneShiftInt x 1 = h := by
  rw [rneShiftInt, rneShift_one]
  split <;> split <;> omega

theorem shiftPlaces_even {x h : Int} (hx : 2 * h = x) (k : Nat) : shiftPlaces x (k + 1) = shiftPlaces h k := by
  have even : (x % 2 != 0) = false := by simp; omega
  rw [shiftPlaces, rneShiftInt_one (.inl hx), even]
  rfl

theorem shiftPlaces_odd {x h : Int} (hx : 2 * h = x + 1 ∨ 2 * h = x - 1) (even : h % 2 = 0) (k : Nat) :
    shiftPlaces x (k + 1) = ((shiftPlaces h k).1, true) := by
  have odd : (x % 2 != 0) = true := by simp; omega
  rw [shiftPlaces, rneShiftInt_one (.inr ⟨hx, even⟩), odd]
  rfl

/-! ### Partials, element by element -/

/-- The list holds the `n` values of `f`. -/
def Holds (l : List Int) (n : Nat) (f : Nat → Int) : Prop := l.length = n ∧ ∀ j < n, l.getD j 0 = f j

theorem Holds.map {l : List Int} {n : Nat} {f : Nat → Int} (h : Holds l n f) (g : Int → Int) :
    Holds (l.map g) n fun j => g (f j) := by
  obtain ⟨len, reads⟩ := h
  refine ⟨by rw [List.length_map, len], fun j hj => ?_⟩
  simp [← reads j hj, List.getD_eq_getElem?_getD, len, hj]

theorem Holds.any_iff {l : List Int} {n : Nat} {f : Nat → Int} (h : Holds l n f) (p : Int → Bool) :
    l.any p = true ↔ ∃ j < n, p (f j) = true := by
  obtain ⟨len, reads⟩ := h
  rw [List.any_eq_true]
  constructor
  · rintro ⟨x, hx, hp⟩
    obtain ⟨j, hj, rfl⟩ := List.mem_iff_getElem.1 hx
    exact ⟨j, len ▸ hj, by rwa [← reads j (len ▸ hj), List.getD_eq_getElem _ _ hj]⟩
  · rintro ⟨j, hj, hp⟩
    refine ⟨l.getD j 0, ?_, by rwa [reads j hj]⟩
    rw [List.getD_eq_getElem _ _ (len ▸ hj)]
    exact List.getElem_mem _

/-! ### What a node does (R258) -/

/-- The node with a contribution summed in, before the partial's range is looked at (R38, R41). -/
def LockNode.summed (n : LockNode) (e : Nat) (els : List Int) : LockNode :=
  let sh := els.map fun x => shiftPlaces x (n.d.l - e)
  { n with part := (n.part.zip sh).map fun p => p.1 + p.2.1, d := { n.d with acc := n.d.acc + 1 },
           flags := if sh.any (·.2) then n.flags ||| flagNX else n.flags }

/-- Element j of the sum. -/
def LockNode.sumAt (n : LockNode) (e : Nat) (els : List Int) (j : Nat) : Int :=
  n.part.getD j 0 + (shiftPlaces (els.getD j 0) (n.d.l - e)).1

theorem LockNode.summed_holds (n : LockNode) (e : Nat) {els : List Int} (len : els.length = n.part.length) :
    Holds (n.summed e els).part n.part.length (n.sumAt e els) := by
  refine ⟨by simp [summed, len], fun j hj => ?_⟩
  simp [summed, sumAt, List.getD_eq_getElem?_getD, hj, len]

theorem LockNode.summed_over (n : LockNode) (e : Nat) {els : List Int} (len : els.length = n.part.length) :
    (n.summed e els).over = true ↔ ∃ j < n.part.length, 2 * pbMax (lockTy n.pb4) < (n.sumAt e els j).natAbs :=
  ((n.summed_holds e len).any_iff _).trans (by simp only [decide_eq_true_iff]; rfl)

/-- A contribution is summed; where the partial then passes 2 × MMAX it is clamped, or the node is HELD and asks for a raise. -/
theorem LockNode.add_eq (n : LockNode) (own e : Nat) (els : List Int) : n.add own e els =
    if !(n.summed e els).over then n.summed e els
    else if 0xFE ≤ n.d.l then { n.summed e els with part := (n.summed e els).part.map (clampEl (2 * pbMax (lockTy n.pb4))),
                                                    flags := (n.summed e els).flags ||| flagBSAT }
    else if n.d.root then { n.summed e els with d := { (n.summed e els).d with state := 1 } }.raise own
    else { n.summed e els with d := { (n.summed e els).d with state := 1 }, out := n.out ++ [.renorm n.d.parent] } := rfl

/-- A node that was HELD changes nothing but its state as it opens. -/
theorem LockNode.reopen_eq (n : LockNode) : ∃ st, n.reopen = { n with d := { n.d with state := st } } := by
  unfold reopen
  split
  · exact ⟨0, rfl⟩
  · exact ⟨n.d.state, rfl⟩

/-- What a root's raise leaves (R258, R39, R40). -/
theorem LockNode.raise_spec {n : LockNode} (low : n.d.l < 0xFE) (own : Nat) :
    ∃ st, n.raise own = { n.halve with
      d := { n.d with l := n.d.l + 1, raises := n.d.raises + 1, state := st },
      out := n.out ++ ((List.range (n.d.hi + 1 - n.d.lo)).map (· + n.d.lo)).filterMap fun r =>
        if r = own then none else some (LockOut.exponent r (n.d.l + 1)) } := by
  rw [raise, if_neg (by omega)]
  exact reopen_eq _

theorem LockNode.raise_keeps (n : LockNode) (own : Nat) : (n.raise own).d.acc = n.d.acc ∧ (n.raise own).held = n.held := by
  by_cases low : n.d.l < 0xFE
  · obtain ⟨st, eq⟩ := raise_spec low own
    rw [eq]
    exact ⟨rfl, rfl⟩
  · rw [raise, if_pos (by omega)]
    exact ⟨rfl, rfl⟩

/-- A contribution that is added counts, and what is held stays held. -/
theorem LockNode.add_keeps (n : LockNode) (own e : Nat) (els : List Int) :
    (n.add own e els).d.acc = n.d.acc + 1 ∧ (n.add own e els).held = n.held := by
  rw [add_eq]
  split
  · exact ⟨rfl, rfl⟩
  · split
    · exact ⟨rfl, rfl⟩
    · split
      · exact raise_keeps _ own
      · exact ⟨rfl, rfl⟩

theorem LockNode.tested_eq (m : LockNode) (r : Nat) :
    m.tested r = { m with isDone := m.isDone || decide (m.d.state = 0 ∧ m.d.acc = m.d.expect ∧ m.d.raises = r) } := by
  unfold tested
  split <;> simp [*]

/-- With nothing held there is only the test for completion to make. -/
theorem LockNode.settle_nil {n : LockNode} (h : n.held = []) (own fuel : Nat) : ∃ b, n.settle own fuel = { n with isDone := b } := by
  cases fuel with
  | zero => exact ⟨n.isDone, rfl⟩
  | succ fuel =>
    have none_held : takeHeld n.d.l n.held = none := by rw [h]; rfl
    simp only [settle, none_held]
    split
    · exact ⟨n.isDone, rfl⟩
    · split
      · exact ⟨true, rfl⟩
      · exact ⟨n.isDone, rfl⟩

theorem LockNode.contribute_held {n : LockNode} {e : Nat} (h : n.d.state = 1 ∨ n.d.l < e) (own : Nat) (els : List Int) :
    n.contribute own e els = { n with held := n.held ++ [(e, els)] } := if_pos h

section
variable {n : LockNode} {own e : Nat} {els : List Int} (opened : n.d.state = 0) (low : e ≤ n.d.l)
include opened low

theorem LockNode.contribute_open : n.contribute own e els =
    let m := (n.add own e els).tested n.d.raises
    if m.isDone || m.d.raises = n.d.raises then m else m.settle own (m.held.length + 1) :=
  if_neg (by omega)

/-- Where the contribution makes the node raise nothing, its test for completion follows (R258). -/
theorem LockNode.contribute_unraised (raises : (n.add own e els).d.raises = n.d.raises) :
    n.contribute own e els = (n.add own e els).tested n.d.raises := by
  rw [contribute_open opened low]
  refine if_pos ?_
  simp [tested_eq, raises]

/-- Where nothing is held, a contribution does no more than add and look whether the reduction is complete. -/
theorem LockNode.contribute_add (held : n.held = []) :
    ∃ b, n.contribute own e els = { n.add own e els with isDone := b } := by
  rw [contribute_open opened low]
  rw [← (n.add_keeps own e els).2] at held
  generalize n.add own e els = m at held ⊢
  obtain ⟨b, tested⟩ : ∃ b, m.tested n.d.raises = { m with isDone := b } := ⟨_, tested_eq m _⟩
  rw [tested]
  dsimp only
  split
  · exact ⟨b, rfl⟩
  · exact settle_nil (n := { m with isDone := b }) held _ _

end

/-- Every rank from LO to HI but the root's own has a notice (R40). -/
theorem mem_notices (lo hi own l : Nat) (o : LockOut) :
    (o ∈ ((List.range (hi + 1 - lo)).map (· + lo)).filterMap fun r => if r = own then none else some (LockOut.exponent r l)) ↔
      ∃ k, lo ≤ k ∧ k ≤ hi ∧ k ≠ own ∧ o = .exponent k l := by
  simp only [List.mem_filterMap, List.mem_map, List.mem_range, Option.ite_none_left_eq_some, Option.some.injEq]
  constructor
  · rintro ⟨_, ⟨j, hj, rfl⟩, other, rfl⟩
    exact ⟨j + lo, by omega, by omega, other, rfl⟩
  · rintro ⟨k, hlo, hhi, other, rfl⟩
    exact ⟨k, ⟨k - lo, by omega, by omega⟩, other, rfl⟩

/-! ### The node in the machine -/

theorem State.tagHead_lt {s : State} {k : CoreId} {i a : Nat} {r : Fin 4 × Msg × Word} (h : s.tagHead k i a = some r) : i < 2 := by
  by_contra big
  rw [tagHead, if_pos (by simp; omega)] at h
  cases h

section
variable {s : State} {k : CoreId} {m : Msg} {x : LockCtx} {d : LockDesc} (ctx : (s.core k).lockOf m.tag = some x)
  (sound : (s.core k).badWord (2 * x.haddr.toNat - 16) 16 = none) (desc : (s.core k).lockDesc (2 * x.haddr.toNat) = some d)
  (quiet : s.unlogged k)
include ctx sound desc

/-- A well-formed contribution to an open reduction reaches its node. -/
theorem State.lockTake_open {q : Fin 4} {e : Word} {ex : Nat} {els : List Int} (hq : q.val < 2)
    (parse : lockedBlocks x.pb4 m = some (ex, x.nb, els)) : s.lockTake k q m e =
      some (((s.charge k x.slot 25 x.nb).popArr k q).putNode k m x ((x.node d).contribute m.dst.toNat ex els)) := by
  have other : q ≠ 2 := by
    rintro rfl
    exact absurd hq (by decide)
  simp only [lockTake, ctx, if_neg other, parse, ne_eq, not_true_eq_false, if_false, sound, desc]

theorem State.lockNote_open (f : LockNode → LockNode) : s.lockNote k m f =
    (s.popArr k 2).putNode k m x ((f (x.node d)).settle m.dst.toNat ((f (x.node d)).held.length + 1)) := by
  simp only [lockNote, ctx, sound, desc]

include quiet

theorem lockedContribution_takes {q : Fin 4} {e : Word} {i ex : Nat} {els : List Int} (head : s.tagHead k i 3 = some (q, m, e))
    (hq : q.val < 2) (locked : e.getLsbD 27 = true) (parse : lockedBlocks x.pb4 m = some (ex, x.nb, els)) :
    exec (.lockedContribution k i) s = .next
      (((s.charge k x.slot 25 x.nb).popArr k q).putNode k m x ((x.node d).contribute m.dst.toNat ex els)) := by
  show event s _ = _
  simp only [event, if_pos (State.tagHead_lt head), head, locked, State.lockOrdered, State.orderAt_unlogged quiet, if_true,
    State.lockTake_open ctx sound desc hq parse, Option.getD_some]

variable (head : s.head2 k 2 = some m)
include head

theorem renorm_acts (kind : m.kind = .renorm) : exec (.renorm k 2) s = .next (
    let n := if d.root then (x.node d).raise m.dst.toNat else { x.node d with out := [.renorm d.parent] }
    (s.popArr k 2).putNode k m x (n.settle m.dst.toNat (n.held.length + 1))) := by
  show event s _ = _
  simp only [event, head, kind, bne_self_eq_false, Bool.false_eq_true, if_false, ordered, State.orderAt_unlogged quiet,
    State.lockNote_open ctx sound desc, Option.getD_some]
  rfl

theorem exponent_acts {l : BitVec 8} (kind : m.kind = .exponent l) : exec (.newExponentNotice k 2) s = .next (
    let n := ({ x.node d with d := { d with l := l.toNat, raises := d.raises + 1 } }.halve).reopen
    (s.popArr k 2).putNode k m x (n.settle m.dst.toNat (n.held.length + 1))) := by
  show event s _ = _
  simp only [event, head, kind, ordered, State.orderAt_unlogged quiet, State.lockNote_open ctx sound desc, Option.getD_some]
  rfl

end

/-! ### What a contribution makes of an open node with nothing held -/

section
variable {n : LockNode} (own : Nat) {e : Nat} {els : List Int} (opened : n.d.state = 0) (low : e ≤ n.d.l)
include opened low

theorem LockNode.contribute_fits (fits : (n.summed e els).over = false) :
    n.contribute own e els = (n.summed e els).tested n.d.raises := by
  have add : n.add own e els = n.summed e els := by rw [add_eq, fits]; rfl
  rw [contribute_unraised opened low (by rw [add]; rfl), add]

variable (wide : (n.summed e els).over = true)
include wide

theorem LockNode.contribute_asks (below : n.d.l < 0xFE) (inner : n.d.root = false) : n.contribute own e els =
    { n.summed e els with d := { n.d with acc := n.d.acc + 1, state := 1 }, out := n.out ++ [.renorm n.d.parent] } := by
  have add : n.add own e els =
      { n.summed e els with d := { n.d with acc := n.d.acc + 1, state := 1 }, out := n.out ++ [.renorm n.d.parent] } := by
    rw [add_eq, wide, if_neg (by omega : ¬0xFE ≤ n.d.l), inner]
    rfl
  rw [contribute_unraised opened low (by rw [add]), add, tested_eq]
  simp

theorem LockNode.contribute_clamps (top : 0xFE ≤ n.d.l) : ∃ b, n.contribute own e els =
    { n.summed e els with part := (n.summed e els).part.map (clampEl (2 * pbMax (lockTy n.pb4))),
                          flags := (n.summed e els).flags ||| flagBSAT, isDone := b } := by
  have add : n.add own e els = { n.summed e els with
      part := (n.summed e els).part.map (clampEl (2 * pbMax (lockTy n.pb4))), flags := (n.summed e els).flags ||| flagBSAT } := by
    rw [add_eq, wide, if_pos top]
    rfl
  rw [contribute_unraised opened low (by rw [add]; rfl), add, tested_eq]
  exact ⟨_, rfl⟩

theorem LockNode.contribute_raises (held : n.held = []) (below : n.d.l < 0xFE) (root : n.d.root = true) : ∃ st b,
    n.contribute own e els = { (n.summed e els).halve with
      d := { n.d with acc := n.d.acc + 1, l := n.d.l + 1, raises := n.d.raises + 1, state := st },
      out := n.out ++ ((List.range (n.d.hi + 1 - n.d.lo)).map (· + n.d.lo)).filterMap fun r =>
        if r = own then none else some (LockOut.exponent r (n.d.l + 1)),
      isDone := b } := by
  have add : n.add own e els = { n.summed e els with d := { (n.summed e els).d with state := 1 } }.raise own := by
    rw [add_eq, wide, if_neg (by omega : ¬0xFE ≤ n.d.l), root]
    rfl
  obtain ⟨st, raise⟩ := raise_spec (n := { n.summed e els with d := { (n.summed e els).d with state := 1 } }) below own
  rw [raise] at add
  obtain ⟨b, eq⟩ := contribute_add (own := own) (els := els) opened low held
  exact ⟨st, b, by rw [eq, add]; rfl⟩

end

/-- Settles O30: one lemma for each way that a contribution, a RENORM or a notice goes. -/
theorem lockedReductions : Obligations.LockedReductions := by
  refine ⟨?_, ?_, ?_, ?_⟩
  · intro k i q m e x d ex nb els s head hq locked ctx parse hnb sound desc quiet
    subst hnb
    exact lockedContribution_takes ctx sound desc quiet head hq locked parse
  · intro n own e els
    refine ⟨fun h => LockNode.contribute_held h own els, fun opened low held len => ?_⟩
    intro r lim sum fl passes is
    have parts (f : Nat → Int) (h : Holds r.part n.part.length f) : is f := h
    have sums : Holds (n.summed e els).part n.part.length sum := n.summed_holds e len
    have flags : (n.summed e els).flags = fl := by simp only [LockNode.summed, List.any_map]; rfl
    have wide : (n.summed e els).over = true ↔ passes := n.summed_over e len
    refine ⟨?_, fun within => ?_, fun past below inner => ?_, fun past below root => ?_, fun past top => ?_⟩
    · obtain ⟨b, eq⟩ : ∃ b, r = _ := LockNode.contribute_add opened low held
      rw [eq]
      exact (n.add_keeps own e els).1
    · have eq : r = _ := LockNode.contribute_fits own opened low (Bool.eq_false_iff.2 (mt wide.1 within))
      rw [LockNode.tested_eq] at eq
      refine ⟨parts _ (eq ▸ sums), eq ▸ rfl, eq ▸ flags, eq ▸ rfl, ?_⟩
      rw [eq]
      simp [LockNode.summed, opened]
    · have eq : r = _ := LockNode.contribute_asks own opened low (wide.2 past) below inner
      exact ⟨parts _ (eq ▸ sums), eq ▸ rfl, eq ▸ flags, eq ▸ rfl, eq ▸ rfl⟩
    · obtain ⟨st, b, eq⟩ : ∃ st b, r = _ := LockNode.contribute_raises own opened low (wide.2 past) held below root
      refine ⟨parts _ (eq ▸ sums.map _), eq ▸ rfl, eq ▸ rfl, fun o => ?_⟩
      rw [eq, List.mem_append, mem_notices]
    · obtain ⟨b, eq⟩ : ∃ b, r = _ := LockNode.contribute_clamps own opened low (wide.2 past) top
      have clamp : (fun j => max (-lim : Int) (min lim (sum j))) = fun j => clampEl lim (sum j) := by
        funext j
        rw [clampEl, satInt, min_comm]
      exact ⟨clamp ▸ parts _ (eq ▸ sums.map _), eq ▸ rfl, eq ▸ rfl, by rw [eq, flags]⟩
  · intro x h k
    exact ⟨rfl, rfl, fun hx => shiftPlaces_even hx k, fun hx even => shiftPlaces_odd hx even k⟩
  · intro k m x d s head ctx quiet sound desc
    exact ⟨renorm_acts ctx sound desc quiet head, fun l => exponent_acts ctx sound desc quiet head⟩

end Sys2Proof.Machine
end

section
/-! PROOFS. The events of the tensor unit (O32). -/

namespace Sys2Proof.Machine

/-! ### Choices of an engine where no order log is kept (R389) -/

theorem State.orderEngine_unlogged {s : State} {k : CoreId} (h : s.unlogged k) (obj issuer : Nat) :
    s.orderEngine k obj issuer = .ok s := orderAt_unlogged h _ _ _

theorem State.orderSignal_unlogged {s : State} {k : CoreId} (h : s.unlogged k) (d : Done) (issuer : Nat) :
    s.orderSignal k d issuer = .ok s := by
  rw [orderSignal, orderEngine_unlogged h, ite_self]

/-! ### The units of a core through updates of the state -/

@[simp] theorem State.unit_modUnits_self (s : State) (k : CoreId) (g : Units → Units) : (s.modUnits k g).unit k = g (s.unit k) := by
  rw [unit, modUnits, core_modCore]
  rfl

theorem State.unit_modUnits_ne (s : State) {k j : CoreId} (g : Units → Units) (h : j ≠ k) : (s.modUnits k g).unit j = s.unit j := by
  rw [unit, modUnits, core_modCore_ne _ _ _ _ h]
  rfl

@[simp] theorem State.unit_charge (s : State) (k j : CoreId) (sl : Fin 4) (c : Fin 32) (n : Nat) :
    (s.charge k sl c n).unit j = s.unit j := unit_modCoreRegs _ _ _ _

@[simp] theorem State.unit_count (s : State) (k j : CoreId) (c : Nat) (sl : Option (Fin 4)) (n : Nat) :
    (s.count k c sl n).unit j = s.unit j := unit_modCoreRegs _ _ _ _

@[simp] theorem State.unit_setFlags (s : State) (k j : CoreId) (sl : Fin 4) (f : BitVec 8) :
    (s.setFlags k sl f).unit j = s.unit j := by
  unfold setFlags
  split
  · rfl
  · exact unit_modSlot _ _ _ _ _

theorem State.setFlags_flags (s : State) (k : CoreId) (sl : Fin 4) (f : BitVec 8) :
    ((s.setFlags k sl f).slot k sl).r.flags = (s.slot k sl).r.flags ||| f := by
  unfold setFlags
  split
  · next h => simp [h]
  · rw [modRegs, slot_modSlot]

theorem Units.setTile_tile (u : Units) (n m : Fin 4) (t : Tile) : (u.setTile n t).tiles[m] = if m = n then t else u.tiles[m] := by
  rw [setTile, Fin.getElem_fin, Vector.getElem_set]
  simp only [Fin.ext_iff, eq_comm]
  rfl

/-! ### Flits taken and forwarded (R218, R219) -/

/-- The queue of the next core that a forwarded flit joins. -/
abbrev linkQueue (e : Fin 2) : Fin 4 := if e = 0 then 0 else 1

theorem nextCore_ne (k : CoreId) (e : Fin 2) : nextCore k e ≠ k := by
  unfold nextCore
  split
  · exact Nat.succ_ne_self k
  · exact fun h => absurd (Nat.add_eq_left.1 h) (by decide)

theorem nextCore_east_ne_south (k : CoreId) : nextCore k 0 ≠ nextCore k 1 := fun h =>
  absurd (Nat.add_left_cancel (show k + 1 = k + 1152 from h)) (by decide)

theorem Tile.queue_ne (t : Tile) : t.queue 0 ≠ t.queue 1 := by
  unfold queue
  cases t.cfg.getLsbD 0 <;> cases t.cfg.getLsbD 1 <;> decide

/-- A flit leaves a queue of a core's units. -/
def Units.dropFlit (u : Units) (q : Fin 4) : Units := { u with queues := u.queues.set q (u.queues[q].drop 1) }

/-- A flit joins a queue of a core's units. -/
def Units.addFlits (u : Units) (q : Fin 4) (l : List Flit) : Units := { u with queues := u.queues.set q (u.queues[q] ++ l) }

theorem Units.dropFlit_empty {u : Units} {q : Fin 4} (h : u.queues[q] = []) : u.dropFlit q = u := by
  have : u.queues.set q (u.queues[q].drop 1) = u.queues := by
    rw [h, List.drop_nil, ← h]
    exact Vector.set_getElem_self _
  rw [dropFlit, this]

@[simp] theorem Units.addFlits_nil (u : Units) (q : Fin 4) : u.addFlits q [] = u := by
  have : u.queues.set q (u.queues[q] ++ []) = u.queues := by
    rw [List.append_nil]
    exact Vector.set_getElem_self _
  rw [addFlits, this]

theorem Units.dropFlit_queue (u : Units) (q p : Fin 4) :
    (u.dropFlit q).queues[p] = if p = q then u.queues[p].drop 1 else u.queues[p] := by
  simp only [dropFlit, Fin.getElem_fin, Vector.getElem_set, Fin.ext_iff, eq_comm]
  split
  · next h => simp only [h]
  · rfl

theorem Units.addFlits_queue (u : Units) (q : Fin 4) (l : List Flit) : (u.addFlits q l).queues[q] = u.queues[q] ++ l :=
  Vector.getElem_set_self _

theorem State.sendFlit_unit (s : State) (k j : CoreId) (e : Fin 2) (f : Flit) : (s.sendFlit k e f).unit j =
    if j = nextCore k e then (s.unit j).addFlits (linkQueue e) [f] else s.unit j := by
  split
  · next h =>
    subst h
    rw [sendFlit, pushFlit, unit_modUnits_self]
    exact congrArg (Units.addFlits · _ _) (unit_modCoreRegs _ _ _ _)
  · next h =>
    rw [sendFlit, pushFlit, unit_modUnits_ne _ _ h]
    exact unit_modCoreRegs _ _ _ _

@[simp] theorem State.sendFlit_slot (s : State) (k j : CoreId) (e : Fin 2) (f : Flit) (n : Fin 4) :
    (s.sendFlit k e f).slot j n = s.slot j n :=
  (slot_modUnits _ _ _ _ _).trans (slot_modCoreRegs _ _ _ _ _)

@[simp] theorem State.sendFlit_mem (s : State) (k j : CoreId) (e : Fin 2) (f : Flit) :
    ((s.sendFlit k e f).core j).mem = (s.core j).mem :=
  (mem_modUnits _ _ _ _).trans (mem_modCoreRegs _ _ _ _)

section
variable (s : State) (k : CoreId) (t : Tile) (e : Fin 2)

/-- A flit that is taken leaves its queue, and crosses the link to the next core where the tile forwards its direction. -/
theorem State.takeFlit_eq : s.takeFlit k t e = match (s.unit k).queues[t.queue e] with
    | [] => s
    | f :: _ =>
      if t.forwards e then (s.modUnits k fun u => u.dropFlit (t.queue e)).sendFlit k e f
      else s.modUnits k fun u => u.dropFlit (t.queue e) := by
  have drop (f : Flit) (l : List Flit) (h : (s.unit k).queues[t.queue e] = f :: l) :
      (s.modUnits k fun u => { u with queues := u.queues.set (t.queue e) l }) = s.modUnits k fun u => u.dropFlit (t.queue e) := by
    have : l = (s.unit k).queues[t.queue e].drop 1 := by rw [h]; rfl
    rw [this]
    rfl
  unfold takeFlit
  rw [show (s.core k).unit = s.unit k from rfl]
  cases h : (s.unit k).queues[t.queue e] with
  | nil => rfl
  | cons f l =>
    dsimp only
    rw [drop f l h]

@[simp] theorem State.takeFlit_slot (j : CoreId) (n : Fin 4) : (s.takeFlit k t e).slot j n = s.slot j n := by
  rw [takeFlit_eq]
  split
  · rfl
  · split <;> simp

@[simp] theorem State.takeFlit_mem (j : CoreId) : ((s.takeFlit k t e).core j).mem = (s.core j).mem := by
  rw [takeFlit_eq]
  split
  · rfl
  · split <;> simp

@[simp] theorem State.takeFlit_unit_self : (s.takeFlit k t e).unit k = (s.unit k).dropFlit (t.queue e) := by
  rw [takeFlit_eq]
  split
  · next h => rw [Units.dropFlit_empty h]
  · split
    · rw [sendFlit_unit, if_neg (nextCore_ne k e).symm, unit_modUnits_self]
    · rw [unit_modUnits_self]

theorem State.takeFlit_unit_next (fw : t.forwards e = true) : (s.takeFlit k t e).unit (nextCore k e) =
    (s.unit (nextCore k e)).addFlits (linkQueue e) ((s.unit k).queues[t.queue e].take 1) := by
  rw [takeFlit_eq]
  split
  · next h => rw [h, List.take_nil, Units.addFlits_nil]
  · next f l h =>
    rw [if_pos fw, sendFlit_unit, if_pos rfl, unit_modUnits_ne _ _ (nextCore_ne k e), h]
    rfl

theorem State.takeFlit_unit_ne {j : CoreId} (h : j ≠ k) (h' : j ≠ nextCore k e) : (s.takeFlit k t e).unit j = s.unit j := by
  rw [takeFlit_eq]
  split
  · rfl
  · split
    · rw [sendFlit_unit, if_neg h', unit_modUnits_ne _ _ h]
    · exact unit_modUnits_ne _ _ h

end

/-! ### A pair of flits (R56, R218, R230, R353) -/

/-- A tile with a pair joined to its open group, the working copy taken at a block's first pair. -/
def Tile.joined (t : Tile) (a b : Word × BitVec 8) : Tile :=
  { t with work := if t.flits = 0 then t.acc else t.work, flits := t.flits + 1, group := t.group ++ [(a.1, a.2, b.1, b.2)],
           flow := t.flow.mapFinIdx fun i f _ =>
             { f with seen := false, crc := if i = 0 then crcFlit f.crc a.1 a.2 else crcFlit f.crc b.1 b.2 } }

theorem Tile.pair_eq (t : Tile) (a b : Word × BitVec 8) : t.pair a b =
    if t.group.length + 1 = groupFlits t.ty then groupAcc (t.joined a b) else t.joined a b := by
  have len : (t.group ++ [(a.1, a.2, b.1, b.2)]).length = t.group.length + 1 := by simp
  rw [← len]
  unfold pair joined
  by_cases h : t.flits = 0 <;> simp only [h, if_true, if_false]

/-- A group that is whole is summed into each element of the working copy (R56). -/
theorem groupAcc_work (t : Tile) (i : Fin 64) : (groupAcc t).work[i] = BitVec.ofNat 32
    (elemAcc t.ty (t.flow[(0 : Fin 2)]).scales (t.flow[(1 : Fin 2)]).scales t.group t.work[i].toNat i.val).1 := by
  have old : t.work.toList.getD i.val 0 = t.work[i] := by simp
  simp only [groupAcc, Fin.getElem_fin, Vector.getElem_ofFn]
  rw [getD_map_range _ _ _ i.isLt, old]
  rfl

/-- Blocks or k-steps that a pair of flits completes for its run (R230). -/
def Run.got (r : Run) (t : Tile) : Nat :=
  if r.unit then kOfFlit t.ty t.flits else if t.flits + 1 = flitsOf t.ty then 1 else 0

/-- Two flits have been taken, forwarded and computed for two tokens, and what the tokens lack is owed. -/
def State.pairTaken (s : State) (k : CoreId) (t : Tile) (r : Run) (l : List Run) (a b : Word × BitVec 8) : State :=
  ((((s.takeFlit k t 0).takeFlit k t 1).modUnits k fun u =>
    { (u.payT 2).setTile r.tile (t.pair a b) with runs := { r with taken := r.taken + r.got t } :: l }).charge k r.slot
      (tensorClass t.ty) 2).count k 6 (some r.slot) (kOfFlit t.ty t.flits)

theorem Tile.pair_flits (t : Tile) (a b : Word × BitVec 8) : (t.pair a b).flits = t.flits + 1 := by
  rw [pair_eq]
  split <;> rfl

theorem Tile.pair_acc (t : Tile) (a b : Word × BitVec 8) : (t.pair a b).acc = t.acc := by
  rw [pair_eq]
  split <;> simp only [groupAcc, joined]

/-- A pair that leaves its group open. -/
theorem Tile.pair_part {t : Tile} (h : t.group.length + 1 ≠ groupFlits t.ty) (a b : Word × BitVec 8) : t.pair a b = t.joined a b := by
  rw [pair_eq, if_neg h]

/-- A pair that closes its group is summed into the working copy (R56). -/
theorem Tile.pair_whole {t : Tile} (h : t.group.length + 1 = groupFlits t.ty) (a b : Word × BitVec 8) (i : Fin 64) :
    (t.pair a b).group = [] ∧ (t.pair a b).work[i] = BitVec.ofNat 32 (elemAcc t.ty (t.flow[(0 : Fin 2)]).scales
      (t.flow[(1 : Fin 2)]).scales (t.group ++ [(a.1, a.2, b.1, b.2)]) (if t.flits = 0 then t.acc[i] else t.work[i]).toNat i.val).1 := by
  have scales (e : Fin 2) : ((t.joined a b).flow[e]).scales = (t.flow[e]).scales := by simp [joined]
  have work : (t.joined a b).work[i] = if t.flits = 0 then t.acc[i] else t.work[i] := by
    unfold joined
    split <;> rfl
  rw [pair_eq, if_pos h, groupAcc_work, scales, scales, work]
  exact ⟨rfl, rfl⟩

theorem operandPairTake_next {k : CoreId} {r : Run} {l : List Run} {a b : Word × BitVec 8} {s : State} {t : Tile}
    (ht : (s.unit k).tiles[r.tile] = t) (runs : (s.unit k).runs = r :: l) (phase : s.phaseOf k = .run) (live : r.drain = false)
    (ready : (s.unit k).pairReady r = some (a, b)) (paid : (s.unit k).owedT = 0) (tokens : 0 < (s.unit k).tokens)
    (west : s.fwdRoom k t 0 1 = true) (north : s.fwdRoom k t 1 1 = true) :
    exec (.operandPairTake k) s = .next (s.pairTaken k t r l a b) := by
  have may : (s.unit k).mayT = true := by simp [Units.mayT, paid]; omega
  have computes : ¬r.drain = true := by rw [live]; exact Bool.false_ne_true
  show event s _ = _
  simp only [event, State.headRun, runs, phase, if_neg computes, ready, ht, may, west, north, t.pair_flits, bne_self_eq_false,
    Bool.false_and, Bool.false_eq_true, if_false, Bool.not_true, Bool.or_self, State.pairTaken, Run.got, Option.getD_some]

section
variable (s : State) (k : CoreId) (t : Tile) (r : Run) (l : List Run) (a b : Word × BitVec 8)

theorem State.pairTaken_unit : (s.pairTaken k t r l a b).unit k =
    { ((((s.unit k).dropFlit (t.queue 0)).dropFlit (t.queue 1)).payT 2).setTile r.tile (t.pair a b) with
      runs := { r with taken := r.taken + r.got t } :: l } := by
  rw [pairTaken, unit_count, unit_charge, unit_modUnits_self, takeFlit_unit_self, takeFlit_unit_self]

theorem State.pairTaken_queue (e : Fin 2) :
    ((s.pairTaken k t r l a b).unit k).queues[t.queue e] = ((s.unit k).queues[t.queue e]).drop 1 := by
  rw [pairTaken_unit]
  show ((((s.unit k).dropFlit (t.queue 0)).dropFlit (t.queue 1))).queues[t.queue e] = _
  rw [Units.dropFlit_queue, Units.dropFlit_queue]
  match e with
  | 0 => rw [if_neg t.queue_ne, if_pos rfl]
  | 1 => rw [if_pos rfl, if_neg t.queue_ne.symm]

/-- Of two flits that are taken, one that is forwarded joins the next core's queue. -/
theorem State.takeFlits_next (e : Fin 2) (fw : t.forwards e = true) :
    ((s.takeFlit k t 0).takeFlit k t 1).unit (nextCore k e) =
      (s.unit (nextCore k e)).addFlits (linkQueue e) (((s.unit k).queues[t.queue e]).take 1) := by
  obtain rfl | rfl : e = 0 ∨ e = 1 := by omega
  · exact (takeFlit_unit_ne _ k t 1 (nextCore_ne k 0) (nextCore_east_ne_south k)).trans (takeFlit_unit_next s k t 0 fw)
  · refine (takeFlit_unit_next _ k t 1 fw).trans ?_
    rw [takeFlit_unit_ne s k t 0 (nextCore_ne k 1) (nextCore_east_ne_south k).symm, takeFlit_unit_self, Units.dropFlit_queue,
      if_neg t.queue_ne.symm]

theorem State.pairTaken_next (e : Fin 2) (fw : t.forwards e = true) :
    ((s.pairTaken k t r l a b).unit (nextCore k e)).queues[linkQueue e] =
      (s.unit (nextCore k e)).queues[linkQueue e] ++ ((s.unit k).queues[t.queue e]).take 1 := by
  rw [pairTaken, unit_count, unit_charge, unit_modUnits_ne _ _ (nextCore_ne k e), takeFlits_next _ _ _ _ fw, Units.addFlits_queue]

theorem State.pairTaken_slot (j : CoreId) (n : Fin 4) : (s.pairTaken k t r l a b).slot j n = s.slot j n := by
  simp [pairTaken]

theorem State.pairTaken_mem (j : CoreId) : ((s.pairTaken k t r l a b).core j).mem = (s.core j).mem := by
  simp [pairTaken]

end

/-! ### Tokens (R221, R222, R231) -/

/-- A token of direction i leaves its queue, and the run and its tile are as the token makes them. -/
def State.putToken (s : State) (k : CoreId) (t : Tile) (i : Fin 2) (r : Run) (t' : Tile) (l : List Run) : State :=
  (s.takeFlit k t i).modUnits k fun u => { u.setTile r.tile t' with runs := r :: l }

section
variable (s : State) (k : CoreId) (t t' : Tile) (i : Fin 2) (r : Run) (l : List Run)

@[simp] theorem State.putToken_slot (j : CoreId) (n : Fin 4) : (s.putToken k t i r t' l).slot j n = s.slot j n :=
  (slot_modUnits _ _ _ _ _).trans (takeFlit_slot _ _ _ _ _ _)

@[simp] theorem State.putToken_runs : ((s.putToken k t i r t' l).unit k).runs = r :: l := by
  rw [putToken, unit_modUnits_self]

@[simp] theorem State.putToken_tile : ((s.putToken k t i r t' l).unit k).tiles[r.tile] = t' := by
  rw [putToken, unit_modUnits_self]
  exact Vector.getElem_set_self _

end

/-- A tile that has latched a token that passes (R222). -/
def Tile.latched (t : Tile) (i : Fin 2) (sc w : Word) : Tile := Tile.reindex { t with flow := t.flow.set i (t.flow[i].token sc w) }

theorem Tile.reindex_eq (t : Tile) : ∃ n, t.reindex = { t with index := n } := by
  unfold reindex
  split
  · exact ⟨_, rfl⟩
  · exact ⟨t.index, rfl⟩

theorem Tile.latched_eq (t : Tile) (i : Fin 2) (sc w : Word) :
    ∃ n, t.latched i sc w = { t with index := n, flow := t.flow.set i (t.flow[i].token sc w) } := reindex_eq _

theorem FlowSt.token_seen (f : FlowSt) (sc w : Word) : (f.token sc w).seen = true := by
  unfold token
  split <;> rfl

/-- Tokens have passed in both directions after the latched one where the other direction's had. -/
theorem Tile.latched_seen (t : Tile) (i : Fin 2) (sc w : Word) :
    (((t.latched i sc w).flow[0]).seen && ((t.latched i sc w).flow[1]).seen) = (t.flow[1 - i]).seen := by
  obtain ⟨n, eq⟩ := t.latched_eq i sc w
  rw [eq]
  match i with
  | 0 => simp [FlowSt.token_seen]
  | 1 => simp [FlowSt.token_seen]

theorem FlowSt.token_opens {w : Word} (h : closes w = false) (f : FlowSt) (sc : Word) :
    (f.token sc w).scales = sc ∧ (f.token sc w).isOpen = true ∧ (f.token sc w).index = f.index + 1 := by
  rw [token, h]
  exact ⟨rfl, rfl, rfl⟩

theorem FlowSt.token_closes {w : Word} (h : closes w = true) (f : FlowSt) (sc : Word) :
    (f.token sc w).scales = f.scales ∧ (f.token sc w).isOpen = false := by
  rw [token, h]
  exact ⟨rfl, rfl⟩

/-- A tile after a token that passes: the block that it follows is committed where the other direction's token has passed too. -/
def Tile.passed (t : Tile) (i : Fin 2) (sc w : Word) (taken : Nat) : Tile :=
  if t.flits ≠ 0 ∧ (t.flow[1 - i]).seen = true then (t.latched i sc w).commit taken else t.latched i sc w

section
variable (t : Tile) (i : Fin 2) (sc w : Word) (taken : Nat)

/-- The flow of the token's direction is as the token leaves it. -/
theorem Tile.passed_flow : ((t.passed i sc w taken).flow[i]).scales = (t.flow[i].token sc w).scales ∧
    ((t.passed i sc w taken).flow[i]).isOpen = (t.flow[i].token sc w).isOpen ∧
    ((t.passed i sc w taken).flow[i]).index = (t.flow[i].token sc w).index := by
  obtain ⟨n, eq⟩ := t.latched_eq i sc w
  unfold passed
  rw [eq]
  split <;> simp [commit]

theorem Tile.passed_commits (flits : t.flits ≠ 0) (seen : (t.flow[1 - i]).seen = true) :
    (t.passed i sc w taken).acc = t.work ∧ (t.passed i sc w taken).flits = 0 ∧
      (t.passed i sc w taken).done = BitVec.ofNat 24 taken := by
  obtain ⟨n, eq⟩ := t.latched_eq i sc w
  rw [passed, if_pos ⟨flits, seen⟩, eq]
  exact ⟨rfl, rfl, rfl⟩

theorem Tile.passed_waits (h : t.flits = 0 ∨ (t.flow[1 - i]).seen = false) :
    (t.passed i sc w taken).acc = t.acc ∧ (t.passed i sc w taken).flits = t.flits := by
  obtain ⟨n, eq⟩ := t.latched_eq i sc w
  have alone : ¬(t.flits ≠ 0 ∧ (t.flow[1 - i]).seen = true) := by
    rintro ⟨flits, seen⟩
    exact h.elim flits fun unseen => Bool.false_ne_true (unseen.symm.trans seen)
  rw [passed, if_neg alone, eq]
  exact ⟨rfl, rfl⟩

end

/-- The state after a token that passes, with the charge of the block where it commits one (R231). -/
def State.tokenPassed (s : State) (k : CoreId) (t : Tile) (i : Fin 2) (r : Run) (sc w : Word) (l : List Run) : State :=
  if t.flits ≠ 0 ∧ (t.flow[1 - i]).seen = true then (s.putToken k t i r (t.passed i sc w r.taken) l).charge k r.slot 19
  else s.putToken k t i r (t.passed i sc w r.taken) l

section
variable (s : State) (k : CoreId) (t : Tile) (i : Fin 2) (r : Run) (sc w : Word) (l : List Run)

theorem State.tokenPassed_unit : (s.tokenPassed k t i r sc w l).unit k = (s.putToken k t i r (t.passed i sc w r.taken) l).unit k := by
  unfold tokenPassed
  split
  · exact unit_charge ..
  · rfl

@[simp] theorem State.tokenPassed_slot (n : Fin 4) : (s.tokenPassed k t i r sc w l).slot k n = s.slot k n := by
  unfold tokenPassed
  split <;> simp

@[simp] theorem State.tokenPassed_runs : ((s.tokenPassed k t i r sc w l).unit k).runs = r :: l := by
  rw [tokenPassed_unit, putToken_runs]

@[simp] theorem State.tokenPassed_tile :
    ((s.tokenPassed k t i r sc w l).unit k).tiles[r.tile] = t.passed i sc w r.taken := by
  rw [tokenPassed_unit, putToken_tile]

end

/-- The direction that comes in at an edge (R218). -/
def edgeNo : Edge → Fin 2
  | .west => 0
  | .north => 1

theorem edgeNo_cases {e : Edge} {i : Fin 2} (h : edgeNo e = i) : e = .west ∧ i = 0 ∨ e = .north ∧ i = 1 := by
  subst h
  cases e
  · exact .inl ⟨rfl, rfl⟩
  · exact .inr ⟨rfl, rfl⟩

/-- What a token at the head of its direction does to a run that is not draining. -/
theorem scaleTokenTake_next {k : CoreId} {e : Edge} {i : Fin 2} (hi : edgeNo e = i) {r : Run} {l : List Run} {sc w : Word} {s : State}
    {t : Tile} (ht : (s.unit k).tiles[r.tile] = t) (runs : (s.unit k).runs = r :: l) (ready : (s.unit k).tokenReady r i = some (sc, w))
    (room : s.fwdRoom k t i 2 = true) (phase : s.phaseOf k = .run) (live : r.drain = false) (paid : (s.unit k).owedT = 0)
    (quiet : s.unlogged k) : exec (.scaleTokenTake k e) s = .next (
      if tokenOk t t.flow[i] w = false then s.putToken k t i (r.failed t i w).1 (r.failed t i w).2 l
      else s.tokenPassed k t i r sc w l) := by
  have both : (t.flits != 0 && ((t.latched i sc w).flow[0]).seen && ((t.latched i sc w).flow[1]).seen) =
      decide (t.flits ≠ 0 ∧ (t.flow[1 - i]).seen = true) := by
    rw [Bool.and_assoc, t.latched_seen, Bool.eq_iff_iff]
    simp
  have body : exec (.scaleTokenTake k e) s = .next (
      if !tokenOk t t.flow[i] w then s.putToken k t i (r.failed t i w).1 (r.failed t i w).2 l
      else if (t.flits != 0 && ((t.latched i sc w).flow[0]).seen && ((t.latched i sc w).flow[1]).seen) = true then
        (s.putToken k t i r ((t.latched i sc w).commit r.taken) l).charge k r.slot 19
      else s.putToken k t i r (t.latched i sc w) l) := by
    show event s _ = _
    obtain ⟨rfl, rfl⟩ | ⟨rfl, rfl⟩ := edgeNo_cases hi <;>
    · simp only [event, State.headRun, runs, ready, ht, room, phase, live, paid, State.orderEngine_unlogged quiet, ordered,
        bne_self_eq_false, Bool.not_true, Bool.not_false, Bool.false_and, Bool.and_false, Bool.or_self, Bool.false_eq_true, if_false]
      simp only [apply_ite (Option.getD · s), Option.getD_some]
      rfl
  rw [body, both]
  cases tokenOk t t.flow[i] w with
  | false => rfl
  | true =>
    by_cases passes : t.flits ≠ 0 ∧ (t.flow[1 - i]).seen = true
    · rw [decide_eq_true passes, State.tokenPassed, if_pos passes, Tile.passed, if_pos passes]
      rfl
    · rw [decide_eq_false passes, State.tokenPassed, if_neg passes, Tile.passed, if_neg passes]
      rfl

/-! ### What the completion of a command leaves alone (R116, R136) -/

/-- A core's units, the registers of its slots, and the flags that its semaphores have set, stay. -/
structure Core.UnitFrame (c d : Core) : Prop where
  unit : d.unit = c.unit
  regs : ∀ n, (d.slot n).r = (c.slot n).r
  flags : ∀ i, c.mem.sf.getLsbD i = true → d.mem.sf.getLsbD i = true

theorem Core.UnitFrame.refl (c : Core) : c.UnitFrame c := ⟨rfl, fun _ => rfl, fun _ h => h⟩

theorem Core.UnitFrame.of_parts {c d : Core} (hu : d.unit = c.unit) (hs : d.slots = c.slots) (hf : d.mem.sf = c.mem.sf) :
    c.UnitFrame d := ⟨hu, fun n => by rw [slot, slot, hs], fun i h => by rwa [hf]⟩

theorem Core.UnitFrame.trans {c d e : Core} (h : c.UnitFrame d) (h' : d.UnitFrame e) : c.UnitFrame e :=
  ⟨h'.unit.trans h.unit, fun n => (h'.regs n).trans (h.regs n), fun i hi => h'.flags i (h.flags i hi)⟩

theorem Core.UnitFrame.setSlot {c : Core} {n : Fin 4} {x : Slot} (h : x.r = (c.slot n).r) : c.UnitFrame (c.setSlot n x) := by
  refine ⟨rfl, fun m => ?_, fun _ h => h⟩
  by_cases hm : m = n
  · subst hm
    rw [slot_setSlot, h]
  · rw [slot_setSlot_ne _ _ _ _ hm]

theorem Core.UnitFrame.grants (c : Core) (n : BitVec 8) : c.UnitFrame (c.grants n) := by
  have give (g : List (Fin 4 × BitVec 16)) (b : Core) : b.UnitFrame (g.foldl (Core.give n) b) := by
    induction g generalizing b with
    | nil => exact .refl b
    | cons e g ih => exact (UnitFrame.setSlot (x := { b.slot e.1 with grant := some (n, e.2) }) rfl).trans (ih (b.give n e))
  rw [grants_eq]
  refine UnitFrame.trans ?_ (give _ _)
  exact .of_parts rfl rfl rfl

theorem Core.UnitFrame.setSF (c : Core) (n : BitVec 8) : c.UnitFrame (c.setSF n true) := by
  refine ⟨rfl, fun _ => rfl, fun i hi => ?_⟩
  simp [Core.setSF, setBit256, hi]

/-- The flag that a fault sets (R111, R231). -/
theorem Core.setSF_set (c : Core) (n : BitVec 8) : (c.setSF n true).mem.sf.getLsbD n.toNat = true := by
  have : n.toNat < 256 := n.isLt
  simp [Core.setSF, setBit256, this]

section
variable (s : State) (k : CoreId) (sl : Fin 4) (d : Done)

/-- The frame of an update of core k. -/
theorem Core.UnitFrame.modCore {g : Core → Core} (h : (s.core k).UnitFrame (g (s.core k))) :
    (s.core k).UnitFrame ((s.modCore k g).core k) := by
  rw [State.core_modCore]
  exact h

theorem Core.UnitFrame.modSlot {g : Slot → Slot} (h : (g (s.slot k sl)).r = (s.slot k sl).r) :
    (s.core k).UnitFrame ((s.modSlot k sl g).core k) := modCore s k (setSlot h)

theorem State.defer_unitFrame (c : BitVec 8) (a : Word) : (s.core k).UnitFrame ((s.defer k sl c a).core k) := by
  have note : (s.core k).UnitFrame ((s.noteUE k c a).core k) := by
    unfold noteUE
    split
    · exact .modCore s k (.of_parts rfl rfl rfl)
    · exact .refl _
  refine note.trans ?_
  unfold defer
  dsimp only
  split
  · exact .modCore (s.noteUE k c a) k (.of_parts rfl rfl rfl)
  · exact .modSlot (s.noteUE k c a) k sl rfl

theorem State.signal_unitFrame : (s.core k).UnitFrame ((s.signal k sl d).core k) := by
  unfold signal
  split
  · exact .refl _
  · split
    · next c hc =>
      rw [core_setCore]
      simp only [Core.addSem] at hc
      split at hc
      · cases hc
      · cases hc
        unfold Core.setSem
        refine Core.UnitFrame.trans ?_ (.grants _ _)
        exact .of_parts rfl rfl rfl
    · exact (Core.UnitFrame.modCore s k (.setSF _ _)).trans (defer_unitFrame _ k sl _ _)

/-- A HALTING slot whose last command completes changes neither its registers nor its event (R69). -/
theorem State.settleHalt_core : (s.settleHalt k sl).core k = s.core k ∨ ∃ (g : Slot → Slot) (f : CoreRegs → CoreRegs),
    (s.settleHalt k sl).core k = ((s.modSlot k sl g).modCoreRegs k f).core k ∧ ∀ x, (g x).r = x.r ∧ (g x).ev = x.ev := by
  unfold settleHalt
  split
  · exact .inr ⟨fun x => { x with st := .empty, watch := ⟨false, 0, none⟩ },
      fun r => { r with migt := r.migt.set sl (r.migt[sl] &&& ~~~(1#64 <<< 63)) }, rfl, fun _ => ⟨rfl, rfl⟩⟩
  · exact .inl rfl

theorem State.settleHalt_unitFrame : (s.core k).UnitFrame ((s.settleHalt k sl).core k) := by
  obtain eq | ⟨g, f, eq, keep⟩ := s.settleHalt_core k sl
  · rw [eq]
    exact .refl _
  · rw [eq]
    exact (Core.UnitFrame.modSlot s k sl (keep _).1).trans (.modCore _ k (.of_parts rfl rfl rfl))

theorem State.complete_unitFrame (n : Nat) : (s.core k).UnitFrame ((s.complete k sl n d).core k) := by
  have add : ((s.signal k sl d).core k).UnitFrame (((s.signal k sl d).counterAdd k sl n d).core k) := by
    unfold counterAdd
    split
    · exact .refl _
    · exact .modCore _ k (.of_parts rfl rfl rfl)
  exact (s.signal_unitFrame k sl d).trans (add.trans ((Core.UnitFrame.modSlot _ k sl rfl).trans (settleHalt_unitFrame _ k sl)))

/-- The event of a completion reaches its slot (R178). -/
theorem State.complete_ev (n : Nat) : ((s.complete k sl n d).slot k sl).ev = true := by
  have settle (u : State) : ((u.settleHalt k sl).slot k sl).ev = (u.slot k sl).ev := by
    obtain eq | ⟨g, f, eq, keep⟩ := u.settleHalt_core k sl
    · rw [slot, eq]
      rfl
    · rw [slot, eq, ← (keep (u.slot k sl)).2]
      exact congrArg Slot.ev ((slot_modCoreRegs _ _ _ _ _).trans (slot_modSlot _ _ _ _))
  rw [complete, settle, setEv, slot_modSlot]

end

/-! ### The end of a run (R230, R231) -/

@[simp] theorem Units.startRun_runs (u : Units) : u.startRun.runs = u.runs := by
  unfold startRun
  split <;> rfl

/-- The next run starts from the committed elements. -/
theorem Units.startRun_acc (u : Units) (n : Fin 4) : u.startRun.tiles[n].acc = u.tiles[n].acc := by
  unfold startRun
  split
  · rfl
  · rw [setTile_tile]
    split
    · next h => rw [h]
    · rfl

theorem Units.startRun_other (u : Units) (n : Fin 4) (h : ∀ q ∈ u.runs.head?, q.tile ≠ n) : u.startRun.tiles[n] = u.tiles[n] := by
  unfold startRun
  split
  · rfl
  · next q l runs => rw [setTile_tile, if_neg (h q (by rw [runs]; rfl)).symm]

/-- A tile whose run has ended: drained, or with its part block committed. -/
def Tile.ended (t : Tile) (r : Run) : Tile :=
  if r.drain then { t with flits := 0, flags := 0, flow := t.flow.map fun f => { f with seen := false } }
  else { t with acc := if t.flits = 0 then t.acc else t.work, done := BitVec.ofNat 24 r.taken, flags := 0 }

/-- The head run leaves the unit, the next one starts, and the run's flags reach its slot. -/
def State.runEnds (s : State) (k : CoreId) (t : Tile) (r : Run) (l : List Run) : State :=
  (s.modUnits k fun u => ({ u.setTile r.tile (t.ended r) with runs := l } : Units).startRun).setFlags k r.slot t.flags

section
variable (s : State) (k : CoreId) (t : Tile) (r : Run) (l : List Run)

theorem State.runEnds_unit :
    (s.runEnds k t r l).unit k = ({ (s.unit k).setTile r.tile (t.ended r) with runs := l } : Units).startRun := by
  rw [runEnds, unit_setFlags, unit_modUnits_self]

theorem State.runEnds_runs : ((s.runEnds k t r l).unit k).runs = l := by
  rw [runEnds_unit, Units.startRun_runs]

theorem State.runEnds_acc : ((s.runEnds k t r l).unit k).tiles[r.tile].acc = (t.ended r).acc := by
  rw [runEnds_unit, Units.startRun_acc]
  exact congrArg Tile.acc ((Units.setTile_tile _ _ _ _).trans (if_pos rfl))

theorem State.runEnds_tile (h : ∀ q ∈ l.head?, q.tile ≠ r.tile) : ((s.runEnds k t r l).unit k).tiles[r.tile] = t.ended r := by
  rw [runEnds_unit, Units.startRun_other _ _ h]
  exact (Units.setTile_tile _ _ _ _).trans (if_pos rfl)

theorem State.runEnds_flags : ((s.runEnds k t r l).slot k r.slot).r.flags = (s.slot k r.slot).r.flags ||| t.flags := by
  rw [runEnds, setFlags_flags, slot_modUnits]

end

/-- A run that has ended is charged for a part block that it commits, or, where it failed, sets SF and raises CHECK (R230, R231). -/
def State.runCloses (s : State) (k : CoreId) (t : Tile) (r : Run) (l : List Run) : State :=
  if r.drain then ((s.runEnds k t r l).modCore k fun c => c.setSF r.done.faultSem true).defer k r.slot 0x0D r.fail
  else if t.flits = 0 then s.runEnds k t r l else (s.runEnds k t r l).charge k r.slot 19

section
variable (s : State) (k : CoreId) (t : Tile) (r : Run) (l : List Run)

theorem State.runCloses_unitFrame : ((s.runEnds k t r l).core k).UnitFrame ((s.runCloses k t r l).core k) := by
  unfold runCloses
  split
  · exact (Core.UnitFrame.modCore _ k (.setSF _ _)).trans (defer_unitFrame _ k _ _ _)
  · split
    · exact .refl _
    · exact .modCore _ k (.of_parts rfl rfl rfl)

theorem State.runCloses_sf (h : r.drain = true) : ((s.runCloses k t r l).core k).mem.sf.getLsbD r.done.faultSem.toNat = true := by
  rw [runCloses, if_pos h]
  refine (defer_unitFrame _ k _ _ _).flags _ ?_
  rw [core_modCore]
  exact Core.setSF_set _ _

end

/-- A run that is done ends, and completes. -/
theorem mrunComplete_next {k : CoreId} {r : Run} {l : List Run} {s : State} {t : Tile} (ht : (s.unit k).tiles[r.tile] = t)
    (runs : (s.unit k).runs = r :: l) (ready : r.ready t = true) (paid : (s.unit k).owedT = 0) (quiet : s.unlogged k) :
    exec (.mrunComplete k) s = .next ((s.runCloses k t r l).complete k r.slot 0 r.done) := by
  show event s _ = _
  simp only [event, State.headRun, runs, ht, ready, paid, State.orderAll, State.orderEngine_unlogged quiet,
    State.orderSignal_unlogged quiet, ordered, bne_self_eq_false, Bool.not_true, Bool.or_self, Bool.false_eq_true, if_false,
    Option.getD_some]
  rfl

/-! ### Feeds (R221, R229) -/

/-- The queue that a feed of a direction injects into (R219). -/
abbrev feedQueue (i : Fin 2) : Fin 4 := if i = 0 then 2 else 3

section
variable (s : State) (k : CoreId) (i : Fin 2)

@[simp] theorem State.setFeeds_unit (l : List Feed) :
    (s.setFeeds k i l).unit k = { s.unit k with feeds := (s.unit k).feeds.set i l } := unit_modUnits_self _ _ _

@[simp] theorem State.setFeeds_slot (l : List Feed) (j : CoreId) (n : Fin 4) : (s.setFeeds k i l).slot j n = s.slot j n :=
  slot_modUnits _ _ _ _ _

@[simp] theorem State.pushFlit_unit (q : Fin 4) (f : Flit) : (s.pushFlit k q f).unit k = (s.unit k).addFlits q [f] :=
  unit_modUnits_self _ _ _

@[simp] theorem State.pushFlit_slot (q : Fin 4) (f : Flit) (j : CoreId) (n : Fin 4) : (s.pushFlit k q f).slot j n = s.slot j n :=
  slot_modUnits _ _ _ _ _

/-- A feed that ends closes its flow with LAST where it has opened it (R221). -/
theorem State.closeFeed_unit (f : Feed) : (s.closeFeed k i f 2).unit k = (s.unit k).addFlits (feedQueue i) (if f.isOpen then
    [.token 0 (tokenWord ((s.unit k).tiles[f.tile].feedIdx[i]) ((s.unit k).tiles[f.tile]).ty 2 f.crc)] else []) := by
  unfold closeFeed
  dsimp only
  split
  · exact pushFlit_unit _ _ _ _
  · rw [Units.addFlits_nil]

@[simp] theorem State.closeFeed_slot (f : Feed) (m : BitVec 2) (j : CoreId) (n : Fin 4) :
    (s.closeFeed k i f m).slot j n = s.slot j n := by
  unfold closeFeed
  dsimp only
  split
  · exact pushFlit_slot _ _ _ _ _ _
  · rfl

end

/-- A choice of a feed's turn (R229). -/
theorem runChoice_feed (s : State) (k : CoreId) {e : Edge} {i : Fin 2} (hi : edgeNo e = i) {u : State} (turn : s.feedTurn k i = some u) :
    runChoice s (.feed k e) = .next u := by
  have eq : runChoice s (.feed k e) = event s (s.feedTurn k (edgeNo e)) := by cases e <;> rfl
  rw [eq, hi, turn]
  rfl

section
variable {s : State} {k : CoreId} {i : Fin 2} {f : Feed} {l : List Feed} (feeds : (s.unit k).feeds[i] = f :: l)
include feeds

/-- A feed completes once its last block has been read. -/
theorem mfeedComplete_next {e : Edge} (hi : edgeNo e = i) (quiet : s.unlogged k) (phase : s.phaseOf k = .run)
    (read : f.nb ≤ f.blk) (untold : f.told = false) : exec (.mfeedComplete k e) s =
      .next ((s.setFeeds k i ({ f with told := true } :: l)).complete k f.slot 0 f.done) := by
  show event s _ = _
  obtain ⟨rfl, rfl⟩ | ⟨rfl, rfl⟩ := edgeNo_cases hi <;>
  · simp only [event, feeds, phase, Nat.not_lt.2 read, untold, State.orderSignal_unlogged quiet, ordered]
    rfl

/-- A formed flit is injected where its queue has room. -/
theorem State.feedTurn_injects {x : Flit} {p : List Flit} (pend : f.pend = x :: p) (room : x.len ≤ s.queueRoom k (feedQueue i)) :
    s.feedTurn k i = some ((s.setFeeds k i ({ f with pend := p } :: l)).pushFlit k (feedQueue i) x) := by
  simp only [feedTurn, feeds, pend, List.isEmpty_cons, Bool.and_false, Bool.false_and, Bool.false_eq_true, if_false,
    if_neg (Nat.not_lt.2 room)]

/-- A feed that has completed and injected its flits leaves its channel. -/
theorem State.feedTurn_ends (pend : f.pend = []) (read : f.nb ≤ f.blk) (told : f.told = true)
    (room : 2 ≤ s.queueRoom k (feedQueue i)) : s.feedTurn k i = some ((s.closeFeed k i f 2).setFeeds k i l) := by
  simp only [feedTurn, feeds, pend, told, read, Nat.not_lt.2 read, decide_false, Bool.and_false, Bool.false_eq_true, if_false,
    if_neg (Nat.not_lt.2 room), if_true]

end

/-- Settles O32: what each event of the unit leaves, from the state that it answers by its lemma above. -/
theorem matrixRuns : Obligations.MatrixRuns := by
  refine ⟨?_, ?_, ?_, ?_, ?_⟩
  · intro k r l a b s t got runs phase live ready paid tokens west north
    refine ⟨_, operandPairTake_next rfl runs phase live ready paid tokens west north, ?_⟩
    have unit := s.pairTaken_unit k t r l a b
    refine ⟨?_, by rw [unit]; rfl, by rw [unit]; rfl, by rw [unit]; rfl, s.pairTaken_queue k t r l a b,
      s.pairTaken_next k t r l a b, fun n => by rw [State.pairTaken_slot], s.pairTaken_mem k t r l a b k⟩
    rw [unit]
    exact (Units.setTile_tile _ _ _ _).trans (if_pos rfl)
  · intro t a b t'
    refine ⟨t.pair_flits a b, t.pair_acc a b, fun part => ?_, fun whole => ⟨(Tile.pair_whole whole a b 0).1,
      fun i => (Tile.pair_whole whole a b i).2⟩⟩
    have eq : t' = t.joined a b := Tile.pair_part part a b
    rw [eq]
    exact ⟨rfl, rfl, rfl⟩
  · intro k e r l sc w s i t runs ready room phase live paid quiet
    have hi : edgeNo e = i := by cases e <;> rfl
    refine ⟨_, scaleTokenTake_next (t := t) hi rfl runs ready room phase live paid quiet, ?_⟩
    by_cases bad : tokenOk t t.flow[i] w = false
    · rw [if_pos bad]
      refine ⟨fun n => by rw [State.putToken_slot], fun _ => ?_, fun ok => absurd (bad.symm.trans ok) Bool.false_ne_true⟩
      have tile : ((s.putToken k t i (r.failed t i w).1 (r.failed t i w).2 l).unit k).tiles[r.tile] = (r.failed t i w).2 :=
        State.putToken_tile ..
      refine ⟨congrArg Tile.err tile, congrArg Tile.fault tile, (congrArg Tile.acc tile :), (congrArg Tile.work tile :), _,
        State.putToken_runs _ _ _ _ _ _ _, rfl, rfl⟩
    · rw [if_neg bad]
      rw [State.tokenPassed_tile]
      obtain ⟨scales, isOpen, index⟩ := t.passed_flow i sc w r.taken
      refine ⟨fun n => by rw [State.tokenPassed_slot], fun no => absurd no bad, fun _ => ⟨State.tokenPassed_runs .., fun opens => ?_,
        fun ends => ?_, t.passed_commits i sc w r.taken, t.passed_waits i sc w r.taken⟩⟩
      · rw [scales, isOpen, index]
        exact FlowSt.token_opens opens _ sc
      · rw [scales, isOpen]
        exact FlowSt.token_closes ends _ sc
  · intro k r l s t runs ready paid quiet
    refine ⟨_, mrunComplete_next (t := t) rfl runs ready paid quiet, ?_⟩
    have completed := (s.runCloses k t r l).complete_unitFrame k r.slot r.done 0
    obtain ⟨unit, regs, -⟩ := (s.runCloses_unitFrame k t r l).trans completed
    have tile : (State.unit _ k).tiles[r.tile].acc = (t.ended r).acc :=
      (congrArg (·.tiles[r.tile].acc) unit).trans (s.runEnds_acc k t r l)
    refine ⟨(congrArg Units.runs unit).trans (s.runEnds_runs k t r l), State.complete_ev _ _ _ _ _, fun live => ⟨?_, ?_, ?_⟩,
      fun drains => ⟨?_, ?_⟩⟩
    · rw [tile, Tile.ended, live]
      rfl
    · intro next
      refine (congrArg (·.tiles[r.tile].done) unit).trans ((congrArg Tile.done (s.runEnds_tile k t r l next)).trans ?_)
      rw [Tile.ended, live]
      rfl
    · rw [State.slot, regs]
      exact s.runEnds_flags k t r l
    · rw [tile, Tile.ended, drains]
      rfl
    · exact completed.flags _ (s.runCloses_sf k t r l drains)
  · intro k e f l s i q feeds quiet
    have hi : edgeNo e = i := by cases e <;> rfl
    have hq : feedQueue i = q := by cases e <;> rfl
    refine ⟨fun phase read untold => ?_, fun x p pend room => ?_, fun pend read told room => ?_⟩
    · refine ⟨_, mfeedComplete_next feeds hi quiet phase read untold, ?_, State.complete_ev _ _ _ _ _, ?_⟩
      · refine (congrArg (·.feeds[i]) (State.complete_unitFrame _ k f.slot f.done 0).unit).trans ?_
        exact (congrArg (·.feeds[i]) (State.setFeeds_unit s k i _)).trans (Vector.getElem_set_self _)
      · refine (congrArg (·.queues[q]) (State.complete_unitFrame _ k f.slot f.done 0).unit).trans ?_
        exact congrArg (·.queues[q]) (State.setFeeds_unit s k i _)
    · refine ⟨_, runChoice_feed s k hi (State.feedTurn_injects feeds pend (hq ▸ room)), ?_, ?_, fun n => ?_⟩
      · rw [State.pushFlit_unit, State.setFeeds_unit]
        exact Vector.getElem_set_self _
      · rw [State.pushFlit_unit, State.setFeeds_unit, hq]
        exact Units.addFlits_queue _ _ _
      · rw [State.pushFlit_slot, State.setFeeds_slot]
    · refine ⟨_, runChoice_feed s k hi (State.feedTurn_ends feeds pend read told (hq ▸ room)), ?_, fun n => ?_, ?_⟩
      · rw [State.setFeeds_unit]
        exact Vector.getElem_set_self _
      · rw [State.setFeeds_slot, State.closeFeed_slot]
      · rw [State.setFeeds_unit, State.closeFeed_unit, hq]
        exact Units.addFlits_queue _ _ _

end Sys2Proof.Machine
end

section
/-! PROOFS. What the actions on the messages of a core leave alone: the discarding of messages, the signals of tags, and stops. The
proofs about tags, handlers and the waking of slots rest on these frames. -/

namespace Sys2Proof.Machine

theorem getElem_set_fin {α : Type} {n : Nat} (v : Vector α n) (i j : Fin n) (x : α) :
    (v.set i x)[j] = if j = i then x else v[j] := by
  simp only [Fin.getElem_fin, Vector.getElem_set, Fin.ext_iff, eq_comm]

/-! ### What is not at a core -/

/-- Module memory, and what says which partition a core is in and how that runs, are as they were. -/
structure State.Outside (s t : State) : Prop where
  gmem : t.gmem = s.gmem
  parts : t.parts = s.parts
  fields : t.fields = s.fields

theorem State.Outside.refl (s : State) : s.Outside s := ⟨rfl, rfl, rfl⟩

theorem State.Outside.trans {s t u : State} (h : s.Outside t) (h' : t.Outside u) : s.Outside u :=
  ⟨h'.gmem.trans h.gmem, h'.parts.trans h.parts, h'.fields.trans h.fields⟩

section
variable {s t : State} (h : s.Outside t) (k : CoreId)
include h

theorem State.Outside.partOf : t.partOf k = s.partOf k := by
  rw [State.partOf, partOfField, field, h.fields]
  rfl

theorem State.Outside.part (p : Nat) : t.part p = s.part p := by rw [State.part, h.parts]; rfl

theorem State.Outside.stopless (hs : s.stopless k) : t.stopless k := by
  intro p hp
  rw [h.partOf] at hp
  rw [h.part]
  exact hs p hp

theorem State.Outside.logMode : t.logMode k = s.logMode k := by
  simp only [State.logMode, h.partOf, h.part]

end

theorem State.logMode_unlogged {s : State} {k : CoreId} (h : s.unlogged k) : s.logMode k = 0 := by
  unfold logMode
  split
  · rfl
  · next p hp => exact h p hp

theorem State.stopAt_stopless {s : State} {k : CoreId} (h : s.stopless k) (sl : Fin 4) (kind : BitVec 2) :
    s.stopAt k sl kind = none := by
  unfold stopAt
  split
  · rfl
  · next p hp => simp only [PartCtx.stopMatch, h p hp, Bool.not_false, if_true]

theorem State.stepStop_stopless {s : State} {k : CoreId} (h : s.stopless k) (sl : Fin 4) : s.stepStop k sl = s := by
  simp only [stepStop, stopAt_stopless h]

/-! ### Messages discarded (R73) -/

/-- The word of a tag, messages on which may have been discarded: ERR may have been set in it. -/
def ErrSet (v w : Word) : Prop := w = v ∨ w = v ||| (1#64 <<< 58)

theorem ErrSet.trans {u v w : Word} (h : ErrSet u v) (h' : ErrSet v w) : ErrSet u w := by
  rcases h with rfl | rfl
  · exact h'
  · rcases h' with rfl | rfl
    · exact .inr rfl
    · exact .inr (by rw [BitVec.or_assoc, BitVec.or_self])

theorem ErrSet.getLsbD {v w : Word} (h : ErrSet v w) {i : Nat} (hi : i ≠ 58) : w.getLsbD i = v.getLsbD i := by
  rcases h with rfl | rfl
  · rfl
  · have : i - 58 ≠ 0 ∨ i < 58 := by omega
    rw [BitVec.getLsbD_or, BitVec.getLsbD_shiftLeft]
    rcases this with h | h <;> simp [h]

theorem ErrSet.err {v w : Word} (h : ErrSet v w) (hv : v.getLsbD 58 = true) : w.getLsbD 58 = true := by
  rcases h with rfl | rfl
  · exact hv
  · simp

/-- A field that does not hold ERR. -/
theorem ErrSet.field {v w : Word} (h : ErrSet v w) (lo : Nat) {len : Nat} (hl : 58 < lo ∨ lo + len ≤ 58) :
    w.extractLsb' lo len = v.extractLsb' lo len := by
  refine BitVec.eq_of_getLsbD_eq fun i hi => ?_
  rw [BitVec.getLsbD_extractLsb', BitVec.getLsbD_extractLsb', h.getLsbD (by omega)]

/-- Messages of a core have been discarded: its queues and the ERR of its tags may have changed. -/
structure Core.Discarded (c d : Core) : Prop where
  rest : d = { c with arr := d.arr, mem := { c.mem with tags := d.mem.tags } }
  words : ∀ t : Fin 64, ErrSet c.mem.tags[t].word d.mem.tags[t].word

theorem Core.Discarded.refl (c : Core) : c.Discarded c := ⟨rfl, fun _ => .inl rfl⟩

theorem Core.Discarded.trans {c d e : Core} (h : c.Discarded d) (h' : d.Discarded e) : c.Discarded e :=
  ⟨by rw [h'.rest, h.rest], fun t => (h.words t).trans (h'.words t)⟩

section
variable {c d : Core} (h : c.Discarded d)
include h

theorem Core.Discarded.slots : d.slots = c.slots := (congrArg Core.slots h.rest :)
theorem Core.Discarded.slot (n : Fin 4) : d.slot n = c.slot n := (congrArg (Core.slot · n) h.rest :)
theorem Core.Discarded.held : d.held = c.held := (congrArg Core.held h.rest :)
theorem Core.Discarded.handler : d.handler = c.handler := (congrArg Core.handler h.rest :)
theorem Core.Discarded.handlerDone : d.handlerDone = c.handlerDone := (congrArg Core.handlerDone h.rest :)
theorem Core.Discarded.sram : d.mem.sram = c.mem.sram := (congrArg (·.mem.sram) h.rest :)
theorem Core.Discarded.full : d.mem.full = c.mem.full := (congrArg (·.mem.full) h.rest :)
theorem Core.Discarded.sem : d.mem.sem = c.mem.sem := (congrArg (·.mem.sem) h.rest :)
theorem Core.Discarded.freeSem (n : BitVec 8) : d.freeSem n = c.freeSem n := (congrArg (Core.freeSem · n) h.rest :)

/-- Whether a message can never be acted on does not rest on ERR. -/
theorem Core.Discarded.tagHopeless (m : Msg) : tagHopeless d m = tagHopeless c m := by
  have w := h.words m.tag.toFin
  have action : tagAction d.mem.tags[m.tag.toFin].word = tagAction c.mem.tags[m.tag.toFin].word :=
    congrArg BitVec.toNat (w.field 61 (by omega))
  have slot : tagSlot d.mem.tags[m.tag.toFin].word = tagSlot c.mem.tags[m.tag.toFin].word :=
    congrArg (fun b : BitVec 2 => Fin.ofNat 4 b.toNat) (w.field 59 (by omega))
  simp only [Machine.tagHopeless, action, slot, h.held, w.field 0 (len := 3) (by omega)]

theorem Core.Discarded.settled {arr : Vector (List Msg) 4} (hs : c.settled arr) : d.settled arr := by
  intro q m hq hm hk
  rw [h.tagHopeless]
  exact hs q m hq hm hk

end

theorem Core.tagErr_discarded (c : Core) (t : BitVec 6) : c.Discarded (c.tagErr t) := by
  refine ⟨rfl, fun i => ?_⟩
  by_cases hi : i = t.toFin
  · subst hi
    exact .inr (by simp [tagErr])
  · exact .inl (congrArg TagEnt.word ((getElem_set_fin _ t.toFin i _).trans (if_neg hi)))

theorem Core.tagErr_err (c : Core) (t : BitVec 6) : (c.tagErr t).mem.tags[t.toFin].word.getLsbD 58 = true := by
  simp [tagErr]

theorem Core.arr_discarded (c : Core) (arr : Vector (List Msg) 4) : c.Discarded { c with arr := arr } :=
  ⟨rfl, fun _ => .inl rfl⟩

theorem Core.settleQueue_discarded (c : Core) (q : Fin 4) (fuel : Nat) : c.Discarded (c.settleQueue q fuel) := by
  induction fuel generalizing c with
  | zero => exact .refl c
  | succ fuel ih =>
    simp only [settleQueue]
    split
    · exact .refl c
    · split
      · exact ((c.arr_discarded _).trans (tagErr_discarded _ _)).trans (ih _)
      · exact .refl c

theorem Core.settle_discarded (c : Core) : c.Discarded c.settle := by
  have step (c : Core) (q : Fin 4) : c.Discarded (if c.queueHeld q then c else c.settleQueue q c.arr[q].length) := by
    split
    · exact .refl c
    · exact c.settleQueue_discarded _ _
  simp only [settle, List.foldl_cons, List.foldl_nil]
  exact (step _ _).trans (step _ _)

theorem Core.settleQueue_arr_ne (c : Core) {q p : Fin 4} (hp : p ≠ q) (fuel : Nat) : (c.settleQueue q fuel).arr[p] = c.arr[p] := by
  induction fuel generalizing c with
  | zero => rfl
  | succ fuel ih =>
    generalize hd : c.settleQueue q (fuel + 1) = d
    simp only [settleQueue] at hd
    split at hd
    · rw [hd]
    · split at hd
      · rw [← hd, ih]
        exact (getElem_set_fin _ q p _).trans (if_neg hp)
      · rw [hd]

/-- Messages without a tag are not looked at. -/
theorem Core.settle_arr_three (c : Core) : c.settle.arr[(3 : Fin 4)] = c.arr[(3 : Fin 4)] := by
  have step (c : Core) {q : Fin 4} (hq : (3 : Fin 4) ≠ q) :
      (if c.queueHeld q then c else c.settleQueue q c.arr[q].length).arr[(3 : Fin 4)] = c.arr[(3 : Fin 4)] := by
    split
    · rfl
    · exact settleQueue_arr_ne c hq _
  simp only [settle, List.foldl_cons, List.foldl_nil]
  rw [step _ (by decide), step _ (by decide)]

theorem State.acted_eq (s : State) (k : CoreId) (m : Msg) : ∃ l, s.acted k m = { s with samples := l } := by
  unfold acted
  split
  · exact ⟨s.samples, rfl⟩
  · exact ⟨_, rfl⟩

theorem State.acted_outside (s : State) (k : CoreId) (m : Msg) : s.Outside (s.acted k m) := by
  obtain ⟨l, h⟩ := s.acted_eq k m
  rw [h]
  exact ⟨rfl, rfl, rfl⟩

/-- The queues after the head of one has been acted on. -/
def Core.popped (c : Core) (q : Fin 4) : Vector (List Msg) 4 := c.arr.set q (c.arr[q].drop 1)

theorem State.popArr_core (s : State) (k : CoreId) (q : Fin 4) :
    (s.popArr k q).core k = Core.settle { s.core k with arr := (s.core k).popped q } := by
  unfold popArr
  split <;> simp only [settleTags, core_modCore, acted_core] <;> rfl

theorem State.popArr_outside (s : State) (k : CoreId) (q : Fin 4) : s.Outside (s.popArr k q) := by
  unfold popArr
  split
  · exact (s.acted_outside _ _).trans ⟨rfl, rfl, rfl⟩
  · exact ⟨rfl, rfl, rfl⟩

theorem State.popArr_discarded (s : State) (k : CoreId) (q : Fin 4) : (s.core k).Discarded ((s.popArr k q).core k) := by
  rw [popArr_core]
  exact (Core.arr_discarded _ _).trans (Core.settle_discarded _)

/-- Where what stands behind the head can be acted on, only the head leaves. -/
theorem State.popArr_settled {s : State} {k : CoreId} {q : Fin 4} (h : (s.core k).settled ((s.core k).popped q)) :
    (s.popArr k q).core k = { s.core k with arr := (s.core k).popped q } := by
  rw [popArr_core]
  exact Core.settle_settled h

theorem State.discard_core (s : State) (k : CoreId) (q : Fin 4) (t : BitVec 6) :
    (s.discard k q t).core k = (Core.tagErr { s.core k with arr := (s.core k).popped q } t).settle := by
  simp only [discard, settleTags, core_modCore]
  rfl

theorem State.discard_discarded (s : State) (k : CoreId) (q : Fin 4) (t : BitVec 6) :
    (s.core k).Discarded ((s.discard k q t).core k) := by
  rw [discard_core]
  exact ((Core.arr_discarded _ _).trans (Core.tagErr_discarded _ _)).trans (Core.settle_discarded _)

theorem State.discard_err (s : State) (k : CoreId) (q : Fin 4) (t : BitVec 6) :
    ((s.discard k q t).core k).mem.tags[t.toFin].word.getLsbD 58 = true := by
  rw [discard_core]
  exact ((Core.settle_discarded _).words _).err (Core.tagErr_err _ _)

/-! ### Signals and stops: what they leave of a core -/

/-- Nothing of a slot has changed that a program or its supervisor reads while it runs, but for its state and its lace. -/
structure Slot.Quiet (x y : Slot) : Prop where
  r : y.r = x.r
  pc : y.pc = x.pc
  ev : y.ev = x.ev
  watch : y.watch = x.watch
  deferred : y.deferred = x.deferred

/-- A slot that a grant of semaphores or a deferred cause may have reached. -/
structure Slot.Reached (x y : Slot) : Prop where
  rest : y = { x with grant := y.grant, deferred := y.deferred }

/-- A slot that a cause or an event may have reached. -/
structure Slot.Signalled (x y : Slot) : Prop where
  r : y.r = x.r
  ev : x.ev = true → y.ev = true

/-- Of a core, slots have changed, and what a grant of semaphores, a notice, a count or an error found changes. -/
structure Core.SlotFrame (R : Slot → Slot → Prop) (c d : Core) : Prop where
  rest : d = { c with slots := d.slots, inj := d.inj, regs := d.regs, mem := { c.mem with sem := d.mem.sem, semQ := d.mem.semQ } }
  slots : ∀ n, R (c.slot n) (d.slot n)

theorem Slot.Quiet.refl (x : Slot) : x.Quiet x := ⟨rfl, rfl, rfl, rfl, rfl⟩
theorem Slot.Quiet.trans {x y z : Slot} (h : x.Quiet y) (h' : y.Quiet z) : x.Quiet z :=
  ⟨h'.r.trans h.r, h'.pc.trans h.pc, h'.ev.trans h.ev, h'.watch.trans h.watch, h'.deferred.trans h.deferred⟩
theorem Slot.Reached.refl (x : Slot) : x.Reached x := ⟨rfl⟩
theorem Slot.Reached.trans {x y z : Slot} (h : x.Reached y) (h' : y.Reached z) : x.Reached z := ⟨by rw [h'.rest, h.rest]⟩
theorem Slot.Reached.signalled {x y : Slot} (h : x.Reached y) : x.Signalled y :=
  ⟨(congrArg Slot.r h.rest :), fun e => (congrArg Slot.ev h.rest :).trans e⟩
/-- A grant alone: no cause has been deferred. -/
theorem Slot.Reached.quiet {x y : Slot} (h : x.Reached y) (hd : y.deferred = x.deferred) : x.Quiet y :=
  ⟨(congrArg Slot.r h.rest :), (congrArg Slot.pc h.rest :), (congrArg Slot.ev h.rest :), (congrArg Slot.watch h.rest :), hd⟩
theorem Slot.Signalled.refl (x : Slot) : x.Signalled x := ⟨rfl, id⟩
theorem Slot.Signalled.trans {x y z : Slot} (h : x.Signalled y) (h' : y.Signalled z) : x.Signalled z :=
  ⟨h'.r.trans h.r, fun e => h'.ev (h.ev e)⟩

section
variable {R : Slot → Slot → Prop} {c d e : Core}

theorem Core.SlotFrame.of_slots (hr : ∀ x, R x x)
    (h : d = { c with inj := d.inj, regs := d.regs, mem := { c.mem with sem := d.mem.sem, semQ := d.mem.semQ } }) :
    c.SlotFrame R d := by
  refine ⟨?_, fun n => ?_⟩ <;> rw [h]
  exact hr _

theorem Core.SlotFrame.trans (hr : ∀ x y z, R x y → R y z → R x z) (h : c.SlotFrame R d) (h' : d.SlotFrame R e) :
    c.SlotFrame R e :=
  ⟨by rw [h'.rest, h.rest], fun n => hr _ _ _ (h.slots n) (h'.slots n)⟩

theorem Core.SlotFrame.setSlot (hr : ∀ x, R x x) {n : Fin 4} {x : Slot} (h : R (c.slot n) x) : c.SlotFrame R (c.setSlot n x) := by
  refine ⟨rfl, fun m => ?_⟩
  by_cases hm : m = n
  · subst hm
    rw [slot_setSlot]
    exact h
  · rw [slot_setSlot_ne _ _ _ _ hm]
    exact hr _

variable (h : c.SlotFrame R d)
include h

theorem Core.SlotFrame.arr : d.arr = c.arr := (congrArg Core.arr h.rest :)
theorem Core.SlotFrame.handler : d.handler = c.handler := (congrArg Core.handler h.rest :)
theorem Core.SlotFrame.handlerDone : d.handlerDone = c.handlerDone := (congrArg Core.handlerDone h.rest :)
theorem Core.SlotFrame.held : d.held = c.held := (congrArg Core.held h.rest :)
theorem Core.SlotFrame.sram : d.mem.sram = c.mem.sram := (congrArg (·.mem.sram) h.rest :)
theorem Core.SlotFrame.full : d.mem.full = c.mem.full := (congrArg (·.mem.full) h.rest :)
theorem Core.SlotFrame.tags : d.mem.tags = c.mem.tags := (congrArg (·.mem.tags) h.rest :)

end

theorem Core.SlotFrame.mono {R R' : Slot → Slot → Prop} {c d : Core} (h : c.SlotFrame R d) (hr : ∀ x y, R x y → R' x y) :
    c.SlotFrame R' d :=
  ⟨h.rest, fun n => hr _ _ (h.slots n)⟩

/-- Grants reach slots, and defer no cause. -/
theorem Core.grants_reached (c : Core) (n : BitVec 8) :
    c.SlotFrame (fun x y => x.Reached y ∧ y.deferred = x.deferred) (c.grants n) := by
  have give (g : List (Fin 4 × BitVec 16)) (b : Core) :
      b.SlotFrame (fun x y => x.Reached y ∧ y.deferred = x.deferred) (g.foldl (Core.give n) b) := by
    induction g generalizing b with
    | nil => exact .of_slots (fun _ => ⟨.refl _, rfl⟩) rfl
    | cons e g ih =>
      exact .trans (fun _ _ _ h h' => ⟨h.1.trans h'.1, h'.2.trans h.2⟩)
        (.setSlot (fun _ => ⟨.refl _, rfl⟩) (x := { b.slot e.1 with grant := some (n, e.2) }) ⟨⟨rfl⟩, rfl⟩) (ih (b.give n e))
  rw [grants_eq]
  exact .trans (fun _ _ _ h h' => ⟨h.1.trans h'.1, h'.2.trans h.2⟩) (.of_slots (fun _ => ⟨.refl _, rfl⟩) rfl) (give _ _)

theorem Core.grants_quiet (c : Core) (n : BitVec 8) : c.SlotFrame Slot.Quiet (c.grants n) :=
  (c.grants_reached n).mono fun _ _ h => h.1.quiet h.2

theorem Core.setSem_reached (c : Core) (n : BitVec 8) (v : BitVec 16) : c.SlotFrame Slot.Reached (c.setSem n v) :=
  .trans (fun _ _ _ => .trans) (.of_slots Slot.Reached.refl rfl) ((grants_reached _ n).mono fun _ _ h => h.1)

theorem Core.setSem_sem (c : Core) (n : BitVec 8) (v : BitVec 16) : (c.setSem n v).mem.sem = c.mem.sem.set n.toFin v := by
  rw [setSem, grants_mem]

theorem Core.leaveQ_quiet (c : Core) (sl : Fin 4) : c.SlotFrame Slot.Quiet (c.leaveQ sl) := .of_slots Slot.Quiet.refl rfl

/-- A slot that waits on semaphores no more (R136, R277): the counts stay. -/
theorem Core.unwait_quiet (c : Core) (sl : Fin 4) :
    c.SlotFrame Slot.Quiet (c.unwait sl) ∧ (c.unwait sl).mem.sem = c.mem.sem := by
  have leaves (c : Core) (n : BitVec 8) :
      c.SlotFrame Slot.Quiet ((c.leaveQ sl).grants n) ∧ ((c.leaveQ sl).grants n).mem.sem = c.mem.sem :=
    ⟨.trans (fun _ _ _ => .trans) (c.leaveQ_quiet sl) (grants_quiet _ _), by rw [grants_mem]; rfl⟩
  unfold unwait
  split
  · split
    · exact ⟨.of_slots Slot.Quiet.refl rfl, rfl⟩
    · exact leaves c _
  · next g _ =>
    obtain ⟨frame, sem⟩ := leaves (c.setSlot sl { c.slot sl with grant := none }) g.1
    exact ⟨.trans (fun _ _ _ => .trans) (.setSlot Slot.Quiet.refl (x := { c.slot sl with grant := none })
      ⟨rfl, rfl, rfl, rfl, rfl⟩) frame, sem⟩

theorem State.takeStop_core (s : State) (k : CoreId) (sl : Fin 4) (kind : BitVec 2) (e : Fin 8) : ∃ x r i, (s.slot k sl).Quiet x ∧
    (s.takeStop k sl kind e).core k = { ((s.core k).unwait sl).setSlot sl x with regs := r, inj := i } := by
  have quiet (taddr : Word) (past : Bool) :
      (s.slot k sl).Quiet { (s.slot k sl).trapped 0x11 taddr false false false none with pastStop := past } :=
    ⟨rfl, rfl, rfl, rfl, rfl⟩
  simp only [takeStop, slotNotice, notify]
  rw [core_modCore]
  split <;> simp only [count, core_modCoreRegs, core_modCore] <;> exact ⟨_, _, _, quiet _ _, rfl⟩

/-- A step stop, where one is called for (R381): the task's registers, its program counter and what it has been told stay. -/
theorem State.stepStop_quiet (s : State) (k : CoreId) (sl : Fin 4) :
    (s.core k).SlotFrame Slot.Quiet ((s.stepStop k sl).core k) ∧ ((s.stepStop k sl).core k).mem.sem = (s.core k).mem.sem := by
  have frame {c d : Core} {x : Slot} (h : c.SlotFrame Slot.Quiet d ∧ d.mem.sem = c.mem.sem) (hx : (c.slot sl).Quiet x)
      (r : CoreRegs) (i : List Msg) :
      c.SlotFrame Slot.Quiet { d.setSlot sl x with regs := r, inj := i } ∧
        ({ d.setSlot sl x with regs := r, inj := i } : Core).mem.sem = c.mem.sem := by
    have hd := h.1.slots sl
    have back : (d.slot sl).Quiet x :=
      ⟨hx.r.trans hd.r.symm, hx.pc.trans hd.pc.symm, hx.ev.trans hd.ev.symm, hx.watch.trans hd.watch.symm,
        hx.deferred.trans hd.deferred.symm⟩
    exact ⟨.trans (fun _ _ _ => .trans) h.1 (.trans (fun _ _ _ => .trans) (.setSlot Slot.Quiet.refl back)
      (.of_slots Slot.Quiet.refl rfl)), h.2⟩
  unfold stepStop
  split
  · next e _ =>
    obtain ⟨x, r, i, quiet, eq⟩ := s.takeStop_core k sl 2 e
    rw [eq]
    exact frame ((s.core k).unwait_quiet sl) quiet r i
  · exact ⟨.of_slots Slot.Quiet.refl rfl, rfl⟩

theorem State.stepStop_outside (s : State) (k : CoreId) (sl : Fin 4) : s.Outside (s.stepStop k sl) := by
  unfold stepStop
  split
  · simp only [takeStop]
    split <;> exact ⟨rfl, rfl, rfl⟩
  · exact .refl s

/-! ### Deferred causes and signals (R23, R178, R298) -/

theorem Core.setSlot_self (c : Core) (n : Fin 4) : c.setSlot n (c.slot n) = c := by
  simp [setSlot, slot]

/-- A cause deferred to a slot stands at it where it is live, and is noticed where it is not. -/
theorem State.defer_core (s : State) (k : CoreId) (sl : Fin 4) (c : BitVec 8) (a : Word) (o : Bool) :
    ∃ ds r i, (s.defer k sl c a o).core k =
        { (s.core k).setSlot sl { s.slot k sl with deferred := ds } with regs := r, inj := i } ∧
      ((s.slot k sl).st ≠ .halting → (s.slot k sl).st ≠ .empty →
        ds = addDeferredTo (s.slot k sl).deferred ⟨c, a, o, false⟩) := by
  obtain ⟨r, note⟩ : ∃ r, (s.noteUE k c a).core k = { s.core k with regs := r } := by
    unfold noteUE
    split
    · exact ⟨_, core_modCore _ _ _⟩
    · exact ⟨_, rfl⟩
  have slot : (s.noteUE k c a).slot k sl = s.slot k sl := (congrArg (Core.slot · sl) note :)
  simp only [defer, slot]
  split
  · next dead =>
    obtain ⟨i, eq⟩ : ∃ i, ((s.noteUE k c a).slotNotice k sl ((s.noteUE k c a).supTarget k (lvlOf (s.slot k sl))) true o c a 0).core k =
        { (s.noteUE k c a).core k with inj := i } := ⟨_, core_modCore _ _ _⟩
    refine ⟨(s.slot k sl).deferred, r, i, ?_, fun h h' => absurd dead (not_or.2 ⟨h, h'⟩)⟩
    have same : (s.core k).setSlot sl { s.slot k sl with deferred := (s.slot k sl).deferred } = s.core k :=
      (s.core k).setSlot_self sl
    rw [eq, note, same]
  · refine ⟨_, r, (s.core k).inj, ?_, fun _ _ => rfl⟩
    rw [core_modSlot, note, slot]
    rfl

theorem State.defer_reached (s : State) (k : CoreId) (sl : Fin 4) (c : BitVec 8) (a : Word) (o : Bool) :
    (s.core k).SlotFrame Slot.Reached ((s.defer k sl c a o).core k) ∧
      ((s.defer k sl c a o).core k).mem.sem = (s.core k).mem.sem := by
  obtain ⟨ds, r, i, eq, -⟩ := s.defer_core k sl c a o
  rw [eq]
  exact ⟨.trans (fun _ _ _ => .trans) (.setSlot Slot.Reached.refl (x := { s.slot k sl with deferred := ds }) ⟨rfl⟩)
    (.of_slots Slot.Reached.refl rfl), rfl⟩

theorem State.defer_outside (s : State) (k : CoreId) (sl : Fin 4) (c : BitVec 8) (a : Word) (o : Bool) :
    s.Outside (s.defer k sl c a o) := by
  have note : s.Outside (s.noteUE k c a) := by
    unfold noteUE
    split <;> exact ⟨rfl, rfl, rfl⟩
  refine note.trans ?_
  simp only [defer]
  split <;> exact ⟨rfl, rfl, rfl⟩

theorem Core.addSem_some {c : Core} {n : BitVec 8} {i : Nat} (h : c.mem.sem[n.toFin].toNat + i ≤ 65535) :
    c.addSem n i = some (c.setSem n (BitVec.ofNat 16 (c.mem.sem[n.toFin].toNat + i))) := if_neg (Nat.not_lt.2 h)

theorem Core.addSem_none {c : Core} {n : BitVec 8} {i : Nat} (h : 65535 < c.mem.sem[n.toFin].toNat + i) :
    c.addSem n i = none := if_pos h

/-- The semaphore of a tag is signalled, or its overflow deferred (R23, R71). -/
def State.tagSignal (s : State) (k : CoreId) (sl : Fin 4) (sigen : Bool) (sem : BitVec 8) : State :=
  if sigen then
    match (s.core k).addSem sem 1 with
    | some c => s.setCore k c
    | none => s.defer k sl 0x0E (sem.setWidth 64)
  else s

theorem State.tagDone_eq (s : State) (k : CoreId) (sl : Fin 4) (sigen : Bool) (sem : BitVec 8) :
    s.tagDone k sl sigen sem = (s.setEv k sl).tagSignal k sl sigen sem := rfl

section
variable (s : State) (k : CoreId) (sl : Fin 4) {sigen : Bool} {sem : BitVec 8}

theorem State.tagSignal_off (h : sigen = false) : s.tagSignal k sl sigen sem = s := by
  rw [tagSignal, h]
  rfl

theorem State.tagSignal_counts (h : sigen = true) (fits : (s.core k).mem.sem[sem.toFin].toNat + 1 ≤ 65535) :
    s.tagSignal k sl sigen sem =
      s.setCore k ((s.core k).setSem sem (BitVec.ofNat 16 ((s.core k).mem.sem[sem.toFin].toNat + 1))) := by
  rw [tagSignal, if_pos h, Core.addSem_some fits]

theorem State.tagSignal_overflows (h : sigen = true) (past : 65535 < (s.core k).mem.sem[sem.toFin].toNat + 1) :
    s.tagSignal k sl sigen sem = s.defer k sl 0x0E (sem.setWidth 64) := by
  rw [tagSignal, if_pos h, Core.addSem_none past]

variable (sigen sem)

theorem State.tagSignal_reached : (s.core k).SlotFrame Slot.Reached ((s.tagSignal k sl sigen sem).core k) := by
  by_cases h : sigen = true
  · by_cases fits : (s.core k).mem.sem[sem.toFin].toNat + 1 ≤ 65535
    · rw [s.tagSignal_counts k sl h fits, core_setCore]
      exact Core.setSem_reached _ _ _
    · rw [s.tagSignal_overflows k sl h (Nat.lt_of_not_le fits)]
      exact (s.defer_reached _ _ _ _ _).1
  · rw [s.tagSignal_off k sl (Bool.not_eq_true _ ▸ h)]
    exact .of_slots Slot.Reached.refl rfl

theorem State.tagSignal_outside : s.Outside (s.tagSignal k sl sigen sem) := by
  unfold tagSignal
  split
  · split
    · exact ⟨rfl, rfl, rfl⟩
    · exact s.defer_outside _ _ _ _ _
  · exact .refl s

/-- An action on a tag is complete: its slot has its event, and no register changes (R178). -/
theorem State.tagDone_signalled : (s.core k).SlotFrame Slot.Signalled ((s.tagDone k sl sigen sem).core k) ∧
    ((s.tagDone k sl sigen sem).slot k sl).ev = true := by
  have frame := ((s.setEv k sl).tagSignal_reached k sl sigen sem).mono fun _ _ => Slot.Reached.signalled
  have ev : (s.setEv k sl).slot k sl = { s.slot k sl with ev := true } := slot_modSlot _ _ _ _
  rw [tagDone_eq]
  refine ⟨.trans (fun _ _ _ => .trans) ?_ frame, (frame.slots sl).ev (congrArg Slot.ev ev)⟩
  rw [setEv, core_modSlot]
  exact .setSlot Slot.Signalled.refl (x := { s.slot k sl with ev := true }) ⟨rfl, fun _ => rfl⟩

theorem State.tagDone_outside : s.Outside (s.tagDone k sl sigen sem) := by
  rw [tagDone_eq]
  exact .trans (t := s.setEv k sl) ⟨rfl, rfl, rfl⟩ (tagSignal_outside _ _ _ _ _)

end

end Sys2Proof.Machine
end

section
/-! PROOFS. The heads of an INLINE handler (O55). -/

namespace Sys2Proof.Machine

/-! ### A head in the handler context (R75, R76) -/

section
variable {s : State} (inl : s.cur.inline = true)
include inl

theorem issue_inline (f : Form) (body : State → Act) : issue f body s = .next (finish s f.cls (body s)) := if_pos inl

/-- A handler's write waits while its channel is present, and STACK_LIMIT has no part in it. -/
theorem writeG_inline (d : GOp) (v : Word) (k : State → Act) :
    writeG s d v k = if s.chanBusy d then .wait .channel id else k (s.wr d v) := by
  have : s.slimRefuses d v = false := by simp [State.slimRefuses, inl]
  rw [writeG, this]
  rfl

variable {h : Handler} (hh : (s.core s.cur.core).handler = some h)
include hh

theorem finish_inline (cls : Fin 32) :
    (∀ t, finish s cls (.ok t) = t.handlerNext s.cur.core h) ∧
    (∀ c a, finish s cls (.trap c a) = s.handlerFail s.cur.core h c a) ∧
    ∀ w g, finish s cls (.wait w g) = s := by
  refine ⟨fun t => ?_, fun c a => ?_, fun w g => ?_⟩ <;> simp only [finish, inl, hh, if_true]

theorem State.rd_inline (n : Fin 8) (le : 8 ≤ 32) : s.rd (.g (Fin.castLE le n)) = h.m[n] := by
  have hn : (Fin.castLE le n).val < 8 := n.isLt
  simp only [rd, inl, if_true, rdM, hh, dif_pos hn]
  rfl

theorem State.wr_inline (n : Fin 8) (le : 8 ≤ 32) (v : Word) : s.wr (.g (Fin.castLE le n)) v =
    s.modCore s.cur.core fun c => { c with handler := some { h with m := h.m.set n v } } := by
  have hn : (Fin.castLE le n).val < 8 := n.isLt
  simp only [wr, inl, if_true, wrM, modCore, hh, Option.map_some, dif_pos hn]
  rfl

theorem add_inline (x : Alu2) :
    let v := putTy x.t (getTy x.t (s.rd x.a) + getTy x.t (s.src x.t x.b))
    (s.chanBusy x.d = false → exec (.add x) s = .next ((s.wr x.d v).handlerNext s.cur.core h)) ∧
    (s.chanBusy x.d = true → exec (.add x) s = .next s) := by
  intro v
  have body : aluAct .add x s = if s.chanBusy x.d then .wait .channel id else .ok (s.wr x.d v) := writeG_inline inl _ _ _
  obtain ⟨done, -, waits⟩ := finish_inline inl hh (aluClass .add)
  rw [exec_issue (execAdd x) rfl rfl, issue_inline inl, body]
  refine ⟨fun free => ?_, fun busy => ?_⟩
  · rw [free]
    exact congrArg _ (done _)
  · rw [busy]
    exact congrArg _ (waits _ _)

theorem ld_inline_window (x : LdF) (far : isLocal (s.ea x.a x.o) = false) :
    exec (.ld x) s = .next (s.handlerFail s.cur.core h 0x0A (s.ea x.a x.o)) := by
  rw [exec_issue (execLd x) rfl rfl, issue_inline inl, localCheck_window _ far]
  exact congrArg _ ((finish_inline inl hh _).2.1 _ _)

theorem st_inline (x : LdF) (ok : LocalOk (s.ea x.a x.o) (tyBytes x.t)) : exec (.st x) s = .next
    ((s.sramPut s.cur.core (offOf (s.ea x.a x.o)) (tyBytes x.t) (s.rd x.d).toNat (some s.cur.slot)).handlerNext s.cur.core h) := by
  rw [exec_issue (execSt x) rfl rfl, issue_inline inl, localCheck_ok ok]
  exact congrArg _ ((finish_inline inl hh _).1 _)

end

/-! ### The next head, the end and the failure of a handler (R74, R76) -/

section
variable (s : State) (k : CoreId) (h : Handler)

/-- A handler's head, charged and counted. -/
def State.headCounted : State := (s.charge k h.slot 28).count k 2 (some h.slot)

theorem State.headCounted_core : ∃ r, (s.headCounted k h).core k = { s.core k with regs := r } :=
  ⟨_, by rw [headCounted, count, charge, core_modCoreRegs, core_modCoreRegs]⟩

theorem State.handlerNext_goes (more : h.next + 1 < lineHC h.line) : s.handlerNext k h =
    (s.headCounted k h).modCore k fun c => { c with handler := c.handler.map fun h => { h with next := h.next + 1 } } := if_pos more

theorem State.handlerNext_ends (last : lineHC h.line ≤ h.next + 1) : s.handlerNext k h =
    ((s.headCounted k h).handlerEnd k h).tagDone k h.slot h.sigen h.sem := if_neg (Nat.not_lt.2 last)

theorem State.handlerEnd_core : (s.handlerEnd k h).core k =
    Core.settle { s.core k with handler := none, handlerDone := true, arr := (s.core k).popped h.msg.cls } := by
  rw [handlerEnd, acted_core, core_modCore]
  rfl

/-- The end of a handler: its message leaves, and what stands behind it is looked at. -/
theorem State.handlerEnd_spec (c : Core) (hc : (s.handlerEnd k h).core k = c) :
    c.handler = none ∧ c.handlerDone = true ∧ (∀ n, c.slot n = s.slot k n) ∧ c.mem.sram = (s.core k).mem.sram ∧
      (∀ t : Fin 64, ErrSet (s.core k).mem.tags[t].word c.mem.tags[t].word) ∧
      ((s.core k).settled ((s.core k).popped h.msg.cls) → c.arr = (s.core k).popped h.msg.cls) := by
  rw [handlerEnd_core] at hc
  subst hc
  have frame := Core.settle_discarded
    { s.core k with handler := none, handlerDone := true, arr := (s.core k).popped h.msg.cls }
  exact ⟨frame.handler, frame.handlerDone, frame.slot, frame.sram, frame.words, fun hs => congrArg Core.arr (Core.settle_settled hs)⟩

end

/-- Settles O55: the operands of a handler's head, and its next head, its end and its failure by what `handlerEnd` leaves. -/
theorem inlineHandlers : Obligations.InlineHandlers := by
  refine ⟨fun s h inl hh => ?_, fun s k h g hg => ?_, fun s k h cause taddr => ?_⟩
  · exact ⟨fun n => State.rd_inline inl hh n _, fun n v => State.wr_inline inl hh n _ v, add_inline inl hh,
      fun x => ⟨ld_inline_window inl hh x, st_inline inl hh x⟩⟩
  · obtain ⟨r, core⟩ := s.headCounted_core k h
    have slots (n : Fin 4) : (s.headCounted k h).slot k n = s.slot k n := (congrArg (Core.slot · n) core :)
    refine ⟨fun more => ?_, fun last => ?_⟩
    · have next : (s.handlerNext k h).core k = { s.core k with regs := r, handler := some { g with next := g.next + 1 } } := by
        rw [s.handlerNext_goes k h more, State.core_modCore, core]
        simp only [hg, Option.map_some]
      exact ⟨(congrArg Core.handler next :), (congrArg Core.arr next :), fun n => (congrArg (Core.slot · n) next :)⟩
    · obtain ⟨none, done, kept, -, -, arr⟩ := (s.headCounted k h).handlerEnd_spec k h _ rfl
      obtain ⟨frame, ev⟩ := ((s.headCounted k h).handlerEnd k h).tagDone_signalled k h.slot h.sigen h.sem
      rw [core] at arr
      rw [s.handlerNext_ends k h last]
      exact ⟨frame.handler.trans none, frame.handlerDone.trans done, fun hs => frame.arr.trans (arr hs), ev,
        fun n => (frame.slots n).r.trans (congrArg Slot.r ((kept n).trans (slots n)))⟩
  · have marked : (s.setTagErr k h.tag).core k = (s.core k).tagErr h.tag := State.core_modCore _ _ _
    obtain ⟨none, -, kept, sram, words, arr⟩ := (s.setTagErr k h.tag).handlerEnd_spec k h _ rfl
    have frame := (((s.setTagErr k h.tag).handlerEnd k h).defer_reached k h.slot cause taddr true).1
    obtain ⟨ds, r, i, eq, live⟩ := ((s.setTagErr k h.tag).handlerEnd k h).defer_core k h.slot cause taddr true
    have slot : ((s.setTagErr k h.tag).handlerEnd k h).slot k h.slot = s.slot k h.slot :=
      (kept h.slot).trans (by rw [State.slot, marked]; rfl)
    rw [marked] at sram words arr
    rw [slot] at live
    refine ⟨frame.handler.trans none, fun hs => frame.arr.trans (arr ((Core.tagErr_discarded _ _).settled hs)), ?_,
      frame.sram.trans sram, fun busy busy' => ?_⟩
    · rw [State.handlerFail, frame.tags]
      exact (words _).err (Core.tagErr_err _ _)
    · rw [← live busy busy', State.handlerFail, State.slot, eq]
      exact congrArg Slot.deferred (Core.slot_setSlot _ _ _)

end Sys2Proof.Machine
end

section
/-! PROOFS. The home of a tide: what it takes, the rounds it closes and what it answers (O38). -/

namespace Sys2Proof.Machine

/-! ### A group, and the slots that its round asks for (R90, R91, R343) -/

/-- A group whose round has asked for reduction slots at these hubs, which no test of it reads. -/
def Group.asking (x : Group) (l : List Nat) : Group := { x with hubsAsked := l }

theorem Group.asking_asking (x : Group) (l l' : List Nat) : (x.asking l).asking l' = x.asking l' := rfl

theorem Group.test_asking (x : Group) (l : List Nat) (fuel : Nat) :
    (x.asking l).test fuel = ((x.test fuel).1.asking l, (x.test fuel).2) := by
  induction fuel generalizing x with
  | zero => rfl
  | succ fuel ih =>
    have closes : (x.asking l).closes = x.closes := rfl
    have close : (x.asking l).close = (x.close.1.asking l, x.close.2) := rfl
    have incl : (x.close.1.asking l).incl = x.close.1.incl := rfl
    simp only [test, closes, close, incl, ih]
    split
    · split <;> rfl
    · rfl

theorem Group.take_early {x : Group} {c : Contrib} (h : 0 < (c.tag - x.rho).toInt) :
    x.take c = ({ x with early := x.early ++ [c] }, []) := if_pos h

theorem Group.take_open {x : Group} {c : Contrib} (h : (c.tag - x.rho).toInt = 0) :
    x.take c = ({ x with incl := x.incl ++ [{ c with dropped := false }] }, []) := by
  simp [take, h]

theorem Group.take_late {x : Group} {c : Contrib} {r : TideRes} (h : (c.tag - x.rho).toInt < 0) (hr : x.result c.tag = some r) :
    (x.take c).2 = [{ c with dropped := decide ((c.tag - x.rho).toInt < 0) && geLate x.entry == 2 }.answer x.rho x.rho r false] := by
  have past : ¬ 0 < (c.tag - x.rho).toInt := Int.not_lt.2 (Int.le_of_lt h)
  simp only [take, past, h, hr, if_true, if_false]

theorem Group.test_open {x : Group} (h : x.closes = false) (fuel : Nat) : x.test fuel = (x, []) := by
  cases fuel <;> simp [test, h]

theorem tideStatus_incl (incl : BitVec 32) (flags : BitVec 16) (lag : Nat) (kind : BitVec 2) (old : Bool) :
    (tideStatus incl flags lag kind old).extractLsb' 32 32 = incl := by
  calc (tideStatus incl flags lag kind old).extractLsb' 32 32
      = (incl ++ flags ++ BitVec.ofNat 8 (min lag 255) ++ kind ++ BitVec.ofBool old).extractLsb' 27 32 :=
        BitVec.extractLsb'_append_eq_of_le (w := 5) (by decide)
    _ = (incl ++ flags ++ BitVec.ofNat 8 (min lag 255) ++ kind).extractLsb' 26 32 :=
        BitVec.extractLsb'_append_eq_of_le (w := 1) (by decide)
    _ = (incl ++ flags ++ BitVec.ofNat 8 (min lag 255)).extractLsb' 24 32 :=
        BitVec.extractLsb'_append_eq_of_le (w := 2) (by decide)
    _ = (incl ++ flags).extractLsb' 16 32 := BitVec.extractLsb'_append_eq_of_le (w := 8) (by decide)
    _ = incl := BitVec.extractLsb'_append_eq_left

/-- The answers of a round that closes: the combine and the round, to each contribution not answered. -/
theorem Group.mem_close {x : Group} {m : HubMsg} (h : m ∈ x.close.2) :
    ∃ a c, m = .answer c.gtid a ∧ c ∈ x.incl ∧ a.gm = c.gm ∧ a.tag = c.tag ∧
      a.lanes = (combineAll x.entry x.rho x.included).1 ∧ a.status.extractLsb' 32 32 = x.rho := by
  obtain ⟨c, hc, rfl⟩ := List.mem_map.1 h
  exact ⟨_, c, rfl, (List.mem_filter.1 hc).1, rfl, rfl, rfl, tideStatus_incl _ _ _ _ _⟩

/-- A claim is of no more than the rest, nor than the cap (R94). -/
theorem chunkClaim_le (c : Chunk) (n cap : Nat) :
    chunkClaim c n cap ≤ c.total.toNat - c.next.toNat ∧ (cap ≠ 0 → chunkClaim c n cap ≤ cap) := by
  simp only [chunkClaim]
  split <;> split <;> omega

theorem chunkClaim_static {c : Chunk} (h : c.guided = false) (n : Nat) :
    chunkClaim c n 0 = min (c.total.toNat - c.next.toNat) (max 1 c.size.toNat) := by
  simp only [chunkClaim, h, if_true, Bool.false_eq_true, if_false]
  split <;> omega

/-! ### The state's groups and the traffic of homes -/

section
variable (s : State) (p : Nat)

theorem State.modCtx_ctx (g : PartCtx → PartCtx) : ((s.modCtx p g).part p).ctx = g (s.part p).ctx :=
  congrArg Partition.ctx (part_modPart _ _ _)

theorem State.group_of_ctx {s t : State} {p : Nat} (h : (t.part p).ctx.groups = (s.part p).ctx.groups) (g : Nat) :
    t.group p g = s.group p g := congrArg (fun l => (mget l g).getD Group.unset) h

theorem State.group_setGroup (g : Nat) (x : Group) : (s.setGroup p g x).group p g = x := by
  rw [group, setGroup, modCtx_ctx, mget_mset_self]
  rfl

theorem State.hub_setGroup (g : Nat) (x : Group) : ((s.setGroup p g x).part p).ctx.hub = (s.part p).ctx.hub := by
  rw [setGroup, modCtx_ctx]

theorem State.group_hubPop (i g : Nat) : (s.hubPop p i).group p g = s.group p g :=
  group_of_ctx (by rw [hubPop, modCtx_ctx]) g

theorem State.hub_hubPop (i : Nat) : ((s.hubPop p i).part p).ctx.hub = (s.part p).ctx.hub.eraseIdx i := by
  rw [hubPop, modCtx_ctx]

/-- The open round's asking changes no group but for what it has asked, and no traffic. -/
theorem State.askSlots_spec (g : Nat) : ∃ l, (s.askSlots p g).group p g = (s.group p g).asking l ∧
    ((s.askSlots p g).part p).ctx.hub = (s.part p).ctx.hub ∧ (s.askSlots p g).gmem = s.gmem := by
  have asks (new : List Nat) (s : State) : (new.foldl (fun s f => s.askSlot p g f) s).parts = s.parts ∧
      (new.foldl (fun s f => s.askSlot p g f) s).gmem = s.gmem := by
    induction new generalizing s with
    | nil => exact ⟨rfl, rfl⟩
    | cons f new ih => exact ih (s.askSlot p g f)
  obtain ⟨parts, gmem⟩ := asks ((s.group p g).hubs.filter fun f => !(s.group p g).hubsAsked.contains f) s
  refine ⟨_, group_setGroup _ p g _, ?_, gmem⟩
  simp only [askSlots]
  rw [hub_setGroup, part, parts]
  rfl

/-- A group tested: what it becomes, and what its home sends. -/
theorem State.testGroup_spec (g : Nat) (x : Group) (out : List HubMsg) :
    ((s.testGroup p g x out).group p g).asking [] = (x.test x.fuel).1.asking [] ∧
    ((s.testGroup p g x out).part p).ctx.hub = (s.part p).ctx.hub ++ out ++ (x.test x.fuel).2 ∧
    (s.testGroup p g x out).gmem = s.gmem := by
  obtain ⟨l, group, hub, gmem⟩ := (s.setGroup p g x).askSlots_spec p g
  rw [group_setGroup] at group
  rw [hub_setGroup] at hub
  simp only [testGroup, group, Group.test_asking]
  generalize ht : ((s.setGroup p g x).askSlots p g).modCtx p
    (fun c => { c with hub := c.hub ++ out ++ (x.test x.fuel).2 }) = t
  have sent : (t.part p).ctx.hub = (s.part p).ctx.hub ++ out ++ (x.test x.fuel).2 := by
    rw [← ht, modCtx_ctx, hub]
  have kept : t.gmem = s.gmem := by
    rw [← ht]
    exact gmem
  split
  · rw [group_setGroup, hub_setGroup]
    exact ⟨rfl, sent, kept⟩
  · obtain ⟨l', group, hub, gmem⟩ :=
      ((t.freeSlots p g).setGroup p g { (x.test x.fuel).1.asking l with hubsAsked := [] }).askSlots_spec p g
    rw [group, hub, gmem, group_setGroup, hub_setGroup]
    exact ⟨rfl, sent, kept⟩

/-- With no order log, a choice at a home is free. -/
theorem State.orderHome_unlogged {s : State} {p : Nat} (h : (s.part p).ctx.logMode = 0) (g kind choice : Nat) :
    s.orderHome p g kind choice = .ok s := by
  simp only [orderHome, order, h]

/-- The head that waits for its home's reply gets it. -/
theorem State.homeReply_reply {s : State} {k : CoreId} {sl : Fin 4} (wait : (s.slot k sl).st = .wait)
    (reply : (s.slot k sl).wait = .reply) (asked : (s.slot k sl).asked = true) (v : Word) :
    ((s.homeReply k sl v).slot k sl).reply = some (.value v) := by
  rw [homeReply, slot_modSlot, if_pos ⟨wait, reply, asked⟩]

theorem State.group_homeReply (k : CoreId) (sl : Fin 4) (v : Word) (g : Nat) :
    (s.homeReply k sl v).group p g = s.group p g := rfl

end

/-! ### The events of a home -/

section
variable {p i g : Nat} {s : State}

theorem tideContributionArrival_next {c : Contrib} (head : s.hubHead p i = some (.contrib g c))
    (log : (s.part p).ctx.logMode = 0) : exec (.tideContributionArrival p i) s =
      .next ((s.hubPop p i).testGroup p g ((s.group p g).take c).1 ((s.group p g).take c).2) := by
  have run : execTideContributionArrival p i s =
      .next ((s.hubPop p i).testGroup p g ((s.group p g).take c).1 ((s.group p g).take c).2) := by
    simp only [execTideContributionArrival, head, State.orderHome_unlogged log]
    rfl
  exact run

/-- A group from which a member has gone (R92). -/
def Group.without (x : Group) (r : BitVec 22) : Group :=
  { x with members := x.members.map fun m => if m.rank = r then { m with present := false } else m }

theorem tideWithdrawal_next {r : BitVec 22} {l : Nat} (head : s.hubHead p i = some (.withdraw g r l))
    (log : (s.part p).ctx.logMode = 0) :
    (geV (s.group p g).entry = true → geLaunch (s.group p g).entry = l →
      exec (.tideWithdrawal p i) s = .next ((s.hubPop p i).testGroup p g ((s.group p g).without r) [])) ∧
    (geV (s.group p g).entry = false ∨ geLaunch (s.group p g).entry ≠ l →
      exec (.tideWithdrawal p i) s = .next (s.hubPop p i)) := by
  have run : exec (.tideWithdrawal p i) s = event s
      (if !geV (s.group p g).entry || geLaunch (s.group p g).entry != l then some (s.hubPop p i)
       else some ((s.hubPop p i).testGroup p g ((s.group p g).without r) [])) := by
    change execTideWithdrawal p i s = _
    simp only [execTideWithdrawal, head, State.orderHome_unlogged log]
    rfl
  rw [run]
  refine ⟨fun v launch => ?_, fun gone => ?_⟩
  · simp [event, v, launch]
  · rcases gone with v | launch
    · simp [event, v]
    · simp [event, launch]

/-- A group that has served `n` items more (R94). -/
def Group.served (x : Group) (n : Nat) : Group := { x with chunk := { x.chunk with next := x.chunk.next + BitVec.ofNat 48 n } }

variable {r : BitVec 22} {k : CoreId} {sl : Fin 4}

theorem chunkInit_next {total : BitVec 48} {size : BitVec 16} {guided : Bool}
    (head : s.hubHead p i = some (.chunkInit g r k sl total size guided)) (log : (s.part p).ctx.logMode = 0) :
    exec (.chunkRequest p i) s = .next (((s.hubPop p i).setGroup p g
      { s.group p g with chunk := ⟨0, total, size, guided⟩ }).homeReply k sl 0) := by
  change execChunkRequest p i s = _
  simp only [execChunkRequest, head, State.orderHome_unlogged log]
  rfl

theorem getChunk_next {cap : BitVec 16} (head : s.hubHead p i = some (.getChunk g r k sl cap)) (log : (s.part p).ctx.logMode = 0) :
    let x := s.group p g
    let n := chunkClaim x.chunk x.nPrime cap.toNat
    exec (.chunkRequest p i) s =
      .next (((s.hubPop p i).setGroup p g (x.served n)).homeReply k sl (BitVec.ofNat 16 n ++ x.chunk.next)) := by
  change execChunkRequest p i s = _
  simp only [execChunkRequest, head, State.orderHome_unlogged log]
  rfl

/-- An answer of so many words stands at its member, whose EV is set (R93, R178). -/
def State.answerGot (s : State) (k : CoreId) (sl : Fin 4) (a : TideAns) (words : Nat) : State :=
  (State.charge (s.modSlot k sl fun x => { x with answers := x.answers ++ [a] }) k sl 27 words).setEv k sl

theorem State.answerGot_slot (s : State) (k : CoreId) (sl : Fin 4) (a : TideAns) (words : Nat) :
    (s.answerGot k sl a words).slot k sl = { s.slot k sl with answers := (s.slot k sl).answers ++ [a], ev := true } := by
  rw [answerGot, setEv, slot_modSlot, slot, charge, core_modCoreRegs, core_modSlot]
  exact congrArg (fun x : Slot => { x with ev := true }) (Core.slot_setSlot _ _ _)

theorem tideAnswerArrival_next {w : Word} {a : TideAns} (head : s.hubHead p i = some (.answer w a))
    (task : (s.hubPop p i).findTask w = some (k, sl)) :
    exec (.tideAnswerArrival p i) s = .next ((s.hubPop p i).answerGot k sl a
      (geFlits ((s.hubPop p i).group p (gmGroup ((s.hubPop p i).slot k sl).r.gm[a.gm])).entry)) := by
  change execTideAnswerArrival p i s = _
  simp only [execTideAnswerArrival, head, task]
  rfl

end

/-- Settles O38: each event of a home by what it leaves of the group, its traffic and the slot that waits. -/
theorem tideHome : Obligations.TideHome := by
  refine ⟨fun p i g c s head log => ?_, fun x c => ?_, fun x => ?_, fun p i g l r s head log => ?_,
    fun p i g r k sl s head wait reply asked => ?_, fun p i g r k sl s log wait reply asked => ?_,
    fun p i g a k sl s head task => ?_⟩
  · obtain ⟨group, hub, gmem⟩ := (s.hubPop p i).testGroup_spec p g ((s.group p g).take c).1 ((s.group p g).take c).2
    rw [State.hub_hubPop] at hub
    exact ⟨_, tideContributionArrival_next head log, group, gmem, hub⟩
  · exact ⟨Group.take_early, Group.take_open, fun r h hr => ⟨_, Group.take_late h hr, rfl, rfl, rfl, rfl⟩⟩
  · exact ⟨fun h => Group.test_open h _, rfl, List.length_map _, fun m hm => Group.mem_close hm⟩
  · obtain ⟨tested, gone⟩ := tideWithdrawal_next head log
    refine ⟨fun v launch => ?_, fun other => ⟨_, gone other, s.group_hubPop p i g⟩⟩
    obtain ⟨group, -, gmem⟩ := (s.hubPop p i).testGroup_spec p g ((s.group p g).without r) []
    exact ⟨_, tested v launch, group, gmem⟩
  · have run : exec (.homeQueryRequest p i) s = .next ((s.hubPop p i).homeReply k sl
        (0#10 ++ BitVec.ofNat 22 (s.group p g).nPrime ++ (s.group p g).rho)) := by
      change execHomeQueryRequest p i s = _
      simp only [execHomeQueryRequest, head]
      rfl
    refine ⟨_, _, run, State.homeReply_reply wait reply asked _, ?_, ?_⟩
    · exact BitVec.extractLsb'_append_eq_right
    · exact (BitVec.extractLsb'_append_eq_of_le (w := 32) (by decide)).trans BitVec.extractLsb'_append_eq_right
  · refine ⟨fun total size guided head => ?_, fun cap head => ?_⟩
    · refine ⟨_, _, chunkInit_next head log, ?_, State.homeReply_reply wait reply asked _⟩
      rw [State.group_homeReply, State.group_setGroup]
    · obtain ⟨rest, capped⟩ := chunkClaim_le (s.group p g).chunk (s.group p g).nPrime cap.toNat
      refine ⟨_, _, getChunk_next head log, State.homeReply_reply wait reply asked _, ?_, rest, fun h => capped (by bv_omega),
        fun static h => ?_⟩
      · rw [State.group_homeReply, State.group_setGroup]
        rfl
      · rw [h]
        exact chunkClaim_static static _
  · have slot := (s.hubPop p i).answerGot_slot k sl a
      (geFlits ((s.hubPop p i).group p (gmGroup ((s.hubPop p i).slot k sl).r.gm[a.gm])).entry)
    exact ⟨_, tideAnswerArrival_next head task, (congrArg Slot.answers slot :), (congrArg Slot.ev slot :),
      (congrArg Slot.r slot :)⟩

end Sys2Proof.Machine
end

section
/-! PROOFS. The member's side of a tide: its registers, its instructions and the action of a tag (O37). -/

namespace Sys2Proof.Machine

/-! ### Membership registers (R89) -/

section
variable (g : Nat) (round : BitVec 32) (out : BitVec 2)

theorem gmV_gmWord : gmV (gmWord g round out) = true := by
  change BitVec.getLsbD (w := 1 + 7 + 32 + 14 + 2 + 8) (1#1 ++ 0#7 ++ round ++ 0#14 ++ out ++ BitVec.ofNat 8 g) 63 = true
  simp only [BitVec.getLsbD_append]
  rfl

theorem gmGroup_gmWord : gmGroup (gmWord g round out) = g % 256 :=
  (congrArg BitVec.toNat (BitVec.extractLsb'_append_eq_right (b := BitVec.ofNat 8 g))).trans (BitVec.toNat_ofNat _ _)

theorem gmOut_gmWord : gmOut (gmWord g round out) = out :=
  (BitVec.extractLsb'_append_eq_of_le (w := 8) (by decide)).trans BitVec.extractLsb'_append_eq_right

theorem gmRound_gmWord : gmRound (gmWord g round out) = round :=
  calc gmRound (gmWord g round out)
      = (1#1 ++ 0#7 ++ round ++ 0#14 ++ out).extractLsb' 16 32 := BitVec.extractLsb'_append_eq_of_le (w := 8) (by decide)
    _ = (1#1 ++ 0#7 ++ round ++ 0#14).extractLsb' 14 32 := BitVec.extractLsb'_append_eq_of_le (w := 2) (by decide)
    _ = (1#1 ++ 0#7 ++ round).extractLsb' 0 32 := BitVec.extractLsb'_append_eq_of_le (w := 14) (by decide)
    _ = round := BitVec.extractLsb'_append_eq_right

end

/-- A membership after an answer has been taken (R93). -/
theorem gmAfter_fields (w : Word) (a : TideAns) :
    let next := a.status.extractLsb' 32 32 + 1
    gmV (gmAfter w a) = true ∧ gmGroup (gmAfter w a) = gmGroup w ∧ gmOut (gmAfter w a) = gmOut w - 1 ∧
    gmRound (gmAfter w a) = if gmOut w = 1#2 ∧ a.status.extractLsb' 6 2 ≠ 2#2 ∧ 0 < (next - gmRound w).toInt then next
      else gmRound w := by
  intro next
  have last : gmOut w - 1 = 0#2 ↔ gmOut w = 1#2 := by bv_omega
  refine ⟨gmV_gmWord _ _ _, (gmGroup_gmWord _ _ _).trans (Nat.mod_eq_of_lt (BitVec.isLt _)), gmOut_gmWord _ _ _,
    (gmRound_gmWord _ _ _).trans ?_⟩
  simp only [last, next, and_assoc, Bool.and_eq_true, decide_eq_true_eq, Bool.not_eq_true', beq_eq_false_iff_ne]

/-! ### The issuing member -/

section
variable (s : State) (f : Form)

/-- Of a slot, taking the operands of a head changes the presence of its channels alone. -/
theorem State.took_me : (s.took f).me = { s.me with r := { s.me.r with pres := (s.me.r.consume f.srcs).pres } } := by
  rw [took, me_modMe]
  exact congrArg (fun r : Regs => { s.me with r := r }) (Regs.consume_eq _ _)

theorem State.took_gm : (s.took f).me.r.gm = s.me.r.gm := by rw [took_me]

theorem State.took_gmShape (n : Fin 4) : (s.took f).gmShape n = s.gmShape n := by
  rw [gmShape, took_gm]
  rfl

end

theorem State.slimRefuses_congr {s t : State} (cur : t.cur = s.cur) (slim : t.me.t.slim = s.me.t.slim) (d : GOp) (v : Word) :
    t.slimRefuses d v = s.slimRefuses d v := by
  rw [slimRefuses, cur, slim]
  rfl

theorem State.slimRefuses_modMe {u : State} {g : Slot → Slot} (h : (g u.me).t = u.me.t) (d : GOp) (v : Word) :
    (u.modMe g).slimRefuses d v = u.slimRefuses d v :=
  slimRefuses_congr (s := u) (t := u.modMe g) rfl (by rw [me_modMe, h]) d v

theorem State.modRegs_me_t (u : State) (g : Regs → Regs) : (u.modRegs u.cur.core u.cur.slot g).me.t = u.me.t :=
  (congrArg Slot.t (slot_modSlot u u.cur.core u.cur.slot fun x => { x with r := g x.r }) :)

theorem State.wr_me_t {u : State} (hi : u.cur.inline = false) (d : GOp) (v : Word) : (u.wr d v).me.t = u.me.t := by
  have kept (g : Regs → Regs) : (u.modRegs u.cur.core u.cur.slot g).me.t = u.me.t := u.modRegs_me_t g
  cases d with
  | g n => simp only [wr, hi, Bool.false_eq_true, if_false, kept]
  | c n => simp only [wr, kept]

theorem State.wrV_me_t (u : State) (n : Fin 16) (x : VWord) (h : BitVec 128) : (u.wrV n x h).me.t = u.me.t :=
  u.modRegs_me_t _

theorem State.part_modCoreRegs (s : State) (k : CoreId) (f : CoreRegs → CoreRegs) (p : Nat) :
    (s.modCoreRegs k f).part p = s.part p := rfl

/-- A contribution (R90, R267): its membership, and what is on its way to the home. -/
theorem State.contribute_spec (s : State) (k : CoreId) (sl n : Fin 4) (lanes : VWord) (hdr : BitVec 128) (flag : BitVec 16) :
    let w := (s.slot k sl).r.gm[n]
    let t := s.contribute k sl n lanes hdr flag
    (t.slot k sl).r.gm[n] = gmWord (gmGroup w) (gmRound w + 1) (gmOut w + 1) ∧
    (t.part (s.partNum k)).ctx.hub = (s.part (s.partNum k)).ctx.hub ++
      [.contrib (gmGroup w) ⟨(s.slot k sl).gtid, s.rankField k (s.slot k sl).gtid, n, gmRound w, lanes, hdr, flag, false, false⟩] := by
  intro w t
  have slot : (t.slot k sl).r =
      { (s.slot k sl).r with gm := (s.slot k sl).r.gm.set n (gmWord (gmGroup w) (gmRound w + 1) (gmOut w + 1)) } := by
    simp only [t, contribute, count, charge, State.slot, core_modCoreRegs]
    have raised := slot_modSlot s k sl fun x =>
      { x with r := { x.r with gm := x.r.gm.set n (gmWord (gmGroup w) (gmRound w + 1) (gmOut w + 1)) } }
    exact (congrArg Slot.r raised :)
  refine ⟨?_, ?_⟩
  · rw [slot]
    exact (getElem_set_fin _ n n _).trans (if_pos rfl)
  · simp only [t, contribute, count, charge, part_modCoreRegs, modCtx_ctx]
    rfl

/-! ### TIDE and TIDEWAIT (R267, R268) -/

/-- TIDE on its operands: a contribution, or waiting while two are out. -/
def State.tideSend (u : State) (n : Fin 4) (flag : BitVec 16) (lanes : VWord) (hdr : BitVec 128) : Act :=
  if gmOut u.me.r.gm[n] = 2#2 then .wait .tideOut id else .ok (u.contribute u.cur.core u.cur.slot n lanes hdr flag)

section
variable {s : State} {sh : Nat}

theorem finish_tideSend (cls : Fin 32) (hi : s.cur.inline = false) (f : Form) (n : Fin 4) (flag : BitVec 16) (l : VWord)
    (h : BitVec 128) :
    (gmOut s.me.r.gm[n] ≠ 2#2 → finish s cls ((s.took f).tideSend n flag l h) =
      ((s.took f).contribute s.cur.core s.cur.slot n l h flag).retire cls) ∧
    (gmOut s.me.r.gm[n] = 2#2 → finish s cls ((s.took f).tideSend n flag l h) = s.waitFor .tideOut) := by
  rw [State.tideSend, State.took_gm]
  refine ⟨fun free => ?_, fun full => ?_⟩
  · rw [if_neg free]
    exact finish_ok _ hi
  · rw [if_pos full]
    exact finish_wait _ _ _ hi

/-- What a form has for a group of scalars alone. -/
theorem scalar_only {α : Type} {o : Option Nat} (h : o = some sh) (l : List α) :
    (if o = some 0 then l else []) = if sh = 0 then l else [] := by
  simp only [h, Option.some.injEq]

/-- What a form has for a group of vectors alone. -/
theorem vector_only {α : Type} {o : Option Nat} (h : o = some sh) (l : List α) :
    (if (o.isSome && o != some 0) = true then l else []) = if sh = 0 then [] else l := by
  by_cases hs : sh = 0 <;> simp [h, hs]

theorem tide_next (x : TideF) (shape : s.gmShape x.gm = some sh) :
    let f := mkForm x.q 31 ((if sh = 0 then [x.a] else []) ++ r16Ops x.fl) [] (if sh = 0 then [] else vRegs x.a)
    let u := s.took f
    let flag := (u.r16 x.fl).extractLsb' 0 16
    s.issues f →
    (sh = 0 → exec (.tide x) s = .next (finish s 31 (u.tideSend x.gm flag ((u.rd x.a).setWidth 512) 0))) ∧
    (∀ v, sh ≠ 0 → asV x.a = some v →
      exec (.tide x) s = .next (finish s 31 (u.tideSend x.gm flag (u.rdV v) (if sh = 2 then u.rdH v else 0)))) := by
  intro f u flag issues
  rw [show exec (.tide x) s = execTide x s from rfl, execTide]
  simp only [scalar_only shape, vector_only shape]
  rw [issue_done _ issues]
  simp only [State.took_gmShape, shape]
  cases sh with
  | zero => exact ⟨fun _ => rfl, fun v h => absurd rfl h⟩
  | succ n =>
    refine ⟨fun h => absurd h (Nat.succ_ne_zero n), fun v _ reg => ?_⟩
    simp only [reg]
    rfl

theorem tidewait_next (x : TidewaitF) (shape : s.gmShape x.gm = some sh) (out : gmOut s.me.r.gm[x.gm] ≠ 0#2) :
    let f := mkForm x.q 31 [] (x.a :: (if sh = 0 then [x.d] else [])) (if sh = 0 then [] else vRegs x.d)
    let u := s.took f
    let w := s.me.r.gm[x.gm]
    let mine := fun (a : TideAns) => a.gm == x.gm && a.tag == gmRound w - (gmOut w).setWidth 32
    s.issues f →
    (∀ a, s.me.answers.find? mine = some a →
      let t := u.modMe fun y =>
        { y with answers := y.answers.eraseP mine, r := { y.r with gm := y.r.gm.set x.gm (gmAfter w a) } }
      (sh = 0 → exec (.tidewait x) s =
        .next (finish s 31 (writeG t x.d (a.lanes.setWidth 64) fun t => writeG t x.a a.status))) ∧
      (∀ v, sh ≠ 0 → asV x.d = some v → exec (.tidewait x) s = .next (finish s 31 (writeG (t.wrV v a.lanes a.hdr) x.a a.status)))) ∧
    (s.me.answers.find? mine = none → (sh = 0 ∨ asV x.d ≠ none) → exec (.tidewait x) s =
      .next (finish s 31 (if x.nb = some true then writeG u x.a 0xC0 else .wait .tide id))) := by
  intro f u w mine issues
  rw [show exec (.tidewait x) s = execTidewait x s from rfl, execTidewait]
  simp only [scalar_only shape, vector_only shape]
  rw [issue_done _ issues]
  have answers : (s.took f).me.answers = s.me.answers := by rw [State.took_me]
  simp only [State.took_gmShape, State.took_gm, answers, shape, if_neg out]
  refine ⟨fun a found => ⟨fun scalar => ?_, fun v vector reg => ?_⟩, fun none_ register => ?_⟩
  · subst scalar
    simp only [ne_eq, not_true_eq_false, false_and, if_false]
    rw [found]
    rfl
  · obtain ⟨n, rfl⟩ := Nat.exists_eq_succ_of_ne_zero vector
    simp only [reg, reduceCtorEq, and_false, if_false]
    rw [found]
    rfl
  · have ok : ¬ (sh ≠ 0 ∧ asV x.d = none) := by tauto
    rw [if_neg ok, none_]
    rfl

/-- Two words that STACK_LIMIT lets through are written one after the other. -/
theorem finish_writeG₂ {u : State} (issuing : s.cur.inline = false) (hi : u.cur.inline = false) {cls : Fin 32} {d e : GOp} {v w : Word}
    (hd : u.slimRefuses d v = false) (he : u.slimRefuses e w = false) :
    finish s cls (writeG u d v fun t => writeG t e w) = ((u.wr d v).wr e w).retire cls := by
  have cur : (u.wr d v).cur.inline = false := by rw [State.wr_cur, hi]
  rw [writeG_done _ hi hd, writeG_done _ cur, finish_ok _ issuing]
  rwa [State.slimRefuses_congr (State.wr_cur _ _ _) (congrArg _ (State.wr_me_t hi _ _))]

end

/-! ### Asking the home (R269, R270) -/

theorem askHome_reply {u : State} {m : HubMsg} {v : Word} (k : State → Word → Act) (h : u.me.reply = some (.value v)) :
    askHome u m k = k u v := by rw [askHome, h]

/-- A head that has not asked yet asks, and waits for the reply. -/
theorem finish_askHome {s u : State} {m : HubMsg} (k : State → Word → Act) (cls : Fin 32) (hi : s.cur.inline = false)
    (none : u.me.reply = none) (new : s.me.asked = false) :
    let t := finish s cls (askHome u m k)
    t.me.st = .wait ∧ t.me.wait = .reply ∧ t.me.asked = true ∧ t.me.r = s.me.r ∧
    (t.part (s.partNum s.cur.core)).ctx.hub = (s.part (s.partNum s.cur.core)).ctx.hub ++ [m] := by
  intro t
  obtain ⟨v, hv⟩ : ∃ v, v = s.modCtx (s.partNum s.cur.core) fun c => { c with hub := c.hub ++ [m] } := ⟨_, rfl⟩
  have wait : t = (v.modMe fun x => { x with asked := true }).waitFor .reply := by
    simp only [t, askHome, none, finish_wait _ _ _ hi, new, hv]
    rfl
  have me : t.me = { s.me with asked := true, st := .wait, wait := .reply } := by
    rw [wait, State.waitFor, State.me_modMe, State.me_modMe, hv]
    rfl
  have hub : (v.part (s.partNum s.cur.core)).ctx.hub = (s.part (s.partNum s.cur.core)).ctx.hub ++ [m] := by
    rw [hv, State.modCtx_ctx]
  refine ⟨?_, ?_, ?_, ?_, ?_⟩
  · rw [me]
  · rw [me]
  · rw [me]
  · rw [me]
  · rw [wait]
    exact hub

/-- A group of a valid membership that serves chunks (R94, R270). -/
def State.chunked (u : State) (n : Fin 4) : Prop :=
  gmV u.me.r.gm[n] = true ∧ geChk (u.group (u.partNum u.cur.core) (gmGroup u.me.r.gm[n])).entry = true

theorem chunkCheck_ok {u : State} {n : Fin 4} (h : u.chunked n) (k : Nat → Act) :
    chunkCheck u n k = k (gmGroup u.me.r.gm[n]) := by
  simp only [chunkCheck, h.1, h.2, Bool.and_self, if_true]

theorem chunkCheck_trap {u : State} {n : Fin 4} (h : ¬ u.chunked n) (k : Nat → Act) :
    chunkCheck u n k = .trap 0x09 (BitVec.ofNat 64 n.val) := by
  refine if_neg fun ok => h ?_
  exact Bool.and_eq_true_iff.1 ok

/-- TIDEQ on its operands, `sel` the selector: the membership, an entry's word, or the home's answer (R269). -/
def tideqAct (x : TideqF) (u : State) : Act :=
  let sel := (u.r16 x.sel).toNat % 8
  let w := u.me.r.gm[x.gm]
  let e := (u.group (u.partNum u.cur.core) (gmGroup w)).entry
  if 4 < sel then .trap 0x09 (BitVec.ofNat 64 sel)
  else if sel = 3 then writeG u x.d w
  else if !gmV w then .trap 0x09 (BitVec.ofNat 64 x.gm.val)
  else if sel < 3 then writeG u x.d (e.extractLsb' (64 * sel) 64)
  else askHome u (.query (gmGroup w) (gtidRank u.me.gtid) u.cur.core u.cur.slot) fun t v => writeG t x.d v

theorem exec_tideq (x : TideqF) (s : State) :
    exec (.tideq x) s = issue (mkForm x.q 31 (r16Ops x.sel) [x.d]) (tideqAct x) s := rfl

section
variable {x : TideqF} {u : State}

theorem tideqAct_membership (h : (u.r16 x.sel).toNat % 8 = 3) : tideqAct x u = writeG u x.d u.me.r.gm[x.gm] := by
  simp [tideqAct, h]

theorem tideqAct_beyond (h : 4 < (u.r16 x.sel).toNat % 8) :
    tideqAct x u = .trap 0x09 (BitVec.ofNat 64 ((u.r16 x.sel).toNat % 8)) := if_pos h

theorem tideqAct_invalid (h : (u.r16 x.sel).toNat % 8 ≤ 4) (h3 : (u.r16 x.sel).toNat % 8 ≠ 3) (v : gmV u.me.r.gm[x.gm] = false) :
    tideqAct x u = .trap 0x09 (BitVec.ofNat 64 x.gm.val) := by
  simp only [tideqAct, if_neg (Nat.not_lt.2 h), if_neg h3, v, Bool.not_false, if_true]

theorem tideqAct_entry (h : (u.r16 x.sel).toNat % 8 < 3) (v : gmV u.me.r.gm[x.gm] = true) : tideqAct x u = writeG u x.d
    ((u.group (u.partNum u.cur.core) (gmGroup u.me.r.gm[x.gm])).entry.extractLsb' (64 * ((u.r16 x.sel).toNat % 8)) 64) := by
  have le : ¬ 4 < (u.r16 x.sel).toNat % 8 := by omega
  simp only [tideqAct, if_neg le, if_neg (Nat.ne_of_lt h), v, if_pos h, Bool.not_true, Bool.false_eq_true, if_false]

theorem tideqAct_home {r : Word} (h : (u.r16 x.sel).toNat % 8 = 4) (v : gmV u.me.r.gm[x.gm] = true)
    (reply : u.me.reply = some (.value r)) : tideqAct x u = writeG u x.d r := by
  have lt : ¬ 4 < 4 ∧ ¬ 4 = 3 ∧ ¬ 4 < 3 := by decide
  simp only [tideqAct, h, v, lt, Bool.not_true, Bool.false_eq_true, if_false, askHome_reply _ reply]

end

theorem tideq_clauses (x : TideqF) :
    let f := mkForm x.q 31 (r16Ops x.sel) [x.d]
    let sel := fun u : State => (u.r16 x.sel).toNat % 8
    let w := fun u : State => u.me.r.gm[x.gm]
    let e := fun u : State => (u.group (u.partNum u.cur.core) (gmGroup (w u))).entry
    Puts (.tideq x) f x.d w (ok := fun u => sel u = 3) ∧
    (∀ i < 3, Puts (.tideq x) f x.d (fun u => (e u).extractLsb' (64 * i) 64) (ok := fun u => sel u = i ∧ gmV (w u) = true)) ∧
    (∀ v, Puts (.tideq x) f x.d (fun _ => v) (ok := fun u => sel u = 4 ∧ gmV (w u) = true ∧ u.me.reply = some (.value v))) ∧
    Traps (.tideq x) f (fun u => 4 < sel u) 0x09 (fun u => BitVec.ofNat 64 (sel u)) ∧
    Traps (.tideq x) f (fun u => sel u ≤ 4 ∧ sel u ≠ 3 ∧ gmV (w u) = false) 0x09 (fun _ => BitVec.ofNat 64 x.gm.val) := by
  refine ⟨puts_of (exec_tideq x) fun u _ h => tideqAct_membership h, fun i hi => puts_of (exec_tideq x) ?_,
    fun v => puts_of (exec_tideq x) ?_, traps_of (exec_tideq x) fun u _ h => tideqAct_beyond h, traps_of (exec_tideq x) ?_⟩
  · rintro u - ⟨rfl, v⟩
    exact tideqAct_entry hi v
  · rintro u - ⟨h, v, reply⟩
    exact tideqAct_home h v reply
  · rintro u - ⟨h, h3, v⟩
    exact tideqAct_invalid h h3 v

/-! ### The TIDE action (R72, R406) -/

section
variable {s : State} {k : CoreId} {i : Nat}

theorem tideAction_next {q : Fin 4} {m : Msg} {e : Word} {l : VWord} {h : BitVec 128} {fl : BitVec 16}
    (head : s.tagHead k i 6 = some (q, m, e)) (live : (s.slot k (tagSlot e)).st ≠ .empty)
    (live' : (s.slot k (tagSlot e)).st ≠ .halting) (log : s.unlogged k) :
    let n : Fin 4 := Fin.ofNat 4 (e.toNat % 4)
    let w := (s.slot k (tagSlot e)).r.gm[n]
    gmV w = true → gmOut w ≠ 2#2 → tidePayload (s.group (s.partNum k) (gmGroup w)).entry m.payload = some (l, h, fl) →
    exec (.tideAction k i) s = .next ((s.contribute k (tagSlot e) n l h fl).tagFinish k q e) := by
  have low : (Fin.ofNat 4 (e.extractLsb' 0 2).toNat : Fin 4) = Fin.ofNat 4 (e.toNat % 4) := by
    rw [BitVec.extractLsb'_toNat, Nat.shiftRight_zero]
  intro n w v out payload
  change execTideAction k i s = _
  simp only [execTideAction, head, low]
  have ok : ¬ ((s.slot k (tagSlot e)).st = .empty ∨ (s.slot k (tagSlot e)).st = .halting ∨ gmV w = false) := by
    simp [live, live', v]
  rw [if_neg ok, payload]
  simp only [State.orderTag, State.orderAt_unlogged log]
  exact congrArg (event s) (if_neg out)

end

theorem tide_clauses (x : TideF) (s : State) (sh : Nat) :
    let f := mkForm x.q 31 ((if sh = 0 then [x.a] else []) ++ r16Ops x.fl) [] (if sh = 0 then [] else vRegs x.a)
    let u := s.took f
    let flag := (u.r16 x.fl).extractLsb' 0 16
    s.gmShape x.gm = some sh → s.issues f →
      (gmOut s.me.r.gm[x.gm] ≠ 2#2 → sh = 0 → exec (.tide x) s =
        .next ((u.contribute s.cur.core s.cur.slot x.gm ((u.rd x.a).setWidth 512) 0 flag).retire 31)) ∧
      (∀ v, gmOut s.me.r.gm[x.gm] ≠ 2#2 → sh ≠ 0 → asV x.a = some v → exec (.tide x) s =
        .next ((u.contribute s.cur.core s.cur.slot x.gm (u.rdV v) (if sh = 2 then u.rdH v else 0) flag).retire 31)) ∧
      (gmOut s.me.r.gm[x.gm] = 2#2 → sh = 0 → exec (.tide x) s = .next (s.waitFor .tideOut)) := by
  intro f u flag shape issues
  obtain ⟨scalar, vector⟩ := tide_next x shape issues
  have send (l h) := finish_tideSend 31 issues.1 f x.gm flag l h
  refine ⟨fun free hs => ?_, fun v free hs reg => ?_, fun full hs => ?_⟩
  · rw [scalar hs, (send _ _).1 free]
  · rw [vector v hs reg, (send _ _).1 free]
  · rw [scalar hs, (send _ _).2 full]

theorem tide_invalid {x : TideF} {s : State} (shape : s.gmShape x.gm = none) (issues : s.issues (mkForm x.q 31 (r16Ops x.fl) [])) :
    exec (.tide x) s = .next (s.takeTrap s.cur.core s.cur.slot 0x09 (BitVec.ofNat 64 x.gm.val)) := by
  rw [show exec (.tide x) s = execTide x s from rfl, execTide, shape]
  refine (issue_done _ issues).trans ?_
  simp only [State.took_gmShape, shape, finish_trap _ _ _ issues.1]

theorem tidewait_clauses (x : TidewaitF) (s : State) (sh : Nat) :
    let f := mkForm x.q 31 [] (x.a :: (if sh = 0 then [x.d] else [])) (if sh = 0 then [] else vRegs x.d)
    let u := s.took f
    let w := s.me.r.gm[x.gm]
    let mine := fun (a : TideAns) => a.gm == x.gm && a.tag == gmRound w - (gmOut w).setWidth 32
    s.gmShape x.gm = some sh → s.issues f → gmOut w ≠ 0#2 →
      (∀ a, s.me.answers.find? mine = some a → u.slimRefuses x.a a.status = false → u.slimRefuses x.d (a.lanes.setWidth 64) = false →
        let t := u.modMe fun y =>
          { y with answers := y.answers.eraseP mine, r := { y.r with gm := y.r.gm.set x.gm (gmAfter w a) } }
        (sh = 0 → exec (.tidewait x) s = .next (((t.wr x.d (a.lanes.setWidth 64)).wr x.a a.status).retire 31)) ∧
        (∀ v, sh ≠ 0 → asV x.d = some v → exec (.tidewait x) s = .next (((t.wrV v a.lanes a.hdr).wr x.a a.status).retire 31))) ∧
      (s.me.answers.find? mine = none → (sh = 0 ∨ asV x.d ≠ none) →
        (x.nb ≠ some true → exec (.tidewait x) s = .next (s.waitFor .tide)) ∧
        (x.nb = some true → u.slimRefuses x.a 0xC0 = false → exec (.tidewait x) s = .next ((u.wr x.a 0xC0).retire 31))) := by
  intro f u w mine shape issues out
  have hi : u.cur.inline = false := issues.1
  obtain ⟨answered, alone⟩ := tidewait_next x shape out issues
  refine ⟨fun a found sa sd => ?_, fun none_ register => ?_⟩
  · intro t
    have slim (d v) : t.slimRefuses d v = u.slimRefuses d v :=
      State.slimRefuses_modMe rfl d v
    obtain ⟨scalar, vector⟩ := answered a found
    refine ⟨fun hs => ?_, fun v hs reg => ?_⟩
    · rw [scalar hs, finish_writeG₂ (u := t) issues.1 hi ((slim _ _).trans sd) ((slim _ _).trans sa)]
    · have slimV : (t.wrV v a.lanes a.hdr).slimRefuses x.a a.status = false :=
        (State.slimRefuses_congr (s := t) (t := t.wrV v a.lanes a.hdr) rfl (congrArg _ (t.wrV_me_t v _ _)) _ _).trans ((slim _ _).trans sa)
      rw [vector v hs reg, writeG_done (u := t.wrV v a.lanes a.hdr) _ hi slimV, finish_ok _ issues.1]
  · refine ⟨fun nb => ?_, fun nb slim => ?_⟩
    · rw [alone none_ register, if_neg nb, finish_wait _ _ _ issues.1]
      rfl
    · rw [alone none_ register, if_pos nb, writeG_done _ hi slim, finish_ok _ issues.1]

theorem tidewait_invalid (x : TidewaitF) (s : State) :
    let sh := s.gmShape x.gm
    let f := mkForm x.q 31 [] (x.a :: (if sh = some 0 then [x.d] else [])) (if sh.isSome ∧ sh ≠ some 0 then vRegs x.d else [])
    s.issues f → sh = none ∨ gmOut s.me.r.gm[x.gm] = 0#2 →
    exec (.tidewait x) s = .next (s.takeTrap s.cur.core s.cur.slot 0x09 (BitVec.ofNat 64 x.gm.val)) := by
  intro sh f issues bad
  have form : mkForm x.q 31 [] (x.a :: (if sh = some 0 then [x.d] else [])) (if (sh.isSome && sh != some 0) = true then vRegs x.d else []) =
      f := by simp only [f, Bool.and_eq_true, bne_iff_ne]
  rw [show exec (.tidewait x) s = execTidewait x s from rfl, execTidewait]
  simp only [show s.gmShape x.gm = sh from rfl, form]
  rw [issue_done _ issues]
  simp only [State.took_gmShape, State.took_gm, show s.gmShape x.gm = sh from rfl]
  rcases bad with none_ | idle
  · rw [none_]
    simp only [finish_trap _ _ _ issues.1]
  · cases sh with
    | none => simp only [finish_trap _ _ _ issues.1]
    | some n => simp only [if_pos idle, finish_trap _ _ _ issues.1]

/-- CHUNKINIT on its operands: the size is of an immediate, or has GUIDED beside it in a register (R270). -/
def chunkinitMsg (x : ChunkinitF) (u : State) : HubMsg :=
  .chunkInit (gmGroup u.me.r.gm[x.gm]) (gtidRank u.me.gtid) u.cur.core u.cur.slot ((u.rd x.a).extractLsb' 0 48)
    ((u.r16 x.sz).extractLsb' 0 16) (match x.sz with | .reg _ => (u.r16 x.sz).getLsbD 16 | .imm _ => false)

def getchunkMsg (x : GetchunkF) (u : State) : HubMsg :=
  .getChunk (gmGroup u.me.r.gm[x.gm]) (gtidRank u.me.gtid) u.cur.core u.cur.slot (x.cap.getD 0)

theorem exec_chunkinit (x : ChunkinitF) (s : State) : exec (.chunkinit x) s = issue (mkForm x.q 31 (x.a :: r16Ops x.sz) [])
    (fun u => chunkCheck u x.gm fun _ => askHome u (chunkinitMsg x u) fun t _ => .ok t) s := rfl

theorem exec_getchunk (x : GetchunkF) (s : State) : exec (.getchunk x) s = issue (mkForm x.q 31 [] [x.d])
    (fun u => chunkCheck u x.gm fun _ => askHome u (getchunkMsg x u) fun t v => writeG t x.d v) s := rfl

/-- A head that asks its home for chunks for the first time waits for the reply. -/
theorem chunk_asks {i : Instr} {f : Form} {n : Fin 4} {msg : State → HubMsg} {k : State → Word → Act}
    (run : ∀ s, exec i s = issue f (fun u => chunkCheck u n fun _ => askHome u (msg u) k) s) {s : State} (issues : s.issues f)
    (ok : (s.took f).chunked n) (none : s.me.reply = none) (new : s.me.asked = false) : ∃ t,
      exec i s = .next t ∧ t.me.st = .wait ∧ t.me.wait = .reply ∧ t.me.asked = true ∧ t.me.r = s.me.r ∧
      (t.part (s.partNum s.cur.core)).ctx.hub = (s.part (s.partNum s.cur.core)).ctx.hub ++ [msg (s.took f)] := by
  refine ⟨_, ?_, finish_askHome k f.cls issues.1 (by rw [State.took_me, none] : (s.took f).me.reply = _) new⟩
  rw [run, issue_done _ issues, chunkCheck_ok ok]

theorem chunkinit_clauses (x : ChunkinitF) :
    let f := mkForm x.q 31 (x.a :: r16Ops x.sz) []
    Does (.chunkinit x) f (fun u => u.chunked x.gm ∧ ∃ v, u.me.reply = some (.value v)) id ∧
    Traps (.chunkinit x) f (fun u => ¬ u.chunked x.gm) 0x09 (fun _ => BitVec.ofNat 64 x.gm.val) := by
  refine ⟨does_of (exec_chunkinit x) ?_, traps_of (exec_chunkinit x) fun u _ bad => chunkCheck_trap bad _⟩
  rintro u - ⟨ok, v, reply⟩
  exact (chunkCheck_ok ok _).trans (askHome_reply _ reply)

theorem getchunk_puts (x : GetchunkF) (v : Word) :
    Puts (.getchunk x) (mkForm x.q 31 [] [x.d]) x.d (fun _ => v) (ok := fun u => u.chunked x.gm ∧ u.me.reply = some (.value v)) := by
  refine puts_of (exec_getchunk x) ?_
  rintro u - ⟨ok, reply⟩
  exact (chunkCheck_ok ok _).trans (askHome_reply _ reply)

/-- Settles O37: each instruction by what its body does on its operands, and the action of a tag by its contribution. -/
theorem tideInstructions : Obligations.TideInstructions := by
  refine ⟨fun s k sl n lanes hdr flag => ?_, tide_clauses, fun x s => tide_invalid, tidewait_clauses, tidewait_invalid,
    gmAfter_fields, tideq_clauses, ⟨fun x => ?_, fun x => ?_⟩,
    fun k i q m e l h fl s head live live' v out payload log => tideAction_next head live live' log v out payload⟩
  · obtain ⟨membership, hub⟩ := s.contribute_spec k sl n lanes hdr flag
    exact ⟨membership, _, hub, rfl, rfl, rfl, rfl, rfl, rfl⟩
  · obtain ⟨does, traps⟩ := chunkinit_clauses x
    refine ⟨does, traps, fun s issues ok none new => ?_⟩
    obtain ⟨t, run, st, wait, asked, r, hub⟩ := chunk_asks (exec_chunkinit x) issues ok none new
    exact ⟨t, run, st, wait, asked, r, by rw [hub, chunkinitMsg, State.took_me]; rfl⟩
  · refine ⟨getchunk_puts x, fun s issues ok none new => ?_⟩
    obtain ⟨t, run, st, wait, asked, r, hub⟩ := chunk_asks (exec_getchunk x) issues ok none new
    exact ⟨t, run, st, wait, asked, r, by rw [hub, getchunkMsg, State.took_me]; rfl⟩

end Sys2Proof.Machine
end

section
/-! PROOFS. The waking of a sleeping slot by WAKE and by a class 3 message (O29). -/

namespace Sys2Proof.Machine

/-! ### A head that retires at another core's event (R179) -/

theorem Core.setSlot_setSlot (c : Core) (n : Fin 4) (x y : Slot) : (c.setSlot n x).setSlot n y = c.setSlot n y := by
  simp [setSlot]

/-- Of the issuing core, retirement changes the slot and the counts. -/
theorem State.retireHead_core (s : State) (cls : Fin 32) (jump : Option Word) : ∃ r, (s.retireHead cls jump).core s.cur.core =
    { (s.core s.cur.core).setSlot s.cur.slot
        (s.me.stepTo (s.me.after s.cur.next jump).1 (s.me.after s.cur.next jump).2 (s.now + 1)) with regs := r } := by
  have me : ((s.charge s.cur.core s.cur.slot cls).count s.cur.core 2 (some s.cur.slot)).slot s.cur.core s.cur.slot = s.me := by
    rw [slot, count, charge, core_modCoreRegs, core_modCoreRegs]
    rfl
  simp only [retireHead, forward_core]
  split
  · simp only [count, core_modCoreRegs, core_modSlot, charge, State.slot]
    exact ⟨_, rfl⟩
  · simp only [count, core_modCoreRegs, core_modSlot, charge, State.slot]
    exact ⟨_, rfl⟩

/-- The slot that the WAITEV under which it sleeps leaves. -/
def State.woken (s : State) (k : CoreId) (sl : Fin 4) (to_ : Option Word) : Slot :=
  let w := (s.slot k sl).slept.getD (0x5000, 0, (s.slot k sl).pc)
  let x : Slot := { s.slot k sl with ev := false }
  x.stepTo (x.after w.2.2 to_).1 (x.after w.2.2 to_).2 (s.now + 1)

section
variable (s : State) (k : CoreId) (sl : Fin 4) (to_ : Option Word)

theorem State.wakeAt_core : ∃ r, (s.wakeAt k sl to_).core k = { (s.core k).setSlot sl (s.woken k sl to_) with regs := r } := by
  let w := (s.slot k sl).slept.getD (0x5000, 0, (s.slot k sl).pc)
  let u : State := { s.modSlot k sl fun x => { x with ev := false } with cur := ⟨k, sl, false, w.1, w.2.1, w.2.2⟩ }
  obtain ⟨r, eq⟩ := u.retireHead_core 1 to_
  have me : u.me = { s.slot k sl with ev := false } := s.slot_modSlot k sl fun x => { x with ev := false }
  have core : u.core k = (s.core k).setSlot sl { s.slot k sl with ev := false } :=
    s.core_modSlot k sl fun x => { x with ev := false }
  refine ⟨r, eq.trans ?_⟩
  rw [me, show u.core u.cur.core = _ from core]
  exact congrArg (fun c : Core => { c with regs := r }) (Core.setSlot_setSlot _ _ _ _)

theorem State.wakeAt_outside : s.Outside (s.wakeAt k sl to_) :=
  ⟨retireHead_gmem _ _ _, retireHead_parts _ _ _, retireHead_fields _ _ _⟩

theorem State.woken_fields : (s.woken k sl to_).ev = false ∧ (s.woken k sl to_).st = .ready ∧ (s.woken k sl to_).t = (s.slot k sl).t ∧
    (s.woken k sl to_).watch = (s.slot k sl).watch ∧ (s.woken k sl to_).deferred = (s.slot k sl).deferred ∧
    ∃ lc, (s.woken k sl to_).r = { (s.slot k sl).r with lc := lc } := by
  simp [State.woken]

end

/-- The slot goes on where it is sent. -/
theorem State.woken_pc (s : State) (k : CoreId) (sl : Fin 4) (pc : Word) : (s.woken k sl (some pc)).pc = pc := by
  simp [State.woken, Slot.after]

/-! ### Words in channels -/

/-- A word written to the channel of its number, where there is one. -/
def Regs.wrChanAt (r : Regs) (e : Word × Nat) : Regs := if e.2 < 8 then r.wrC (Fin.ofNat 8 e.2) e.1 else r

theorem Regs.wrChans_eq (r : Regs) (ws : List Word) : r.wrChans ws = ws.zipIdx.foldl wrChanAt r := rfl

theorem Regs.wrChanAt_rest (r : Regs) (e : Word × Nat) : r.wrChanAt e = { r with c := (r.wrChanAt e).c, pres := (r.wrChanAt e).pres } := by
  unfold wrChanAt
  split <;> rfl

theorem Regs.wrChanAt_spec (r : Regs) (e : Word × Nat) (j : Fin 8) :
    (r.wrChanAt e).c[j] = (if j.val = e.2 then e.1 else r.c[j]) ∧
    (r.wrChanAt e).pres.getLsbD j.val = (decide (j.val = e.2) || r.pres.getLsbD j.val) := by
  unfold wrChanAt
  split
  · next lt =>
    have same : j = Fin.ofNat 8 e.2 ↔ j.val = e.2 := by rw [Fin.ext_iff, Fin.val_ofNat, Nat.mod_eq_of_lt lt]
    rw [c_wrC, pres_wrC]
    by_cases h : j.val = e.2
    · simp only [if_pos (same.2 h), if_pos h, decide_eq_true h, Bool.true_or, and_self]
    · simp only [if_neg (mt same.1 h), if_neg h, decide_eq_false h, Bool.false_or, and_self]
  · next ge =>
    have other : ¬ j.val = e.2 := fun h => ge (h ▸ j.isLt)
    exact ⟨(if_neg other).symm, by rw [decide_eq_false other]; rfl⟩

/-- Only the channels and their presence have changed. -/
theorem Regs.wrChans_rest (r : Regs) (ws : List Word) :
    r.wrChans ws = { r with c := (r.wrChans ws).c, pres := (r.wrChans ws).pres } := by
  have step (l : List (Word × Nat)) (r : Regs) :
      l.foldl wrChanAt r = { r with c := (l.foldl wrChanAt r).c, pres := (l.foldl wrChanAt r).pres } := by
    induction l generalizing r with
    | nil => rfl
    | cons e l ih =>
      rw [List.foldl_cons, ih, wrChanAt_rest]
  rw [wrChans_eq]
  exact step _ r

/-- Each word stands in its channel, with presence; a channel without one is as it was. -/
theorem Regs.wrChans_spec (r : Regs) (ws : List Word) (j : Fin 8) :
    (r.wrChans ws).c[j] = (if j.val < ws.length then ws.getD j.val 0 else r.c[j]) ∧
    (r.wrChans ws).pres.getLsbD j.val = (decide (j.val < ws.length) || r.pres.getLsbD j.val) := by
  have step (l : List Word) (n : Nat) (r : Regs) :
      ((l.zipIdx n).foldl wrChanAt r).c[j] =
        (if n ≤ j.val ∧ j.val < n + l.length then l.getD (j.val - n) 0 else r.c[j]) ∧
      ((l.zipIdx n).foldl wrChanAt r).pres.getLsbD j.val =
        (decide (n ≤ j.val ∧ j.val < n + l.length) || r.pres.getLsbD j.val) := by
    induction l generalizing n r with
    | nil =>
      have no : ¬ (n ≤ j.val ∧ j.val < n + 0) := by omega
      exact ⟨(if_neg no).symm, by rw [List.length_nil, decide_eq_false no]; rfl⟩
    | cons w l ih =>
      obtain ⟨word, pres⟩ := ih (n + 1) (r.wrChanAt (w, n))
      obtain ⟨word', pres'⟩ := r.wrChanAt_spec (w, n) j
      rw [List.zipIdx_cons, List.foldl_cons, word, pres, word', pres']
      by_cases here : j.val = n
      · simp [here]
      · have range : (n + 1 ≤ j.val ∧ j.val < n + 1 + l.length) ↔ (n ≤ j.val ∧ j.val < n + (w :: l).length) := by
          rw [List.length_cons]
          omega
        simp only [range, if_neg here, decide_eq_false here, Bool.false_or, and_true]
        split
        · rw [show j.val - n = j.val - (n + 1) + 1 by omega, List.getD_cons_succ]
        · rfl
  have whole := step ws 0 r
  simp only [Nat.zero_le, true_and, Nat.zero_add, Nat.sub_zero] at whole
  exact whole

/-! ### WAKE (R72, R73) -/

/-- A slot woken at a line, with the first words of a payload in its channels. -/
def State.startAt (s : State) (k : CoreId) (sl : Fin 4) (to_ : Option Word) (ws : List Word) : State :=
  (s.wakeAt k sl to_).modRegs k sl fun r => r.wrChans ws

/-- A payload of more than eight words sets ERR. -/
def State.longErr (s : State) (k : CoreId) (m : Msg) : State :=
  if 8 < m.payload.length then s.modCore k fun c => c.tagErr m.tag else s

/-- The line that a WAKE entry names, in a frame with this tag. -/
def wakeLine (e : Word) (tag : BitVec 49) : Word := 0#4 ++ tag ++ e.extractLsb' 4 5 ++ 0#1 ++ e.extractLsb' 9 5

theorem wake_next {k : CoreId} {i : Nat} {q : Fin 4} {m : Msg} {e : Word} {tag : BitVec 49} {s : State}
    (head : s.tagHead k i 5 = some (q, m, e)) (run : s.phaseOf k = .run) (sleep : (s.slot k (tagSlot e)).st = .sleep)
    (ev : (s.slot k (tagSlot e)).ev = false) :
    (s.unlogged k → (s.core k).mem.frames[e.toNat % 16].tag = some tag → exec (.wake k i) s =
      .next (((((s.startAt k (tagSlot e) (some (wakeLine e tag)) (m.payload.take 8)).longErr k m).popArr k q).tagSignal k (tagSlot e)
        (tagSigen e) (tagSem e)).stepStop k (tagSlot e))) ∧
    (s.unlogged k → (s.core k).mem.frames[e.toNat % 16].tag = none → exec (.wake k i) s = .next (s.discard k q m.tag)) := by
  have frame : (s.core k).mem.frames[(e.extractLsb' 0 4).toFin] = (s.core k).mem.frames[e.toNat % 16] := rfl
  have live : ¬ ((s.slot k (tagSlot e)).st = .empty ∨ (s.slot k (tagSlot e)).st = .halting) := by simp [sleep]
  have asleep : ¬ ((s.slot k (tagSlot e)).st ≠ .sleep ∨ (s.slot k (tagSlot e)).ev = true ∨ s.phaseOf k ≠ .run) := by
    simp [sleep, ev, run]
  rw [show exec (.wake k i) s = execWake k i s from rfl]
  refine ⟨fun log tagged => ?_, fun log untagged => ?_⟩
  · simp only [execWake, head, if_neg live, if_neg asleep, frame, tagged, State.orderTag, State.orderAt_unlogged log]
    rfl
  · simp only [execWake, head, if_neg live, if_neg asleep, frame, untagged, State.orderTag, State.orderAt_unlogged log]
    rfl

section
variable (s : State) (k : CoreId) (sl : Fin 4) (to_ : Option Word) (ws : List Word)

/-- The slot that has been started. -/
def State.wokenWith (s : State) (k : CoreId) (sl : Fin 4) (to_ : Option Word) (ws : List Word) : Slot :=
  { s.woken k sl to_ with r := (s.woken k sl to_).r.wrChans ws }

theorem State.startAt_core : ∃ r, (s.startAt k sl to_ ws).core k =
    { (s.core k).setSlot sl (s.wokenWith k sl to_ ws) with regs := r } := by
  obtain ⟨r, eq⟩ := s.wakeAt_core k sl to_
  refine ⟨r, ?_⟩
  have slot : (s.wakeAt k sl to_).slot k sl = s.woken k sl to_ := by
    rw [slot, eq]
    exact Core.slot_setSlot _ _ _
  have core := (s.wakeAt k sl to_).core_modSlot k sl fun x => { x with r := x.r.wrChans ws }
  rw [slot, eq] at core
  exact core.trans (congrArg (fun c : Core => { c with regs := r }) (Core.setSlot_setSlot _ _ _ _))

theorem State.startAt_outside : s.Outside (s.startAt k sl to_ ws) :=
  (s.wakeAt_outside k sl to_).trans ⟨modRegs_gmem _ _ _ _, modRegs_parts _ _ _ _, modRegs_fields _ _ _ _⟩

theorem State.longErr_outside (m : Msg) : s.Outside (s.longErr k m) := by
  unfold longErr
  split <;> exact ⟨rfl, rfl, rfl⟩

theorem State.longErr_discarded (m : Msg) : (s.core k).Discarded ((s.longErr k m).core k) ∧
    ((s.longErr k m).core k).arr = (s.core k).arr ∧
    (8 < m.payload.length → ((s.longErr k m).core k).mem.tags[m.tag.toFin].word.getLsbD 58 = true) := by
  by_cases long : 8 < m.payload.length
  · have core : (s.longErr k m).core k = (s.core k).tagErr m.tag := by rw [longErr, if_pos long, core_modCore]
    simp only [core]
    exact ⟨Core.tagErr_discarded _ _, rfl, fun _ => Core.tagErr_err _ _⟩
  · have core : s.longErr k m = s := if_neg long
    simp only [core]
    exact ⟨.refl _, trivial, fun h => absurd h long⟩

/-- The registers of a slot that has been started: the words in its channels, and its loop counters. -/
theorem State.wokenWith_regs : (s.wokenWith k sl to_ ws).r.g = (s.slot k sl).r.g ∧ (s.wokenWith k sl to_ ws).r.v = (s.slot k sl).r.v ∧
    ∀ j : Fin 8,
      (s.wokenWith k sl to_ ws).r.c[j] = (if j.val < ws.length then ws.getD j.val 0 else (s.slot k sl).r.c[j]) ∧
      (s.wokenWith k sl to_ ws).r.pres.getLsbD j.val = (decide (j.val < ws.length) || (s.slot k sl).r.pres.getLsbD j.val) := by
  obtain ⟨-, -, -, -, -, lc, regs⟩ := s.woken_fields k sl to_
  have rest := (s.woken k sl to_).r.wrChans_rest ws
  refine ⟨?_, ?_, fun j => ?_⟩
  · rw [wokenWith, rest, regs]
  · rw [wokenWith, rest, regs]
  · have spec := (s.woken k sl to_).r.wrChans_spec ws j
    rw [regs] at spec
    rw [wokenWith, regs]
    exact spec

end

/-- An element of the first ones of a list. -/
theorem getD_take {α : Type} {l : List α} {n j : Nat} {d : α} (h : j < n) : (l.take n).getD j d = l.getD j d := by
  rw [List.getD_eq_getElem?_getD, List.getD_eq_getElem?_getD, List.getElem?_take_of_lt h]

/-- A slot started by WAKE, its message gone and its semaphore signalled, before any step stop. -/
def State.waken (s : State) (k : CoreId) (q : Fin 4) (m : Msg) (e : Word) (tag : BitVec 49) : State :=
  (((s.startAt k (tagSlot e) (some (wakeLine e tag)) (m.payload.take 8)).longErr k m).popArr k q).tagSignal k (tagSlot e)
    (tagSigen e) (tagSem e)

section
variable (s : State) (k : CoreId) (q : Fin 4) (m : Msg) (e : Word) (tag : BitVec 49)

theorem State.waken_outside : s.Outside (s.waken k q m e tag) :=
  (((s.startAt_outside k _ _ _).trans (longErr_outside _ k m)).trans (popArr_outside _ k q)).trans (tagSignal_outside _ _ _ _ _)

/-- The core of a slot started by WAKE: what the start, the message that leaves and the signal have each changed. -/
theorem State.waken_core : ∃ c : Core,
    (∃ r, ({ (s.core k).setSlot (tagSlot e) (s.wokenWith k (tagSlot e) (some (wakeLine e tag)) (m.payload.take 8)) with
      regs := r } : Core).Discarded c) ∧
    c.SlotFrame Slot.Reached ((s.waken k q m e tag).core k) ∧
    (8 < m.payload.length → c.mem.tags[m.tag.toFin].word.getLsbD 58 = true) ∧
    ((s.core k).settled ((s.core k).popped q) → c.arr = (s.core k).popped q) ∧
    (tagSigen e = false ∨ 65535 < c.mem.sem[(tagSem e).toFin].toNat + 1 →
      ((s.waken k q m e tag).core k).mem.sem = c.mem.sem) ∧
    (tagSigen e = true → c.mem.sem[(tagSem e).toFin].toNat + 1 ≤ 65535 → ((s.waken k q m e tag).core k).mem.sem =
      c.mem.sem.set (tagSem e).toFin (BitVec.ofNat 16 (c.mem.sem[(tagSem e).toFin].toNat + 1))) ∧
    (tagSigen e = true → 65535 < c.mem.sem[(tagSem e).toFin].toNat + 1 → (c.slot (tagSlot e)).st = .ready →
      ((s.waken k q m e tag).slot k (tagSlot e)).deferred = addDeferredTo (c.slot (tagSlot e)).deferred
        ⟨0x0E, (tagSem e).setWidth 64, false, false⟩) := by
  obtain ⟨r, start⟩ := s.startAt_core k (tagSlot e) (some (wakeLine e tag)) (m.payload.take 8)
  obtain ⟨long, arr, err⟩ := (s.startAt k (tagSlot e) (some (wakeLine e tag)) (m.payload.take 8)).longErr_discarded k m
  rw [start] at long arr
  simp only [waken]
  generalize (s.startAt k (tagSlot e) (some (wakeLine e tag)) (m.payload.take 8)).longErr k m = u at long arr err
  have popped : (u.core k).popped q = (s.core k).popped q := by
    rw [Core.popped, arr]
    rfl
  refine ⟨(u.popArr k q).core k, ⟨r, long.trans (u.popArr_discarded k q)⟩, tagSignal_reached _ _ _ _ _,
    fun h => ((u.popArr_discarded k q).words _).err (err h), fun settled => ?_, ?_, fun on fits => ?_, fun on past ready => ?_⟩
  · have settled' : (u.core k).settled ((u.core k).popped q) := by
      rw [popped]
      exact long.settled settled
    rw [popArr_settled settled', popped]
  · rintro (off | past)
    · rw [tagSignal_off _ _ _ off]
    · cases hs : tagSigen e with
      | false => rw [tagSignal_off _ _ _ rfl]
      | true => rw [tagSignal_overflows _ _ _ rfl past, (defer_reached _ _ _ _ _ _).2]
  · rw [tagSignal_counts _ _ _ on fits, core_setCore, Core.setSem_sem]
  · obtain ⟨ds, r', i, eq, live⟩ := (u.popArr k q).defer_core k (tagSlot e) 0x0E ((tagSem e).setWidth 64) false
    have st : ((u.popArr k q).slot k (tagSlot e)).st = .ready := ready
    rw [tagSignal_overflows _ _ _ on past, slot, eq]
    exact (congrArg Slot.deferred (Core.slot_setSlot _ _ _)).trans (live (by simp [st]) (by simp [st]))

end

/-- A slot started by WAKE goes on at its line with the payload's words, its signal made, and no step stop changes them. -/
theorem wake_clause (k : CoreId) (i : Nat) (q : Fin 4) (m : Msg) (e : Word) (tag : BitVec 49) (s : State)
    (head : s.tagHead k i 5 = some (q, m, e)) (run : s.phaseOf k = .run) (sleep : (s.slot k (tagSlot e)).st = .sleep)
    (ev : (s.slot k (tagSlot e)).ev = false) (log : s.unlogged k)
    (frame : (s.core k).mem.frames[e.toNat % 16].tag = some tag) :
    let sum := (s.core k).mem.sem[(tagSem e).toFin].toNat + 1
    let arr := (s.core k).arr.set q ((s.core k).arr[q].drop 1)
    ∃ t, exec (.wake k i) s = .next t ∧
      let x := t.slot k (tagSlot e)
      x.ev = false ∧ x.pc = 0#4 ++ tag ++ e.extractLsb' 4 5 ++ 0#1 ++ e.extractLsb' 9 5 ∧ (s.stopless k → x.st = .ready) ∧
      (∀ j : Fin 8, x.r.c[j] = (if j.val < m.payload.length then m.payload.getD j.val 0 else (s.slot k (tagSlot e)).r.c[j]) ∧
        x.r.pres.getLsbD j.val = (decide (j.val < m.payload.length) || (s.slot k (tagSlot e)).r.pres.getLsbD j.val)) ∧
      x.r.g = (s.slot k (tagSlot e)).r.g ∧ x.r.v = (s.slot k (tagSlot e)).r.v ∧
      (8 < m.payload.length → (t.core k).mem.tags[m.tag.toFin].word.getLsbD 58 = true) ∧
      (tagSigen e = false ∨ 65535 < sum → (t.core k).mem.sem = (s.core k).mem.sem) ∧
      (tagSigen e = true → sum ≤ 65535 → (t.core k).mem.sem = (s.core k).mem.sem.set (tagSem e).toFin (BitVec.ofNat 16 sum)) ∧
      (tagSigen e = true → 65535 < sum → x.deferred = addDeferredTo (s.slot k (tagSlot e)).deferred
        ⟨0x0E, (tagSem e).setWidth 64, false, false⟩) ∧
      ((s.core k).settled arr → (t.core k).arr = arr) ∧ (t.core k).mem.sram = (s.core k).mem.sram ∧ t.gmem = s.gmem := by
  intro sum arr
  obtain ⟨c, ⟨r, left⟩, signal, err, settled, same, counts, overflows⟩ := s.waken_core k q m e tag
  have out := s.waken_outside k q m e tag
  obtain ⟨stop, stopSem⟩ := (s.waken k q m e tag).stepStop_quiet k (tagSlot e)
  have slot : c.slot (tagSlot e) = s.wokenWith k (tagSlot e) (some (wakeLine e tag)) (m.payload.take 8) :=
    (left.slot _).trans (Core.slot_setSlot _ _ _)
  obtain ⟨ev', st', -, -, deferred', -⟩ := s.woken_fields k (tagSlot e) (some (wakeLine e tag))
  obtain ⟨g', v', channels⟩ := s.wokenWith_regs k (tagSlot e) (some (wakeLine e tag)) (m.payload.take 8)
  have reached := (signal.slots (tagSlot e)).rest
  rw [slot] at reached overflows
  have quiet := stop.slots (tagSlot e)
  have sem : c.mem.sem = (s.core k).mem.sem := left.sem
  rw [sem] at same counts overflows
  have regs : (((s.waken k q m e tag).stepStop k (tagSlot e)).slot k (tagSlot e)).r =
      (s.wokenWith k (tagSlot e) (some (wakeLine e tag)) (m.payload.take 8)).r := quiet.r.trans (congrArg Slot.r reached :)
  refine ⟨_, (wake_next head run sleep ev).1 log frame, quiet.ev.trans ((congrArg Slot.ev reached :).trans ev'),
    quiet.pc.trans ((congrArg Slot.pc reached :).trans (s.woken_pc k _ _)), fun stopless => ?_, fun j => ?_, ?_, ?_, fun long => ?_,
    fun off => stopSem.trans (same off), fun on fits => stopSem.trans (counts on fits), fun on past => ?_, fun h => ?_, ?_, ?_⟩
  · rw [← State.waken, State.stepStop_stopless (out.stopless k stopless)]
    exact (congrArg Slot.st reached :).trans st'
  · have j8 : j.val < (m.payload.take 8).length ↔ j.val < m.payload.length := by
      rw [List.length_take]
      omega
    have spec := channels j
    rw [getD_take j.isLt] at spec
    simp only [j8] at spec
    rw [← State.waken, regs]
    exact spec
  · rw [← State.waken, regs, g']
  · rw [← State.waken, regs, v']
  · exact (congrArg (fun tags => (tags[m.tag.toFin]).word.getLsbD 58) (stop.tags.trans signal.tags)).trans (err long)
  · exact quiet.deferred.trans ((overflows on past st').trans (by rw [← deferred']; rfl))
  · exact (stop.arr.trans signal.arr).trans (settled h)
  · exact (stop.sram.trans signal.sram).trans left.sram
  · exact (out.trans (State.stepStop_outside _ _ _)).gmem

/-! ### A class 3 message (R299), and the watches that it ends (R119) -/

/-- A slot whose watch ends with SYSMSG where it is armed and the order log leaves it to do so. -/
def Slot.sysEnded (x : Slot) (free : Bool) : Slot :=
  if x.watch.armed && free then { x with ev := true, watch := { x.watch with armed := false, ended := some 5 } } else x

theorem Slot.sysEnded_rest (x : Slot) (free : Bool) : x.sysEnded free = { x with ev := (x.sysEnded free).ev, watch := (x.sysEnded free).watch } := by
  unfold sysEnded
  split <;> rfl

theorem State.endWatch_sys (s : State) (k : CoreId) (n : Fin 4) :
    (s.endWatch k n 5).core k = (s.core k).setSlot n ((s.slot k n).sysEnded (s.logMode k != 2)) ∧ s.Outside (s.endWatch k n 5) := by
  unfold endWatch Slot.sysEnded
  by_cases h : ((s.slot k n).watch.armed && (s.logMode k != 2)) = true
  · rw [if_pos (by simpa using h), if_pos h]
    exact ⟨s.core_modSlot k n fun x => { x with ev := true, watch := { x.watch with armed := false, ended := some 5 } }, ⟨rfl, rfl, rfl⟩⟩
  · rw [if_neg (by simpa using h), if_neg h]
    exact ⟨((s.core k).setSlot_self n).symm, .refl s⟩

/-- The watches of a core end, each slot's as its own arming says. -/
theorem State.sysWatches_spec (s : State) (k : CoreId) :
    (s.core k).SlotFrame (fun x y => y = x.sysEnded (s.logMode k != 2)) ((s.sysWatches k).core k) ∧ s.Outside (s.sysWatches k) := by
  have step (l : List (Fin 4)) (once : l.Nodup) (s : State) : let t := l.foldl (fun s n => s.endWatch k n 5) s
      (t.core k = { s.core k with slots := (t.core k).slots }) ∧ s.Outside t ∧
      ∀ n, t.slot k n = if n ∈ l then (s.slot k n).sysEnded (s.logMode k != 2) else s.slot k n := by
    induction l generalizing s with
    | nil => exact ⟨rfl, .refl s, fun n => by simp⟩
    | cons m l ih =>
      obtain ⟨notin, once⟩ := List.nodup_cons.1 once
      obtain ⟨core, out⟩ := s.endWatch_sys k m
      obtain ⟨rest, out', slots⟩ := ih once (s.endWatch k m 5)
      refine ⟨?_, out.trans out', fun n => ?_⟩
      · rw [List.foldl_cons, rest, core]
        rfl
      · rw [List.foldl_cons, slots, out.logMode, State.slot, core]
        by_cases hn : n = m
        · subst hn
          rw [Core.slot_setSlot, if_neg notin, if_pos List.mem_cons_self]
        · rw [Core.slot_setSlot_ne _ _ _ _ hn]
          simp only [List.mem_cons, hn, false_or]
          rfl
  obtain ⟨rest, out, slots⟩ := step (List.finRange 4) (List.nodup_finRange 4) s
  refine ⟨⟨?_, fun n => (slots n).trans (if_pos (List.mem_finRange n))⟩, out⟩
  rw [sysWatches, rest]

/-- Without its head, the queue of class 3 is the rest. -/
theorem State.popArr_three {s : State} {k : CoreId} {m : Msg} {l : List Msg} (h : (s.core k).arr[(3 : Fin 4)] = m :: l) :
    ((s.popArr k 3).core k).arr[(3 : Fin 4)] = l := by
  rw [popArr_core, Core.settle_arr_three]
  exact (getElem_set_fin _ 3 3 _).trans ((if_pos rfl).trans (by rw [h]; rfl))

/-- What a class 3 message leaves in its slot, whose word 1 is `w1`: cause, argument, the slot named, the head that slept, and
where the slot goes on. -/
def Slot.noticed (x : Slot) (m : Msg) : Slot :=
  let sys := m.kind == .sysmsg
  let w1 := m.payload.getD 1 0
  { x with t := { x.t with
             tcause := if sys then 0x25 else (w1.extractLsb' 0 8).setWidth 64,
             taddr := if sys then m.src.setWidth 64 else m.payload.getD 2 0,
             tsel := if sys || m.payload.getD 0 0 == 0 then 0 else 0#32 ++ 1#1 ++ 0#8 ++ w1.extractLsb' 16 23,
             tpc := x.pc },
           pc := if x.t.tvec.getLsbD 63 then x.t.tvec &&& ~~~(1#64 <<< 63) else x.pc }

theorem Slot.noticed_t (x : Slot) (m : Msg) :
    (x.noticed m).t.tcause = (if m.kind = .sysmsg then 0x25 else ((m.payload.getD 1 0).extractLsb' 0 8).setWidth 64) ∧
    (x.noticed m).t.taddr = (if m.kind = .sysmsg then m.src.setWidth 64 else m.payload.getD 2 0) ∧
    (x.noticed m).t.tsel = (if m.kind = .sysmsg ∨ m.payload.getD 0 0 = 0 then 0
      else 0#32 ++ 1#1 ++ 0#8 ++ (m.payload.getD 1 0).extractLsb' 16 23) := by
  simp only [noticed, beq_iff_eq, Bool.or_eq_true, and_self]

/-- A slot that a class 3 message has woken, before any step stop. -/
def State.noticeTaken (s : State) (k : CoreId) (sl : Fin 4) (m : Msg) : State :=
  (s.startAt k sl none (m.payload.take 4)).modSlot k sl fun x => x.noticed m

theorem State.takeNotice_eq (s : State) (k : CoreId) (sl : Fin 4) (m : Msg) :
    s.takeNotice k sl m = (s.noticeTaken k sl m).stepStop k sl := rfl

section
variable (s : State) (k : CoreId) (sl : Fin 4) (m : Msg)

theorem State.noticeTaken_core : ∃ r, (s.noticeTaken k sl m).core k =
    { (s.core k).setSlot sl ((s.wokenWith k sl none (m.payload.take 4)).noticed m) with regs := r } := by
  obtain ⟨r, eq⟩ := s.startAt_core k sl none (m.payload.take 4)
  have core := (s.startAt k sl none (m.payload.take 4)).core_modSlot k sl fun x => x.noticed m
  have slot : (s.startAt k sl none (m.payload.take 4)).slot k sl = s.wokenWith k sl none (m.payload.take 4) := by
    rw [slot, eq]
    exact Core.slot_setSlot _ _ _
  rw [slot, eq] at core
  exact ⟨r, core.trans (congrArg (fun c : Core => { c with regs := r }) (Core.setSlot_setSlot _ _ _ _))⟩

theorem State.noticeTaken_outside : s.Outside (s.noticeTaken k sl m) :=
  (s.startAt_outside k sl none _).trans ⟨modSlot_gmem _ _ _ _, modSlot_parts _ _ _ _, modSlot_fields _ _ _ _⟩

/-- A class 3 message taken: it is gone, and its slot is as `noticed` says but for its watch and EV. -/
theorem State.sysmsgTaken_spec {l : List Msg} (h : (s.core k).arr[(3 : Fin 4)] = m :: l) :
    let x := (s.wokenWith k sl none (m.payload.take 4)).noticed m
    let t := ((s.takeNotice k sl m).sysWatches k).popArr k 3
    (t.core k).arr[(3 : Fin 4)] = l ∧ t.gmem = s.gmem ∧
    ∃ y : Fin 4 → Slot, (∀ n, t.slot k n = (y n).sysEnded (s.logMode k != 2)) ∧ x.Quiet (y sl) ∧
      (∀ n, (y n).watch = (s.slot k n).watch) ∧ (s.stopless k → y sl = x) := by
  intro x t
  obtain ⟨r, core⟩ := s.noticeTaken_core k sl m
  have out := s.noticeTaken_outside k sl m
  obtain ⟨stop, -⟩ := (s.noticeTaken k sl m).stepStop_quiet k sl
  have stopOut := (s.noticeTaken k sl m).stepStop_outside k sl
  obtain ⟨watches, watchOut⟩ := (s.takeNotice k sl m).sysWatches_spec k
  have left := ((s.takeNotice k sl m).sysWatches k).popArr_discarded k 3
  rw [State.takeNotice_eq] at watches watchOut left
  have slot : (s.noticeTaken k sl m).slot k sl = x := by
    rw [State.slot, core]
    exact Core.slot_setSlot _ _ _
  have arr : (((s.noticeTaken k sl m).stepStop k sl).sysWatches k |>.core k).arr = (s.core k).arr := by
    rw [watches.arr, stop.arr, core]
    rfl
  refine ⟨State.popArr_three (m := m) (by rw [State.takeNotice_eq, arr, h]), ?_,
    fun n => ((s.noticeTaken k sl m).stepStop k sl).slot k n, fun n => ?_, slot ▸ stop.slots sl, fun n => ?_, fun stopless => ?_⟩
  · exact (((out.trans stopOut).trans watchOut).trans (popArr_outside _ _ _)).gmem
  · rw [← (out.trans stopOut).logMode k]
    exact (left.slot n).trans (watches.slots n)
  · refine (stop.slots n).watch.trans ?_
    rw [core]
    by_cases hn : n = sl
    · subst hn
      obtain ⟨-, -, -, watch, -⟩ := s.woken_fields k n none
      exact (congrArg Slot.watch (Core.slot_setSlot _ _ _)).trans watch
    · exact congrArg Slot.watch (Core.slot_setSlot_ne _ _ _ _ hn)
  · rw [← slot, State.stepStop_stopless (out.stopless k stopless)]

end

theorem wake_waits {k : CoreId} {i : Nat} {q : Fin 4} {m : Msg} {e : Word} {s : State}
    (head : s.tagHead k i 5 = some (q, m, e)) (sleep : (s.slot k (tagSlot e)).st = .sleep)
    (ev : (s.slot k (tagSlot e)).ev = true) : exec (.wake k i) s = .next s := by
  rw [show exec (.wake k i) s = execWake k i s from rfl]
  simp [execWake, head, sleep, ev, event]

section
variable {k : CoreId} {m : Msg} {l : List Msg} {s : State} (run : s.phaseOf k = .run)
  (queue : (s.core k).arr[(3 : Fin 4)] = m :: l)
include run queue

theorem sysmsg_discards (none_ : ∀ sl, s.slotOf k m = some sl → supvOf (s.slot k sl) = false) :
    exec (.sysmsg k 3) s = .next (s.popArr k 3) := by
  have queue' : (s.core k).arr[3] = m :: l := queue
  rw [show exec (.sysmsg k 3) s = execSysmsg k 3 s from rfl]
  cases found : s.slotOf k m with
  | none => simp [execSysmsg, run, queue', found, event]
  | some sl => simp [execSysmsg, run, queue', found, none_ sl found, event]

theorem sysmsg_wakes {sl : Fin 4} (found : s.slotOf k m = some sl) (supv : supvOf (s.slot k sl) = true)
    (sleep : (s.slot k sl).st = .sleep) :
    ((s.slot k sl).ev = true → exec (.sysmsg k 3) s = .next s) ∧
    ((s.slot k sl).ev = false → exec (.sysmsg k 3) s = .next (((s.takeNotice k sl m).sysWatches k).popArr k 3)) := by
  have queue' : (s.core k).arr[3] = m :: l := queue
  rw [show exec (.sysmsg k 3) s = execSysmsg k 3 s from rfl]
  exact ⟨fun ev => by simp [execSysmsg, run, queue', found, supv, sleep, ev, event],
    fun ev => by simp [execSysmsg, run, queue', found, supv, sleep, ev, event]⟩

end

theorem Slot.sysEnded_armed {x : Slot} (h : x.watch.armed = true) : (x.sysEnded true).watch.armed = false ∧
    (x.sysEnded true).watch.ended = some 5 ∧ (x.sysEnded true).ev = true := by
  simp [sysEnded, h]

theorem Slot.sysEnded_idle {x : Slot} (h : x.watch.armed = false) (free : Bool) : x.sysEnded free = x := by
  simp [sysEnded, h]

/-- A supervisor slot that a class 3 message wakes (R299). -/
theorem sysmsg_clause (k : CoreId) (m : Msg) (l : List Msg) (sl : Fin 4) (s : State) (run : s.phaseOf k = .run)
    (queue : (s.core k).arr[(3 : Fin 4)] = m :: l) (found : s.slotOf k m = some sl) (supv : supvOf (s.slot k sl) = true)
    (sleep : (s.slot k sl).st = .sleep) (ev : (s.slot k sl).ev = false) :
    let w1 := m.payload.getD 1 0
    ∃ t, exec (.sysmsg k 3) s = .next t ∧ (t.core k).arr[(3 : Fin 4)] = l ∧ t.gmem = s.gmem ∧
      let x := t.slot k sl
      (∀ j : Fin 8, j.val < 4 → j.val < m.payload.length → x.r.c[j] = m.payload.getD j.val 0 ∧ x.r.pres.getLsbD j.val = true) ∧
      ((s.slot k sl).t.tvec.getLsbD 63 = true → x.pc = (s.slot k sl).t.tvec &&& ~~~(1#64 <<< 63)) ∧
      ((s.slot k sl).watch.armed = false → x.ev = false) ∧
      (s.unlogged k → ∀ n, (s.slot k n).watch.armed = true →
        (t.slot k n).watch.armed = false ∧ (t.slot k n).watch.ended = some 5 ∧ (t.slot k n).ev = true) ∧
      (s.stopless k → x.st = .ready ∧
        x.t.tcause = (if m.kind = .sysmsg then 0x25 else (w1.extractLsb' 0 8).setWidth 64) ∧
        x.t.taddr = (if m.kind = .sysmsg then m.src.setWidth 64 else m.payload.getD 2 0) ∧
        x.t.tsel = (if m.kind = .sysmsg ∨ m.payload.getD 0 0 = 0 then 0 else 0#32 ++ 1#1 ++ 0#8 ++ w1.extractLsb' 16 23)) := by
  intro w1
  obtain ⟨arr, gmem, y, slots, quiet, watch, undisturbed⟩ := s.sysmsgTaken_spec k sl m queue
  obtain ⟨ev', st', t', -, -, -⟩ := s.woken_fields k sl none
  obtain ⟨-, -, channels⟩ := s.wokenWith_regs k sl none (m.payload.take 4)
  have ended := (y sl).sysEnded_rest (s.logMode k != 2)
  refine ⟨_, (sysmsg_wakes run queue found supv sleep).2 ev, arr, gmem, fun j j4 jl => ?_, fun tvec => ?_, fun idle => ?_,
    fun log n armed => ?_, fun stopless => ?_⟩
  · have r : ((y sl).sysEnded (s.logMode k != 2)).r = (s.wokenWith k sl none (m.payload.take 4)).r :=
      (congrArg Slot.r ended :).trans quiet.r
    have lt : j.val < (m.payload.take 4).length := by
      rw [List.length_take]
      omega
    obtain ⟨word, pres⟩ := channels j
    rw [if_pos lt, getD_take j4] at word
    rw [slots, r]
    exact ⟨word, by rw [pres, decide_eq_true lt, Bool.true_or]⟩
  · have pc : ((y sl).sysEnded (s.logMode k != 2)).pc = ((s.wokenWith k sl none (m.payload.take 4)).noticed m).pc :=
      (congrArg Slot.pc ended :).trans quiet.pc
    have vec : (s.wokenWith k sl none (m.payload.take 4)).t = (s.slot k sl).t := t'
    rw [slots, pc, Slot.noticed, vec, if_pos tvec]
  · have unarmed : (y sl).watch.armed = false := by rw [watch, idle]
    rw [slots, Slot.sysEnded_idle unarmed]
    exact quiet.ev.trans ev'
  · have free : (s.logMode k != 2) = true := by rw [State.logMode_unlogged log]; rfl
    rw [slots, free]
    exact Slot.sysEnded_armed (by rw [watch, armed])
  · obtain ⟨tcause, taddr, tsel⟩ := (s.wokenWith k sl none (m.payload.take 4)).noticed_t m
    have st : ((y sl).sysEnded (s.logMode k != 2)).st = (y sl).st := (congrArg Slot.st ended :)
    have traps : ((y sl).sysEnded (s.logMode k != 2)).t = (y sl).t := (congrArg Slot.t ended :)
    rw [slots, st, traps, undisturbed stopless]
    exact ⟨st', tcause, taddr, tsel⟩

/-- Settles O29: WAKE and class 3 by what the start of a slot, the message that leaves, the signal, the watches and a step stop
each leave. -/
theorem wakingASlot : Obligations.WakingASlot := by
  refine ⟨wake_clause, fun k i q m e s head run sleep => ⟨wake_waits head sleep, fun ev log untagged => ?_⟩,
    fun k m l sl s run queue found supv sleep => ⟨(sysmsg_wakes run queue found supv sleep).1,
      sysmsg_clause k m l sl s run queue found supv sleep⟩, fun k m l s run queue none_ => ?_⟩
  · exact ⟨_, (wake_next (tag := 0) head run sleep ev).2 log untagged, s.discard_err k q m.tag, (s.discard_discarded k q m.tag).slot⟩
  · exact ⟨_, sysmsg_discards run queue none_, State.popArr_three queue, (s.popArr_discarded k 3).slot⟩

end Sys2Proof.Machine
end

section
/-! PROOFS. The actions of tags: DELIVER, DEPOSIT and INLINE (O28). -/

namespace Sys2Proof.Machine

/-! ### Completion, and stores in SRAM -/

/-- A tag's action completes (R71, R178): its slot has its event, and of SRAM, the registers and the tags only an ERR has changed. -/
theorem State.tagFinish_spec (s : State) (k : CoreId) (q : Fin 4) (e : Word) :
    let t := s.tagFinish k q e
    s.Outside t ∧ (t.slot k (tagSlot e)).ev = true ∧ (∀ n, (t.slot k n).r = (s.slot k n).r) ∧
    (t.core k).mem.sram = (s.core k).mem.sram ∧ (t.core k).mem.full = (s.core k).mem.full ∧
    ∀ g : Fin 64, ErrSet (s.core k).mem.tags[g].word (t.core k).mem.tags[g].word := by
  have left := s.popArr_discarded k q
  obtain ⟨done, ev⟩ := (s.popArr k q).tagDone_signalled k (tagSlot e) (tagSigen e) (tagSem e)
  refine ⟨(s.popArr_outside k q).trans (tagDone_outside _ _ _ _ _), ev, fun n => (done.slots n).r.trans (congrArg Slot.r (left.slot n)),
    done.sram.trans left.sram, done.full.trans left.full, fun g => ?_⟩
  rw [tagFinish, done.tags]
  exact left.words g

/-- Of a core, only what is known of its memories' errors has changed, with what counts them. -/
structure Core.Rechecked (c d : Core) : Prop where
  rest : d = { c with regs := d.regs }

theorem Core.Rechecked.trans {c d e : Core} (h : c.Rechecked d) (h' : d.Rechecked e) : c.Rechecked e := ⟨by rw [h'.rest, h.rest]⟩

theorem Core.correct_rechecked (c : Core) (o n : Nat) (sl : Option (Fin 4)) : c.Rechecked (c.correct o n sl) := by
  unfold correct
  split <;> exact ⟨rfl⟩

theorem Core.storing_rechecked (c : Core) (o n : Nat) (sl : Option (Fin 4)) : c.Rechecked (c.storing o n sl) := by
  have overwrite : c.Rechecked (c.overwrite o n) := by
    unfold Core.overwrite
    split <;> exact ⟨rfl⟩
  have read := overwrite.trans (correct_rechecked _ o n sl)
  simp only [storing]
  split
  · exact read.trans ⟨rfl⟩
  · exact read

/-- A store changes SRAM and what is known of its errors. -/
theorem State.sramPut_core (s : State) (k : CoreId) (o n v : Nat) (sl : Option (Fin 4)) : ∃ r, (s.sramPut k o n v sl).core k =
    { s.core k with regs := r, mem := { (s.core k).mem with sram := (s.core k).mem.sram.writeLE o n v } } := by
  refine ⟨((s.core k).storing o n sl).regs, ?_⟩
  rw [sramPut, core_modCore, ((s.core k).storing_rechecked o n sl).rest]

theorem State.setFull_core (s : State) (k : CoreId) (g n : Nat) (b : Bool) : (s.setFull k g n b).core k =
    { s.core k with mem := { (s.core k).mem with full := setFullRun (s.core k).mem.full g n b } } := core_modCore _ _ _

/-- Of a core, SRAM with its full/empty bits has changed, and what is known of its errors. -/
structure Core.Stored (c d : Core) : Prop where
  rest : d = { c with regs := d.regs, mem := { c.mem with sram := d.mem.sram, full := d.mem.full } }

theorem Core.Stored.refl (c : Core) : c.Stored c := ⟨rfl⟩
theorem Core.Stored.trans {c d e : Core} (h : c.Stored d) (h' : d.Stored e) : c.Stored e := ⟨by rw [h'.rest, h.rest]⟩

/-! ### Bytes of a payload -/

theorem leBytes_byte (l : List Byte) (j : Nat) : leBytes l / 256 ^ j % 256 = (l.getD j 0).toNat := by
  induction l generalizing j with
  | nil => simp [leBytes]
  | cons b l ih =>
    have lt := b.isLt
    cases j with
    | zero =>
      rw [leBytes, Nat.pow_zero, Nat.div_one, List.getD_cons_zero]
      omega
    | succ j =>
      rw [leBytes, List.getD_cons_succ, ← ih j, Nat.pow_succ', ← Nat.div_div_eq_div_mul]
      congr 2
      omega

/-- Stored from `o`, byte `i` of a list of bytes. -/
theorem get_writeLE_leBytes {m : Memory} (h : m.wf = true) (o : Nat) (l : List Byte) {i : Nat} (hi : i < l.length) :
    (m.writeLE o l.length (leBytes l)).get (o + i) = l.getD i 0 := by
  rw [Memory.get_writeLE h _ _ _ _ hi]
  refine BitVec.eq_of_toNat_eq ?_
  rw [BitVec.toNat_ofNat]
  exact leBytes_byte l i

/-! ### DEPOSIT (R72) -/

/-- Sixteen bytes of a payload: those of its granule `j`. -/
def granuleBytes (bs : List Byte) (j : Nat) : List Byte := (bs.drop (16 * j)).take 16

theorem granuleBytes_length_le (bs : List Byte) (j : Nat) : (granuleBytes bs j).length ≤ 16 := by
  rw [granuleBytes, List.length_take]
  omega

theorem granuleBytes_getD (bs : List Byte) {j i : Nat} (hi : i < 16) : (granuleBytes bs j).getD i 0 = bs.getD (16 * j + i) 0 := by
  rw [granuleBytes, getD_take hi, List.getD_eq_getElem?_getD, List.getD_eq_getElem?_getD, List.getElem?_drop]

/-- Granule `e.2` of a payload stored in granule `e.1` of SRAM, which is full. -/
def State.depositOne (k : CoreId) (bs : List Byte) (s : State) (e : Nat × Nat) : State :=
  (s.sramPut k (16 * e.1) (granuleBytes bs e.2).length (leBytes (granuleBytes bs e.2))).setFull k e.1 1 true

theorem State.depositOne_core (k : CoreId) (bs : List Byte) (s : State) (e : Nat × Nat) : ∃ r, (s.depositOne k bs e).core k =
    { s.core k with regs := r, mem := { (s.core k).mem with
      sram := (s.core k).mem.sram.writeLE (16 * e.1) (granuleBytes bs e.2).length (leBytes (granuleBytes bs e.2))
      full := setFullRun (s.core k).mem.full e.1 1 true } } := by
  obtain ⟨r, h⟩ := s.sramPut_core k (16 * e.1) (granuleBytes bs e.2).length (leBytes (granuleBytes bs e.2)) none
  exact ⟨r, by rw [depositOne, setFull_core, h]⟩

/-- Granules of a payload stored, each in one of its own. -/
theorem State.deposit_spec (k : CoreId) (bs : List Byte) (l : List (Nat × Nat)) (s : State) (own : (l.map Prod.fst).Nodup)
    (within : ∀ g ∈ l.map Prod.fst, g < 4096) (ok : (s.core k).MemOk) :
    let t := l.foldl (depositOne k bs) s
    s.Outside t ∧ (s.core k).Stored (t.core k) ∧
    (∀ e ∈ l, ∀ i < (granuleBytes bs e.2).length, (t.core k).mem.sram.get (16 * e.1 + i) = (granuleBytes bs e.2).getD i 0) ∧
    (∀ a, a / 16 ∉ l.map Prod.fst → (t.core k).mem.sram.get a = (s.core k).mem.sram.get a) ∧
    ∀ g < 4096, (t.core k).mem.full.getLsbD g = (decide (g ∈ l.map Prod.fst) || (s.core k).mem.full.getLsbD g) := by
  induction l generalizing s with
  | nil => exact ⟨.refl s, .refl _, fun e he => absurd he List.not_mem_nil, fun _ _ => rfl, fun _ _ => by simp⟩
  | cons e l ih =>
    rw [List.map_cons] at own within
    obtain ⟨other, own⟩ := List.nodup_cons.1 own
    obtain ⟨r, core⟩ := s.depositOne_core k bs e
    have len := granuleBytes_length_le bs e.2
    have sram : ((s.depositOne k bs e).core k).mem.sram =
        (s.core k).mem.sram.writeLE (16 * e.1) (granuleBytes bs e.2).length (leBytes (granuleBytes bs e.2)) :=
      congrArg (fun c : Core => c.mem.sram) core
    have full : ((s.depositOne k bs e).core k).mem.full = setFullRun (s.core k).mem.full e.1 1 true :=
      congrArg (fun c : Core => c.mem.full) core
    have ok' : ((s.depositOne k bs e).core k).MemOk := by
      rw [Core.MemOk, sram]
      exact Memory.writeLE_wf ok _ _ _
    obtain ⟨out, stored, written, kept, fulls⟩ := ih (s.depositOne k bs e) own (fun g hg => within g (List.mem_cons_of_mem _ hg)) ok'
    refine ⟨.trans (t := s.depositOne k bs e) ⟨rfl, rfl, rfl⟩ out, .trans ⟨by rw [core]⟩ stored, fun e' he' i hi => ?_, fun a ha => ?_, fun g hg => ?_⟩
    · rcases List.mem_cons.1 he' with rfl | he'
      · have here : (16 * e'.1 + i) / 16 = e'.1 := by omega
        rw [List.foldl_cons, kept _ (by rw [here]; exact other), sram, get_writeLE_leBytes ok _ _ hi]
      · exact written e' he' i hi
    · rw [List.map_cons, List.mem_cons, not_or] at ha
      have apart : a < 16 * e.1 ∨ 16 * e.1 + (granuleBytes bs e.2).length ≤ a := by omega
      rw [List.foldl_cons, kept a ha.2, sram, Memory.get_writeLE_ne ok _ _ _ _ apart]
    · have lt := within e.1 List.mem_cons_self
      rw [List.foldl_cons, fulls g hg, full, setFullRun_getLsbD _ _ (by omega) hg, List.map_cons]
      by_cases here : g = e.1
      · simp [here]
      · have apart : ¬ (e.1 ≤ g ∧ g < e.1 + 1) := by omega
        have others : g ∈ e.1 :: l.map Prod.fst ↔ g ∈ l.map Prod.fst := by simp [here]
        rw [if_neg apart]
        simp only [others]

/-! ### The actions -/

/-- A head that may be acted on: its entry, its action, and that R73 does not discard it. -/
theorem State.tagHead_spec {s : State} {k : CoreId} {i a : Nat} {q : Fin 4} {m : Msg} {e : Word}
    (h : s.tagHead k i a = some (q, m, e)) : e = (s.core k).mem.tags[m.tag.toFin].word ∧ tagAction e = a ∧
      tagHopeless (s.core k) m = false := by
  simp only [tagHead] at h
  split at h
  · cases h
  split at h
  · cases h
  split at h
  · cases h
  split at h
  · next ok =>
    obtain ⟨rfl, rfl, rfl⟩ := h
    simp only [Bool.and_eq_true, beq_iff_eq, Bool.not_eq_true'] at ok
    exact ⟨rfl, ok.1.2, ok.2⟩
  · cases h

/-- A number that an entry's low bits give. -/
theorem low_toNat (e : Word) (n : Nat) : (e.extractLsb' 0 n).toNat = e.toNat % 2 ^ n := by
  rw [BitVec.extractLsb'_toNat, Nat.shiftRight_zero]

theorem deliver_clause (k : CoreId) (i : Nat) (q : Fin 4) (m : Msg) (e : Word) (s : State)
    (head : s.tagHead k i 1 = some (q, m, e)) (log : s.unlogged k) :
    let n : Fin 8 := Fin.ofNat 8 (e.toNat % 8)
    (s.slot k (tagSlot e)).r.pres.getLsbD n.val = false →
      ∃ t, exec (.deliver k i) s = .next t ∧ (t.slot k (tagSlot e)).r.c[n] = m.payload.headD 0 ∧
        (t.slot k (tagSlot e)).r.pres.getLsbD n.val = true ∧ (t.slot k (tagSlot e)).ev = true ∧
        (∀ j : Fin 8, j ≠ n → (t.slot k (tagSlot e)).r.c[j] = (s.slot k (tagSlot e)).r.c[j]) ∧
        (t.core k).mem.sram = (s.core k).mem.sram ∧ t.gmem = s.gmem := by
  intro n clear
  have run : exec (.deliver k i) s =
      .next ((s.modRegs k (tagSlot e) fun r => r.wrC n (m.payload.headD 0)).tagFinish k q e) := by
    rw [show exec (.deliver k i) s = execDeliver k i s from rfl]
    simp only [execDeliver, head, low_toNat, State.orderTag, State.orderAt_unlogged log]
    rw [if_neg (by rw [Bool.not_eq_true]; exact clear)]
    rfl
  have core := s.core_modSlot k (tagSlot e) fun x => { x with r := x.r.wrC n (m.payload.headD 0) }
  obtain ⟨out, ev, regs, sram, -, -⟩ := (s.modRegs k (tagSlot e) fun r => r.wrC n (m.payload.headD 0)).tagFinish_spec k q e
  have r := (regs (tagSlot e)).trans (congrArg Slot.r (s.slot_modSlot k (tagSlot e) fun x =>
    { x with r := x.r.wrC n (m.payload.headD 0) }) :)
  refine ⟨_, run, ?_, ?_, ev, fun j hj => ?_, sram.trans (congrArg (fun c : Core => c.mem.sram) core :), out.gmem⟩
  · rw [r]
    exact (Regs.c_wrC _ _ _ _).trans (if_pos rfl)
  · rw [r]
    exact (Regs.pres_wrC _ _ _ _).trans (if_pos rfl)
  · rw [r]
    exact (Regs.c_wrC _ _ _ _).trans (if_neg hj)

/-- The entry of a deposit that keeps its place in a ring. -/
def State.depositMark (s : State) (k : CoreId) (m : Msg) (e : Word) (t : TagEnt) (n : Nat) : State :=
  if e.getLsbD 12 then
    s.modMem k fun c => { c with tags := c.tags.set m.tag.toFin { t with word := e.extractLsb' 12 52 ++ depositNext e t.base n } }
  else s

theorem State.depositMark_core (s : State) (k : CoreId) (m : Msg) (e : Word) (t : TagEnt) (n : Nat) :
    s.Outside (s.depositMark k m e t n) ∧ ∃ tags, (s.depositMark k m e t n).core k = { s.core k with mem := { (s.core k).mem with tags := tags } } ∧
      (e = (s.core k).mem.tags[m.tag.toFin].word → tags[m.tag.toFin].word.extractLsb' 0 12 =
        if e.getLsbD 12 then depositNext e t.base n else tagGran e) := by
  unfold depositMark
  split
  · refine ⟨⟨rfl, rfl, rfl⟩, _, core_modCore _ _ _, fun _ => ?_⟩
    rw [(getElem_set_fin _ m.tag.toFin m.tag.toFin _).trans (if_pos rfl)]
    exact BitVec.extractLsb'_append_eq_right
  · exact ⟨.refl s, (s.core k).mem.tags, rfl, fun h => by rw [← h]; rfl⟩

theorem deposit_next {k : CoreId} {i : Nat} {q : Fin 4} {m : Msg} {e : Word} {s : State}
    (head : s.tagHead k i 2 = some (q, m, e)) (log : s.unlogged k) :
    let bs := payloadBytes m.payload
    let t := (s.core k).mem.tags[m.tag.toFin]
    let gs := depositGranules e t.base ((bs.length + 15) / 16)
    ((∀ g ∈ gs, g < 4096) → exec (.deposit k i) s =
      .next (((gs.zipIdx.foldl (State.depositOne k bs) s).depositMark k m e t ((bs.length + 15) / 16)).tagFinish k q e)) ∧
    ((∃ g ∈ gs, 4096 ≤ g) → exec (.deposit k i) s = .next (s.discard k q m.tag)) := by
  intro bs t gs
  rw [show exec (.deposit k i) s = execDeposit k i s from rfl]
  simp only [execDeposit, head, State.orderTag, State.orderAt_unlogged log]
  refine ⟨fun within => ?_, fun past => ?_⟩
  · rw [if_neg]
    · rfl
    · simp only [List.any_eq_true, decide_eq_true_eq, not_exists, not_and, Nat.not_le]
      exact within
  · rw [if_pos]
    · rfl
    · simp only [List.any_eq_true, decide_eq_true_eq]
      exact past

theorem deposit_clause (k : CoreId) (i : Nat) (q : Fin 4) (m : Msg) (e : Word) (s : State)
    (head : s.tagHead k i 2 = some (q, m, e)) (log : s.unlogged k) :
    let bs := payloadBytes m.payload
    let gs := depositGranules e (s.core k).mem.tags[m.tag.toFin].base ((bs.length + 15) / 16)
    (∀ g ∈ gs, g < 4096) → gs.Nodup → (s.core k).MemOk → ∃ t, exec (.deposit k i) s = .next t ∧
      (∀ j < bs.length, (t.core k).mem.sram.get (16 * gs.getD (j / 16) 0 + j % 16) = bs.getD j 0) ∧
      (∀ a, a / 16 ∉ gs → (t.core k).mem.sram.get a = (s.core k).mem.sram.get a) ∧
      (∀ g < 4096, (t.core k).mem.full.getLsbD g = (decide (g ∈ gs) || (s.core k).mem.full.getLsbD g)) ∧
      ((t.core k).mem.tags[m.tag.toFin].word.extractLsb' 0 12 =
        if e.getLsbD 12 then depositNext e (s.core k).mem.tags[m.tag.toFin].base gs.length else tagGran e) ∧
      (t.slot k (tagSlot e)).ev = true ∧ (t.slot k (tagSlot e)).r = (s.slot k (tagSlot e)).r ∧ t.gmem = s.gmem := by
  intro bs gs within own ok
  have len : gs.length = (bs.length + 15) / 16 := by simp [gs, depositGranules]
  obtain ⟨entry, -, -⟩ := State.tagHead_spec head
  obtain ⟨out, stored, written, kept, fulls⟩ := State.deposit_spec k bs gs.zipIdx s (by rwa [List.zipIdx_map_fst])
    (by rwa [List.zipIdx_map_fst]) ok
  rw [List.zipIdx_map_fst] at kept fulls
  generalize hu : gs.zipIdx.foldl (State.depositOne k bs) s = u at out stored written kept fulls
  have tags : (u.core k).mem.tags = (s.core k).mem.tags := (congrArg (fun c : Core => c.mem.tags) stored.rest :)
  obtain ⟨markOut, tags', mark, next⟩ :=
    u.depositMark_core k m e (s.core k).mem.tags[m.tag.toFin] ((bs.length + 15) / 16)
  obtain ⟨doneOut, ev, regs, sram, full, words⟩ :=
    (u.depositMark k m e (s.core k).mem.tags[m.tag.toFin] ((bs.length + 15) / 16)).tagFinish_spec k q e
  rw [mark] at sram full words
  refine ⟨_, (deposit_next head log).1 within, ?_⟩
  rw [show gs.zipIdx.foldl (State.depositOne k (payloadBytes m.payload)) s = u from hu]
  refine ⟨fun j hj => ?_, fun a ha => ?_, fun g hg => ?_, ?_, ev, ?_, ?_⟩
  · have lt : j / 16 < gs.length := by omega
    have mem : (gs[j / 16], j / 16) ∈ gs.zipIdx := List.mk_mem_zipIdx_iff_getElem?.2 (List.getElem?_eq_getElem lt)
    have within : j % 16 < (granuleBytes bs (j / 16)).length := by
      rw [granuleBytes, List.length_take, List.length_drop]
      omega
    have byte := written _ mem _ within
    rw [granuleBytes_getD _ (by omega), Nat.div_add_mod] at byte
    rw [sram, List.getD_eq_getElem _ _ lt]
    exact byte
  · rw [sram]
    exact kept a ha
  · rw [full]
    exact fulls g hg
  · rw [(words m.tag.toFin).field 0 (by omega), next (by rw [tags]; exact entry), len]
  · rw [regs, State.slot, mark]
    exact (congrArg (fun c : Core => (c.slot (tagSlot e)).r) stored.rest :)
  · exact ((out.trans markOut).trans doneOut).gmem

/-! ### INLINE (R74) -/

theorem leBytes_append (a b : List Byte) : leBytes (a ++ b) = leBytes a + 256 ^ a.length * leBytes b := by
  induction a with
  | nil => simp [leBytes]
  | cons x a ih =>
    rw [List.cons_append, leBytes, leBytes, ih, List.length_cons, Nat.pow_succ']
    ring

theorem toBytes_length (v n : Nat) : (toBytes v n).length = n := by
  induction n generalizing v with
  | zero => rfl
  | succ n ih => rw [toBytes, List.length_cons, ih]

theorem leBytes_toBytes (v n : Nat) : leBytes (toBytes v n) = v % 256 ^ n := by
  induction n generalizing v with
  | zero => rw [toBytes, leBytes, Nat.pow_zero, Nat.mod_one]
  | succ n ih =>
    have byte : (BitVec.ofNat 8 v).toNat = v % 256 := BitVec.toNat_ofNat _ _
    rw [toBytes, leBytes, ih, byte, Nat.pow_succ', Nat.mod_mul]

/-- The number that a payload's bytes make has the payload's words. -/
theorem leBytes_payloadBytes (ws : List Word) (j : Nat) :
    leBytes (payloadBytes ws) / 2 ^ (64 * j) % 2 ^ 64 = (ws.getD j 0).toNat := by
  induction ws generalizing j with
  | nil => simp [payloadBytes, leBytes]
  | cons w ws ih =>
    have word : leBytes (payloadBytes (w :: ws)) = w.toNat + 2 ^ 64 * leBytes (payloadBytes ws) := by
      rw [payloadBytes, List.flatMap_cons, leBytes_append, leBytes_toBytes, toBytes_length, show 256 ^ 8 = 2 ^ 64 by norm_num,
        Nat.mod_eq_of_lt w.isLt]
      rfl
    cases j with
    | zero =>
      rw [word, Nat.mul_zero, Nat.pow_zero, Nat.div_one, Nat.add_mul_mod_self_left, Nat.mod_eq_of_lt w.isLt,
        List.getD_cons_zero]
    | succ j =>
      rw [List.getD_cons_succ, ← ih j, word, Nat.mul_succ, Nat.add_comm (64 * j), Nat.pow_add, ← Nat.div_div_eq_div_mul,
        Nat.add_mul_div_left _ _ (Nat.two_pow_pos 64), Nat.div_eq_of_lt w.isLt, Nat.zero_add]

/-- A word of the line that a payload makes. -/
theorem payload_line (ws : List Word) {j : Nat} (hj : j < 8) :
    (BitVec.ofNat 512 (leBytes (payloadBytes ws))).extractLsb' (64 * j) 64 = ws.getD j 0 := by
  refine BitVec.eq_of_toNat_eq ?_
  obtain ⟨d, hd⟩ : ∃ d, 512 = 64 * j + (64 + d) := ⟨512 - 64 * j - 64, by omega⟩
  rw [BitVec.extractLsb'_toNat, BitVec.toNat_ofNat, Nat.shiftRight_eq_div_pow, ← leBytes_payloadBytes, hd, Nat.pow_add,
    Nat.mod_mul_right_div_self, Nat.pow_add, Nat.mod_mul_right_mod]

/-- The handler that takes an INLINE message. -/
def inlineHandler (m : Msg) (e : Word) : Handler :=
  let cl := e.toNat % 8
  let nd := m.payload.length - cl
  { m := Vector.ofFn fun j : Fin 8 => if j.val < nd then m.payload.getD j.val 0 else 0,
    line := BitVec.ofNat 512 (leBytes (payloadBytes (m.payload.drop nd))), cl := cl, next := 0, slot := tagSlot e,
    tag := m.tag, sigen := tagSigen e, sem := tagSem e, msg := m }

theorem inline_clause (k : CoreId) (i : Nat) (q : Fin 4) (m : Msg) (e : Word) (s : State)
    (head : s.tagHead k i 4 = some (q, m, e)) (run : s.phaseOf k = .run) (idle : (s.core k).handler = none)
    (fresh : (s.core k).handlerDone = false) (log : s.unlogged k) :
    let cl := e.toNat % 8
    let nd := m.payload.length - cl
    ∃ t h, exec (.inline k i) s = .next t ∧ (t.core k).handler = some h ∧ h.slot = tagSlot e ∧ h.next = 0 ∧ h.cl = cl ∧
      h.msg = m ∧ (∀ j : Fin 8, h.m[j] = if j.val < nd then m.payload.getD j.val 0 else 0) ∧
      (∀ j < cl, h.line.extractLsb' (64 * j) 64 = m.payload.getD (nd + j) 0) ∧
      (∀ n, t.slot k n = s.slot k n) ∧ (t.core k).mem = (s.core k).mem := by
  intro cl nd
  have next : exec (.inline k i) s = .next (s.modCore k fun c => { c with handler := some (inlineHandler m e) }) := by
    rw [show exec (.inline k i) s = event s (s.inlineStart k i) from rfl]
    simp only [State.inlineStart, head, low_toNat, State.orderTag, State.orderAt_unlogged log, run, idle, fresh]
    rfl
  have core : (s.modCore k fun c => { c with handler := some (inlineHandler m e) }).core k =
      { s.core k with handler := some (inlineHandler m e) } := State.core_modCore _ _ _
  refine ⟨_, inlineHandler m e, next, (congrArg Core.handler core :), rfl, rfl, rfl, rfl, fun j => ?_, fun j hj => ?_,
    fun n => (congrArg (Core.slot · n) core :), (congrArg Core.mem core :)⟩
  · exact Vector.getElem_ofFn _
  · have lt : j < 8 := by omega
    rw [inlineHandler, payload_line _ lt, List.getD_eq_getElem?_getD, List.getElem?_drop, ← List.getD_eq_getElem?_getD]

end Sys2Proof.Machine
end

section
/-! PROOFS. ADDBLOCK: the blocks of a payload added to those in SRAM, and the obligation on the actions of tags (O28). -/

namespace Sys2Proof.Machine

/-! ### One block in SRAM (R36, R37, R99) -/

/-- Two stores that do not overlap: each reads back, and the bytes outside them stay. -/
theorem Memory.writeLE_writeLE {m : Memory} (ok : m.wf = true) {a n h l : Nat} (v w : Nat) (apart : a + n ≤ h ∨ h + l ≤ a) :
    ((m.writeLE a n v).writeLE h l w).readLE a n = v % 256 ^ n ∧ ((m.writeLE a n v).writeLE h l w).readLE h l = w % 256 ^ l ∧
    ∀ x, (x < a ∨ a + n ≤ x) → (x < h ∨ h + l ≤ x) → ((m.writeLE a n v).writeLE h l w).get x = m.get x := by
  have ok' := Memory.writeLE_wf ok a n v
  refine ⟨?_, Memory.readLE_writeLE ok' _ _ _, fun x ha hh => ?_⟩
  · rw [← Memory.readLE_writeLE ok a n v]
    exact Memory.readLE_congr fun x lo hi => Memory.get_writeLE_ne ok' _ _ _ _ (by omega)
  · rw [Memory.get_writeLE_ne ok' _ _ _ _ hh, Memory.get_writeLE_ne ok _ _ _ _ ha]

section
variable (s : State) (k : CoreId) (ty : BlkTy) (a h : Nat)

/-- A block stored: its element bytes and its header stand in their places. -/
theorem State.putBlk_spec (b : Blk) (ok : (s.core k).MemOk) (apart : a + 2 * pbBits ty ≤ h ∨ h + 2 ≤ a) : ∃ r m,
    (s.putBlk k ty a h b).core k = { s.core k with regs := r, mem := { (s.core k).mem with sram := m } } ∧ m.wf = true ∧
    m.readLE a (2 * pbBits ty) = packNat (pbBits ty) (b.codes ty) % 256 ^ (2 * pbBits ty) ∧ m.readLE h 2 = b.hdr % 256 ^ 2 ∧
    ∀ x, (x < a ∨ a + 2 * pbBits ty ≤ x) → (x < h ∨ h + 2 ≤ x) → m.get x = (s.core k).mem.sram.get x := by
  obtain ⟨r, put⟩ := s.sramPut_core k a (2 * pbBits ty) (packNat (pbBits ty) (b.codes ty)) none
  obtain ⟨r', put'⟩ := (s.sramPut k a (2 * pbBits ty) (packNat (pbBits ty) (b.codes ty))).sramPut_core k h 2 b.hdr none
  obtain ⟨codes, hdr, kept⟩ := Memory.writeLE_writeLE ok (packNat (pbBits ty) (b.codes ty)) b.hdr apart
  exact ⟨r', _, by rw [putBlk, put', put], Memory.writeLE_wf (Memory.writeLE_wf ok _ _ _) _ _ _, codes, hdr, kept⟩

/-- A block is read from its element bytes and its header alone. -/
theorem State.sramBlk_congr {t : State}
    (same : ∀ x, (a ≤ x ∧ x < a + 2 * pbBits ty) ∨ (h ≤ x ∧ x < h + 2) → (t.core k).mem.sram.get x = (s.core k).mem.sram.get x) :
    t.sramBlk k ty a h = s.sramBlk k ty a h := by
  have codes : t.sramLE k a (2 * pbBits ty) = s.sramLE k a (2 * pbBits ty) :=
    Memory.readLE_congr fun x lo hi => same x (.inl ⟨lo, hi⟩)
  have hdr : t.sramLE k h 2 = s.sramLE k h 2 := Memory.readLE_congr fun x lo hi => same x (.inr ⟨lo, hi⟩)
  simp only [sramBlk, codes, hdr]

end

/-! ### The blocks of a payload -/

section
variable (k : CoreId) (ty : BlkTy) (a h : Nat) (pay : Nat → Blk)

/-- Block `b` of a payload added to its block in SRAM. -/
def State.blkSum (s : State) (b : Nat) : Blk × BitVec 8 :=
  addBlk ty (s.sramBlk k ty (a + 2 * pbBits ty * b) (h + 2 * b)) (pay b)

/-- The sum stored in its place, and its flags collected. -/
def State.addBlkStep (r : State × BitVec 8) (b : Nat) : State × BitVec 8 :=
  (r.1.putBlk k ty (a + 2 * pbBits ty * b) (h + 2 * b) (r.1.blkSum k ty a h pay b).1, r.2 ||| (r.1.blkSum k ty a h pay b).2)

theorem State.addBlkStep_eq : State.addBlkStep k ty a h pay = fun r b =>
    (r.1.putBlk k ty (a + 2 * pbBits ty * b) (h + 2 * b)
        (addBlk ty (r.1.sramBlk k ty (a + 2 * pbBits ty * b) (h + 2 * b)) (pay b)).1,
      r.2 ||| (addBlk ty (r.1.sramBlk k ty (a + 2 * pbBits ty * b) (h + 2 * b)) (pay b)).2) := rfl

/-- The first `n` blocks have been added: each sum stands in its place, and the bytes outside these stay. -/
structure State.Added (n : Nat) (s : State) (r : State × BitVec 8) : Prop where
  out : s.Outside r.1
  stored : (s.core k).Stored (r.1.core k)
  ok : (r.1.core k).MemOk
  full : (r.1.core k).mem.full = (s.core k).mem.full
  sums : ∀ b < n, (r.1.core k).mem.sram.readLE (a + 2 * pbBits ty * b) (2 * pbBits ty) =
      packNat (pbBits ty) ((s.blkSum k ty a h pay b).1.codes ty) % 256 ^ (2 * pbBits ty) ∧
    (r.1.core k).mem.sram.readLE (h + 2 * b) 2 = (s.blkSum k ty a h pay b).1.hdr % 256 ^ 2
  kept : ∀ x, (x < a ∨ a + 2 * pbBits ty * n ≤ x) → (x < h ∨ h + 2 * n ≤ x) →
    (r.1.core k).mem.sram.get x = (s.core k).mem.sram.get x
  flags : ∀ b < n, (s.blkSum k ty a h pay b).2 &&& r.2 = (s.blkSum k ty a h pay b).2

variable {k ty a h pay}

/-- What a value has in common with flags it is among. -/
theorem common_or_left {x f : BitVec 8} (h : x &&& f = x) (g : BitVec 8) : x &&& (f ||| g) = x := by
  rw [BitVec.and_or_distrib_left, h]
  exact BitVec.eq_of_getLsbD_eq fun i hi => by simp +contextual

theorem common_or_right (x f : BitVec 8) : x &&& (f ||| x) = x :=
  BitVec.eq_of_getLsbD_eq fun i hi => by cases h : x.getLsbD i <;> simp [h]

/-- Blocks of the areas of a payload, block `b` before block `n`. -/
theorem block_le {w b n : Nat} (hb : b < n) : w * b + w ≤ w * n := by
  rw [← Nat.mul_succ]
  exact Nat.mul_le_mul_left w hb

theorem State.Added.step {n nb : Nat} {s : State} {r : State × BitVec 8} (added : State.Added k ty a h pay n s r) (hn : n < nb)
    (apart : a + 2 * pbBits ty * nb ≤ h ∨ h + 2 * nb ≤ a) : State.Added k ty a h pay (n + 1) s (State.addBlkStep k ty a h pay r n) := by
  have last := block_le (w := 2 * pbBits ty) hn
  have next : 2 * pbBits ty * (n + 1) = 2 * pbBits ty * n + 2 * pbBits ty := Nat.mul_succ _ _
  have same : r.1.blkSum k ty a h pay n = s.blkSum k ty a h pay n :=
    congrArg (addBlk ty · (pay n)) (s.sramBlk_congr k ty _ _ fun x hx => added.kept x (by omega) (by omega))
  obtain ⟨regs, m, core, ok, codes, hdr, kept⟩ := r.1.putBlk_spec k ty (a + 2 * pbBits ty * n) (h + 2 * n)
    (s.blkSum k ty a h pay n).1 added.ok (by omega)
  have step : State.addBlkStep k ty a h pay r n = (r.1.putBlk k ty (a + 2 * pbBits ty * n) (h + 2 * n) (s.blkSum k ty a h pay n).1,
      r.2 ||| (s.blkSum k ty a h pay n).2) := by rw [State.addBlkStep, same]
  rw [step]
  refine ⟨added.out.trans (t := r.1) ⟨rfl, rfl, rfl⟩, added.stored.trans ⟨by rw [core]⟩, by rw [Core.MemOk, core]; exact ok,
    by rw [core]; exact added.full, fun b hb => ?_, fun x ha hh => ?_, fun b hb => ?_⟩
  · rw [core]
    rcases Nat.lt_succ_iff_lt_or_eq.1 hb with hb | rfl
    · have before := block_le (w := 2 * pbBits ty) hb
      obtain ⟨codes', hdr'⟩ := added.sums b hb
      rw [← codes', ← hdr']
      exact ⟨Memory.readLE_congr fun x lo hi => kept x (by omega) (by omega),
        Memory.readLE_congr fun x lo hi => kept x (by omega) (by omega)⟩
    · exact ⟨codes, hdr⟩
  · rw [core]
    exact (kept x (by omega) (by omega)).trans (added.kept x (by omega) (by omega))
  · rcases Nat.lt_succ_iff_lt_or_eq.1 hb with hb | rfl
    · exact common_or_left (added.flags b hb) _
    · exact common_or_right _ _

/-- Every block of a payload added. -/
theorem State.added_all {nb : Nat} {s : State} (ok : (s.core k).MemOk) (apart : a + 2 * pbBits ty * nb ≤ h ∨ h + 2 * nb ≤ a)
    {n : Nat} (hn : n ≤ nb) :
    State.Added k ty a h pay n s ((List.range n).foldl (State.addBlkStep k ty a h pay) (s, 0)) := by
  induction n with
  | zero =>
    exact ⟨.refl s, .refl _, ok, rfl, fun b hb => absurd hb (Nat.not_lt_zero b), fun _ _ _ => rfl, fun b hb => absurd hb (Nat.not_lt_zero b)⟩
  | succ n ih =>
    rw [List.range_succ, List.foldl_append]
    exact (ih (Nat.le_of_succ_le hn)).step hn apart

end

/-! ### The granules of the bytes written (R20, R99) -/

/-- The full/empty bits where the granules of `n` bytes from `a` become full. -/
def fullArea (f : BitVec 4096) (a n : Nat) : BitVec 4096 := setFullRun f (a / 16) ((a + n + 15) / 16 - a / 16) true

theorem State.fullBytes_core (s : State) (k : CoreId) (a n : Nat) : (s.fullBytes k a n).core k =
    { s.core k with mem := { (s.core k).mem with full := fullArea (s.core k).mem.full a n } } := s.setFull_core _ _ _ _

/-- A granule is full where it was, or where one of its bytes is among those written. -/
theorem fullArea_getLsbD (f : BitVec 4096) {a n g : Nat} (pos : 0 < n) (fits : a + n ≤ 65536) (hg : g < 4096) :
    (fullArea f a n).getLsbD g = true ↔
      f.getLsbD g = true ∨ ∃ x < 16, a ≤ 16 * g + x ∧ 16 * g + x < a + n := by
  rw [fullArea, setFullRun_getLsbD _ _ (by omega) hg]
  split
  · next within => exact ⟨fun _ => .inr ⟨if 16 * g < a then a - 16 * g else 0, by split <;> omega, by split <;> omega⟩, fun _ => rfl⟩
  · next without =>
    refine ⟨.inl, fun h => h.resolve_right ?_⟩
    rintro ⟨x, hx, lo, hi⟩
    omega

/-! ### ADDBLOCK (R72) -/

/-- The areas of a payload's blocks, read to be written. -/
def State.blkAreas (s : State) (k : CoreId) (a n h l : Nat) : State := s.modCore k fun c => (c.correct a n).correct h l

/-- The blocks of a payload added, their granules full, and the flags of the sums in the slot. -/
def State.addBlks (s : State) (k : CoreId) (sl : Fin 4) (ty : BlkTy) (a h nb : Nat) (pay : Nat → Blk) : State :=
  let r := (List.range nb).foldl (State.addBlkStep k ty a h pay) (s.blkAreas k a (2 * pbBits ty * nb) h (2 * nb), 0)
  ((((r.1.fullBytes k a (2 * pbBits ty * nb)).fullBytes k h (2 * nb)).setFlags k sl r.2).charge k sl 25 nb)

theorem addblock_next {k : CoreId} {i : Nat} {q : Fin 4} {m : Msg} {e : Word} {nb : Nat} {s : State}
    (head : s.tagHead k i 3 = some (q, m, e)) (free : e.getLsbD 27 = false) (block : m.block = true) (log : s.unlogged k)
    (count : addblockCount (isPb4 (addblockTy e)) m.payload.length = some nb) :
    let ty := addblockTy e
    let a := (addblockAt e).1
    let h := (addblockAt e).2
    a + 2 * pbBits ty * nb ≤ 65536 → h + 2 * nb ≤ 65536 → (s.core k).badWord a (2 * pbBits ty * nb) = none →
    (s.core k).badWord h (2 * nb) = none → exec (.addblock k i) s =
      .next ((s.addBlks k (tagSlot e) ty a h nb (payloadBlk ty nb m.payload)).tagFinish k q e) := by
  intro ty a h fits fits' good good'
  rw [show exec (.addblock k i) s = execAddblock k i s from rfl]
  have within : (decide (65536 < a + 2 * pbBits ty * nb) || decide (65536 < h + 2 * nb)) = false := by
    simp only [Bool.or_eq_false_iff, decide_eq_false_iff_not]
    omega
  simp only [execAddblock, head, free, block, count, if_true, Bool.false_eq_true, if_false]
  rw [if_neg (by rw [Bool.not_eq_true]; exact within)]
  simp only [show (s.core k).badWord (addblockAt e).1 (2 * pbBits (addblockTy e) * nb) = none from good,
    show (s.core k).badWord (addblockAt e).2 (2 * nb) = none from good', Option.or_none,
    State.orderAll, State.orderAt_unlogged log, event, ordered]
  simp only [State.addBlks, State.blkAreas, State.addBlkStep_eq, Option.getD_some, ty, a, h]

theorem pbBits_pos (ty : BlkTy) : 0 < 2 * pbBits ty := by
  unfold pbBits
  split <;> decide

theorem State.setFlags_mem (s : State) (k : CoreId) (sl : Fin 4) (f : BitVec 8) :
    s.Outside (s.setFlags k sl f) ∧ ((s.setFlags k sl f).core k).mem = (s.core k).mem := by
  unfold setFlags
  split
  · exact ⟨.refl s, rfl⟩
  · exact ⟨⟨rfl, rfl, rfl⟩, (congrArg Core.mem (s.core_modSlot k sl fun x => { x with r := { x.r with flags := x.r.flags ||| f } }) :)⟩

theorem addblockCount_pos {pb4 : Bool} {l nb : Nat} (h : addblockCount pb4 l = some nb) : 0 < nb := by
  have ok := List.find?_some h
  simp only [Bool.and_eq_true, bne_iff_ne] at ok
  exact Nat.pos_of_ne_zero ok.1

section
variable {s : State} {k : CoreId} {sl : Fin 4} {ty : BlkTy} {a h nb : Nat} {pay : Nat → Blk}

/-- The blocks of a payload added: each sum in its place with its granules full, and its flags in the slot. -/
theorem State.addBlks_spec (ok : (s.core k).MemOk) (apart : a + 2 * pbBits ty * nb ≤ h ∨ h + 2 * nb ≤ a) (pos : 0 < nb)
    (fits : a + 2 * pbBits ty * nb ≤ 65536) (fits' : h + 2 * nb ≤ 65536) :
    let t := s.addBlks k sl ty a h nb pay
    s.Outside t ∧
    (∀ b < nb, (t.core k).mem.sram.readLE (a + 2 * pbBits ty * b) (2 * pbBits ty) =
        packNat (pbBits ty) ((s.blkSum k ty a h pay b).1.codes ty) % 256 ^ (2 * pbBits ty) ∧
      (t.core k).mem.sram.readLE (h + 2 * b) 2 = (s.blkSum k ty a h pay b).1.hdr % 256 ^ 2) ∧
    (∀ x, (x < a ∨ a + 2 * pbBits ty * nb ≤ x) → (x < h ∨ h + 2 * nb ≤ x) →
      (t.core k).mem.sram.get x = (s.core k).mem.sram.get x) ∧
    (∀ g < 4096, ((t.core k).mem.full.getLsbD g = true ↔ (s.core k).mem.full.getLsbD g = true ∨
      ∃ x < 16, (a ≤ 16 * g + x ∧ 16 * g + x < a + 2 * pbBits ty * nb) ∨ (h ≤ 16 * g + x ∧ 16 * g + x < h + 2 * nb))) ∧
    ∀ b < nb, (s.blkSum k ty a h pay b).2 &&& (t.slot k sl).r.flags = (s.blkSum k ty a h pay b).2 := by
  intro t
  have areas : (s.core k).Rechecked ((s.blkAreas k a (2 * pbBits ty * nb) h (2 * nb)).core k) := by
    rw [blkAreas, core_modCore]
    exact (Core.correct_rechecked _ _ _ _).trans (Core.correct_rechecked _ _ _ _)
  have mem : ((s.blkAreas k a (2 * pbBits ty * nb) h (2 * nb)).core k).mem = (s.core k).mem := (congrArg Core.mem areas.rest :)
  have sum (b : Nat) : (s.blkAreas k a (2 * pbBits ty * nb) h (2 * nb)).blkSum k ty a h pay b = s.blkSum k ty a h pay b :=
    congrArg (addBlk ty · (pay b)) (s.sramBlk_congr k ty _ _ fun x _ => by rw [mem])
  obtain ⟨out, stored, -, full, sums, kept, flags⟩ := State.added_all (k := k) (ty := ty) (a := a) (h := h) (pay := pay)
    (s := s.blkAreas k a (2 * pbBits ty * nb) h (2 * nb)) (by rw [Core.MemOk, mem]; exact ok) apart (Nat.le_refl nb)
  simp only [sum, mem] at sums kept full flags
  generalize hr : (List.range nb).foldl (State.addBlkStep k ty a h pay) (s.blkAreas k a (2 * pbBits ty * nb) h (2 * nb), 0) = r
    at out stored full sums kept flags
  have ht : t = ((((r.1.fullBytes k a (2 * pbBits ty * nb)).fullBytes k h (2 * nb)).setFlags k sl r.2).charge k sl 25 nb) := by
    rw [← hr]
    rfl
  generalize hu : (r.1.fullBytes k a (2 * pbBits ty * nb)).fullBytes k h (2 * nb) = u at ht
  have core : u.core k = { r.1.core k with mem := { (r.1.core k).mem with
      full := fullArea (fullArea (r.1.core k).mem.full a (2 * pbBits ty * nb)) h (2 * nb) } } := by rw [← hu, fullBytes_core, fullBytes_core]
  obtain ⟨flagOut, flagMem⟩ := u.setFlags_mem k sl r.2
  have tmem : (t.core k).mem = (u.core k).mem := by
    rw [ht, charge, core_modCoreRegs]
    exact flagMem
  have uout : r.1.Outside u := by
    rw [← hu]
    exact ⟨rfl, rfl, rfl⟩
  refine ⟨?_, fun b hb => ?_, fun x ha hh => ?_, fun g hg => ?_, fun b hb => ?_⟩
  · rw [ht]
    exact .trans (t := s.blkAreas k a (2 * pbBits ty * nb) h (2 * nb)) ⟨rfl, rfl, rfl⟩
      ((out.trans uout).trans (flagOut.trans ⟨rfl, rfl, rfl⟩))
  · rw [tmem, core]
    exact sums b hb
  · rw [tmem, core]
    exact kept x ha hh
  · rw [tmem, core, fullArea_getLsbD _ (by omega) fits' hg, fullArea_getLsbD _ (Nat.mul_pos (pbBits_pos ty) pos) fits hg, full]
    simp only [and_or_left, exists_or, or_assoc]
  · have flag : (t.slot k sl).r.flags = (u.slot k sl).r.flags ||| r.2 := by
      rw [ht, charge, State.slot, core_modCoreRegs]
      exact u.setFlags_flags k sl r.2
    rw [flag, BitVec.or_comm]
    exact common_or_left (flags b hb) _

end

theorem addblock_clause (k : CoreId) (i : Nat) (q : Fin 4) (m : Msg) (e : Word) (nb : Nat) (s : State)
    (head : s.tagHead k i 3 = some (q, m, e)) (free : e.getLsbD 27 = false) (block : m.block = true) (log : s.unlogged k) :
    let ty := addblockTy e
    let a := (addblockAt e).1
    let h := (addblockAt e).2
    let eb := 2 * pbBits ty
    addblockCount (isPb4 ty) m.payload.length = some nb → a + eb * nb ≤ 65536 → h + 2 * nb ≤ 65536 →
    (a + eb * nb ≤ h ∨ h + 2 * nb ≤ a) → (s.core k).badWord a (eb * nb) = none → (s.core k).badWord h (2 * nb) = none →
    (s.core k).MemOk →
    let y := fun b => addBlk ty (s.sramBlk k ty (a + eb * b) (h + 2 * b)) (payloadBlk ty nb m.payload b)
    ∃ t, exec (.addblock k i) s = .next t ∧ t.gmem = s.gmem ∧ (t.slot k (tagSlot e)).ev = true ∧
      (∀ b < nb, (t.core k).mem.sram.readLE (a + eb * b) eb = packNat (pbBits ty) ((y b).1.codes ty) % 2 ^ (8 * eb) ∧
        (t.core k).mem.sram.readLE (h + 2 * b) 2 = (y b).1.hdr % 2 ^ 16) ∧
      (∀ x, (x < a ∨ a + eb * nb ≤ x) → (x < h ∨ h + 2 * nb ≤ x) →
        (t.core k).mem.sram.get x = (s.core k).mem.sram.get x) ∧
      (∀ g < 4096, ((t.core k).mem.full.getLsbD g = true ↔ (s.core k).mem.full.getLsbD g = true ∨
        ∃ x < 16, (a ≤ 16 * g + x ∧ 16 * g + x < a + eb * nb) ∨ (h ≤ 16 * g + x ∧ 16 * g + x < h + 2 * nb))) ∧
      (∀ b < nb, (y b).2 &&& (t.slot k (tagSlot e)).r.flags = (y b).2) := by
  intro ty a h eb count fits fits' apart good good' ok y
  obtain ⟨out, sums, kept, full, flags⟩ := State.addBlks_spec (sl := tagSlot e) (pay := payloadBlk ty nb m.payload) ok apart
    (addblockCount_pos count) fits fits'
  obtain ⟨doneOut, ev, regs, sram, full', -⟩ :=
    (s.addBlks k (tagSlot e) ty a h nb (payloadBlk ty nb m.payload)).tagFinish_spec k q e
  refine ⟨_, addblock_next head free block log count fits fits' good good', (out.trans doneOut).gmem, ev, ?_, ?_, ?_, ?_⟩
  · rw [sram, show 2 ^ (8 * eb) = 256 ^ eb from Nat.pow_mul 2 8 eb]
    exact sums
  · rw [sram]
    exact kept
  · rw [full']
    exact full
  · rw [regs]
    exact flags

/-- Settles O28: each action by its effect on its head's target, and by what completion or discarding leaves. -/
theorem tagActions : Obligations.TagActions := by
  refine ⟨⟨deliver_clause, fun k i q m e s head log => ⟨deposit_clause k i q m e s head log, fun past => ?_⟩, inline_clause⟩,
    addblock_clause⟩
  exact ⟨_, (deposit_next head log).2 past, (s.discard_discarded k q m.tag).sram, s.discard_err k q m.tag⟩

end Sys2Proof.Machine
end

section
/-! PROOFS. Laces: what binding, rejoining and dissolving leave of each slot, the forwarding of heads and the timeouts (O39). -/

namespace Sys2Proof.Machine

/-! ### Slots that one step after another changes -/

theorem State.slot_modSlot_eq (s : State) (k j : CoreId) (n m : Fin 4) (g : Slot → Slot) :
    (s.modSlot k n g).slot j m = if (j, m) = (k, n) then g (s.slot j m) else s.slot j m := by
  by_cases h : j = k ∧ m = n
  · obtain ⟨rfl, rfl⟩ := h
    rw [slot_modSlot, if_pos rfl]
  · rw [slot_modSlot_ne _ _ _ _ _ _ h, if_neg (by simpa using h)]

/-- Steps that each change one slot: where no slot is met twice, or meeting it again changes nothing, every slot that is met
has changed once. -/
theorem State.foldl_slot {f : State → CoreId × Fin 4 → State} {g : CoreId × Fin 4 → Slot → Slot}
    (step : ∀ s m k n, (f s m).slot k n = if (k, n) = m then g m (s.slot k n) else s.slot k n)
    {ms : List (CoreId × Fin 4)} (once : ms.Nodup ∨ ∀ m x, g m (g m x) = g m x) (s : State) (k : CoreId) (n : Fin 4) :
    (ms.foldl f s).slot k n = if (k, n) ∈ ms then g (k, n) (s.slot k n) else s.slot k n := by
  induction ms generalizing s with
  | nil => rfl
  | cons m ms ih =>
    rw [List.foldl_cons, ih (once.imp_left fun h => (List.nodup_cons.1 h).2), step]
    by_cases here : (k, n) = m
    · subst here
      simp only [List.mem_cons, true_or, if_true]
      split
      · next again =>
        exact once.elim (fun h => absurd again (List.nodup_cons.1 h).1) fun h => h _ _
      · rfl
    · simp only [List.mem_cons, here, false_or, if_false]

/-- Steps that each leave a part of the state leave it. -/
theorem State.foldl_keeps {α β : Type} {f : State → β → State} {p : State → α} (step : ∀ s m, p (f s m) = p s) (ms : List β)
    (s : State) : p (ms.foldl f s) = p s := by
  induction ms generalizing s with
  | nil => rfl
  | cons m ms ih => rw [List.foldl_cons, ih, step]

/-- No head that is on the wire is for the slot. -/
theorem State.dropWire_laces {s : State} {m : CoreId × Fin 4} {f : LaceFly} (h : f ∈ (s.dropWire m).laces) :
    f ∈ s.laces ∧ (f.core, f.slot) ≠ m := by
  obtain ⟨mem, other⟩ := List.mem_filter.1 h
  refine ⟨mem, fun e => ?_⟩
  subst e
  simp at other

/-! ### Followers that re-attach (R84, R86) -/

/-- A stray that has re-attached, whose RELACE will return 2. -/
def Slot.rejoined (b : Bool) (x : Slot) : Slot :=
  { x with lace := { x.lace with code := .attached, result := some 2, waited := 0, joined := b }, buf := [] }

theorem State.rejoin_slot (s : State) (ms : List (CoreId × Fin 4)) (b : Bool) (k : CoreId) (n : Fin 4) :
    (s.rejoin ms b).slot k n = if (k, n) ∈ ms then (s.slot k n).rejoined b else s.slot k n :=
  foldl_slot (f := fun s m => (s.modSlot m.1 m.2 (Slot.rejoined b)).dropWire m) (g := fun _ => Slot.rejoined b)
    (fun s m k n => s.slot_modSlot_eq m.1 k m.2 n (Slot.rejoined b)) (.inr fun _ _ => rfl) s k n

theorem State.rejoin_laces {s : State} {ms : List (CoreId × Fin 4)} {b : Bool} {f : LaceFly} (h : f ∈ (s.rejoin ms b).laces) :
    f ∈ s.laces ∧ (f.core, f.slot) ∉ ms := by
  induction ms generalizing s with
  | nil => exact ⟨h, List.not_mem_nil⟩
  | cons m ms ih =>
    obtain ⟨mem, out⟩ := ih (s := (s.modSlot m.1 m.2 (Slot.rejoined b)).dropWire m) h
    obtain ⟨mem, other⟩ := dropWire_laces mem
    exact ⟨mem, fun h => (List.mem_cons.1 h).elim other out⟩

/-! ### The end of a membership (R85) -/

/-- A follower of a lace that dissolves: SOLO where it runs on its own, and told 0 where it waits at a RELACE. -/
def Slot.dissolved (k : CoreId) (sl : Fin 4) (x : Slot) : Slot :=
  if x.lace.leadCore = k ∧ x.lace.leadSlot = sl ∧ x.lace.code = .detached then { x with lace := LaceSt.solo }
  else if x.lace.leadCore = k ∧ x.lace.leadSlot = sl ∧ x.lace.code = .rejoining then
    { x with lace := { x.lace with code := .solo, result := some 0 } }
  else x

/-- A slot that is dissolved stays as it is. -/
theorem Slot.dissolved_dissolved (k : CoreId) (sl : Fin 4) (x : Slot) : (x.dissolved k sl).dissolved k sl = x.dissolved k sl := by
  have done {y : Slot} (h : y.lace.code ≠ .detached) (h' : y.lace.code ≠ .rejoining) : y.dissolved k sl = y := by
    simp [dissolved, h, h']
  by_cases d : x.lace.leadCore = k ∧ x.lace.leadSlot = sl ∧ x.lace.code = .detached
  · rw [show x.dissolved k sl = { x with lace := LaceSt.solo } from if_pos d]
    exact done nofun nofun
  · by_cases r : x.lace.leadCore = k ∧ x.lace.leadSlot = sl ∧ x.lace.code = .rejoining
    · rw [show x.dissolved k sl = { x with lace := { x.lace with code := .solo, result := some 0 } } from (if_neg d).trans (if_pos r)]
      exact done nofun nofun
    · rw [show x.dissolved k sl = x from (if_neg d).trans (if_neg r)]
      exact (if_neg d).trans (if_neg r)

/-- The slots in which a lace's followers may be. -/
def laceSlots (k : CoreId) (w : Nat) : List (CoreId × Fin 4) :=
  (List.range w).flatMap fun i => if i = 0 then [] else (List.finRange 4).map fun n => (k + i, n)

theorem mem_laceSlots {k : CoreId} {w i : Nat} {n : Fin 4} : (k + i, n) ∈ laceSlots k w ↔ i ≠ 0 ∧ i < w := by
  simp only [laceSlots, List.mem_flatMap, List.mem_range]
  constructor
  · rintro ⟨i', lt, mem⟩
    split at mem
    · exact absurd mem List.not_mem_nil
    · next h =>
      obtain ⟨_, -, e⟩ := List.mem_map.1 mem
      have : i' = i := Nat.add_left_cancel (congrArg Prod.fst e)
      exact this ▸ ⟨h, lt⟩
  · rintro ⟨h, lt⟩
    exact ⟨i, lt, by rw [if_neg h]; exact List.mem_map.2 ⟨n, List.mem_finRange n, rfl⟩⟩

/-- A slot of a lace that dissolves. -/
def State.dissolve (k : CoreId) (sl : Fin 4) (s : State) (m : CoreId × Fin 4) : State :=
  let l := (s.slot m.1 m.2).lace
  if l.leadCore = k ∧ l.leadSlot = sl ∧ l.code = .detached then s.modSlot m.1 m.2 fun x => { x with lace := LaceSt.solo }
  else if l.leadCore = k ∧ l.leadSlot = sl ∧ l.code = .rejoining then
    s.modSlot m.1 m.2 fun x => { x with lace := { l with code := .solo, result := some 0 } }
  else s

theorem State.dissolve_slot (k : CoreId) (sl : Fin 4) (s : State) (m : CoreId × Fin 4) (j : CoreId) (n : Fin 4) :
    (s.dissolve k sl m).slot j n = if (j, n) = m then (s.slot j n).dissolved k sl else s.slot j n := by
  unfold dissolve
  by_cases here : (j, n) = m
  · subst here
    simp only [Slot.dissolved, if_true]
    split
    · rw [slot_modSlot]
    · split
      · rw [slot_modSlot]
      · rfl
  · rw [if_neg here]
    have other : ¬ (j = m.1 ∧ n = m.2) := fun h => here (Prod.ext h.1 h.2)
    dsimp only
    split
    · rw [slot_modSlot_ne _ _ _ _ _ _ other]
    · split
      · rw [slot_modSlot_ne _ _ _ _ _ _ other]
      · rfl

theorem State.dissolve_laces (k : CoreId) (sl : Fin 4) (s : State) (m : CoreId × Fin 4) : (s.dissolve k sl m).laces = s.laces := by
  unfold dissolve
  dsimp only
  split
  · rfl
  · split <;> rfl

/-- A slot that has left its lace, with no head on the wire to it. -/
def State.leftLace (s : State) (k : CoreId) (sl : Fin 4) : State :=
  (s.modSlot k sl fun x => { x with lace := x.lace.left, buf := [] }).dropWire (k, sl)

theorem State.endLace_eq (s : State) (k : CoreId) (sl : Fin 4) : s.endLace k sl =
    if (s.slot k sl).lace.code = .leader ∨ (s.slot k sl).lace.code = .leaderWait then
      (laceSlots k (s.slot k sl).lace.w.toNat).foldl (dissolve k sl) (s.leftLace k sl)
    else s.leftLace k sl := by
  rw [laceSlots, List.foldl_flatMap]
  have inner (s : State) (i : Nat) : (if i = 0 then [] else (List.finRange 4).map fun n => (k + i, n)).foldl (dissolve k sl) s =
      if i = 0 then s else (List.finRange 4).foldl (fun s n => s.dissolve k sl (k + i, n)) s := by
    split
    · rfl
    · exact List.foldl_map
  simp only [inner]
  rfl

section
variable (s : State) (k : CoreId) (sl : Fin 4)

theorem State.leftLace_slot (j : CoreId) (n : Fin 4) : (s.leftLace k sl).slot j n =
    if (j, n) = (k, sl) then { s.slot k sl with lace := (s.slot k sl).lace.left, buf := [] } else s.slot j n := by
  refine (s.slot_modSlot_eq k j sl n fun x => { x with lace := x.lace.left, buf := [] }).trans ?_
  split
  · next h =>
    obtain ⟨rfl, rfl⟩ := Prod.mk.inj h
    rfl
  · rfl

/-- Of a slot's own lace, what it has to be told remains, where it was in none. -/
theorem State.endLace_slot : (s.endLace k sl).slot k sl = { s.slot k sl with lace := (s.slot k sl).lace.left, buf := [] } := by
  have mine : (k, sl) ∉ laceSlots k (s.slot k sl).lace.w.toNat := fun h => (mem_laceSlots (i := 0).1 h).1 rfl
  rw [endLace_eq]
  split
  · rw [foldl_slot (dissolve_slot k sl) (.inr fun _ => Slot.dissolved_dissolved k sl), if_neg mine, leftLace_slot, if_pos rfl]
  · rw [leftLace_slot, if_pos rfl]

theorem State.endLace_laces {f : LaceFly} (h : f ∈ (s.endLace k sl).laces) : (f.core, f.slot) ≠ (k, sl) := by
  have same : (s.endLace k sl).laces = (s.leftLace k sl).laces := by
    rw [endLace_eq]
    split
    · exact foldl_keeps (p := State.laces) (dissolve_laces k sl) _ _
    · rfl
  rw [same] at h
  exact (dropWire_laces h).2

/-- The slots of the other columns: a leader's followers are dissolved. -/
theorem State.endLace_other {i : Nat} (hi : i ≠ 0) (n : Fin 4) : (s.endLace k sl).slot (k + i) n =
    if i < (s.slot k sl).lace.w.toNat ∧ ((s.slot k sl).lace.code = .leader ∨ (s.slot k sl).lace.code = .leaderWait) then
      (s.slot (k + i) n).dissolved k sl else s.slot (k + i) n := by
  have apart : ¬ (k + i, n) = (k, sl) := fun e => hi (Nat.add_left_cancel (congrArg Prod.fst e : k + i = k + 0))
  rw [endLace_eq]
  by_cases leads : (s.slot k sl).lace.code = .leader ∨ (s.slot k sl).lace.code = .leaderWait
  · rw [if_pos leads, foldl_slot (dissolve_slot k sl) (.inr fun _ => Slot.dissolved_dissolved k sl), leftLace_slot, if_neg apart]
    simp only [mem_laceSlots, hi, leads, ne_eq, not_false_eq_true, true_and, and_true]
  · rw [if_neg leads, leftLace_slot, if_neg apart, if_neg fun h => leads h.2]

end

theorem endLace_clause (s : State) (k : CoreId) (sl : Fin 4) :
    let old := (s.slot k sl).lace
    ((s.endLace k sl).slot k sl).lace =
      { LaceSt.solo with lost := old.lost && (old.code == .solo || old.code == .binding) } ∧
    ((s.endLace k sl).slot k sl).buf = [] ∧ (∀ f ∈ (s.endLace k sl).laces, (f.core, f.slot) ≠ (k, sl)) ∧
    ∀ (i : Nat) (n : Fin 4), i ≠ 0 →
      let l := (s.slot (k + i) n).lace
      let y := ((s.endLace k sl).slot (k + i) n).lace
      let led := i < (s.slot k sl).lace.w.toNat ∧ ((s.slot k sl).lace.code = .leader ∨ (s.slot k sl).lace.code = .leaderWait) ∧
        l.leadCore = k ∧ l.leadSlot = sl
      (led → l.code = .detached → y = LaceSt.solo) ∧
      (led → l.code = .rejoining → y = { l with code := .solo, result := some 0 }) ∧
      (¬ led ∨ l.code ≠ .detached ∧ l.code ≠ .rejoining → y = l) := by
  intro old
  refine ⟨by rw [s.endLace_slot k sl]; rfl, by rw [s.endLace_slot k sl], fun f => s.endLace_laces k sl, fun i n hi => ?_⟩
  intro l y led
  have hy : y = (if i < (s.slot k sl).lace.w.toNat ∧ ((s.slot k sl).lace.code = .leader ∨ (s.slot k sl).lace.code = .leaderWait) then
      (s.slot (k + i) n).dissolved k sl else s.slot (k + i) n).lace := congrArg Slot.lace (s.endLace_other k sl hi n)
  refine ⟨fun h detached => ?_, fun h rejoining => ?_, fun h => ?_⟩
  · obtain ⟨lt, leads, core, slot⟩ := h
    rw [hy, if_pos ⟨lt, leads⟩, Slot.dissolved, if_pos ⟨core, slot, detached⟩]
  · obtain ⟨lt, leads, core, slot⟩ := h
    have not : l.code ≠ .detached := by rw [rejoining]; nofun
    rw [hy, if_pos ⟨lt, leads⟩, Slot.dissolved, if_neg fun h => not h.2.2, if_pos ⟨core, slot, rejoining⟩]
  · rw [hy]
    split
    · next may =>
      have none_ (c : LaceCode) (hc : c = .detached ∨ c = .rejoining) : ¬ (l.leadCore = k ∧ l.leadSlot = sl ∧ l.code = c) := by
        rintro ⟨core, slot, code⟩
        rcases h with h | ⟨h, h'⟩
        · exact h ⟨may.1, may.2, core, slot⟩
        · rcases hc with rfl | rfl
          · exact h code
          · exact h' code
      rw [Slot.dissolved, if_neg (none_ _ (.inl rfl)), if_neg (none_ _ (.inr rfl))]
    · rfl

/-! ### Forwarded heads and timeouts (R81, R82, R84) -/

theorem laceForwardHead_clause (i : Nat) (f : LaceFly) (s : State) (here : s.laces[i]? = some f) (there : s.phaseOf f.core ≠ .out)
    (first : ∀ g ∈ s.laces.take i, (g.core, g.slot) ≠ (f.core, f.slot)) :
    ∃ t, exec (.laceForwardHead i) s = .next t ∧ t.laces = s.laces.eraseIdx i ∧ t.gmem = s.gmem ∧
      (∀ k n, (k, n) ≠ (f.core, f.slot) → t.slot k n = s.slot k n) ∧
      t.slot f.core f.slot = { s.slot f.core f.slot with
        buf := (s.slot f.core f.slot).buf ++ if (s.slot f.core f.slot).lace.follows then [f.head] else [] } := by
  have ready : ((s.laces.take i).any fun g => g.core == f.core && g.slot == f.slot) = false := by
    rw [List.any_eq_false]
    intro g hg
    simpa using first g hg
  let u : State := { s with laces := s.laces.eraseIdx i }
  have run : exec (.laceForwardHead i) s = .next (if (s.slot f.core f.slot).lace.follows then
      u.modSlot f.core f.slot fun x => { x with buf := x.buf ++ [f.head] } else u) := by
    rw [show exec (.laceForwardHead i) s = execLaceForwardHead i s from rfl]
    simp only [execLaceForwardHead, here, ready, Bool.false_or, beq_eq_false_iff_ne.2 there, Bool.false_eq_true, if_false]
    by_cases follows : (s.slot f.core f.slot).lace.follows = true
    · rw [if_pos follows]
      exact congrArg (event s) (if_pos follows)
    · rw [if_neg follows]
      exact congrArg (event s) (if_neg follows)
  refine ⟨_, run, ?_⟩
  by_cases follows : (s.slot f.core f.slot).lace.follows = true
  · rw [if_pos follows, if_pos follows]
    exact ⟨rfl, rfl, fun k n other => (u.slot_modSlot_eq _ _ _ _ _).trans (if_neg other), u.slot_modSlot _ _ _⟩
  · rw [if_neg follows, if_neg follows, List.append_nil]
    exact ⟨rfl, rfl, fun k n _ => rfl, rfl⟩

/-- A follower that leaves the lace lost. -/
def Slot.lostFollower (x : Slot) : Slot :=
  if x.lace.code = .rejoining then { x with lace := { LaceSt.solo with result := some 3 } }
  else { x with lace := { LaceSt.solo with lost := true } }

theorem Slot.lostFollower_lace (x : Slot) : x.lostFollower.lace =
    { LaceSt.solo with lost := x.lace.code != .rejoining, result := if x.lace.code = .rejoining then some 3 else none } := by
  unfold lostFollower
  split
  · next h =>
    rw [h]
    rfl
  · next h =>
    rw [bne_iff_ne.2 h]
    rfl

/-- Each stray of a leader is one slot. -/
theorem State.strays_nodup (s : State) (k : CoreId) (sl : Fin 4) : (s.strays k sl).Nodup := by
  refine List.nodup_flatMap.2 ⟨fun i _ => ?_, ?_⟩
  · split
    · exact List.nodup_nil
    · exact ((List.nodup_finRange 4).filter _).map fun a b h => congrArg Prod.snd h
  · refine List.nodup_range.imp fun {i j} hij => ?_
    rw [Function.onFun, List.disjoint_left]
    intro m hi hj
    split at hi
    · exact List.not_mem_nil hi
    split at hj
    · exact List.not_mem_nil hj
    obtain ⟨_, -, rfl⟩ := List.mem_map.1 hi
    obtain ⟨_, -, e⟩ := List.mem_map.1 hj
    exact hij (Nat.add_left_cancel (congrArg Prod.fst e)).symm

section
variable {k : CoreId} {n : Fin 4} {s : State} (there : s.phaseOf k ≠ .out) (none_ : (s.slot k n).lace.result = none)
include there none_

theorem laceTimeout_waiting (wait : (s.slot k n).st = .wait) :
    ((s.slot k n).lace.code = .binding → exec (.laceTimeout k n) s = .next (s.laceFails k n)) ∧
    ((s.slot k n).lace.code = .rejoining → exec (.laceTimeout k n) s =
      .next (s.modSlot k n fun x => { x with lace := { LaceSt.solo with result := some 3 } })) ∧
    ((s.slot k n).lace.code = .leaderWait → exec (.laceTimeout k n) s = .next (s.leaderTimeout k n)) := by
  rw [show exec (.laceTimeout k n) s = execLaceTimeout k n s from rfl]
  refine ⟨fun code => ?_, fun code => ?_, fun code => ?_⟩
  all_goals
    simp only [execLaceTimeout, none_, beq_eq_false_iff_ne.2 there, code, wait, Option.isSome_none, Bool.or_self,
      Bool.false_eq_true, if_false]
    rfl

theorem laceTimeout_presses (code : (s.slot k n).lace.code = .attached) (presses : s.backPressures k n = true) :
    exec (.laceTimeout k n) s = .next (((s.modSlot k n fun x =>
      { x with buf := [], lace := { x.lace with code := .detached, joined := false } }).dropWire (k, n)).count k 11 (some n)) := by
  rw [show exec (.laceTimeout k n) s = execLaceTimeout k n s from rfl]
  simp only [execLaceTimeout, none_, beq_eq_false_iff_ne.2 there, code, presses, Option.isSome_none, Bool.or_self,
    Bool.false_eq_true, if_false]
  rfl

end

theorem laceTimeout_clause (k : CoreId) (n : Fin 4) (s : State) (there : s.phaseOf k ≠ .out) (none_ : (s.slot k n).lace.result = none) :
    let i := Instr.laceTimeout k n
    let l := (s.slot k n).lace
    ((s.slot k n).st = .wait → l.code = .binding → ∃ t, exec i s = .next t ∧
      t.slot k n = { s.slot k n with lace := { LaceSt.solo with lost := l.lost, result := some 2 } }) ∧
    ((s.slot k n).st = .wait → l.code = .rejoining → ∃ t, exec i s = .next t ∧
      t.slot k n = { s.slot k n with lace := { LaceSt.solo with result := some 3 } }) ∧
    (l.code = .attached → s.backPressures k n = true → ∃ t, exec i s = .next t ∧
      t.slot k n = { s.slot k n with lace := { l with code := .detached, joined := false }, buf := [] } ∧
      ∀ f ∈ t.laces, (f.core, f.slot) ≠ (k, n)) ∧
    ((s.slot k n).st = .wait → l.code = .leaderWait → ∃ t, exec i s = .next t ∧
      ∀ m ∈ s.strays k n, m ≠ (k, n) → s.waitsAt (s.slot k n).pc m = false →
        (t.slot m.1 m.2).lace = { LaceSt.solo with
          lost := (s.slot m.1 m.2).lace.code != .rejoining
          result := if (s.slot m.1 m.2).lace.code = .rejoining then some 3 else none }) := by
  intro i l
  refine ⟨fun wait code => ⟨_, (laceTimeout_waiting there none_ wait).1 code, State.slot_modSlot _ _ _ _⟩,
    fun wait code => ⟨_, (laceTimeout_waiting there none_ wait).2.1 code, State.slot_modSlot _ _ _ _⟩,
    fun code presses => ⟨_, laceTimeout_presses there none_ code presses, ?_, fun f hf => (State.dropWire_laces hf).2⟩,
    fun wait code => ⟨_, (laceTimeout_waiting there none_ wait).2.2 code, fun m mem other away => ?_⟩⟩
  · rw [State.count, State.slot_modCoreRegs]
    exact s.slot_modSlot k n fun x => { x with buf := [], lace := { x.lace with code := .detached, joined := false } }
  · have gone : m ∈ (s.strays k n).filter fun m => !s.waitsAt (s.slot k n).pc m :=
      List.mem_filter.2 ⟨mem, by rw [away]; rfl⟩
    have lost := State.foldl_slot (f := State.loseFollower) (g := fun _ => Slot.lostFollower)
      (fun s m k n => s.slot_modSlot_eq m.1 k m.2 n Slot.lostFollower) (.inl ((s.strays_nodup k n).filter
        fun m => !s.waitsAt (s.slot k n).pc m)) s m.1 m.2
    rw [State.leaderTimeout, State.slot_modSlot_eq, if_neg other, lost, if_pos gone, Slot.lostFollower_lace]

/-! ### The leader's frames (R80) -/

/-- One frame of a leader copied where the follower lacks it and has an empty one. -/
def copyFrame (src d : CoreMem) (i : Fin 16) : CoreMem :=
  match src.frames[i].tag with
  | none => d
  | some t =>
    if d.frames.toList.any fun f => f.tag == some t then d
    else match (List.finRange 16).find? fun j => d.frames[j].tag.isNone with
      | none => d
      | some j => { d with frames := d.frames.set j src.frames[i] }

theorem copyFrames_eq (src dst : CoreMem) : copyFrames src dst = (List.finRange 16).foldl (copyFrame src) dst := rfl

/-- A line of the leader's that a follower has, or has no room for. -/
def CoreMem.Holds (d : CoreMem) (tag : BitVec 49) : Prop :=
  (∃ j : Fin 16, d.frames[j].tag = some tag) ∨ ∀ j : Fin 16, d.frames[j].tag ≠ none

/-- A frame is copied into an empty one, or stays where it need not or cannot be. -/
theorem copyFrame_cases (src d : CoreMem) (i : Fin 16) :
    (copyFrame src d i = d ∧ ∀ tag, src.frames[i].tag = some tag → d.Holds tag) ∨
    ∃ j : Fin 16, d.frames[j].tag = none ∧ copyFrame src d i = { d with frames := d.frames.set j src.frames[i] } := by
  unfold copyFrame
  split
  · next none_ => exact .inl ⟨rfl, fun tag h => by rw [none_] at h; cases h⟩
  · next t found =>
    split
    · next has =>
      refine .inl ⟨rfl, fun tag h => .inl ?_⟩
      obtain ⟨f, mem, tagged⟩ := List.any_eq_true.1 has
      obtain ⟨j, lt, rfl⟩ := Vector.mem_iff_getElem.1 (Vector.mem_toList_iff.1 mem)
      rw [h] at found
      cases found
      exact ⟨⟨j, lt⟩, by simpa using tagged⟩
    · split
      · next full =>
        refine .inl ⟨rfl, fun tag _ => .inr fun j h => ?_⟩
        have filled := List.find?_eq_none.1 full j (List.mem_finRange j)
        rw [h] at filled
        exact filled rfl
      · next j empty =>
        exact .inr ⟨j, by simpa using List.find?_some empty, rfl⟩

theorem copyFrames_clause (src dst : CoreMem) :
    let r := copyFrames src dst
    r = { dst with frames := r.frames } ∧
    (∀ j : Fin 16, r.frames[j] ≠ dst.frames[j] → dst.frames[j].tag = none ∧ ∃ i : Fin 16, r.frames[j] = src.frames[i]) ∧
    (∀ (i : Fin 16) (tag : BitVec 49), src.frames[i].tag = some tag → r.Holds tag) := by
  have step (l : List (Fin 16)) (d : CoreMem) :
      let r := l.foldl (copyFrame src) d
      r = { d with frames := r.frames } ∧
      (∀ j : Fin 16, r.frames[j] ≠ d.frames[j] → d.frames[j].tag = none ∧ ∃ i : Fin 16, r.frames[j] = src.frames[i]) ∧
      (∀ tag, d.Holds tag → r.Holds tag) ∧ ∀ i ∈ l, ∀ tag, src.frames[i].tag = some tag → r.Holds tag := by
    induction l generalizing d with
    | nil => exact ⟨rfl, fun j h => absurd rfl h, fun _ h => h, fun i h => absurd h List.not_mem_nil⟩
    | cons i l ih =>
      obtain ⟨rest, changed, holds, copied⟩ := ih (copyFrame src d i)
      rcases copyFrame_cases src d i with ⟨same, here⟩ | ⟨j, empty, put⟩
      · rw [same] at rest changed holds copied
        rw [List.foldl_cons, same]
        refine ⟨rest, changed, holds, fun i' mem tag h => ?_⟩
        rcases List.mem_cons.1 mem with rfl | mem
        · exact holds tag (here tag h)
        · exact copied i' mem tag h
      · have frame (j' : Fin 16) : (copyFrame src d i).frames[j'] = if j' = j then src.frames[i] else d.frames[j'] := by
          rw [put]
          exact getElem_set_fin _ j j' _
        have kept (tag : BitVec 49) (h : d.Holds tag) : (copyFrame src d i).Holds tag := by
          rcases h with ⟨j', h⟩ | full
          · have other : j' ≠ j := fun e => by rw [e, empty] at h; cases h
            exact .inl ⟨j', by rw [frame, if_neg other, h]⟩
          · exact absurd empty (full j)
        rw [List.foldl_cons]
        refine ⟨by rw [rest, put], fun j' moved => ?_, fun tag h => holds tag (kept tag h), fun i' mem tag h => ?_⟩
        · by_cases again : (List.foldl (copyFrame src) (copyFrame src d i) l).frames[j'] = (copyFrame src d i).frames[j']
          · rw [again, frame] at moved ⊢
            by_cases hj : j' = j
            · subst hj
              exact ⟨empty, i, if_pos rfl⟩
            · rw [if_neg hj] at moved
              exact absurd rfl moved
          · obtain ⟨none_, from_⟩ := changed j' again
            refine ⟨?_, from_⟩
            by_cases hj : j' = j
            · rw [hj, empty]
            · rwa [frame, if_neg hj] at none_
        · rcases List.mem_cons.1 mem with rfl | mem
          · exact holds tag (.inl ⟨j, by rw [frame, if_pos rfl, h]⟩)
          · exact copied i' mem tag h
  obtain ⟨rest, changed, -, copied⟩ := step (List.finRange 16) dst
  exact ⟨rest, changed, fun i => copied i (List.mem_finRange i)⟩

/-! ### Binding (R79) -/

/-- A slot that waits in LACE over columns `xl` to `xl + w - 1` of its kernel. -/
def State.bindingAt (s : State) (k : CoreId) (sl : Fin 4) (xl w e : Nat) : LaceSt :=
  { LaceSt.solo with lost := (s.slot k sl).lace.lost, code := .binding, xl := BitVec.ofNat 11 xl, w := BitVec.ofNat 7 w,
                     index := BitVec.ofNat 6 ((s.core k).kernelX k - xl), e := BitVec.ofNat 5 e }

/-- A slot whose LACE fails. -/
def Slot.unbound (x : Slot) : Slot := { x with lace := { LaceSt.solo with lost := x.lace.lost, result := some 2 } }

/-- A slot whose LACE has bound it to a leader, with result `r`. -/
def Slot.bound (e : BitVec 5) (lead : CoreId) (leadSl : Fin 4) (r : BitVec 2) (x : Slot) : Slot :=
  { x with lace := { x.lace with e := e, leadCore := lead, leadSlot := leadSl, waited := 0, result := some r } }

theorem State.laceFails_slot (s : State) (m : CoreId × Fin 4) (k : CoreId) (n : Fin 4) :
    (s.laceFails m.1 m.2).slot k n = if (k, n) = m then (s.slot k n).unbound else s.slot k n := by
  refine (s.slot_modSlot_eq m.1 k m.2 n _).trans ?_
  by_cases h : (k, n) = m
  · subst h
    rw [if_pos rfl, if_pos rfl]
    rfl
  · rw [if_neg h, if_neg h]

/-- One member of a lace bound. -/
def State.bindOne (lead : CoreId) (leadSl : Fin 4) (e : BitVec 5) (s : State) (m : CoreId × Fin 4) : State :=
  let s := (s.dropWire m).laceResult m.1 m.2 { (s.slot m.1 m.2).lace with
    e := e, leadCore := lead, leadSlot := leadSl, waited := 0, result := some (if m.1 = lead then 0 else 1) }
  if m.1 = lead then s else s.modMem m.1 fun c => copyFrames (s.core lead).mem c

theorem State.laceBind_eq (s : State) (lead : CoreId) (leadSl : Fin 4) (ms : List (CoreId × Fin 4)) :
    s.laceBind lead leadSl ms = ms.foldl (bindOne lead leadSl (s.slot lead leadSl).lace.e) s := rfl

theorem State.bindOne_slot (lead : CoreId) (leadSl : Fin 4) (e : BitVec 5) (s : State) (m : CoreId × Fin 4) (k : CoreId) (n : Fin 4) :
    (s.bindOne lead leadSl e m).slot k n =
      if (k, n) = m then (s.slot k n).bound e lead leadSl (if m.1 = lead then 0 else 1) else s.slot k n := by
  have laced : ((s.dropWire m).laceResult m.1 m.2 { (s.slot m.1 m.2).lace with
      e := e, leadCore := lead, leadSlot := leadSl, waited := 0, result := some (if m.1 = lead then 0 else 1) }).slot k n =
      if (k, n) = m then (s.slot k n).bound e lead leadSl (if m.1 = lead then 0 else 1) else s.slot k n := by
    refine ((s.dropWire m).slot_modSlot_eq m.1 k m.2 n _).trans ?_
    by_cases h : (k, n) = m
    · subst h
      rw [if_pos rfl, if_pos rfl]
      rfl
    · rw [if_neg h, if_neg h]
      rfl
  unfold bindOne
  dsimp only
  split
  · next lead_ =>
    rw [if_pos lead_] at laced
    exact laced
  · next follower =>
    rw [if_neg follower] at laced
    rw [slot_modMem]
    exact laced

section
variable (s : State) (k : CoreId) (sl : Fin 4) (xl w e : Nat)

/-- The slot waits in its LACE. -/
def State.laceWaits : State := s.laceResult k sl (s.bindingAt k sl xl w e)

/-- The slots that wait in a LACE over the same columns. -/
def State.laceMembers : List (CoreId × Fin 4) := (s.laceWaits k sl xl w e).binders k xl w ((s.core k).kernelX k)

/-- The members that wait name the same columns, and no core has two of them. -/
def State.laceAgrees : Prop := ∀ m ∈ s.laceMembers k sl xl w e,
  ((s.laceWaits k sl xl w e).slot m.1 m.2).lace.xl = (s.bindingAt k sl xl w e).xl ∧
  ((s.laceWaits k sl xl w e).slot m.1 m.2).lace.w = (s.bindingAt k sl xl w e).w ∧
  ((s.laceWaits k sl xl w e).core m.1).binder.length = 1

theorem State.laceWaits_slot (j : CoreId) (n : Fin 4) : (s.laceWaits k sl xl w e).slot j n =
    if (j, n) = (k, sl) then { s.slot k sl with lace := s.bindingAt k sl xl w e } else s.slot j n := by
  refine (s.slot_modSlot_eq k j sl n _).trans ?_
  split
  · next h =>
    obtain ⟨rfl, rfl⟩ := Prod.mk.inj h
    rfl
  · rfl

theorem State.laceJoin_disagrees (h : ¬ s.laceAgrees k sl xl w e) :
    s.laceJoin k sl xl w e = (s.laceMembers k sl xl w e).foldl (fun s m => s.laceFails m.1 m.2) (s.laceWaits k sl xl w e) := by
  refine if_pos ?_
  by_contra agree
  simp only [Bool.or_eq_true, Bool.not_eq_true', not_or, Bool.not_eq_false, List.all_eq_true, Bool.and_eq_true, beq_iff_eq] at agree
  exact h fun m mem => ⟨(agree.1 m mem).1, (agree.1 m mem).2, agree.2 m mem⟩

theorem State.laceJoin_few (h : s.laceAgrees k sl xl w e) (few : (s.laceMembers k sl xl w e).length < w) :
    s.laceJoin k sl xl w e = s.laceWaits k sl xl w e := by
  refine (if_neg ?_).trans (if_pos few)
  simp only [Bool.or_eq_true, Bool.not_eq_true', not_or, Bool.not_eq_false, List.all_eq_true, Bool.and_eq_true, beq_iff_eq]
  exact ⟨fun m mem => ⟨(h m mem).1, (h m mem).2.1⟩, fun m mem => (h m mem).2.2⟩

theorem State.laceJoin_binds (h : s.laceAgrees k sl xl w e) (all : w ≤ (s.laceMembers k sl xl w e).length)
    (lead : ∃ m ∈ s.laceMembers k sl xl w e, m.1 = k + xl - (s.core k).kernelX k) : ∃ leadSl, s.laceJoin k sl xl w e =
      (s.laceWaits k sl xl w e).laceBind (k + xl - (s.core k).kernelX k) leadSl (s.laceMembers k sl xl w e) := by
  obtain ⟨m, found⟩ : ∃ m, ((s.laceMembers k sl xl w e).find? fun m => m.1 == k + xl - (s.core k).kernelX k) = some m := by
    obtain ⟨m, mem, core⟩ := lead
    exact Option.isSome_iff_exists.1 (List.find?_isSome.2 ⟨m, mem, beq_iff_eq.2 core⟩)
  refine ⟨m.2, (if_neg ?_).trans ((if_neg (Nat.not_lt.2 all)).trans ?_)⟩
  · simp only [Bool.or_eq_true, Bool.not_eq_true', not_or, Bool.not_eq_false, List.all_eq_true, Bool.and_eq_true, beq_iff_eq]
    exact ⟨fun m mem => ⟨(h m mem).1, (h m mem).2.1⟩, fun m mem => (h m mem).2.2⟩
  · dsimp only
    split
    · next m' found' =>
      have same : m' = m := Option.some.inj (found'.symm.trans found)
      rw [same]
      rfl
    · next none_ => exact absurd (none_.symm.trans found) nofun

end

theorem laceJoin_clause (s : State) (k : CoreId) (sl : Fin 4) (xl w e : Nat) :
    let kx := (s.core k).kernelX k
    let me : LaceSt := { LaceSt.solo with lost := (s.slot k sl).lace.lost, code := .binding, xl := BitVec.ofNat 11 xl, w := BitVec.ofNat 7 w,
                                          index := BitVec.ofNat 6 (kx - xl), e := BitVec.ofNat 5 e }
    let t := s.laceResult k sl me
    let ms := t.binders k xl w kx
    let agree := ∀ m ∈ ms, (t.slot m.1 m.2).lace.xl = me.xl ∧ (t.slot m.1 m.2).lace.w = me.w ∧ (t.core m.1).binder.length = 1
    (¬ agree → ∀ m ∈ ms, ((s.laceJoin k sl xl w e).slot m.1 m.2).lace =
      { LaceSt.solo with lost := (s.slot m.1 m.2).lace.lost, result := some 2 }) ∧
    (agree → ms.length < w → s.laceJoin k sl xl w e = t) ∧
    (agree → w ≤ ms.length → (∃ m ∈ ms, m.1 = k + xl - kx) → ∀ m ∈ ms,
      ((s.laceJoin k sl xl w e).slot m.1 m.2).lace.result = some (if m.1 = k + xl - kx then 0 else 1)) := by
  intro kx me t ms agree
  refine ⟨fun h m mem => ?_, fun h few => ?_, fun h all lead m mem => ?_⟩
  · have lost : ((s.laceWaits k sl xl w e).slot m.1 m.2).lace.lost = (s.slot m.1 m.2).lace.lost := by
      rw [State.laceWaits_slot]
      split
      · next here =>
        obtain ⟨core, slot⟩ := Prod.mk.inj here
        rw [core, slot]
        rfl
      · rfl
    have failed := State.foldl_slot State.laceFails_slot (g := fun _ => Slot.unbound) (.inr fun _ _ => rfl)
      (s.laceWaits k sl xl w e) m.1 m.2 (ms := s.laceMembers k sl xl w e)
    rw [State.laceJoin_disagrees s k sl xl w e h, failed, if_pos (show (m.1, m.2) ∈ s.laceMembers k sl xl w e from mem),
      Slot.unbound, lost]
  · exact s.laceJoin_few k sl xl w e h few
  · obtain ⟨leadSl, binds⟩ := s.laceJoin_binds k sl xl w e h all lead
    rw [binds, State.laceBind_eq, State.foldl_slot (State.bindOne_slot _ _ _) (.inr fun _ _ => rfl),
      if_pos (show (m.1, m.2) ∈ s.laceMembers k sl xl w e from mem)]
    rfl

end Sys2Proof.Machine
end

section
/-! PROOFS. The heads LACE, UNLACE and RELACE, and the obligation on laces (O39). -/

namespace Sys2Proof.Machine

/-! ### The issuing slot -/

section
variable (s : State) (f : Form)

theorem State.took_lace : (s.took f).me.lace = s.me.lace := by rw [took_me]
theorem State.took_pc : (s.took f).me.pc = s.me.pc := by rw [took_me]

/-- Taking operands changes no slot's lace nor its head. -/
theorem State.took_slot (k : CoreId) (n : Fin 4) : ∃ r, (s.took f).slot k n = { s.slot k n with r := r } := by
  have eq := s.slot_modSlot_eq s.cur.core k s.cur.slot n fun x => { x with r := x.r.consume f.srcs }
  by_cases here : (k, n) = (s.cur.core, s.cur.slot)
  · exact ⟨_, eq.trans (if_pos here)⟩
  · exact ⟨_, eq.trans (if_neg here)⟩

theorem State.took_waitsAt (pc : Word) : (s.took f).waitsAt pc = s.waitsAt pc := by
  funext m
  obtain ⟨r, eq⟩ := s.took_slot f m.1 m.2
  rw [waitsAt, eq]
  rfl

theorem State.took_leaderAt (l : LaceSt) (pc : Word) : (s.took f).leaderAt l pc = s.leaderAt l pc := by
  obtain ⟨r, eq⟩ := s.took_slot f l.leadCore l.leadSlot
  rw [leaderAt, eq]
  rfl

end

theorem State.wr_lace {u : State} (hi : u.cur.inline = false) (d : GOp) (v : Word) : (u.wr d v).me.lace = u.me.lace := by
  have kept (g : Regs → Regs) : (u.modRegs u.cur.core u.cur.slot g).me.lace = u.me.lace :=
    (congrArg Slot.lace (slot_modSlot u u.cur.core u.cur.slot fun x => { x with r := g x.r }) :)
  cases d with
  | g n => simp only [wr, hi, Bool.false_eq_true, if_false, kept]
  | c n => simp only [wr, kept]

/-- A slot whose result is decided executes no forwarded head. -/
theorem Slot.stepTo_lace {x : Slot} (h : x.lace.result ≠ none) (lc : Vector LoopCtr 2) (pc : Word) (now : Nat) :
    (x.stepTo lc pc now).lace = x.lace := by
  rw [stepTo, popHead, if_neg fun both => h both.2]

theorem State.modMe_congr {u : State} {g h : Slot → Slot} (same : g u.me = h u.me) : u.modMe g = u.modMe h :=
  congrArg (fun x => u.setCore u.cur.core ((u.core u.cur.core).setSlot u.cur.slot x)) same

/-- A head that retires and changes its slot's lace. -/
theorem State.laceDone_eq (u : State) (d : GOp) (v : Word) (code : LaceCode) (joined : Bool) :
    (u.wr d v).laceDone code joined = (((u.wr d v).retireHead 26).modMe fun x =>
      { x with lace := { x.lace with code := code, result := none, waited := 0, lost := false, joined := joined } }).stepStop
        u.cur.core u.cur.slot := by
  rw [laceDone, wr_cur]

/-! ### UNLACE (R272) -/

theorem unlace_next {s : State} (issues : s.issues (mkForm Guard.always 26 [] [])) :
    exec .unlace s = .next (unlaceAct (s.took (mkForm Guard.always 26 [] []))) :=
  (issue_done (fun u => .stay (unlaceAct u)) issues).trans (congrArg _ (finish_stay _ issues.1))

theorem unlaceStatus_next {x : GD} {s : State} (issues : s.issues (mkForm x.q 26 [] [x.d]))
    (slim : (s.took (mkForm x.q 26 [] [x.d])).slimRefuses x.d s.me.lace.word = false) : exec (.unlaceStatus x) s =
      .next (unlaceAct ((s.took (mkForm x.q 26 [] [x.d])).wr x.d s.me.lace.word)) := by
  have hi : (s.took (mkForm x.q 26 [] [x.d])).cur.inline = false := issues.1
  rw [exec_issue (execUnlaceStatus x) rfl rfl, issue_done _ issues, State.took_lace, writeG_done _ hi slim, finish_stay _ issues.1]

/-! ### LACE (R271) -/

/-- What a form names lies within the limits of R79 and R271 on a core that is in no lace. -/
def Core.laceFits (c : Core) (k : CoreId) (xl w e : Nat) : Prop :=
  2 ≤ w ∧ w ≤ 64 ∧ xl + w ≤ c.kernelW k ∧ xl ≤ c.kernelX k ∧ c.kernelX k < xl + w ∧ 10 ≤ e ∧ e ≤ 30 ∧ c.laced = false

theorem Core.laceFits_iff (c : Core) (k : CoreId) (xl w e : Nat) :
    c.laceFits k xl w e ↔ (!laceLimits xl w e (c.kernelX k) (c.kernelW k) || c.laced) = false := by
  simp only [laceFits, laceLimits, Bool.or_eq_false_iff, Bool.not_eq_false', Bool.and_eq_true, decide_eq_true_eq, and_assoc]

section
variable (x : LaceF) {u : State}

theorem laceAct_fails (none_ : u.me.lace.result = none) (fresh : u.me.lace.code ≠ .binding)
    (off : ¬ (u.core u.cur.core).laceFits u.cur.core (x.imm.extractLsb' 0 11).toNat (x.imm.extractLsb' 11 7).toNat
      (x.imm.extractLsb' 18 5).toNat) : laceAct x u = writeG u x.d 2 := by
  rw [Core.laceFits_iff, Bool.not_eq_false] at off
  simp only [laceAct, none_, if_neg fresh, off, if_true]

theorem laceAct_joins (none_ : u.me.lace.result = none) (fresh : u.me.lace.code ≠ .binding)
    (fits : (u.core u.cur.core).laceFits u.cur.core (x.imm.extractLsb' 0 11).toNat (x.imm.extractLsb' 11 7).toNat
      (x.imm.extractLsb' 18 5).toNat) :
    let t := u.laceJoin u.cur.core u.cur.slot (x.imm.extractLsb' 0 11).toNat (x.imm.extractLsb' 11 7).toNat (x.imm.extractLsb' 18 5).toNat
    laceAct x u = if (t.slot u.cur.core u.cur.slot).lace.result = some 2 then
      writeG (t.modSlot u.cur.core u.cur.slot fun y => { y with lace := u.me.lace }) x.d 2 else .wait .lace fun _ => t := by
  rw [Core.laceFits_iff] at fits
  simp only [laceAct, none_, if_neg fresh, fits, Bool.false_eq_true, if_false]

theorem laceAct_binding (none_ : u.me.lace.result = none) (waits : u.me.lace.code = .binding) : laceAct x u = .wait .lace id := by
  simp only [laceAct, none_, if_pos waits]

theorem laceAct_result {r : BitVec 2} (decided : u.me.lace.result = some r) : laceAct x u =
    if r = 2 then writeG u x.d 2 fun t => .ok (t.modMe fun y => { y with lace := { y.lace with result := none } })
    else writeG u x.d (r.setWidth 64) fun t => .stay (t.laceDone (boundCode r)) := by
  simp only [laceAct, decided]

end

/-- What no result of a LACE, no wire and no frame changes, a LACE that joins leaves. -/
theorem State.laceJoin_keeps {α : Type} {p : State → α} (results : ∀ s k n l, p (State.laceResult s k n l) = p s)
    (wire : ∀ s m, p (State.dropWire s m) = p s) (mem : ∀ s k g, p (State.modMem s k g) = p s) (s : State) (k : CoreId) (sl : Fin 4)
    (xl w e : Nat) : p (s.laceJoin k sl xl w e) = p s := by
  have one (lead : CoreId) (leadSl : Fin 4) (e : BitVec 5) (s : State) (m : CoreId × Fin 4) : p (s.bindOne lead leadSl e m) = p s := by
    unfold bindOne
    dsimp only
    split
    · rw [results, wire]
    · rw [mem, results, wire]
  have fails (s : State) (m : CoreId × Fin 4) : p (s.laceFails m.1 m.2) = p s := results s m.1 m.2 _
  unfold laceJoin
  dsimp only
  split
  · rw [foldl_keeps fails, results]
  · split
    · rw [results]
    · split
      · rw [laceBind_eq, foldl_keeps (one _ _ _), results]
      · rw [results]

theorem State.laceJoin_cur (s : State) (k : CoreId) (sl : Fin 4) (xl w e : Nat) : (s.laceJoin k sl xl w e).cur = s.cur :=
  laceJoin_keeps (p := State.cur) (fun _ _ _ _ => rfl) (fun _ _ => rfl) (fun _ _ _ => rfl) s k sl xl w e

theorem State.laceJoin_t (s : State) (k : CoreId) (sl : Fin 4) (xl w e : Nat) (j : CoreId) (n : Fin 4) :
    ((s.laceJoin k sl xl w e).slot j n).t = (s.slot j n).t := by
  refine laceJoin_keeps (p := fun s => (s.slot j n).t) (fun s k' n' l => ?_) (fun _ _ => rfl) (fun s k' g => ?_) s k sl xl w e
  · rw [laceResult, slot_modSlot_eq]
    split <;> rfl
  · rw [slot_modMem]

section
variable (x : LaceF)

/-- A LACE whose result is decided: a member bound, or one whose LACE has failed. -/
theorem lace_decided (s : State) (r : BitVec 2) (issues : s.issues (mkForm x.q 26 [] [x.d]))
    (decided : (s.took (mkForm x.q 26 [] [x.d])).me.lace.result = some r) (bound : r = 0 ∨ r = 1)
    (slim : (s.took (mkForm x.q 26 [] [x.d])).slimRefuses x.d (r.setWidth 64) = false) : exec (.lace x) s = .next
      (((((s.took (mkForm x.q 26 [] [x.d])).wr x.d (r.setWidth 64)).retireHead 26).modMe fun y => { y with lace := { y.lace with
        code := if r = 0 then .leader else .attached, result := none, waited := 0, lost := false, joined := false } }).stepStop
          s.cur.core s.cur.slot) := by
  have hi : (s.took (mkForm x.q 26 [] [x.d])).cur.inline = false := issues.1
  have not2 : r ≠ 2 := by rcases bound with rfl | rfl <;> decide
  rw [exec_issue (execLace x) rfl rfl, issue_done _ issues, laceAct_result x decided, if_neg not2, writeG_done _ hi slim,
    finish_stay _ issues.1, State.laceDone_eq]
  rfl

/-- A LACE within its limits: it waits, or has failed at once with every member that waits. -/
theorem lace_joins (s : State) (issues : s.issues (mkForm x.q 26 [] [x.d]))
    (none_ : (s.took (mkForm x.q 26 [] [x.d])).me.lace.result = none)
    (fresh : (s.took (mkForm x.q 26 [] [x.d])).me.lace.code ≠ .binding)
    (fits : ((s.took (mkForm x.q 26 [] [x.d])).core s.cur.core).laceFits s.cur.core (x.imm.extractLsb' 0 11).toNat
      (x.imm.extractLsb' 11 7).toNat (x.imm.extractLsb' 18 5).toNat) :
    let u := s.took (mkForm x.q 26 [] [x.d])
    let t := u.laceJoin s.cur.core s.cur.slot (x.imm.extractLsb' 0 11).toNat (x.imm.extractLsb' 11 7).toNat (x.imm.extractLsb' 18 5).toNat
    (t.me.lace.result ≠ some 2 → exec (.lace x) s = .next (t.waitFor .lace)) ∧
    (t.me.lace.result = some 2 → u.slimRefuses x.d 2 = false →
      exec (.lace x) s = .next (((t.modMe fun y => { y with lace := s.me.lace }).wr x.d 2).retire 26)) := by
  intro u t
  have cur : t.cur = s.cur := State.laceJoin_cur _ _ _ _ _ _
  have me : t.me = t.slot s.cur.core s.cur.slot := by rw [State.me, cur]
  have run : exec (.lace x) s = .next (finish s 26 (if t.me.lace.result = some 2 then
      writeG (t.modMe fun y => { y with lace := s.me.lace }) x.d 2 else .wait .lace fun _ => t)) := by
    rw [exec_issue (execLace x) rfl rfl, issue_done _ issues, laceAct_joins x none_ fresh fits, State.took_lace, me, State.modMe, cur]
    rfl
  refine ⟨fun open_ => ?_, fun failed slim => ?_⟩
  · rw [run, if_neg open_, finish_wait _ _ _ issues.1]
  · have cur' : (t.modMe fun y => { y with lace := s.me.lace }).cur = u.cur := cur
    have slot : (t.modMe fun y => { y with lace := s.me.lace }).me.t = u.me.t := by
      rw [State.me_modMe, me]
      exact State.laceJoin_t _ _ _ _ _ _ _ _
    have slim' : (t.modMe fun y => { y with lace := s.me.lace }).slimRefuses x.d 2 = false :=
      (State.slimRefuses_congr cur' (congrArg _ slot) _ _).trans slim
    rw [run, if_pos failed, writeG_done _ (by rw [cur']; exact issues.1) slim', finish_ok _ issues.1]

end

/-! ### RELACE (R84, R273) -/

section
variable {d : GOp} {u : State}

theorem relaceAct_result {r : BitVec 2} (decided : u.me.lace.result = some r) : relaceAct d u =
    if u.me.lace.code = .attached then
      writeG u d (r.setWidth 64) fun t => .stay (t.laceDone .attached u.me.lace.joined)
    else writeG u d (r.setWidth 64) fun t => .ok (t.modMe fun y => { y with lace := LaceSt.solo }) := by
  simp only [relaceAct, decided]

variable (none_ : u.me.lace.result = none)
include none_

theorem relaceAct_solo (code : u.me.lace.code = .solo) : relaceAct d u =
    writeG u d (if u.me.lace.lost then 3 else 0) fun t => .ok (t.modMe fun y => { y with lace := LaceSt.solo }) := by
  simp only [relaceAct, none_, code]

theorem relaceAct_attached (code : u.me.lace.code = .attached) : relaceAct d u = writeG u d 1 := by
  simp only [relaceAct, none_, code]

theorem relaceAct_rejoining (code : u.me.lace.code = .rejoining) : relaceAct d u = .wait .relace id := by
  simp only [relaceAct, none_, code]

theorem relaceAct_detached (code : u.me.lace.code = .detached) : relaceAct d u = if u.leaderAt u.me.lace u.me.pc then
      writeG (u.dropWire (u.cur.core, u.cur.slot)) d 2 fun t => .stay (t.laceDone .attached true)
    else .wait .relace fun s => s.modMe fun y => { y with lace := { y.lace with code := .rejoining, waited := 0 } } := by
  simp only [relaceAct, none_, code]

theorem relaceAct_leader (code : u.me.lace.code = .leader ∨ u.me.lace.code = .leaderWait) : relaceAct d u = relaceLeader d u := by
  rcases code with code | code <;> simp only [relaceAct, none_, code]

end

section
variable {x : GD} {s : State} (issues : s.issues (mkForm x.q 26 [] [x.d]))
include issues

theorem relace_run : exec (.relace x) s = .next (finish s 26 (relaceAct x.d (s.took (mkForm x.q 26 [] [x.d])))) := by
  rw [exec_issue (execRelace x) rfl rfl, issue_done _ issues]
  rfl

/-- A follower that has re-attached retires its RELACE with its result. -/
theorem relace_rejoined {r : BitVec 2} (decided : s.me.lace.result = some r) (code : s.me.lace.code = .attached)
    (slim : (s.took (mkForm x.q 26 [] [x.d])).slimRefuses x.d (r.setWidth 64) = false) : exec (.relace x) s =
      .next ((((((s.took (mkForm x.q 26 [] [x.d])).wr x.d (r.setWidth 64)).retireHead 26).modMe fun y => { y with lace := { y.lace with
        code := .attached, result := none, waited := 0, lost := false } })).stepStop s.cur.core s.cur.slot) := by
  have hi : (s.took (mkForm x.q 26 [] [x.d])).cur.inline = false := issues.1
  generalize hu : s.took (mkForm x.q 26 [] [x.d]) = u at slim hi ⊢
  have lace : u.me.lace = s.me.lace := by rw [← hu, State.took_lace]
  have cur : u.cur = s.cur := by rw [← hu, State.took_cur]
  rw [relace_run issues, hu, relaceAct_result (lace ▸ decided), if_pos (by rw [lace, code]), writeG_done _ hi slim,
    finish_stay _ issues.1, State.laceDone_eq, cur]
  have kept : ((u.wr x.d (r.setWidth 64)).retireHead 26).me.lace = u.me.lace := by
    have me := (u.wr x.d (r.setWidth 64)).retireHead_me 26 none
    rw [State.me, State.retireHead_cur, me, Slot.stepTo_lace, State.wr_lace hi]
    rw [State.wr_lace hi, lace, decided]
    nofun
  have same := State.modMe_congr (u := (u.wr x.d (r.setWidth 64)).retireHead 26)
    (g := fun y => { y with lace := { y.lace with code := .attached, result := none, waited := 0, lost := false, joined := u.me.lace.joined } })
    (h := fun y => { y with lace := { y.lace with code := .attached, result := none, waited := 0, lost := false } }) (by rw [← kept])
  rw [same]

/-- A detached follower: it waits at its RELACE, or re-attaches at once to a leader that waits there. -/
theorem relace_detached (none_ : s.me.lace.result = none) (code : s.me.lace.code = .detached) :
    (s.leaderAt s.me.lace s.me.pc = false → exec (.relace x) s =
      .next ((s.modMe fun y => { y with lace := { y.lace with code := .rejoining, waited := 0 } }).waitFor .relace)) ∧
    (s.leaderAt s.me.lace s.me.pc = true →
      let u := (s.took (mkForm x.q 26 [] [x.d])).dropWire (s.cur.core, s.cur.slot)
      u.slimRefuses x.d 2 = false → exec (.relace x) s =
        .next ((((u.wr x.d 2).retireHead 26).modMe fun y => { y with lace := { y.lace with
          code := .attached, result := none, waited := 0, lost := false, joined := true } }).stepStop s.cur.core s.cur.slot)) := by
  have act : relaceAct x.d (s.took (mkForm x.q 26 [] [x.d])) = if s.leaderAt s.me.lace s.me.pc then
      writeG ((s.took (mkForm x.q 26 [] [x.d])).dropWire (s.cur.core, s.cur.slot)) x.d 2 fun t => .stay (t.laceDone .attached true)
    else .wait .relace fun s => s.modMe fun y => { y with lace := { y.lace with code := .rejoining, waited := 0 } } := by
    rw [relaceAct_detached (by rw [State.took_lace, none_]) (by rw [State.took_lace, code]), State.took_lace, State.took_pc,
      State.took_leaderAt]
    rfl
  refine ⟨fun away => ?_, fun at_ => ?_⟩
  · rw [relace_run issues, act, if_neg (by simp [away]), finish_wait _ _ _ issues.1]
  · intro u slim
    have hi : u.cur.inline = false := issues.1
    rw [relace_run issues, act, if_pos at_, writeG_done _ hi slim, finish_stay _ issues.1, State.laceDone_eq]
    rfl

/-- A leader at its RELACE: every stray waits there and re-attaches, or those that do re-attach and it waits for the others. -/
theorem relace_leader (none_ : s.me.lace.result = none) (code : s.me.lace.code = .leader ∨ s.me.lace.code = .leaderWait) :
    let u := s.took (mkForm x.q 26 [] [x.d])
    let ms := u.strays s.cur.core s.cur.slot
    let r : Word := if s.me.lace.lost then 3 else 1
    ((∀ m ∈ ms, u.waitsAt s.me.pc m = true) → u.slimRefuses x.d r = false →
      exec (.relace x) s = .next ((((((u.wr x.d r).retireHead 26).dropRelace s.cur.core s.cur.slot).rejoin ms false).modMe fun y =>
        { y with lace := { y.lace with code := .leader, lost := false, waited := 0 } }).stepStop s.cur.core s.cur.slot)) ∧
    ((∃ m ∈ ms, u.waitsAt s.me.pc m = false) →
      exec (.relace x) s = .next (((s.rejoin (ms.filter (u.waitsAt s.me.pc)) true).modMe fun y =>
        { y with lace := { y.lace with code := .leaderWait } }).waitFor .relace)) := by
  intro u ms r
  have hi : u.cur.inline = false := issues.1
  have lace : u.me.lace = s.me.lace := State.took_lace _ _
  have act : relaceAct x.d u = relaceLeader x.d u := relaceAct_leader (by rw [lace, none_]) (by rw [lace]; exact code)
  have run : exec (.relace x) s = .next (finish s 26 (relaceLeader x.d u)) := by rw [relace_run issues, act]
  have pc : u.me.pc = s.me.pc := State.took_pc _ _
  have leader : relaceLeader x.d u = if ms.all (u.waitsAt s.me.pc) then
      writeG u x.d r fun t => .stay ((((((t.retireHead 26).dropRelace s.cur.core s.cur.slot).rejoin ms false).modMe fun y =>
        { y with lace := { y.lace with code := .leader, lost := false, waited := 0 } })).stepStop s.cur.core s.cur.slot)
    else .wait .relace fun t => (t.rejoin (ms.filter (t.waitsAt t.me.pc)) true).modMe fun y =>
        { y with lace := { y.lace with code := .leaderWait } } := by
    simp only [relaceLeader, pc, lace]
    rfl
  rw [run, leader]
  refine ⟨fun all slim => ?_, fun some_ => ?_⟩
  · rw [if_pos (List.all_eq_true.2 all), writeG_done _ hi slim, finish_stay _ issues.1]
  · have not : ¬ ms.all (u.waitsAt s.me.pc) = true := fun all => by
      obtain ⟨m, mem, away⟩ := some_
      rw [List.all_eq_true.1 all m mem] at away
      cases away
    rw [if_neg not, finish_wait _ _ _ issues.1, State.took_waitsAt]

end

/-- Settles O39: each instruction by what its act does on its operands, and the functions on a lace by what they leave of each slot. -/
theorem laces : Obligations.Laces := by
  refine ⟨fun x => ⟨puts_of (exec_issue (execLace x) rfl rfl) ?_, puts_of (exec_issue (execLace x) rfl rfl) ?_,
      waits_of (exec_issue (execLace x) rfl rfl) ?_, fun s issues fresh fits => lace_joins x s issues fresh.1 fresh.2 fits,
      lace_decided x⟩,
    laceJoin_clause, copyFrames_clause, ⟨fun s issues => unlace_next issues, fun x s issues slim => unlaceStatus_next issues slim⟩,
    endLace_clause, fun x => ?_, fun s ms b => ⟨fun m mem => ?_, fun k n other => ?_⟩, laceForwardHead_clause, laceTimeout_clause⟩
  · rintro u - ⟨⟨none_, fresh⟩, off⟩
    exact laceAct_fails x none_ fresh off
  · rintro u - failed
    exact laceAct_result x failed
  · rintro u - ⟨none_, waits⟩
    exact laceAct_binding x none_ waits
  · refine ⟨puts_of (exec_issue (execRelace x) rfl rfl) ?_, puts_of (exec_issue (execRelace x) rfl rfl) ?_,
      fun r => puts_of (exec_issue (execRelace x) rfl rfl) ?_, fun s r issues decided code slim => relace_rejoined issues decided code slim,
      fun s issues none_ code => relace_detached issues none_ code, waits_of (exec_issue (execRelace x) rfl rfl) ?_,
      fun s issues none_ code => relace_leader issues none_ code⟩
    · rintro u - ⟨none_, code⟩
      exact relaceAct_solo none_ code
    · rintro u - ⟨none_, code⟩
      exact relaceAct_attached none_ code
    · rintro u - ⟨decided, code⟩
      exact (relaceAct_result decided).trans (if_neg code)
    · rintro u - ⟨none_, code⟩
      exact relaceAct_rejoining none_ code
  · rw [State.rejoin_slot, if_pos mem]
    exact ⟨rfl, rfl, fun f hf e => (State.rejoin_laces hf).2 (e ▸ mem)⟩
  · rw [State.rejoin_slot, if_neg other]

end Sys2Proof.Machine
end

section
/-! PROOFS. The windows of a generic address, and the reads of clock, meter, lace and identity (O9). -/

namespace Sys2Proof.Machine

/-! ### The three windows (R96, R183, R184) -/

theorem winBits_toNat (a : Word) : (winBits a).toNat = a.toNat / 2 ^ 60 := by
  have := a.isLt
  rw [winBits, BitVec.extractLsb'_toNat, Nat.shiftRight_eq_div_pow]
  omega

/-- The window bits are tested as a number. -/
theorem winBits_beq (a : Word) {w : BitVec 4} {n : Nat} (hw : w.toNat = n) :
    (winBits a == w) = decide (a.toNat / 2 ^ 60 = n) := by
  rw [Bool.eq_iff_iff, beq_iff_eq, decide_eq_true_eq, ← BitVec.toNat_inj, winBits_toNat, hw]

/-- A window whose addresses have `l` free low bits and zeros above them, up to the window bits. -/
theorem window_iff (a : Word) {w : BitVec 4} {n : Nat} (hw : w.toNat = n) (l m : Nat) :
    (winBits a == w && a.extractLsb' l m == 0#m) = true ↔ a.toNat / 2 ^ 60 = n ∧ a.toNat / 2 ^ l % 2 ^ m = 0 := by
  rw [winBits_beq a hw, Bool.and_eq_true, decide_eq_true_eq, beq_iff_eq, ← BitVec.toNat_inj, BitVec.extractLsb'_toNat,
    Nat.shiftRight_eq_div_pow, BitVec.toNat_ofNat, Nat.zero_mod]

theorem isGlobal_iff (a : Word) : isGlobal a = true ↔ a.toNat < 2 ^ 60 := by
  rw [isGlobal, winBits_beq a (n := 0) rfl, decide_eq_true_eq]
  omega

theorem isLocal_iff (a : Word) : isLocal a = true ↔ 0xE000000000000000 ≤ a.toNat ∧ a.toNat ≤ 0xE00000000000FFFF := by
  rw [isLocal, window_iff a (n := 0xE) rfl]
  omega

theorem isBerth_iff (a : Word) : isBerth a = true ↔ 0xD000000000000000 ≤ a.toNat ∧ a.toNat ≤ 0xD000000000000003 := by
  rw [isBerth, window_iff a (n := 0xD) rfl]
  omega

theorem offOf_eq {a : Word} (h : isLocal a = true) : offOf a = a.toNat - 0xE000000000000000 := by
  have := (isLocal_iff a).1 h
  rw [offOf, BitVec.extractLsb'_toNat, Nat.shiftRight_zero]
  omega

/-- A local or a berth address formed from an offset (R184). -/
theorem formed_toNat {base n : Nat} (a : Word) (fits : base + n < 2 ^ 64) :
    (if a ≤ BitVec.ofNat 64 n then BitVec.ofNat 64 base + a else BitVec.allOnes 64).toNat =
      if a.toNat ≤ n then base + a.toNat else 2 ^ 64 - 1 := by
  have le : a ≤ BitVec.ofNat 64 n ↔ a.toNat ≤ n := by
    rw [BitVec.le_def, BitVec.toNat_ofNat, Nat.mod_eq_of_lt (by omega)]
  by_cases h : a.toNat ≤ n
  · rw [if_pos (le.2 h), if_pos h, BitVec.toNat_add, BitVec.toNat_ofNat]
    omega
  · rw [if_neg (mt le.1 h), if_neg h, BitVec.toNat_allOnes]

theorem apcvtVal_toNat (k : ApKind) (a : Word) : (apcvtVal k a).toNat =
    match k with
    | .ofs => if 0xE000000000000000 ≤ a.toNat ∧ a.toNat ≤ 0xE00000000000FFFF then a.toNat - 0xE000000000000000 else 2 ^ 64 - 1
    | .loc => if a.toNat ≤ 0xFFFF then 0xE000000000000000 + a.toNat else 2 ^ 64 - 1
    | .brt => if a.toNat ≤ 3 then 0xD000000000000000 + a.toNat else 2 ^ 64 - 1 := by
  cases k with
  | ofs =>
    by_cases h : isLocal a = true
    · have := offOf_lt a
      rw [apcvtVal, if_pos h, BitVec.toNat_ofNat, Nat.mod_eq_of_lt (by omega), offOf_eq h]
      exact (if_pos ((isLocal_iff a).1 h)).symm
    · rw [apcvtVal, if_neg h, BitVec.toNat_allOnes]
      exact (if_neg (mt (isLocal_iff a).2 h)).symm
  | loc => exact formed_toNat a (by decide)
  | brt => exact formed_toNat a (by decide)

/-- What APTEST tests is one of the three windows (R183). -/
theorem windowOk_iff (w : Window) (a : Word) : windowOk w a = true ↔
    match w with
    | .glob => a.toNat < 2 ^ 60
    | .loc => 0xE000000000000000 ≤ a.toNat ∧ a.toNat ≤ 0xE00000000000FFFF
    | .berth => 0xD000000000000000 ≤ a.toNat ∧ a.toNat ≤ 0xD000000000000003 := by
  cases w with
  | glob => exact isGlobal_iff a
  | loc => exact isLocal_iff a
  | berth => exact isBerth_iff a

/-! ### The clock (R185) -/

theorem State.tick_wr (u : State) (f : Nat) (d : GOp) (v : Word) : (u.tick f).wr d v = (u.wr d v).tick f := by
  cases d with
  | c n => rfl
  | g n =>
    have inline : (u.tick f).cur.inline = u.cur.inline := rfl
    by_cases h : u.cur.inline = true
    · rw [State.wr, State.wr, if_pos h, if_pos (inline.trans h)]
      rfl
    · rw [State.wr, State.wr, if_neg h, if_neg (fun e => h (inline.symm.trans e))]
      rfl

theorem State.tick_time (u : State) (f : Nat) : ((u.tick f).field f).time =
    (u.field f).time + ((Config.ticks u.free).extractLsb' 0 32).setWidth 64 :=
  congrArg Field.time (u.field_modField f fun x => { x with
    time := x.time + ((Config.ticks u.free).extractLsb' 0 32).setWidth 64 })

/-- Reading the clock of the issuing core's field moves it on, whether the write comes before or after. -/
theorem writeG_tick (u : State) (d : GOp) (v : Word) (hi : u.cur.inline = false) :
    writeG (u.tick (fieldOf u.cur.core)) d v = writeG u d v fun t => .ok (t.tick (fieldOf t.cur.core)) := by
  have refuses : (u.tick (fieldOf u.cur.core)).slimRefuses d v = u.slimRefuses d v := rfl
  have inline : (u.tick (fieldOf u.cur.core)).cur.inline = false := hi
  by_cases h : u.slimRefuses d v = true
  · rw [writeG, if_pos (refuses.trans h), writeG, if_pos h]
  · have h := Bool.eq_false_iff.2 h
    rw [writeG_done _ inline (refuses.trans h), writeG_done (fun t => .ok (t.tick (fieldOf t.cur.core))) hi h, State.tick_wr,
      State.wr_cur]

/-! ### Identity and shape (R276) -/

theorem extract_two (v : Word) : (v.extractLsb' 0 2).toNat = v.toNat % 4 := low_toNat v 2

/-- TASKID's value for a selector, as R276 lays it out. -/
theorem taskidWord_rank (k : CoreId) (sl : Fin 4) (g : Word) (h : Held) : taskidWord k sl g h 3 =
    0#11 ++ packPos (coreAt h.x0 h.y0) ++ 0#9 ++ BitVec.ofNat 2 (g.toNat % 2 ^ 22 % h.s) ++
      BitVec.ofNat 10 (g.toNat % 2 ^ 22 / h.s / h.w) ++ BitVec.ofNat 11 (g.toNat % 2 ^ 22 / h.s % h.w) := by
  rw [← low_toNat g 22]
  rfl

/-- Settles O9: each instruction is one `issue` whose body is the value; the windows by `isGlobal_iff` and its like, the clock
by `writeG_tick`. -/
theorem addressTests : Obligations.AddressTests := by
  unfold Obligations.AddressTests
  refine ⟨⟨fun x => ⟨?_, ?_⟩, fun x => ⟨apcvtVal x.k, ?_, apcvtVal_toNat x.k⟩⟩, fun x => ⟨?_, ?_⟩, fun x => ⟨?_, ?_⟩,
    fun x => ⟨?_, ?_, ?_, ?_⟩⟩
  · refine does_of (exec_issue (execAptest x) rfl rfl) fun u _ h => ?_
    rw [(windowOk_iff x.w (u.rd x.a)).2 h]
    rfl
  · refine does_of (exec_issue (execAptest x) rfl rfl) fun u _ h => ?_
    rw [Bool.eq_false_iff.2 (mt (windowOk_iff x.w (u.rd x.a)).1 h)]
    rfl
  · exact puts_of (exec_issue (execApcvt x) rfl rfl) fun u _ _ => rfl
  · refine puts_of (exec_issue (execTime x) rfl rfl) fun u hi _ => ?_
    rw [← State.tick_time]
    exact writeG_tick u x.d _ hi
  · exact puts_of (exec_issue (execMeter x) rfl rfl) fun u _ _ => rfl
  · refine puts_of (exec_issue (execLaceq x) rfl rfl) fun u _ h => ?_
    rw [LaceSt.word, if_pos h]
    rfl
  · refine puts_of (exec_issue (execLaceq x) rfl rfl) fun u _ h => ?_
    rw [LaceSt.word, if_neg h]
    rfl
  all_goals
    refine puts_of (exec_issue (execTaskid x) rfl rfl) fun u _ h => ?_
    simp only [extract_two, h]
  · rfl
  · rfl
  · rfl
  · rw [taskidWord_rank]
    rfl

end Sys2Proof.Machine
end

section
/-! PROOFS. The instructions on shape records, streams, rings and counters (O34). -/

namespace Sys2Proof.Machine

/-! ### SHAPE and the checks of COPY (R107, R262, R263) -/

/-- What SHAPE does with a record of 32 bytes that it has read. -/
theorem execShape_body {x : ShapeF} {u : State}
    (good : LocalOk (u.rd x.a) 16 ∧ offOf (u.rd x.a) + 32 ≤ 65536 ∧ u.sound (u.rd x.a) 32) (k : State → Nat → Act) :
    (areaCheck (u.rd x.a) 32 fun o => readLocal u o 32 k) = k (u.corrects (u.rd x.a) 32) (u.sramAt (u.rd x.a) 32) := by
  obtain ⟨hl, hlen, hs⟩ := good
  rw [areaCheck_ok ⟨hl, hlen⟩, readLocal_sound hs]

theorem Shp.offCheck_ok {h : Shp} {b : Word} (ha : b.toNat % h.es = 0) (hin : isLocal h.base = true → h.inside b = true)
    (k : Act) : h.offCheck b k = k := by
  have inside : (isLocal h.base && !h.inside b) = false := by
    cases hl : isLocal h.base with
    | false => rfl
    | true => rw [hin hl]; rfl
  simp only [offCheck, ha, bne_self_eq_false, inside, Bool.false_eq_true, if_false]

/-- What is left of a copy's checks once its sizes and its offsets are in order. -/
theorem copyCheck_sized {src dst : Shp} {sb db : Word} {fb ring : Bool} (k : Act) (ht : ring = true ∨ src.total = dst.total)
    (hz : match convSizes src.conv with | some (_, d) => d = dst.esCode | none => src.esCode = dst.esCode)
    (hsa : sb.toNat % src.es = 0) (hda : db.toNat % dst.es = 0) (hsi : isLocal src.base = true → src.inside sb = true)
    (hdi : isLocal dst.base = true → dst.inside db = true) (hsw : validWindow sb = true) (hdw : validWindow db = true) :
    copyCheck src dst sb db fb ring k = if isGlobal sb && isGlobal db then .trap 0x0A db
      else if fb && !isLocal db then .trap 0x0A dst.base else k := by
  have total : (!ring && src.total != dst.total) = false := by
    rcases ht with rfl | ht
    · rfl
    · rw [ht, bne_self_eq_false, Bool.and_false]
  rw [copyCheck, Shp.offCheck_ok hsa hsi, Shp.offCheck_ok hda hdi]
  cases hc : convSizes src.conv with
  | none =>
    rw [hc] at hz
    simp only [total, show src.esCode = dst.esCode from hz, hsw, hdw, beq_self_eq_true, Bool.not_true, Bool.or_self,
      Bool.false_eq_true, if_false]
  | some p =>
    rw [hc] at hz
    simp only [total, show p.2 = dst.esCode from hz, hsw, hdw, beq_self_eq_true, Bool.not_true, Bool.or_self,
      Bool.false_eq_true, if_false]

/-! ### A command that issues (R136) -/

theorem State.Syncs.streams {u t : State} {y : Sync} (h : u.Syncs y t) (k : CoreId) :
    (t.core k).streams = (u.core k).streams := by
  rcases h with ⟨-, rfl⟩ | ⟨-, -, rfl⟩
  · rfl
  · by_cases hk : k = u.cur.core
    · rw [hk, State.taken, State.modMem, State.core_modCore]
    · rw [State.taken, State.modMem, State.core_modCore_ne _ _ _ _ hk]

theorem Core.freeStream_congr {c c' : Core} (h : c.streams = c'.streams) : c.freeStream = c'.freeStream := by
  rw [freeStream, freeStream, h]

theorem shape_clauses (x : ShapeF) :
    let f := mkForm x.q 26 [x.a] []
    let h := fun u : State => (BitVec.ofNat 256 (u.sramAt (u.rd x.a) 32) : Shp)
    let good := fun u : State => LocalOk (u.rd x.a) 16 ∧ offOf (u.rd x.a) + 32 ≤ 65536 ∧ u.sound (u.rd x.a) 32
    Does (.shape x) f (fun u => good u ∧ Shp.illegal (h u) = false ∧ Shp.misaligned (h u) = false)
      (fun u => (u.corrects (u.rd x.a) 32).modMem u.cur.core fun m => { m with shapes := m.shapes.set x.d (h u) }) ∧
    Traps (.shape x) f (fun u => good u ∧ Shp.illegal (h u) = true) 0x03 (fun u => u.cur.head.setWidth 64) ∧
    Traps (.shape x) f (fun u => good u ∧ Shp.illegal (h u) = false ∧ Shp.misaligned (h u) = true) 0x05 (fun u => Shp.base (h u)) := by
  intro f h good
  have run := fun s => exec_issue (i := .shape x) (execShape x) rfl rfl s
  refine ⟨does_of run fun u _ ⟨ok, legal, al⟩ => ?_, traps_of run fun u _ ⟨ok, bad⟩ => ?_,
    traps_of run fun u _ ⟨ok, legal, mis⟩ => ?_⟩
  · rw [execShape_body ok]
    simp only [show Shp.illegal (BitVec.ofNat 256 (u.sramAt (u.rd x.a) 32)) = false from legal,
      show Shp.misaligned (BitVec.ofNat 256 (u.sramAt (u.rd x.a) 32)) = false from al, Bool.false_eq_true, if_false]
    rfl
  · rw [execShape_body ok]
    exact if_pos bad
  · rw [execShape_body ok]
    exact (if_neg (Bool.eq_false_iff.1 legal)).trans (if_pos mis)

theorem copy_gated (x : CopyF) (s : State) :
    let f := mkForm x.q 26 (x.c :: x.d :: ctrOps (cmdCtr x.cmd)) []
    let u := s.took f
    let src := (u.core u.cur.core).mem.shapes[x.a]
    let dst := (u.core u.cur.core).mem.shapes[x.b]
    s.issues f → (∀ k, copyCheck src dst (addOff src.base (u.rd x.c)) (addOff dst.base (u.rd x.d)) x.fb false k = k) →
    u.counterOk (cmdCtr x.cmd) →
    s.SyncGated u (.copy x) (cmdSync x.cmd) .stream ((u.core u.cur.core).freeStream.isSome = true) := by
  intro f u src dst issues check ctr
  exact syncGated_of (exec_issue (execCopy x) rfl rfl) issues
    ((check _).trans ((counterWord_ok ctr _).trans (by rw [Bool.decide_eq_true])))

theorem copy_issues (x : CopyF) (s t : State) (n : Fin 8) :
    let f := mkForm x.q 26 (x.c :: x.d :: ctrOps (cmdCtr x.cmd)) []
    let u := s.took f
    let src := (u.core u.cur.core).mem.shapes[x.a]
    let dst := (u.core u.cur.core).mem.shapes[x.b]
    let sb := addOff src.base (u.rd x.c)
    let db := addOff dst.base (u.rd x.d)
    s.issues f → (∀ k, copyCheck src dst sb db x.fb false k = k) → u.counterOk (cmdCtr x.cmd) →
    u.Syncs (cmdSync x.cmd) t → (u.core u.cur.core).freeStream = some n →
    exec (.copy x) s = .next
      ((t.startStream n (withBase src sb) (withBase dst db) false x.fb (u.doneOf (cmdSync x.cmd) (cmdCtr x.cmd))).retire 26) := by
  intro f u src dst sb db issues check ctr syncs free
  have free' : (t.core t.cur.core).freeStream = some n := by
    rw [syncs.cur, Core.freeStream_congr (syncs.streams _), free]
  rw [exec_issue (i := .copy x) (execCopy x) rfl rfl, issue_done _ issues, ← finish_ok 26 issues.1]
  refine congrArg (fun a => Host.Outcome.next (finish s 26 a)) ?_
  refine (check _).trans ((counterWord_ok ctr _).trans ?_)
  rw [show (s.took f).cur.core = u.cur.core from rfl, show ((s.took f).core u.cur.core).freeStream = some n from free,
    Option.isSome_some, syncIssue_syncs syncs, free']
  rfl

theorem copyRing_issues (x : CopyRingF) (s t : State) (n : Fin 8) :
    let f := mkForm x.q 26 (ctrOps (cmdCtr x.cmd)) [x.d]
    let u := s.took f
    let src := (u.core u.cur.core).mem.shapes[x.a]
    let dst := (u.core u.cur.core).mem.shapes[x.b]
    s.issues f → (∀ k, copyCheck src dst src.base dst.base false true k = k) → dst.ringOk = true →
    u.counterOk (cmdCtr x.cmd) → u.Syncs (cmdSync x.cmd) t → (u.core u.cur.core).freeStream = some n →
    u.slimRefuses x.d (BitVec.ofNat 64 n.val) = false →
    exec (.copyRing x) s = .next (((t.wr x.d (BitVec.ofNat 64 n.val)).startStream n src dst true true
      (u.doneOf (cmdSync x.cmd) (cmdCtr x.cmd))).retire 26) := by
  intro f u src dst issues check ring ctr syncs free fits
  rw [exec_issue (i := .copyRing x) (execCopyRing x) rfl rfl, issue_done _ issues, ← finish_ok 26 issues.1]
  refine congrArg (fun a => Host.Outcome.next (finish s 26 a)) ?_
  dsimp only
  rw [show ((s.took f).core (s.took f).cur.core).freeStream = some n from free]
  refine (check _).trans ?_
  rw [show (((s.took f).core (s.took f).cur.core).mem.shapes[x.b]).ringOk = true from ring, counterWord_ok ctr, Option.getD_some,
    if_neg (Bool.eq_false_iff.1 fits), Option.isSome_some, syncIssue_syncs syncs]
  rfl

/-! ### SPACE (R20, R113, R264) -/

/-- `setFullRun` on a run that may pass the last granule. -/
theorem setFullRun_getLsbD_any (f : BitVec 4096) (g n : Nat) (b : Bool) {i : Nat} (hi : i < 4096) :
    (setFullRun f g n b).getLsbD i = if g ≤ i ∧ i < g + n then b else f.getLsbD i := by
  have run : g ≤ i ∧ i < g + n ↔ ¬i < g ∧ 4096 - n + (i - g) < 4096 := by omega
  cases b with
  | false =>
    simp only [setFullRun, Bool.false_eq_true, if_false, run, BitVec.getLsbD_and, BitVec.getLsbD_not, BitVec.getLsbD_shiftLeft,
      BitVec.getLsbD_ushiftRight, BitVec.getLsbD_allOnes, hi]
    by_cases h : i < g <;> by_cases h' : 4096 - n + (i - g) < 4096 <;> simp [h, h']
  | true =>
    simp only [setFullRun, if_true, run, BitVec.getLsbD_or, BitVec.getLsbD_shiftLeft, BitVec.getLsbD_ushiftRight,
      BitVec.getLsbD_allOnes, hi]
    by_cases h : i < g <;> by_cases h' : 4096 - n + (i - g) < 4096 <;> simp [h, h']

/-- Clearing a list of runs of `g` granules, each from its first. -/
theorem foldl_setFullRun_getLsbD (g : Nat) (l : List Nat) (f : BitVec 4096) {i : Nat} (hi : i < 4096) :
    (l.foldl (fun f a => setFullRun f a g false) f).getLsbD i =
      (f.getLsbD i && decide (∀ a ∈ l, ¬(a ≤ i ∧ i < a + g))) := by
  induction l generalizing f with
  | nil => simp
  | cons a l ih =>
    rw [List.foldl_cons, ih, setFullRun_getLsbD_any f a g false hi]
    by_cases h : a ≤ i ∧ i < a + g
    · simp [h]
    · simp only [List.forall_mem_cons, h, if_false, not_false_eq_true, true_and]

/-- Clearing them in the issuing core's memory changes nothing else of the state. -/
theorem State.foldl_setFull (g : Nat) (l : List Nat) (s : State) :
    let t := l.foldl (fun s a => s.setFull s.cur.core a g false) s
    t.cur = s.cur ∧ t.gmem = s.gmem ∧ ∀ j, t.core j = { s.core j with mem := { (s.core j).mem with
      full := if j = s.cur.core then l.foldl (fun f a => setFullRun f a g false) (s.core j).mem.full else (s.core j).mem.full } } := by
  induction l generalizing s with
  | nil => exact ⟨rfl, rfl, fun j => by simp⟩
  | cons a l ih =>
    obtain ⟨hcur, hgmem, hcore⟩ := ih (s.setFull s.cur.core a g false)
    refine ⟨hcur, hgmem, fun j => (hcore j).trans ?_⟩
    rw [show (s.setFull s.cur.core a g false).cur = s.cur from rfl]
    by_cases hj : j = s.cur.core
    · subst hj
      simp only [setFull_core, if_true, List.foldl_cons]
    · simp only [setFull, modMem, core_modCore_ne _ _ _ _ hj, if_neg hj]

/-- The stream of a ring after `m` of its tiles are freed, and with its credits where no berth feeds it (R113). -/
def Stream.freed (r : Stream) (m : Nat) : Stream :=
  { r with filled := r.filled - m, oldest := (r.oldest + m) % r.ringTiles,
           credit := if isBerth r.src.base then r.credit else r.credit + m }

/-- A core after SPACE of `m` tiles of the ring at its stream `n`. -/
def Core.spaced (c : Core) (k : CoreId) (n : Fin 8) (r : Stream) (m : Nat) : Core :=
  { c with streams := c.streams.set n (some (r.freed m)),
           inj := if isBerth r.src.base then c.inj ++ [c.berthMsg k c.berths[berthNo r.src.base] (.freeSpace k n r.at_ m) []]
                  else c.inj }

/-- First granules of the `m` oldest tiles of a ring. -/
def Stream.oldTiles (r : Stream) (m : Nat) : List Nat :=
  (List.range m).map fun i => offOf r.dst.base / 16 + (r.oldest + i) % r.ringTiles * (r.dst.tile * r.dst.es / 16)

theorem exec_space (x : SpaceF) (s : State) : exec (.space x) s = issue (mkForm x.q 26 (x.a :: r16Ops x.n) []) (fun u =>
    let n : Fin 8 := Fin.ofNat 8 (u.rd x.a).toNat
    let m := match x.n with | .imm v => v.toNat | .reg r => (u.rd r).toNat % 2 ^ 12
    match u.ringOf u.cur.core n with
    | none => .trap 0x09 (u.rd x.a)
    | some (k, r) => if r.filled < m then .trap 0x09 (u.rd x.a)
      else .ok (((r.oldTiles m).foldl (fun s a => s.setFull s.cur.core a (r.dst.tile * r.dst.es / 16) false) u).modCore k
        fun c => c.spaced k n r m)) s := by
  rw [exec_issue (i := .space x) (execSpace x) rfl rfl]
  refine congrArg (issue _ · s) (funext fun u => ?_)
  dsimp only
  cases u.ringOf u.cur.core (Fin.ofNat 8 (u.rd x.a).toNat) with
  | none => rfl
  | some e =>
    obtain ⟨k, r⟩ := e
    simp only [Stream.oldTiles, List.foldl_map, Core.spaced, Stream.freed]
    cases isBerth r.src.base <;> rfl

theorem space_clause (x : SpaceF) (s : State) (k : CoreId) (r : Stream) :
    let f := mkForm x.q 26 (x.a :: r16Ops x.n) []
    let u := s.took f
    let n : Fin 8 := Fin.ofNat 8 (u.rd x.a).toNat
    let m := match x.n with | .imm v => v.toNat | .reg g => (u.rd g).toNat % 2 ^ 12
    let g := r.dst.tile * r.dst.es / 16
    let b := offOf r.dst.base / 16
    s.issues f → u.ringOf s.cur.core n = some (k, r) →
      (m ≤ r.filled → ∃ t r', exec (.space x) s = .next (State.retire t 26) ∧ t.me = u.me ∧ t.gmem = s.gmem ∧
        (t.core k).streams[n] = some r' ∧ r'.filled = r.filled - m ∧ r'.oldest = (r.oldest + m) % r.ringTiles ∧
        (isBerth r.src.base = false → r'.credit = r.credit + m ∧ (t.core k).inj = (s.core k).inj) ∧
        (isBerth r.src.base = true → r'.credit = r.credit ∧ ∃ q, (t.core k).inj = (s.core k).inj ++ [q] ∧
          q.kind = .freeSpace k n r.at_ m) ∧
        (t.core s.cur.core).mem.sram = (s.core s.cur.core).mem.sram ∧
        (∀ i < 4096, (t.core s.cur.core).mem.full.getLsbD i = ((s.core s.cur.core).mem.full.getLsbD i &&
          decide (∀ j < m, ¬ (b + (r.oldest + j) % r.ringTiles * g ≤ i ∧ i < b + (r.oldest + j) % r.ringTiles * g + g))))) ∧
      (r.filled < m → exec (.space x) s = .next (s.takeTrap s.cur.core s.cur.slot 0x09 (u.rd x.a))) := by
  intro f u n m g b issues ring
  have ring' : u.ringOf u.cur.core n = some (k, r) := ring
  have run := (exec_space x s).trans (issue_done _ issues)
  refine ⟨fun room => ?_, fun few => ?_⟩
  · obtain ⟨hcur, hgmem, hcore⟩ := State.foldl_setFull g (r.oldTiles m) u
    generalize he : (r.oldTiles m).foldl (fun s a => s.setFull s.cur.core a g false) u = v at hcur hgmem hcore
    refine ⟨v.modCore k fun c => c.spaced k n r m, r.freed m, ?_, ?_, hgmem, ?_, rfl, rfl, ?_, ?_, ?_, ?_⟩
    · rw [run, ← finish_ok 26 issues.1, ← he]
      refine congrArg (fun a => Host.Outcome.next (finish s 26 a)) ?_
      dsimp only
      rw [ring']
      exact if_neg (Nat.not_lt.2 room)
    · have slots : ∀ j sl, (v.modCore k fun c => c.spaced k n r m).slot j sl = u.slot j sl := fun j sl =>
        (State.part_modCore (·.slot sl) v k j _ rfl).trans (congrArg (·.slot sl) (hcore j))
      rw [State.me, show (v.modCore k fun c => c.spaced k n r m).cur = u.cur from hcur, slots]
      rfl
    · rw [State.core_modCore]
      exact (getElem_set_fin _ n n _).trans (if_pos rfl)
    · intro notBerth
      refine ⟨if_neg (Bool.eq_false_iff.1 notBerth), ?_⟩
      rw [State.core_modCore, Core.spaced, hcore]
      exact (if_neg (Bool.eq_false_iff.1 notBerth)).trans (State.part_modCore (·.inj) s _ k _ rfl)
    · intro berth
      refine ⟨if_pos berth, (v.core k).berthMsg k (v.core k).berths[berthNo r.src.base] (.freeSpace k n r.at_ m) [], ?_, rfl⟩
      have inj : (v.core k).inj = (s.core k).inj := by
        rw [hcore]
        exact State.part_modCore (·.inj) s _ k _ rfl
      rw [State.core_modCore, ← inj]
      exact if_pos berth
    all_goals rw [show ((v.modCore k fun c => c.spaced k n r m).core s.cur.core).mem = (v.core s.cur.core).mem from
      State.part_modCore (·.mem) v k _ _ rfl, hcore, show (u.core s.cur.core).mem = (s.core s.cur.core).mem from
      State.mem_modMe s _ _]
    intro i hi
    rw [if_pos (show s.cur.core = u.cur.core from rfl)]
    refine (foldl_setFullRun_getLsbD g _ _ hi).trans (congrArg (and _) (decide_eq_decide.2 ?_))
    simp only [Stream.oldTiles, List.forall_mem_map, List.mem_range]
    rfl
  · rw [run, ← finish_trap 26 _ _ issues.1]
    refine congrArg (fun a => Host.Outcome.next (finish s 26 a)) ?_
    dsimp only
    rw [ring']
    exact if_pos few

/-! ### CNTWAIT (R117, R265) -/

theorem Act.using_id (a : Act) : a.using id = a := by cases a <;> rfl

/-- A translation is found (R249, R316): the access goes on with its DPA, and the port entry that gave it is the last used, also
where the head goes on to wait. -/
theorem State.Xlates.xlate {u t : State} {va : Word} {acc : BitVec 8} {whole : Bool} {d : Nat} (h : u.Xlates va acc whole t d)
    (k : State → Nat → Act) : ∃ g : State → State, t = g u ∧ xlate u va acc whole k = (k t d).using g ∧
      ∀ s : State, s.cur = u.cur → s.now = u.now → (s.core s.cur.core).ports = (u.core u.cur.core).ports → s.Used (g s) := by
  obtain ⟨fine, reach, ⟨high, rfl, rfl⟩ | ⟨low, e, port, may, rfl, rfl⟩⟩ := h
  · refine ⟨id, rfl, ?_, fun s _ _ _ => .inl rfl⟩
    have dpa : t.translateFor t.cur.core t.cur.slot va acc whole = .ok va.toNat :=
      (if_pos high).trans (if_pos reach)
    rw [Machine.xlate, Act.using_id]
    split
    · next f fault => exact absurd fault (fine f)
    · rw [if_pos high, dpa]
  · refine ⟨fun v => v.modCore u.cur.core fun c => c.touch e u.now, rfl, ?_, fun s hc hn hp => .inr ⟨e, ?_, ?_⟩⟩
    · rw [Machine.xlate]
      split
      · next f fault => exact absurd fault (fine f)
      · rw [if_neg (Nat.not_le.2 low)]
        simp only [port, may, reach, if_true]
    · rw [hp]
      exact List.mem_of_find?_eq_some port
    · rw [hc, hn]

theorem State.Xlates.keeps {u t : State} {va : Word} {acc : BitVec 8} {whole : Bool} {d : Nat} (h : u.Xlates va acc whole t d)
    (k : CoreId) : t.cur = u.cur ∧ t.gmem = u.gmem ∧ (t.core k).gaccs = (u.core k).gaccs := by
  obtain ⟨-, -, ⟨-, -, rfl⟩ | ⟨-, e, -, -, -, rfl⟩⟩ := h
  · exact ⟨rfl, rfl, rfl⟩
  · exact ⟨rfl, rfl, State.part_modCore (·.gaccs) u _ k _ rfl⟩

theorem cntwait_clause (x : G2) (s t : State) (d : Nat) :
    let f := mkForm x.q 7 [x.a, x.b] []
    let u := s.took f
    let a := u.rd x.a
    s.issues f →
      (s.me.reply = some (.value 0) → exec (.cntwait x) s = .next ((u.endCount s.cur.core s.cur.slot).retire 7)) ∧
      (s.me.reply ≠ some (.value 0) → a.toNat < 2 ^ 60 → a.toNat % 8 = 0 → u.Xlates a 4 false t d →
        (∀ g ∈ (u.core u.cur.core).gaccs, g.slot = s.cur.slot → g.performed = true ∨ g.kind = .counterAdd ∨
          (g.acq = false ∧ (d + 8 ≤ g.dpa ∨ g.dpa + g.size ≤ d))) →
        ((u.rd x.b).toNat ≤ s.gmem.readLE d 8 → exec (.cntwait x) s = .next ((t.endCount s.cur.core s.cur.slot).retire 7)) ∧
        (s.gmem.readLE d 8 < (u.rd x.b).toNat → ∃ v, s.Used v ∧
          let w := v.endCount s.cur.core s.cur.slot
          exec (.cntwait x) s = .next (State.waitFor
            { w with cntwaits := w.cntwaits ++ [⟨s.cur.core, s.cur.slot, d, (u.rd x.b).toNat⟩] } .counter))) := by
  intro f u a issues
  have run := (exec_issue (i := .cntwait x) (execCntwait x) rfl rfl s).trans (issue_done _ issues)
  have reply : u.me.reply = s.me.reply := by rw [State.took_me]
  constructor
  · intro reached
    rw [run, ← finish_ok 7 issues.1]
    exact congrArg (fun a => Host.Outcome.next (finish s 7 a)) (if_pos (reply.trans reached))
  · intro unreached glob al xl free
    obtain ⟨hcur, hgmem, hgaccs⟩ := xl.keeps u.cur.core
    have clear : ((t.core t.cur.core).gaccs.any fun g => g.slot == t.cur.slot && !g.performed && g.kind != .counterAdd &&
        (g.acq || (decide (g.dpa < d + 8) && decide (d < g.dpa + g.size)))) = false := by
      rw [hcur, hgaccs, List.any_eq_false]
      intro g hg
      by_cases here : g.slot = s.cur.slot
      · rcases free g hg here with h | h | ⟨h, past⟩
        · simp [h]
        · simp [h]
        · have : (decide (g.dpa < d + 8) && decide (d < g.dpa + g.size)) = false := by
            rw [Bool.and_eq_false_iff, decide_eq_false_iff_not, decide_eq_false_iff_not]
            omega
          simp [h, this]
      · simp [show u.cur.slot = s.cur.slot from rfl, here]
    obtain ⟨g, rfl, trans, used⟩ := xl.xlate fun t d =>
      if (t.core t.cur.core).gaccs.any fun g => g.slot == t.cur.slot && !g.performed && g.kind != .counterAdd &&
          (g.acq || (decide (g.dpa < d + 8) && decide (d < g.dpa + g.size))) then .wait .fence id
      else cntAct t d (u.rd x.b).toNat
    rw [clear, if_neg Bool.false_ne_true] at trans
    have body : exec (.cntwait x) s = .next (finish s 7 ((cntAct (g u) d (u.rd x.b).toNat).using g)) := by
      rw [run, ← trans]
      refine congrArg (fun a => Host.Outcome.next (finish s 7 a)) ((if_neg fun h => unreached (reply.symm.trans h)).trans ?_)
      rw [globalCheck, isGlobal_of_lt glob, (aligned_iff _ 8).2 al]
      rfl
    have mem : (g u).gmem.readLE d 8 = s.gmem.readLE d 8 := congrArg (Memory.readLE · d 8) hgmem
    rw [body, cntAct, mem, hcur]
    refine ⟨fun reached => ?_, fun short => ⟨g s, used s rfl rfl (State.part_modCore (·.ports) s _ _ _ rfl).symm, ?_⟩⟩
    · rw [if_pos reached]
      exact congrArg _ (finish_ok 7 issues.1)
    · rw [if_neg (Nat.not_le.2 short)]
      exact congrArg _ (finish_wait 7 _ _ issues.1)

/-- Settles O34: what each instruction checks, waits for and does, by the lemmas above. -/
theorem streamInstructions : Obligations.StreamInstructions := by
  unfold Obligations.StreamInstructions
  refine ⟨shape_clauses, fun src dst sb db fb ring k => ?_, fun src dst sb db k total conv sizes hsa hda hsi hdi hsw hdw => ?_,
    copy_gated, copy_issues, copyRing_issues, space_clause, cntwait_clause⟩
  · intro _ total sizes hsa hda hsi hdi hsw hdw apart own
    have oneGlobal : (isGlobal sb && isGlobal db) = false := Bool.eq_false_iff.2 (apart ∘ Bool.and_eq_true_iff.1)
    have ownBytes : (fb && !isLocal db) = false := by
      cases hfb : fb with
      | false => rfl
      | true => rw [own hfb]; rfl
    rw [copyCheck_sized k total sizes hsa hda hsi hdi hsw hdw, oneGlobal, ownBytes]
    rfl
  · have checks := fun fb => copyCheck_sized (fb := fb) (ring := false) k (.inr total) (by rw [conv]; exact sizes) hsa hda hsi hdi
      hsw hdw
    refine ⟨fun hs hd => ?_, fun hs hd => ?_⟩
    · rw [checks, hs, hd]
      rfl
    · rw [checks, hs, hd]
      rfl

end Sys2Proof.Machine
end

section
/-! PROOFS. A tile of a stream from SRAM to SRAM (O35; R108, R111). -/

namespace Sys2Proof.Machine

/-! ### Stores to places apart -/

/-- Memory after `len` stores of `n` bytes each. -/
def Memory.writeEach (m : Memory) (p v : Nat → Nat) (n len : Nat) : Memory :=
  (List.range len).foldl (fun m j => m.writeLE (p j) n (v j)) m

theorem Memory.writeEach_succ (m : Memory) (p v : Nat → Nat) (n len : Nat) : m.writeEach p v n (len + 1) =
    (m.writeEach p v n len).writeLE (p len) n (v len) := by
  rw [writeEach, List.range_succ, List.foldl_append]
  rfl

section
variable {m : Memory} (ok : m.wf = true) (p v : Nat → Nat) (n : Nat)
include ok

theorem Memory.writeEach_wf (len : Nat) : (m.writeEach p v n len).wf = true := by
  induction len with
  | zero => exact ok
  | succ len ih =>
    rw [writeEach_succ]
    exact writeLE_wf ih _ _ _

theorem Memory.get_writeEach_ne (len a : Nat) (out : ∀ j < len, a < p j ∨ p j + n ≤ a) :
    (m.writeEach p v n len).get a = m.get a := by
  induction len with
  | zero => rfl
  | succ len ih =>
    rw [writeEach_succ, get_writeLE_ne (writeEach_wf ok p v n len) _ _ _ _ (out len (by omega)),
      ih fun j hj => out j (by omega)]

/-- Stores to places apart each leave what they store. -/
theorem Memory.readLE_writeEach (len : Nat)
    (apart : ∀ i < len, ∀ j < len, i ≠ j → p i + n ≤ p j ∨ p j + n ≤ p i) :
    ∀ j < len, (m.writeEach p v n len).readLE (p j) n = v j % 256 ^ n := by
  induction len with
  | zero => exact fun j hj => absurd hj (by omega)
  | succ len ih =>
    intro j hj
    rw [writeEach_succ]
    by_cases last : j = len
    · rw [last, readLE_writeLE (writeEach_wf ok p v n len)]
    · have := apart j hj len (by omega) last
      rw [← ih (fun i hi j hj => apart i (by omega) j (by omega)) j (by omega)]
      exact readLE_congr fun x h h' => get_writeLE_ne (writeEach_wf ok p v n len) _ _ _ _ (by omega)

end

/-! ### A tile's elements -/

/-- Where element `j` of the tile that a stream is at lies in SRAM, by a local record of the stream. -/
def Stream.place (t : Stream) (h : Shp) (j : Nat) : Nat := ((offOf h.base : Int) + h.off (t.tile * t.dst.tile + j)).toNat

theorem notGlobal_of_local {a : Word} (h : isLocal a = true) : isGlobal a = false := by
  have : winBits a = 0xE := by
    simp only [isLocal, Bool.and_eq_true, beq_iff_eq] at h
    exact h.1
  simp [isGlobal, this]

/-- A stream from SRAM to SRAM that is no ring. -/
structure Stream.Inner (t : Stream) : Prop where
  ring : t.ring = false
  src : isLocal t.src.base = true
  dst : isLocal t.dst.base = true

section
variable {t : Stream} (inner : t.Inner)
include inner

theorem Stream.Inner.globalEnd : t.globalEnd = none := by
  rw [Stream.globalEnd, notGlobal_of_local inner.src, notGlobal_of_local inner.dst]
  rfl

theorem Stream.Inner.tileElems (h : Shp) : t.tileElems h = (List.range (t.tileLen t.tile)).map (t.tile * t.dst.tile + ·) := by
  simp only [Stream.tileElems, inner.ring, Bool.false_and, Bool.false_eq_true, if_false]

theorem Stream.Inner.places (h : Shp) : ((t.tileElems h).map fun n => ((offOf h.base : Int) + h.off n).toNat) =
    (List.range (t.tileLen t.tile)).map (t.place h) := by
  rw [inner.tileElems, List.map_map]
  rfl

theorem Stream.Inner.tileResolve (s : State) (k : CoreId) : s.tileResolve k t = ([], none) := by
  rw [State.tileResolve, inner.globalEnd]

theorem Stream.Inner.tileRead_bad {s : State} {k : CoreId} {w : Nat}
    (bad : ((List.range (t.tileLen t.tile)).map (t.place t.src)).findSome? (fun o => (s.core k).badWord o t.src.es) = some w) :
    s.tileRead k t [] false = .error (.data (localAddr w)) := by
  simp only [State.tileRead, inner.src, if_true, inner.places, bad]

theorem Stream.Inner.tileRead {s : State} {k : CoreId} (sound : (s.core k).regs.ue = []) : s.tileRead k t [] false =
    .ok ((List.range (t.tileLen t.tile)).map fun j => s.sramLE k (t.place t.src j) t.src.es, t) := by
  have none_bad : ((List.range (t.tileLen t.tile)).map (t.place t.src)).findSome? (fun o => (s.core k).badWord o t.src.es) = none := by
    rw [List.findSome?_eq_none_iff]
    intro o _
    rw [Core.badWord, sound]
    rfl
  simp only [State.tileRead, inner.src, if_true, inner.places, none_bad, List.map_map]
  rfl

theorem Stream.Inner.tileOrder (home : t.redirect = none) {s : State} {k : CoreId} (n : Fin 8) (h : s.unlogged k) :
    s.tileOrder k n t [] = .ok s := by
  have at_ : (t.home k).1 = k := by rw [Stream.home, home]; rfl
  simp only [State.tileOrder, inner.src, inner.dst, inner.ring, if_true, Bool.false_eq_true, if_false, List.cons_append,
    List.nil_append, State.orderAll, State.orderEngine_unlogged h, at_, State.orderAt_unlogged h]

/-- The bytes of a tile reach their places, and those alone. -/
theorem Stream.Inner.tileWrite (home : t.redirect = none) (s : State) (k : CoreId) (v : Nat → Nat) :
    let u := s.tileWrite k t ((List.range (t.tileLen t.tile)).map v) []
    (u.core k).mem.sram = (s.core k).mem.sram.writeEach (t.place t.dst) v t.dst.es (t.tileLen t.tile) ∧ u.gmem = s.gmem := by
  have at_ : (t.home k).1 = k := by rw [Stream.home, home]; rfl
  have put (u : State) (j : Nat) : ((u.sramPut k (t.place t.dst j) t.dst.es (v j)).core k).mem.sram =
      (u.core k).mem.sram.writeLE (t.place t.dst j) t.dst.es (v j) := by
    obtain ⟨r, eq⟩ := u.sramPut_core k (t.place t.dst j) t.dst.es (v j) none
    rw [eq]
  have fill (u : State) (g : Nat) : ((u.setFull k g 1 true).core k).mem.sram = (u.core k).mem.sram := by rw [State.setFull_core]
  have stores := List.foldl_hom (fun u : State => (u.core k).mem.sram)
    (g₁ := fun u j => u.sramPut k (t.place t.dst j) t.dst.es (v j)) (l := List.range (t.tileLen t.tile)) (init := s)
    (g₂ := fun m j => m.writeLE (t.place t.dst j) t.dst.es (v j)) (fun u j => (put u j).symm)
  simp only [State.tileWrite, inner.dst, if_true, at_, inner.places, List.zip_map', List.foldl_map]
  have apart (u : State) (j : Nat) : (u.sramPut k (t.place t.dst j) t.dst.es (v j)).gmem = u.gmem := rfl
  have apart' (u : State) (g : Nat) : (u.setFull k g 1 true).gmem = u.gmem := rfl
  cases t.fb with
  | false => exact ⟨stores.symm, State.foldl_keeps apart _ _⟩
  | true =>
    exact ⟨(State.foldl_keeps (p := fun u => (u.core k).mem.sram) fill _ _).trans stores.symm,
      (State.foldl_keeps apart' _ _).trans (State.foldl_keeps apart _ _)⟩

end

/-! ### Berths and the other streams -/

theorem Core.berthTake_zero (c : Core) (k : CoreId) (b : Fin 4) : c.berthTake k b 0 = ([], c) := rfl

theorem Core.berthTake_keeps (c : Core) (k : CoreId) (b : Fin 4) (n : Nat) :
    (c.berthTake k b n).2.streams = c.streams ∧ (c.berthTake k b n).2.mem = c.mem := by
  unfold berthTake
  dsimp only
  split <;> exact ⟨rfl, rfl⟩

/-- A stream that reads no berth, and the memory of its core, as the bytes of berths are handed on. -/
structure Core.Undisturbed (n : Fin 8) (t : Stream) (m : CoreMem) (c : Core) : Prop where
  stream : c.streams[n] = some t
  mem : c.mem = m

section
variable {n : Fin 8} {t : Stream} {m : CoreMem} {c : Core} (notBerth : isBerth t.src.base = false)
include notBerth

theorem Core.Undisturbed.pullStream (k : CoreId) (b : Fin 4) {j : Fin 8} {r : Stream} (h : c.Undisturbed n t m)
    (hr : c.streams[j] = some r) :
    let x := c.berthTake k b (min (r.wants b) c.berths[b].buf.length)
    Core.Undisturbed n t m { x.2 with streams := x.2.streams.set j (some { r with stage := r.stage ++ x.1 }) } := by
  obtain ⟨streams, mem⟩ := c.berthTake_keeps k b (min (r.wants b) c.berths[b].buf.length)
  refine ⟨?_, mem.trans h.mem⟩
  refine (getElem_set_fin _ j n _).trans ?_
  by_cases hj : n = j
  · subst hj
    obtain rfl : r = t := Option.some.inj (hr.symm.trans h.stream)
    have wants : r.wants b = 0 := by rw [Stream.wants, notBerth]; rfl
    rw [if_pos rfl, wants, Nat.zero_min, berthTake_zero, List.append_nil]
  · rw [if_neg hj, streams, h.stream]

theorem Core.Undisturbed.pullBerth (k : CoreId) (b : Fin 4) (h : c.Undisturbed n t m) : (c.pullBerth k b).Undisturbed n t m := by
  simp only [Core.pullBerth]
  split
  · exact h
  · generalize hd : List.foldl _ c (List.finRange 8) = d
    have streams : d.Undisturbed n t m := by
      rw [← hd]
      refine List.foldlRecOn _ _ h fun d hd j _ => ?_
      split
      · exact hd
      · next r hr => exact hd.pullStream notBerth k b hr
    split
    · exact streams
    · next r rs _ =>
      generalize hp : List.foldl _ (r, d) (List.finRange 3) = p
      have scans : p.2.Undisturbed n t m := by
        rw [← hp]
        refine List.foldlRecOn (motive := fun q : Scan × Core => q.2.Undisturbed n t m) _ _ streams fun q hq i _ => ?_
        obtain ⟨left, mem⟩ := q.2.berthTake_keeps k b (min (q.2.unit.scanWants q.1 i b) q.2.berths[b].buf.length)
        exact ⟨(congrArg (·[n]) left).trans hq.stream, mem.trans hq.mem⟩
      exact ⟨scans.stream, scans.mem⟩

theorem Core.Undisturbed.pullBerths (k : CoreId) (h : c.Undisturbed n t m) : (c.pullBerths k).Undisturbed n t m :=
  List.foldlRecOn _ _ h fun _ h b _ => h.pullBerth notBerth k b

end

/-! ### COPY_TILE_COMPLETE (R108, R111) -/

/-- The stream after a tile that it has moved. -/
def Stream.moved (t : Stream) (fl : BitVec 8) : Stream :=
  { t with tile := t.tile + 1, flags := t.flags ||| fl, addrs := [], asked := false, got := [], credit := 0, filled := 0,
           ended := decide (t.tiles ≤ t.tile + 1) }

/-- The state after a tile's source has been read: single-bit errors are corrected. -/
def State.tileChecked (s : State) (k : CoreId) (t : Stream) : State :=
  (t.tileElems t.src).foldl (fun s j => s.modCore k fun c =>
    c.correct ((offOf t.src.base : Int) + t.src.off j).toNat t.src.es (some t.slot)) s

theorem State.tileChecked_keeps (s : State) (k : CoreId) (t : Stream) :
    ((s.tileChecked k t).core k).mem = (s.core k).mem ∧ (s.tileChecked k t).gmem = s.gmem := by
  refine ⟨State.foldl_keeps (p := fun u => (u.core k).mem) (fun u j => ?_) _ _,
    State.foldl_keeps (p := State.gmem) (fun u j => ?_) _ _⟩
  · rw [State.core_modCore, (Core.correct_rechecked _ _ _ _).rest]
  · rfl

/-- A core whose stream `n` goes on as `t`, and to whose streams the bytes of berths are handed. -/
def Core.goesOn (c : Core) (k : CoreId) (n : Fin 8) (t : Stream) : Core :=
  Core.pullBerths { c with streams := c.streams.set n (some t) } k

/-- The state after a tile between places in SRAM whose converted elements are `vs`. -/
def State.tileMoved (s : State) (k : CoreId) (n : Fin 8) (t : Stream) (vs : List (Nat × BitVec 8)) : State :=
  (((s.tileChecked k t).tileWrite k t (vs.map (·.1)) []).charge k t.slot 22
    (t.src.coreUnits vs.length + t.dst.coreUnits vs.length)).modCore k fun c => c.goesOn k n (t.moved (orFlags vs))

section
variable {k : CoreId} {n : Fin 8} {t : Stream} {s : State} (inner : t.Inner)
  (listed : (s.core k).streams[n] = some t) (gate : s.tileGate k t = true)
include inner listed gate

/-- A tile that an uncorrectable word stops. -/
theorem copyTileComplete_bad {w : Nat}
    (bad : ((List.range (t.tileLen t.tile)).map (t.place t.src)).findSome? (fun o => (s.core k).badWord o t.src.es) = some w) :
    exec (.copyTileComplete k n false) s = .next (s.streamFault k n t 2 (localAddr w) 0 false) := by
  show execCopyTileComplete k n false s = _
  simp only [execCopyTileComplete, listed, gate, inner.tileResolve, inner.tileRead_bad bad]
  rfl

/-- A tile that is moved. -/
theorem copyTileComplete_moves (home : t.redirect = none) (unlogged : s.unlogged k) (sound : (s.core k).regs.ue = []) :
    exec (.copyTileComplete k n false) s = .next (s.tileMoved k n t ((List.range (t.tileLen t.tile)).map fun j =>
      convElem t.src.conv ((s.core k).mem.sram.readLE (t.place t.src j) t.src.es))) := by
  show execCopyTileComplete k n false s = _
  simp only [execCopyTileComplete, listed, gate, inner.tileResolve, inner.tileRead sound, inner.globalEnd, inner.src, inner.ring,
    inner.tileOrder home n unlogged, ordered, event, Bool.not_true, Bool.false_and, Bool.or_self, Bool.false_eq_true, if_false,
    if_true, show tileRemote [] = [] from rfl, List.isEmpty_nil, Option.getD_some, State.tileMoved, State.tileChecked, Core.goesOn,
    Stream.moved, List.map_map,
    List.length_map]
  rfl

end

/-- What a tile that is moved leaves (R108). -/
theorem State.tileMoved_left {t : Stream} (inner : t.Inner) (home : t.redirect = none) (notBerth : isBerth t.src.base = false)
    (s : State) (k : CoreId) (n : Fin 8) (v : Nat → Nat × BitVec 8) :
    let vs := (List.range (t.tileLen t.tile)).map v
    let s' := s.tileMoved k n t vs
    (s'.core k).streams[n] = some (t.moved (orFlags vs)) ∧ s'.gmem = s.gmem ∧
      (s'.core k).mem.sram = (s.core k).mem.sram.writeEach (t.place t.dst) (fun j => (v j).1) t.dst.es (t.tileLen t.tile) := by
  intro vs s'
  obtain ⟨kept, gmem⟩ := s.tileChecked_keeps k t
  obtain ⟨sram, gmem'⟩ := inner.tileWrite home (s.tileChecked k t) k fun j => (v j).1
  have written : vs.map (·.1) = (List.range (t.tileLen t.tile)).map fun j => (v j).1 := List.map_map
  rw [← written] at sram gmem'
  have handed (c : Core) : (c.goesOn k n (t.moved (orFlags vs))).Undisturbed n (t.moved (orFlags vs)) c.mem :=
    Core.Undisturbed.pullBerths (t := t.moved (orFlags vs)) notBerth k ⟨(getElem_set_fin _ n n _).trans (if_pos rfl), rfl⟩
  have core : s'.core k = Core.goesOn _ k n (t.moved (orFlags vs)) := State.core_modCore _ k _
  refine ⟨?_, gmem'.trans gmem, ?_⟩
  · rw [core]
    exact (handed _).stream
  · rw [core, (handed _).mem, ← kept, ← sram]
    exact congrArg CoreMem.sram (State.mem_modCoreRegs _ _ _ _)

/-! ### A stream fault (R111, R300) -/

theorem State.noteUE_keeps (s : State) (k : CoreId) (c : BitVec 8) (a : Word) :
    ∃ r, (s.noteUE k c a).core k = { s.core k with regs := r } ∧ r.strflt = (s.core k).regs.strflt := by
  unfold noteUE
  split
  · exact ⟨_, core_modCore _ _ _, rfl⟩
  · exact ⟨_, rfl, rfl⟩

theorem State.streamNotice_core (s : State) (k : CoreId) (sl : Fin 4) (h : CoreId × Fin 4) (g : Word) (n : BitVec 4)
    (st2 : Bool) (va : Word) : ∃ i, (s.streamNotice k sl h g n st2 va).core k = { s.core k with inj := i } :=
  ⟨_, core_modCore _ _ _⟩

/-- A core whose stream `n` has stopped, with the record of its fault (R111). -/
def Core.stopStream (c : Core) (n : Fin 8) (t : Stream) (va : Word) : Core :=
  { c with streams := c.streams.set n (some { t with faulted := true, addrs := [], asked := false, got := [] }),
           regs := { c.regs with strflt := c.regs.strflt.set n (1#1 ++ 2#3 ++ va.extractLsb' 0 60),
                                 sfdet := c.regs.sfdet.set n 0 } }

theorem State.streamFault_core {t : Stream} (home : t.redirect = none) (s : State) (k : CoreId) (n : Fin 8) (va : Word) :
    ∃ r i, (s.streamFault k n t 2 va 0 false).core k =
        { ((s.core k).stopStream n t va).setSF t.done.faultSem true with regs := r, inj := i } ∧
      r.strflt = ((s.core k).stopStream n t va).regs.strflt := by
  have at_ : t.home k = (k, t.slot) := by rw [Stream.home, home]; rfl
  have eq : s.streamFault k n t 2 va 0 false =
      (((s.modCore k fun c => c.stopStream n t va).modCore k fun c => c.setSF t.done.faultSem true).noteUE k 0x0F va).streamNotice
        k t.slot (k, t.slot) t.gtid (BitVec.ofNat 4 n.val) false va := by
    rw [streamFault, at_]
    rfl
  rw [eq]
  obtain ⟨i, notice⟩ := State.streamNotice_core (((s.modCore k fun c => c.stopStream n t va).modCore k fun c =>
    c.setSF t.done.faultSem true).noteUE k 0x0F va) k t.slot (k, t.slot) t.gtid (BitVec.ofNat 4 n.val) false va
  obtain ⟨r, noted, kept⟩ := State.noteUE_keeps ((s.modCore k fun c => c.stopStream n t va).modCore k fun c =>
    c.setSF t.done.faultSem true) k 0x0F va
  rw [core_modCore, core_modCore] at noted kept
  exact ⟨r, i, by rw [notice, noted], kept⟩

/-! ### The clause on tiles -/

theorem copyTileComplete_clause (k : CoreId) (n : Fin 8) (t : Stream) (s : State) :
    let at_ := fun (h : Shp) (j : Nat) => ((offOf h.base : Int) + h.off (t.tile * t.dst.tile + j)).toNat
    let len := t.tileLen t.tile
    (s.core k).streams[n] = some t → s.tileGate k t = true → t.ring = false → t.redirect = none →
    isLocal t.src.base = true → isLocal t.dst.base = true → isBerth t.src.base = false → isBerth t.dst.base = false →
    s.unlogged k →
      ((s.core k).regs.ue = [] → (s.core k).MemOk →
        (∀ i < len, ∀ j < len, i ≠ j → at_ t.dst i + t.dst.es ≤ at_ t.dst j ∨ at_ t.dst j + t.dst.es ≤ at_ t.dst i) →
        ∃ s' t', exec (.copyTileComplete k n false) s = .next s' ∧ (s'.core k).streams[n] = some t' ∧
          t'.tile = t.tile + 1 ∧ (t'.ended = true ↔ t.tiles ≤ t.tile + 1) ∧ t'.faulted = t.faulted ∧ s'.gmem = s.gmem ∧
          (∀ j < len, (s'.core k).mem.sram.readLE (at_ t.dst j) t.dst.es =
            (convElem t.src.conv ((s.core k).mem.sram.readLE (at_ t.src j) t.src.es)).1 % 256 ^ t.dst.es) ∧
          (∀ a, (∀ j < len, a < at_ t.dst j ∨ at_ t.dst j + t.dst.es ≤ a) →
            (s'.core k).mem.sram.get a = (s.core k).mem.sram.get a)) ∧
      (∀ w, ((List.range len).map (at_ t.src)).findSome? (fun o => (s.core k).badWord o t.src.es) = some w →
        ∃ s', exec (.copyTileComplete k n false) s = .next s' ∧ (s'.core k).streams[n] =
            some { t with faulted := true, addrs := [], asked := false, got := [] } ∧
          (s'.core k).regs.strflt[n] = 1#1 ++ 2#3 ++ (localAddr w).extractLsb' 0 60 ∧
          (s'.core k).mem.sf.getLsbD t.done.faultSem.toNat = true ∧ (s'.core k).mem.sram = (s.core k).mem.sram) := by
  intro at_ len listed gate ring home src dst notBerth _ unlogged
  have inner : t.Inner := ⟨ring, src, dst⟩
  constructor
  · intro sound ok apart
    obtain ⟨stream, gmem, sram⟩ := State.tileMoved_left inner home notBerth s k n fun j =>
      convElem t.src.conv ((s.core k).mem.sram.readLE (t.place t.src j) t.src.es)
    refine ⟨_, _, copyTileComplete_moves inner listed gate home unlogged sound, stream, rfl, decide_eq_true_iff, rfl, gmem, ?_, ?_⟩
    · rw [sram]
      exact Memory.readLE_writeEach ok _ _ _ _ apart
    · rw [sram]
      exact Memory.get_writeEach_ne ok _ _ _ _
  · intro w bad
    obtain ⟨r, i, core, fault⟩ := State.streamFault_core home s k n (localAddr w)
    refine ⟨_, copyTileComplete_bad inner listed gate bad, ?_, ?_, ?_, ?_⟩ <;> rw [core]
    · exact (getElem_set_fin _ n n _).trans (if_pos rfl)
    · rw [fault]
      exact (getElem_set_fin _ n n _).trans (if_pos rfl)
    · exact Core.setSF_set ((s.core k).stopStream n t (localAddr w)) t.done.faultSem
    · rfl

end Sys2Proof.Machine
end

section
/-! PROOFS. The completion, the credits, the restart and the end of a stream (O35; R113, R116, R300). -/

namespace Sys2Proof.Machine

/-! ### What the completion of a command leaves of the streams -/

/-- Of every core, the streams and the records of their faults stay. -/
structure State.KeepsStreams (s t : State) : Prop where
  streams : ∀ k, (t.core k).streams = (s.core k).streams
  strflt : ∀ k, (t.core k).regs.strflt = (s.core k).regs.strflt

theorem State.KeepsStreams.refl (s : State) : s.KeepsStreams s := ⟨fun _ => rfl, fun _ => rfl⟩

theorem State.KeepsStreams.trans {s t u : State} (h : s.KeepsStreams t) (h' : t.KeepsStreams u) : s.KeepsStreams u :=
  ⟨fun k => (h'.streams k).trans (h.streams k), fun k => (h'.strflt k).trans (h.strflt k)⟩

theorem State.KeepsStreams.modCore (s : State) (k : CoreId) {g : Core → Core} (hs : (g (s.core k)).streams = (s.core k).streams)
    (hf : (g (s.core k)).regs.strflt = (s.core k).regs.strflt) : s.KeepsStreams (s.modCore k g) :=
  ⟨fun j => part_modCore (·.streams) s k j g hs, fun j => part_modCore (·.regs.strflt) s k j g hf⟩

theorem State.KeepsStreams.modSlot (s : State) (k : CoreId) (sl : Fin 4) (g : Slot → Slot) : s.KeepsStreams (s.modSlot k sl g) :=
  .modCore s k rfl rfl

theorem Core.grants_regs (c : Core) (n : BitVec 8) : (c.grants n).regs = c.regs := by
  rw [grants_eq]
  exact List.foldlRecOn (motive := fun d : Core => d.regs = c.regs) _ _ rfl fun _ h _ _ => h

theorem Core.addSem_keeps {c d : Core} {n : BitVec 8} {i : Nat} (h : c.addSem n i = some d) :
    d.streams = c.streams ∧ d.regs = c.regs := by
  simp only [addSem] at h
  split at h
  · cases h
  · cases h
    exact ⟨(congrArg Core.streams (setSem_reached c n _).rest :), grants_regs _ n⟩

section
variable (s : State) (k : CoreId) (sl : Fin 4)

theorem State.noteUE_keepsStreams (c : BitVec 8) (a : Word) : s.KeepsStreams (s.noteUE k c a) := by
  unfold noteUE
  split
  · exact .modCore s k rfl rfl
  · exact .refl s

theorem State.notify_keepsStreams (g : Word) (ws : List Word) : s.KeepsStreams (s.notify k g ws) := by
  unfold notify
  exact .modCore s k rfl rfl

theorem State.defer_keepsStreams (c : BitVec 8) (a : Word) : s.KeepsStreams (s.defer k sl c a) := by
  refine (s.noteUE_keepsStreams k c a).trans ?_
  unfold defer
  dsimp only
  split
  · exact notify_keepsStreams _ k _ _
  · exact .modSlot (s.noteUE k c a) k sl _

theorem State.signal_keepsStreams (d : Done) : s.KeepsStreams (s.signal k sl d) := by
  unfold signal
  split
  · exact .refl s
  · split
    · next c hc =>
      obtain ⟨streams, regs⟩ := Core.addSem_keeps hc
      exact .modCore s k (g := fun _ => c) streams (congrArg CoreRegs.strflt regs)
    · exact (KeepsStreams.modCore s k (g := fun c => c.setSF d.ssem true) rfl rfl).trans (defer_keepsStreams _ k sl _ _)

theorem State.counterAdd_keepsStreams (n : Nat) (d : Done) : s.KeepsStreams (s.counterAdd k sl n d) := by
  unfold counterAdd
  split
  · exact .refl s
  · exact .modCore s k rfl rfl

theorem State.setFlags_keepsStreams (f : BitVec 8) : s.KeepsStreams (s.setFlags k sl f) := by
  unfold setFlags
  split
  · exact .refl s
  · exact .modSlot s k sl _

theorem State.settleHalt_keepsStreams : s.KeepsStreams (s.settleHalt k sl) := by
  unfold settleHalt
  split
  · obtain ⟨streams, strflt⟩ := (KeepsStreams.modSlot s k sl fun x => { x with st := .empty, watch := ⟨false, 0, none⟩ }).trans
      (.modCore _ k (g := fun c => { c with regs := { c.regs with migt := c.regs.migt.set sl (c.regs.migt[sl] &&& ~~~(1#64 <<< 63)) } })
        rfl rfl)
    exact ⟨streams, strflt⟩
  · exact .refl s

theorem State.freeLeft_keepsStreams : s.KeepsStreams (s.freeLeft k) := by
  unfold freeLeft
  dsimp only
  split
  · exact .modCore s k rfl rfl
  · exact .refl s

/-- A completion's counter add and event (R116, R178). -/
def State.told (n : Nat) (d : Done) : State := ((s.counterAdd k sl n d).setEv k sl).settleHalt k sl

theorem State.told_keepsStreams (n : Nat) (d : Done) : s.KeepsStreams (s.told k sl n d) :=
  (s.counterAdd_keepsStreams k sl n d).trans ((KeepsStreams.modSlot _ k sl _).trans (settleHalt_keepsStreams _ k sl))

theorem State.told_slot (n : Nat) (d : Done) :
    ((s.told k sl n d).slot k sl).ev = true ∧ ((s.told k sl n d).slot k sl).r = (s.slot k sl).r := by
  have added : ((s.counterAdd k sl n d).slot k sl).r = (s.slot k sl).r := by
    unfold counterAdd
    split
    · rfl
    · exact part_modCore (fun c => (c.slot sl).r) s k k _ rfl
  have set : ((s.counterAdd k sl n d).setEv k sl).slot k sl = { (s.counterAdd k sl n d).slot k sl with ev := true } :=
    slot_modSlot _ _ _ _
  obtain eq | ⟨g, f, eq, keep⟩ := ((s.counterAdd k sl n d).setEv k sl).settleHalt_core k sl
  · have slot : (s.told k sl n d).slot k sl = _ := (congrArg (Core.slot · sl) eq).trans set
    rw [slot]
    exact ⟨rfl, added⟩
  · have slot : (s.told k sl n d).slot k sl = g { (s.counterAdd k sl n d).slot k sl with ev := true } :=
      (congrArg (Core.slot · sl) eq).trans ((slot_modCoreRegs _ _ _ _ _).trans ((slot_modSlot _ _ _ _).trans (congrArg g set)))
    obtain ⟨regs, ev⟩ := keep { (s.counterAdd k sl n d).slot k sl with ev := true }
    rw [slot]
    exact ⟨ev, regs.trans added⟩

end

/-! ### COPY_COMPLETE (R116) -/

/-- What is left of a core when its stream `n` is free. -/
def Core.freeOf (c : Core) (n : Fin 8) : Core := { c with streams := c.streams.set n none }

theorem copyComplete_clause (k : CoreId) (n : Fin 8) (t : Stream) (s : State) (listed : (s.core k).streams[n] = some t)
    (ended : t.ended = true) (run : s.phaseOf k = .run) (home : t.redirect = none) (unlogged : s.unlogged k)
    (answered : s.framesOut k n = false) :
    ∃ s', exec (.copyComplete k n) s = .next s' ∧ (s'.core k).streams[n] = none ∧ (s'.slot k t.slot).ev = true ∧
      (s'.slot k t.slot).r.flags = (s.slot k t.slot).r.flags ||| t.flags := by
  have at_ : t.home k = (k, t.slot) := by rw [Stream.home, home]; rfl
  have order : (s.orderAll k [fun s => s.orderAt k 4 n.val n.val,
      fun s => if t.ring then .ok s else s.orderSignal k t.done (16 + n.val)]) = .ok s := by
    simp only [State.orderAll, State.orderAt_unlogged unlogged, State.orderSignal_unlogged unlogged, ite_self]
  have exec : exec (.copyComplete k n) s = .next (State.told
      (if t.ring then (s.modCore k (·.freeOf n)).setFlags k t.slot t.flags
       else ((s.modCore k (·.freeOf n)).setFlags k t.slot t.flags).signal k t.slot t.done) k t.slot n.val t.done) := by
    show execCopyComplete k n s = _
    simp only [execCopyComplete, listed, ended, run, answered, at_, order, home]
    cases t.ring <;> rfl
  have freed : ((s.modCore k (·.freeOf n)).core k).streams[n] = none := by
    rw [State.core_modCore]
    exact (getElem_set_fin _ n n _).trans (if_pos rfl)
  have flags := State.setFlags_flags (s.modCore k (·.freeOf n)) k t.slot t.flags
  have kept := (s.modCore k (·.freeOf n)).setFlags_keepsStreams k t.slot t.flags
  generalize (s.modCore k (·.freeOf n)).setFlags k t.slot t.flags = u at exec flags kept
  have signalled : u.KeepsStreams (if t.ring then u else u.signal k t.slot t.done) ∧
      ((if t.ring then u else u.signal k t.slot t.done).slot k t.slot).r = (u.slot k t.slot).r := by
    cases t.ring with
    | false => exact ⟨u.signal_keepsStreams k t.slot t.done, (u.signal_unitFrame k t.slot t.done).regs t.slot⟩
    | true => exact ⟨.refl u, rfl⟩
  obtain ⟨kept', regs⟩ := signalled
  obtain ⟨ev, regs'⟩ := State.told_slot (if t.ring then u else u.signal k t.slot t.done) k t.slot n.val t.done
  have all := kept.trans (kept'.trans (State.told_keepsStreams _ k t.slot n.val t.done))
  refine ⟨_, exec, ?_, ev, ?_⟩
  · rw [all.streams]
    exact freed
  · rw [regs', regs, flags]
    exact congrArg (·.r.flags ||| t.flags) (State.part_modCore (·.slot t.slot) s k k (·.freeOf n) rfl)

/-! ### FREE_SPACE_NOTICE (R113) -/

theorem freeSpaceNotice_clause (k ring : CoreId) (i issued m : Nat) (n : Fin 8) (t : Stream) (s : State)
    (listed : (s.core k).notices[i]? = some (ring, n, issued, m)) (run : s.phaseOf k = .run)
    (stream : (s.core ring).streams[n] = some t) :
    ∃ s', exec (.freeSpaceNotice k i) s = .next s' ∧ (s'.core k).notices = (s.core k).notices.eraseIdx i ∧
      (s'.core ring).streams[n] = some (if t.ring = true ∧ t.at_ = issued then { t with credit := t.credit + m } else t) ∧
      ∀ j l, s'.slot j l = s.slot j l := by
  refine ⟨(s.modCore k fun c => { c with notices := c.notices.eraseIdx i }).modCore ring fun c => c.ringCredit n issued m,
    ?_, ?_, ?_, fun j l => ?_⟩
  · show execFreeSpaceNotice k i s = _
    simp only [execFreeSpaceNotice, listed, run]
    rfl
  · refine (State.part_modCore (·.notices) _ ring k _ rfl).trans ?_
    rw [State.core_modCore]
  · have same : ((s.modCore k fun c => { c with notices := c.notices.eraseIdx i }).core ring).streams = (s.core ring).streams :=
      State.part_modCore (·.streams) s k ring _ rfl
    rw [State.core_modCore, Core.ringCredit, same, stream]
    exact (getElem_set_fin _ n n _).trans (if_pos rfl)
  · exact (State.part_modCore (·.slot l) _ ring j _ rfl).trans (State.part_modCore (·.slot l) s k j _ rfl)

/-! ### STRCTL (R300) -/

theorem Core.clearFault_hasFault (c : Core) (n : Fin 8) : (c.clearFault n).hasFault n = false := by
  have bit : (c.clearFault n).regs.strflt[n] = c.regs.strflt[n] &&& ~~~(1#64 <<< 63) :=
    (getElem_set_fin _ n n _).trans (if_pos rfl)
  rw [hasFault, bit, BitVec.getLsbD_and, BitVec.getLsbD_not]
  simp

theorem Core.hasFault_congr {c d : Core} (h : d.regs.strflt = c.regs.strflt) (n : Fin 8) : d.hasFault n = c.hasFault n := by
  rw [hasFault, h, hasFault]

/-- The effects of a stream's end after it is free (R300). -/
def State.streamEnded (s : State) (k : CoreId) (t : Stream) : State :=
  let h := t.home k
  let s := (((s.setFlags h.1 h.2 t.flags).signal h.1 h.2 t.done).setEv h.1 h.2).settleHalt h.1 h.2
  if t.redirect.isSome then s.freeLeft k else s

theorem State.streamEnded_keepsStreams (s : State) (k : CoreId) (t : Stream) : s.KeepsStreams (s.streamEnded k t) := by
  have settled (j : CoreId) (sl : Fin 4) :
      s.KeepsStreams ((((s.setFlags j sl t.flags).signal j sl t.done).setEv j sl).settleHalt j sl) :=
    (s.setFlags_keepsStreams j sl t.flags).trans ((signal_keepsStreams _ j sl t.done).trans
      ((KeepsStreams.modSlot _ j sl _).trans (settleHalt_keepsStreams _ j sl)))
  simp only [streamEnded]
  split
  · exact (settled _ _).trans (freeLeft_keepsStreams _ k)
  · exact settled _ _

/-- A counter add joins the accesses of its slot (R116). -/
theorem State.addCounter_adds (s : State) (k : CoreId) (sl : Fin 4) (n : Nat) (va : Word) (inc : BitVec 26) (sem : BitVec 8) :
    ∃ a, ((s.addCounter k sl n va inc sem).core k).gaccs = (s.core k).gaccs ++ [a] ∧ a.slot = sl ∧ a.kind = .counterAdd ∧
      a.va = va ∧ a.data = inc.setWidth 512 ∧ a.cmp = sem.setWidth 64 :=
  ⟨_, congrArg Core.gaccs (core_modCore _ _ _), rfl, rfl, rfl, rfl, rfl⟩

theorem State.addCounter_keepsStreams (s : State) (k : CoreId) (sl : Fin 4) (n : Nat) (va : Word) (inc : BitVec 26) (sem : BitVec 8) :
    s.KeepsStreams (s.addCounter k sl n va inc sem) := by
  unfold addCounter
  exact .modCore s k rfl rfl

section
variable {k : CoreId} {n : Fin 8} {s : State} (fault : (s.core k).hasFault n = true)
include fault

theorem streamRestart_goesOn (notAdd : (s.core k).faultIsAdd n = false) :
    ∃ s', exec (.streamRestart k n) s = .next s' ∧ (s'.core k).hasFault n = false ∧
      (s'.core k).streams[n] = (s.core k).streams[n].map fun t => { t with faulted := false } := by
  refine ⟨s.modCore k fun c =>
    { c.clearFault n with streams := c.streams.set n (c.streams[n].map fun t => { t with faulted := false }) }, ?_, ?_, ?_⟩
  · show execStreamRestart k n s = _
    simp only [execStreamRestart, State.restartStream, fault, notAdd]
    rfl
  · rw [State.core_modCore]
    exact (s.core k).clearFault_hasFault n
  · rw [State.core_modCore]
    exact (getElem_set_fin _ n n _).trans (if_pos rfl)

theorem streamRestart_adds {sl : Fin 4} {va g : Word} {inc : BitVec 26} {sem : BitVec 8}
    (add : (s.core k).faultIsAdd n = true) (held : (s.core k).heldAdd n = some (sl, va, inc, sem, g)) :
    let h := (s.findTask g).getD (k, sl)
    ∃ s' a, exec (.streamRestart k n) s = .next s' ∧ (s'.core k).hasFault n = false ∧
      (s'.core h.1).gaccs = (s.core h.1).gaccs ++ [a] ∧ a.slot = h.2 ∧
      a.kind = .counterAdd ∧ a.va = va ∧ a.data = inc.setWidth 512 ∧ a.cmp = sem.setWidth 64 := by
  intro h
  have exec : exec (.streamRestart k n) s = .next ((s.modCore k fun c =>
      { c.clearFault n with heldAdds := c.heldAdds.eraseP fun e => e.1 == n }).addCounter h.1 h.2 n.val va inc sem) := by
    show execStreamRestart k n s = _
    simp only [execStreamRestart, State.restartStream, fault, add, held]
    rfl
  have cleared : ((s.modCore k fun c =>
      { c.clearFault n with heldAdds := c.heldAdds.eraseP fun e => e.1 == n }).core k).hasFault n = false := by
    rw [State.core_modCore]
    exact (s.core k).clearFault_hasFault n
  have gaccs : ((s.modCore k fun c =>
      { c.clearFault n with heldAdds := c.heldAdds.eraseP fun e => e.1 == n }).core h.1).gaccs = (s.core h.1).gaccs :=
    State.part_modCore (·.gaccs) s k h.1 _ rfl
  generalize s.modCore k _ = u at exec cleared gaccs
  obtain ⟨a, added, rest⟩ := u.addCounter_adds h.1 h.2 n.val va inc sem
  refine ⟨_, a, exec, ?_, added.trans (by rw [gaccs]), rest⟩
  rw [Core.hasFault_congr ((u.addCounter_keepsStreams h.1 h.2 n.val va inc sem).strflt k)]
  exact cleared

theorem streamEnd_clears : ∃ s', exec (.streamEnd k n) s = .next s' ∧ (s'.core k).hasFault n = false ∧
    ((s.core k).faultIsAdd n = false → (s'.core k).streams[n] = none) := by
  cases add : (s.core k).faultIsAdd n with
  | true =>
    refine ⟨s.modCore k fun c => { c.clearFault n with heldAdds := c.heldAdds.eraseP fun e => e.1 == n }, ?_, ?_, nofun⟩
    · show execStreamEnd k n s = _
      simp only [execStreamEnd, State.endStream, fault, add]
      rfl
    · rw [State.core_modCore]
      exact (s.core k).clearFault_hasFault n
  | false =>
    cases listed : (s.core k).streams[n] with
    | none =>
      refine ⟨s.modCore k fun c => c.clearFault n, ?_, ?_, fun _ => ?_⟩
      · show execStreamEnd k n s = _
        simp only [execStreamEnd, State.endStream, fault, add, listed]
        rfl
      · rw [State.core_modCore]
        exact (s.core k).clearFault_hasFault n
      · rw [State.core_modCore]
        exact listed
    | some t =>
      have kept := (s.modCore k fun c => { c.clearFault n with streams := c.streams.set n none }).streamEnded_keepsStreams k t
      refine ⟨(s.modCore k fun c => { c.clearFault n with streams := c.streams.set n none }).streamEnded k t, ?_, ?_, fun _ => ?_⟩
      · show execStreamEnd k n s = _
        simp only [execStreamEnd, State.endStream, fault, add, listed]
        rfl
      · rw [Core.hasFault_congr (kept.strflt k), State.core_modCore]
        exact (s.core k).clearFault_hasFault n
      · rw [kept.streams, State.core_modCore]
        exact (getElem_set_fin _ n n _).trans (if_pos rfl)

end

/-- Settles O35: a tile by `State.tileMoved_left` and `State.streamFault_core`; completion and STRCTL by what each of their
effects leaves of the streams, `State.KeepsStreams`. -/
theorem streamEvents : Obligations.StreamEvents := by
  unfold Obligations.StreamEvents
  refine ⟨copyTileComplete_clause, copyComplete_clause, freeSpaceNotice_clause, fun k n s => ?_⟩
  intro c fault
  obtain ⟨s', exec, cleared, gone⟩ := streamEnd_clears fault
  exact ⟨streamRestart_goesOn fault, fun sl va inc sem g => streamRestart_adds fault,
    s', exec, cleared, fun notAdd _ => gone notAdd⟩

end Sys2Proof.Machine
end

section
/-! PROOFS. Two statements on global memory that fail as they stand. The timeout of MWAIT (O25): in replay the order log alone
decides every end of a watch but WRITE (R278), so the timeout ends none. A global access (O24): its quay's queue is counted over
the list of cores, and where that list is not in rising order of its keys the core of the access comes to stand in it twice. -/

namespace Sys2Proof.Machine

/-! ### A timeout in replay (R119, R278) -/

namespace WatchInReplay

/-- A slot in MWAIT, with its watch armed and a timeout asked for. -/
def waiting : Slot := { Slot.wiped with st := .wait, wait := .watch, asked := true, watch := ⟨true, 0, none⟩ }

/-- Partition 0 holds field 0 and replays its order log (OLOGCTL.MODE is 2, R389); slot 0 of core 0 is in MWAIT. -/
def state : State :=
  { State.reset with
    cores := [(0, Core.wiped.setSlot 0 waiting)]
    fields := [(0, { Field.reset with partdef := 0x8000000000000000 })]
    parts := [(0, { Partition.absent with valid := true, ctx := { PartCtx.reset with ologctl := 0x8000000000000000 } })] }

/-- The timeout leaves the watch as it is. -/
theorem ended_after : (match exec (.mwaitTimeout 0 0) state with
    | .next t => (t.slot 0 0).watch.ended
    | _ => some 1) = none := by decide +kernel

end WatchInReplay

open WatchInReplay in
/-- Refutes O25: a waiting MWAIT's timeout does not end its watch in a partition that replays its order log. -/
theorem not_fencesAndWatches : ¬ Obligations.FencesAndWatches := by
  unfold Obligations.FencesAndWatches
  intro ⟨_, _, _, timeout⟩
  obtain ⟨t, next, ended, -⟩ := timeout 0 0 state rfl rfl rfl rfl
  have after := ended_after
  rw [next] at after
  exact nomatch ended.symm.trans after

/-! ### A queue counted twice (R398) -/

namespace QueueCountedTwice

/-- A load of eight bytes of module memory that no quay has a place for yet. -/
def load : GAcc :=
  { GAcc.base State.reset .load 0 0 8 with dest := some (.g 3) }

/-- The core of that load, with 256 loads of its own in the queue of quay 0. -/
def core : Core := { Core.wiped with gaccs := load :: List.replicate 256 { load with queued := true } }

/-- Core 0 is listed after core 1. -/
def state : State := { State.reset with cores := [(1, Core.wiped), (0, core)] }

/-- The queue of 512 has room for the load. -/
theorem room : state.quayRoom (state.quayOf load.dpa) true = true := by decide +kernel

theorem home : homeOf load.dpa = some (.mem 0) := by decide

/-- The load is not performed, for core 0 is counted twice once it has been put in its place before core 1. -/
theorem performed_after : (match exec (.globalAccessPerform 0 0 false) state with
    | .next t => (t.core 0).gaccs[0]?.map GAcc.performed
    | _ => none) = some false := by decide +kernel

end QueueCountedTwice

open QueueCountedTwice in
/-- Refutes O24: a load for which its quay's queue has room is not performed where the list of cores is not in rising order. -/
theorem not_globalAccessesArePerformed : ¬ Obligations.GlobalAccessesArePerformed := by
  unfold Obligations.GlobalAccessesArePerformed
  intro ⟨performs, _, _⟩
  obtain ⟨t, next, -, -, loads, -, -⟩ := performs 0 0 load state rfl rfl rfl (by decide) (by decide) (fun _ _ _ h => nomatch home.symm.trans h)
    (.inr room) (fun _ h => nomatch h) rfl
  obtain ⟨-, b, listed, performed, -⟩ := loads rfl
  have after := performed_after
  rw [next] at after
  simp only [listed, Option.map_some, performed] at after
  exact nomatch after

end Sys2Proof.Machine
end

section
/-! PROOFS. The joining of two berths (O36): the word of an open is sent home by the first record of its launch in the list of
cores. Where that list is not in rising order of its keys, noting the word's sequence number moves the receiving core before the
core whose record was first, and the word is sent home by another record. -/

namespace Sys2Proof.Machine

namespace JoinOfUnsortedCores

/-- The record of launch 1 of VF 1 that core 1 holds: rank 1 is at core 1. -/
def wide : Held := ⟨0, 1, 1, 0, 0, 2, 1, 1⟩

/-- The record that core 0 holds of it: rank 1 is a row further down. -/
def tall : Held := ⟨0, 1, 1, 0, 0, 1, 2, 1⟩

/-- The OUT berth that rank 0 has opened on core 0, and the IN berth that rank 1 has opened on core 1. -/
def outSide : Berth := ⟨.opened, true, 1, 0, 0, 1, [], 0, 0⟩
def inSide : Berth := ⟨.opened, false, 0, 0, 1, 1, [], 0, 0⟩

/-- The word of the open on core 1, for berth 0 of rank 0. -/
def word : Msg :=
  { kind := .berthOpen 0 0, vf := 1, launch := 1, dst := 0, src := 1, from_ := 1, cls := 1, tag := 0, block := false, seq := 1,
    payload := [], sample := none }

/-- Core 0 is listed after core 1. -/
def state : State :=
  { State.reset with
    cores := [(1, { Core.wiped with held := some wide, berths := Core.wiped.berths.set 0 inSide }),
      (0, { Core.wiped with held := some tall, berths := Core.wiped.berths.set 0 outSide })]
    mesh := [⟨word, 0, word.wire⟩] }

theorem flight : state.berthFlight 0 = some (0, word) := by decide +kernel

/-- The OUT berth stays as it is. -/
theorem berth_after : (match exec (.berthJoin 0) state with
    | .next t => (t.core 0).berths[(0 : Fin 4)].st
    | _ => .joined) = .opened := by decide +kernel

end JoinOfUnsortedCores

open JoinOfUnsortedCores in
/-- Refutes O36: two berths that name each other are not joined where the list of cores is not in rising order. -/
theorem not_berthsAndTheirTraffic : ¬ Obligations.BerthsAndTheirTraffic := by
  unfold Obligations.BerthsAndTheirTraffic
  intro ⟨_, _, _, _, _, join⟩
  obtain ⟨t, next, -, joins, -⟩ := join 0 0 word 0 0 wide state flight rfl rfl (by decide +kernel)
  obtain ⟨joined, -⟩ := joins rfl rfl rfl rfl rfl rfl rfl rfl rfl rfl rfl
  have after := berth_after
  rw [next] at after
  simp only [joined] at after
  exact nomatch after

end Sys2Proof.Machine
end
